-- ==== Sys2Proof/Word.lean ====
section
/-! DEFINITION. The word and byte of the register window (00 Conventions: registers are 32 bits wide and
little-endian) and the sparse map in which sparse state is listed. -/
namespace Sys2Proof

/-- A 32-bit register word. -/
abbrev Word := BitVec 32

/-- One byte. -/
abbrev Byte := BitVec 8

/-- Sparse state by key: key and value pairs, kept with keys strictly rising. -/
abbrev SMap (β : Type) := List (Nat × β)

end Sys2Proof
end

