-- ==== Sys2Proof/Syntax.lean ====
section
/-! DEFINITION. The commands of the block, one constructor for each row of the table, and the operands they carry: what
the outside world puts on a wire (a packet, a flit, a pin) and what the device's surroundings decide (a timer's
expiry, a failed lane, a measured power). -/
namespace Sys2Proof

/-- A logical core, 0 to 4,095 (02 R63). -/
abbrev CoreId := Fin 4096
/-- A context of a core (03 R81). -/
abbrev CtxId := Fin 16
/-- A scalar or vector register number. -/
abbrev Reg4 := Fin 16
/-- A region: tower × 16 + half × 8 + region (02 R61). -/
abbrev RegionId := Fin 64
abbrev TowerId := Fin 4
/-- A half: tower × 2 + half. -/
abbrev HalfId := Fin 8
/-- A memory position: tower × 1,088 + half × 544 + row × 17 + column (02 R62). -/
abbrev PosId := Fin 4352
/-- A near-memory unit of a shaft (08 R245). -/
abbrev UnitId := Fin 8
/-- A Ray port. -/
abbrev PortId := Fin 18
/-- A reduction channel. -/
abbrev ChanId := Fin 64
/-- A parity group. -/
abbrev GrpId := Fin 4
abbrev RingId := Fin 65536
abbrev SlotId := Fin 65536
abbrev PlateId := Fin 256
/-- A power domain (16 R461). -/
abbrev DomainId := Fin 106

/-- A tray line whose parity failed as a bundle read it, and whether the retry failed too (03 R126). -/
structure TrayParity where
  line : Fin 2048
  fails : Bool
  deriving DecidableEq, Repr

/-- The fields of a vector-slot operation (03 R99). -/
structure VFields where
  mask : Fin 8
  vd : Reg4
  va : Reg4
  vb : Reg4
  vc : Reg4
  width : BitVec 2
  rnd : BitVec 2
  f16 : Bool
  deriving DecidableEq, Repr

/-- A memory error that a read meets: the granule or word by address, whether it is correctable, and the position of the
corrected bit or symbol (07 R231). -/
structure GErr where
  addr : Nat
  corr : Bool
  pos : BitVec 7
  deriving DecidableEq, Repr

/-- The link that a lagged flit lands from: a seam lane of a tower's row in a direction, or a bridge's direction
(06 R195). -/
inductive LagLane where
  | seam (t : TowerId) (row : Fin 32) (dir : Fin 2)
  | bridge (b : Fin 6) (dir : Fin 2)
  deriving DecidableEq, Repr

/-- What training or a re-tune sees on a lane of a shaft (02 R67 to R69): its number in the order of the 142 groups of 16,
its best trim, and whether its training pattern came through. A lane not named is at its best trim and clean. -/
structure LaneObs where
  lane : Fin 2272
  best : Fin 64
  ok : Bool
  deriving DecidableEq, Repr

/-- The same for a wire of a 32-wire group of one bridge direction; wire 32 is the group's spare (06 R202, R208). -/
structure WireObs where
  bridge : Fin 6
  dir : Fin 2
  group : Fin 67
  wire : Fin 33
  best : Fin 64
  ok : Bool
  deriving DecidableEq, Repr

/-- What the surroundings decide in the exposure that a tick closes: what re-tuning sees on lanes and wires, and the energy
measured in each power domain in µJ and at the module's input in nJ (16 R457, R458), sensors that fail their self-check
in its fix window (17 R473). -/
structure TickEnv where
  lanes : List (PosId × LaneObs)
  wires : List WireObs
  energy : List (DomainId × Nat)
  input : Nat
  sensors : List (TowerId × Fin 116)
  deriving DecidableEq, Repr

/-! ### Near-memory units -/

/-- The fields of a near-memory command (08 R251) and who issued it: context and bundle, the cycle, the slice and the
command's ordinal in it (08 R257). `errs` are the memory errors that its reads meet. -/
structure NmArgs where
  fmt : BitVec 4
  fmt2 : BitVec 4
  rnd : BitVec 2
  w1 : BitVec 5
  dst : Word
  srca : Word
  srcb : Word
  srcc : Word
  count : Word
  imm0 : Word
  imm1 : Word
  ctx : CtxId
  bundle : Fin 2048
  cyc : BitVec 12
  q : Fin 64
  errs : List GErr
  deriving DecidableEq, Repr

/-- The remote chunks (08 R267). -/
inductive RemKind where
  | write | racc | xacc
  deriving DecidableEq, Repr

/-- A granule that arrives from the fabric or a Ray port (08 R267). -/
structure RemoteGran where
  kind : RemKind
  addr : BitVec 27
  data : BitVec 256
  poison : Bool
  deriving DecidableEq, Repr

/-! ### The KV page ledger -/

/-- Where a request comes from (09 R282): the host's registers, or a ledger core's window with its index. -/
inductive KvSrc where
  | host
  | window (core : CoreId) (idx : Word)
  deriving DecidableEq, Repr

/-- A request's eight words (09 R283). -/
structure KvReq where
  src : KvSrc
  w0 : Word
  w1 : Word
  arg0 : BitVec 64
  arg1 : BitVec 64
  w6 : Word
  w7 : Word
  deriving DecidableEq, Repr

/-! ### Ray links -/

/-- A flit of a Ray port or of the Abaes link as it is on the wires: the 8-byte header and the 128-byte payload (11 R325; 15
R432). -/
structure RayWords where
  head : BitVec 64
  pay : BitVec 1024
  deriving DecidableEq, Repr

/-- The arrival of a management flit: the port and the words (11 R326). -/
structure MgmtRx where
  port : PortId
  words : RayWords
  deriving DecidableEq, Repr

/-- An array descriptor's fields (11 R344). -/
structure ArrDesc where
  dev : BitVec 16
  core : Nat
  addr : Nat
  granules : Nat
  op : Nat
  epoch : Word
  deriving DecidableEq, Repr

/-- A beacon (11 R339, R340): an adopted length announced, or a proposal on its way to the leader; the group frame it
names, the length in 10 ns units, the dark ratio and whether a forced test frame is asked for, which travel with it (16
R453, 18 R498), and the accumulated delay. -/
structure BeaconMsg where
  proposal : Bool
  frame : BitVec 64
  len : BitVec 16
  k : BitVec 4
  test : Bool
  delay : Word
  deriving DecidableEq, Repr

/-- What a training attempt ends with (11 R330, R347, R348): width 0 none, 1 one lane, 2 two, 3 four; the partner's
identity, port and role; the latency in 100 ps. -/
structure TrainRes where
  width : BitVec 2
  partner : BitVec 16
  pport : BitVec 5
  role : BitVec 4
  latency : BitVec 16
  deriving DecidableEq, Repr

/-! ### Reduction channels and parity groups -/

/-- ROSTER (12 R364, R371): the ranks in it, the ranks dropped, and whether the seals' words differ. -/
structure RosterMsg where
  seq : Word
  ranks : BitVec 64
  dropped : BitVec 64
  mismatch : Bool
  deriving DecidableEq, Repr

/-- PULL from a rank: sequence number, segment, tag (12 R366). -/
structure PullMsg where
  rank : Fin 64
  seq : Word
  seg : Word
  tag : BitVec 16
  deriving DecidableEq, Repr

/-- A segment in the format of 12 R367: its sender, tag, bucket or generation, segment, data, and which of its data flits
are poisoned. -/
structure SegMsg where
  rank : Fin 64
  tag : BitVec 16
  seq : Word
  seg : Word
  data : BitVec 32768
  poison : BitVec 32
  deriving DecidableEq, Repr

/-- The leader's verdicts (12 R374). -/
inductive RedVerdict where
  | pass | rereduce | fence
  deriving DecidableEq, Repr

/-- The waits that RED_TIMEOUT bounds, and an owner's report that a contributor is lost, as it reaches the leader (12 R364,
R371). -/
inductive RedWait where
  | seals (seq : Word)
  | pull (seq : Word) (rank : Fin 64)
  | check (seq : Word) (rank : Fin 64)
  | send (seq : Word) (rank : Fin 64)
  | report (x : MgmtRx) (seq : Word) (rank : Fin 64)
  deriving DecidableEq, Repr

/-- Whom a PULL concerns: a reduction channel, or a parity group in a rebuild (12 R366, 13 R385). -/
inductive PullFor where
  | chan (c : ChanId)
  | group (g : GrpId)
  deriving DecidableEq, Repr

/-! ### Power, heat, start-up, security -/

/-- What a training attempt of the Abaes link ends with: 0 no lane, 1 one, 2 two, 3 four, 4 eight (15 R429). -/
structure AbaTrain where
  width : Fin 5
  deriving DecidableEq, Repr

/-- A Vmin measurement of a domain in a 1 ms sample: depth below target and minimum in mV (16 R462). -/
structure VminRec where
  domain : DomainId
  depth : BitVec 8
  min : BitVec 12
  deriving DecidableEq, Repr

/-- A 1 ms telemetry sample (16 R463): module and feed power in mW, feed voltages in 0.25 V, average and peak currents of
the domains in 10 mA, and the domains' minimum readings. -/
structure TelemSample where
  power : Nat
  feedA : Nat
  feedB : Nat
  voltA : BitVec 8
  voltB : BitVec 8
  avg : List Nat
  peak : List Nat
  mins : List VminRec
  deriving DecidableEq, Repr

/-- What a gate ramp senses before a step (16 R466): the current of the segment's other regions in mA, and the largest
depth of a neighbour below its target in mV. -/
structure WakeSense where
  others : Nat
  depth : Nat
  deriving DecidableEq, Repr

/-- The fuses (18 R489; 02 R72, R79; 16 R449; 17 R484): whether every block is correctable; the grade; the silicon
revision; maximum stops below S8 by physical core; SKIP by half-row (tower × 64 + half × 32 + row); thermal
resistances by (tower × 4 + quadrant) × 8 + interface; the serial number. -/
structure Fuses where
  ok : Bool
  gradeB : Bool
  silicon : BitVec 8
  stops : List (PosId × Nat)
  skips : List (Fin 256 × Fin 17)
  coef : List (Fin 128 × Nat)
  serial : BitVec 128
  deriving DecidableEq, Repr

/-- A fault that a memory march finds: in the stack SRAM or the DRAM, correctable or not (18 R490). -/
structure MarchFault where
  pos : PosId
  sram : Bool
  corr : Bool
  deriving DecidableEq, Repr

/-- A memory position whose checkers give wrong outcomes in the start-up test strip, and how many of each (07 R237). -/
structure CheckFail where
  pos : PosId
  dram : Nat
  sram : Nat
  deriving DecidableEq, Repr

/-- What the start-up test strips find (18 R490): checker failures, march faults, failed cores by half-row and physical
column, failed routers, what delay training sees on lanes, failed phases, sensors that fail their self-check, towers whose
buffer die fails all its checks. -/
structure StripRes where
  checker : List CheckFail
  march : List MarchFault
  cores : List (Fin 256 × Fin 17)
  routers : List (HalfId × Fin 32 × Fin 16)
  lanes : List (PosId × LaneObs)
  phases : List (RegionId × Fin 7)
  sensors : List (TowerId × Fin 116)
  towers : List TowerId
  deriving DecidableEq, Repr

/-- The flash as manufactured or last written from outside: firmware image, factory page, user page (18 R493). -/
structure Flash where
  fw : List Byte
  factory : List Byte
  user : List Byte
  deriving DecidableEq, Repr

/-- What one unit of a requested test finds (18 R498): wrong outcomes of the DRAM and stack-SRAM checkers, what delay training
sees on lanes, failed phases, march faults. -/
structure UnitRes where
  dram : Nat
  sram : Nat
  lanes : List LaneObs
  phases : Nat
  march : List Bool
  deriving DecidableEq, Repr

/-- An SPDM request (20 R527, R528): its endpoint (SMBus, or the mailbox), its bytes, and the fields that a request of its
kind names: certificate offset and length, the measurement index, whether a signature is asked for. -/
structure SpdmMsg where
  smbus : Bool
  body : List Byte
  off : Nat
  len : Nat
  idx : Nat
  signed : Bool
  deriving DecidableEq, Repr

/-- The commands: one constructor for each row of the table of operations and events. -/
inductive Instr where
  /-- TICK -/
  | tick (env : TickEnv)
  /-- BUNDLE_ISSUE -/
  | bundleIssue (c : CoreId) (cyc : Nat) (par : List TrayParity)
  /-- END -/
  | endCtx (c : CoreId) (x : CtxId)
  /-- HALT -/
  | halt (c : CoreId) (x : CtxId)
  /-- OPERATION_COMPLETE -/
  | operationComplete (c : CoreId) (id : Nat) (errs : List GErr)
  /-- DECLARED_CYCLES_END -/
  | declaredCyclesEnd (r : RegionId)
  /-- ADD -/
  | add (c : CoreId) (x : CtxId) (sd sa sb : Reg4)
  /-- SUB -/
  | sub (c : CoreId) (x : CtxId) (sd sa sb : Reg4)
  /-- AND -/
  | sAnd (c : CoreId) (x : CtxId) (sd sa sb : Reg4)
  /-- OR -/
  | sOr (c : CoreId) (x : CtxId) (sd sa sb : Reg4)
  /-- XOR -/
  | sXor (c : CoreId) (x : CtxId) (sd sa sb : Reg4)
  /-- SHL -/
  | shl (c : CoreId) (x : CtxId) (sd sa sb : Reg4)
  /-- SHR -/
  | shr (c : CoreId) (x : CtxId) (sd sa sb : Reg4)
  /-- SRA -/
  | sra (c : CoreId) (x : CtxId) (sd sa sb : Reg4)
  /-- MUL -/
  | mul (c : CoreId) (x : CtxId) (sd sa sb : Reg4)
  /-- MIN -/
  | min (c : CoreId) (x : CtxId) (sd sa sb : Reg4)
  /-- MAX -/
  | max (c : CoreId) (x : CtxId) (sd sa sb : Reg4)
  /-- SLT -/
  | slt (c : CoreId) (x : CtxId) (sd sa sb : Reg4)
  /-- SLTU -/
  | sltu (c : CoreId) (x : CtxId) (sd sa sb : Reg4)
  /-- SEQ -/
  | seq (c : CoreId) (x : CtxId) (sd sa sb : Reg4)
  /-- ADDI -/
  | addi (c : CoreId) (x : CtxId) (sd sa : Reg4) (imm : BitVec 14)
  /-- SUBI -/
  | subi (c : CoreId) (x : CtxId) (sd sa : Reg4) (imm : BitVec 14)
  /-- ANDI -/
  | andi (c : CoreId) (x : CtxId) (sd sa : Reg4) (imm : BitVec 14)
  /-- ORI -/
  | ori (c : CoreId) (x : CtxId) (sd sa : Reg4) (imm : BitVec 14)
  /-- XORI -/
  | xori (c : CoreId) (x : CtxId) (sd sa : Reg4) (imm : BitVec 14)
  /-- SHLI -/
  | shli (c : CoreId) (x : CtxId) (sd sa : Reg4) (imm : BitVec 14)
  /-- SHRI -/
  | shri (c : CoreId) (x : CtxId) (sd sa : Reg4) (imm : BitVec 14)
  /-- SRAI -/
  | srai (c : CoreId) (x : CtxId) (sd sa : Reg4) (imm : BitVec 14)
  /-- MULI -/
  | muli (c : CoreId) (x : CtxId) (sd sa : Reg4) (imm : BitVec 14)
  /-- MINI -/
  | mini (c : CoreId) (x : CtxId) (sd sa : Reg4) (imm : BitVec 14)
  /-- MAXI -/
  | maxi (c : CoreId) (x : CtxId) (sd sa : Reg4) (imm : BitVec 14)
  /-- SLTI -/
  | slti (c : CoreId) (x : CtxId) (sd sa : Reg4) (imm : BitVec 14)
  /-- SLTUI -/
  | sltui (c : CoreId) (x : CtxId) (sd sa : Reg4) (imm : BitVec 14)
  /-- SEQI -/
  | seqi (c : CoreId) (x : CtxId) (sd sa : Reg4) (imm : BitVec 14)
  /-- LUI -/
  | lui (c : CoreId) (x : CtxId) (sd : Reg4) (imm : BitVec 18)
  /-- LDS -/
  | lds (c : CoreId) (x : CtxId) (sd sa : Reg4) (imm : BitVec 14)
  /-- STS -/
  | sts (c : CoreId) (x : CtxId) (sd sa : Reg4) (imm : BitVec 14)
  /-- PTEST -/
  | ptest (c : CoreId) (x : CtxId) (sd sa : Reg4) (imm : BitVec 14)
  /-- RDS -/
  | rds (c : CoreId) (x : CtxId) (sd : Reg4) (item : BitVec 14)
  /-- TDSET -/
  | tdset (c : CoreId) (x : CtxId) (td : Fin 8) (w : Fin 4) (sa : Reg4)
  /-- BEQZ -/
  | beqz (c : CoreId) (x : CtxId) (sa : Reg4) (imm : BitVec 14)
  /-- BNEZ -/
  | bnez (c : CoreId) (x : CtxId) (sa : Reg4) (imm : BitVec 14)
  /-- BR -/
  | br (c : CoreId) (x : CtxId) (imm : BitVec 14)
  /-- FADD -/
  | fadd (c : CoreId) (x : CtxId) (f : VFields)
  /-- FSUB -/
  | fsub (c : CoreId) (x : CtxId) (f : VFields)
  /-- FMUL -/
  | fmul (c : CoreId) (x : CtxId) (f : VFields)
  /-- FFMA -/
  | ffma (c : CoreId) (x : CtxId) (f : VFields)
  /-- FMIN -/
  | fmin (c : CoreId) (x : CtxId) (f : VFields)
  /-- FMAX -/
  | fmax (c : CoreId) (x : CtxId) (f : VFields)
  /-- IADD -/
  | iadd (c : CoreId) (x : CtxId) (f : VFields)
  /-- ISUB -/
  | isub (c : CoreId) (x : CtxId) (f : VFields)
  /-- IMUL -/
  | imul (c : CoreId) (x : CtxId) (f : VFields)
  /-- VEC_AND -/
  | vecAnd (c : CoreId) (x : CtxId) (f : VFields)
  /-- VEC_OR -/
  | vecOr (c : CoreId) (x : CtxId) (f : VFields)
  /-- VEC_XOR -/
  | vecXor (c : CoreId) (x : CtxId) (f : VFields)
  /-- VEC_SHL -/
  | vecShl (c : CoreId) (x : CtxId) (f : VFields)
  /-- VEC_SHR -/
  | vecShr (c : CoreId) (x : CtxId) (f : VFields)
  /-- FCMPLT -/
  | fcmplt (c : CoreId) (x : CtxId) (f : VFields)
  /-- FCMPEQ -/
  | fcmpeq (c : CoreId) (x : CtxId) (f : VFields)
  /-- ICMPLT -/
  | icmplt (c : CoreId) (x : CtxId) (f : VFields)
  /-- SEL -/
  | vSel (c : CoreId) (x : CtxId) (f : VFields)
  /-- CVT -/
  | cvt (c : CoreId) (x : CtxId) (f : VFields)
  /-- VRAND -/
  | vrand (c : CoreId) (x : CtxId) (f : VFields)
  /-- PERM -/
  | perm (c : CoreId) (x : CtxId) (f : VFields)
  /-- LRED -/
  | lred (c : CoreId) (x : CtxId) (f : VFields)
  /-- EXP -/
  | vExp (c : CoreId) (x : CtxId) (f : VFields)
  /-- EXP2 -/
  | vExp2 (c : CoreId) (x : CtxId) (f : VFields)
  /-- LN -/
  | vLn (c : CoreId) (x : CtxId) (f : VFields)
  /-- RCP -/
  | rcp (c : CoreId) (x : CtxId) (f : VFields)
  /-- RSQ -/
  | rsq (c : CoreId) (x : CtxId) (f : VFields)
  /-- VLD -/
  | vld (c : CoreId) (x : CtxId) (mask : Fin 8) (vd sa : Reg4) (line : BitVec 11)
  /-- VST -/
  | vst (c : CoreId) (x : CtxId) (mask : Fin 8) (vd sa : Reg4) (line : BitVec 11)
  /-- VSPLAT -/
  | vsplat (c : CoreId) (x : CtxId) (mask : Fin 8) (vd sa : Reg4)
  /-- WUPD -/
  | wupd (c : CoreId) (x : CtxId) (f : VFields)
  /-- LMAX -/
  | lmax (c : CoreId) (x : CtxId) (f : VFields)
  /-- RSCL -/
  | rscl (c : CoreId) (x : CtxId) (f : VFields)
  /-- PEXP -/
  | pexp (c : CoreId) (x : CtxId) (f : VFields)
  /-- RCPZ -/
  | rcpz (c : CoreId) (x : CtxId) (f : VFields)
  /-- TILE -/
  | tile (c : CoreId) (x : CtxId) (td : Fin 8) (rnd : BitVec 2)
  /-- TILE_Z -/
  | tileZ (c : CoreId) (x : CtxId) (td : Fin 8) (rnd : BitVec 2)
  /-- MV -/
  | mv (c : CoreId) (x : CtxId) (td : Fin 8) (rnd : BitVec 2)
  /-- MV_Z -/
  | mvZ (c : CoreId) (x : CtxId) (td : Fin 8) (rnd : BitVec 2)
  /-- CONV -/
  | conv (c : CoreId) (x : CtxId) (td : Fin 8) (rnd : BitVec 2)
  /-- CUBE_RUN_END -/
  | cubeRunEnd (c : CoreId) (id : Nat)
  /-- OUT -/
  | mOut (c : CoreId) (x : CtxId) (slot : Fin 32) (reg : Reg4)
  /-- OUTL -/
  | outl (c : CoreId) (x : CtxId) (slot : Fin 32) (reg : Reg4) (off : BitVec 11)
  /-- TAKE -/
  | mTake (c : CoreId) (x : CtxId) (slot : Fin 32) (reg : Reg4)
  /-- TAKEL -/
  | takel (c : CoreId) (x : CtxId) (slot : Fin 32) (reg : Reg4) (off : BitVec 11)
  /-- LPOST -/
  | lpost (c : CoreId) (x : CtxId) (dst reg : Reg4) (off : BitVec 11)
  /-- LTAKE -/
  | ltake (c : CoreId) (x : CtxId) (dst reg : Reg4) (off : BitVec 11)
  /-- LD -/
  | shLd (c : CoreId) (x : CtxId) (sa sb : Reg4) (count : Fin 64) (bypass : Bool)
  /-- ST -/
  | shSt (c : CoreId) (x : CtxId) (sa sb : Reg4) (count : Fin 64)
  /-- NM -/
  | shNm (c : CoreId) (x : CtxId) (sb : Reg4)
  /-- FENCE_NM -/
  | fenceNm (c : CoreId) (x : CtxId) (sa : Reg4) (count : Fin 64)
  /-- FENCE_SHAFT -/
  | fenceShaft (c : CoreId) (x : CtxId)
  /-- CODE -/
  | shCode (c : CoreId) (x : CtxId) (sa sb : Reg4) (count : Fin 64)
  /-- CINV -/
  | cinv (c : CoreId) (x : CtxId) (sa : Reg4) (count : Fin 64)
  /-- FENCE_NM_DONE -/
  | fenceNmDone (c : CoreId) (x : CtxId)
  /-- FENCE_SHAFT_DONE -/
  | fenceShaftDone (c : CoreId) (x : CtxId)
  /-- SHAFT_LOAD_LAND -/
  | shaftLoadLand (c : CoreId) (errs : List GErr)
  /-- ROUTE_ENTRY -/
  | routeEntry (c : CoreId) (idx : Nat)
  /-- LAGGED_FLIT_LAND -/
  | laggedFlitLand (l : LagLane) (parity : Bool)
  /-- BRIDGE_FLIT_ARRIVAL -/
  | bridgeFlitArrival (b : Fin 6) (d : Fin 2) (seq : Fin 2048) (crcOk : Bool)
  /-- LOOSE_DEPARTURE -/
  | looseDeparture (c : CoreId) (k : Fin 8)
  /-- CORE_CHECK_FAIL -/
  | coreCheckFail (c : CoreId)
  /-- ROUTER_LOST -/
  | routerLost (h : HalfId) (row : Fin 32) (col : Fin 16)
  /-- HOST_SLOT -/
  | hostSlot (p : PosId) (errs : List GErr)
  /-- REFRESH -/
  | refresh
  /-- CORRECTED_WRITE_BACK -/
  | correctedWriteBack (p : PosId)
  /-- SCRUB_READ -/
  | scrubRead (p : PosId) (sram : Bool) (err : Option GErr)
  /-- CHECKER_TEST_RUN -/
  | checkerTestRun (p : PosId)
  /-- CHECKER_BATCH -/
  | checkerBatch (p : PosId) (dramFails sramFails : Nat)
  /-- NM_ADD -/
  | nmAdd (p : PosId) (a : NmArgs)
  /-- NM_MUL -/
  | nmMul (p : PosId) (a : NmArgs)
  /-- FMA -/
  | fma (p : PosId) (a : NmArgs)
  /-- AXPBY -/
  | axpby (p : PosId) (a : NmArgs)
  /-- SCALE -/
  | scale (p : PosId) (a : NmArgs)
  /-- NM_MAX -/
  | nmMax (p : PosId) (a : NmArgs)
  /-- NM_MIN -/
  | nmMin (p : PosId) (a : NmArgs)
  /-- CMPLT -/
  | cmplt (p : PosId) (a : NmArgs)
  /-- CMPEQ -/
  | cmpeq (p : PosId) (a : NmArgs)
  /-- NM_XOR -/
  | nmXor (p : PosId) (a : NmArgs)
  /-- FILL -/
  | nmFill (p : PosId) (a : NmArgs)
  /-- COPY -/
  | nmCopy (p : PosId) (a : NmArgs)
  /-- RELU -/
  | relu (p : PosId) (a : NmArgs)
  /-- GELU -/
  | gelu (p : PosId) (a : NmArgs)
  /-- SILU -/
  | silu (p : PosId) (a : NmArgs)
  /-- NM_CVT -/
  | nmCvt (p : PosId) (a : NmArgs)
  /-- SETLAYOUT -/
  | setlayout (p : PosId) (a : NmArgs)
  /-- PLANE -/
  | plane (p : PosId) (a : NmArgs)
  /-- UNPLANE -/
  | unplane (p : PosId) (a : NmArgs)
  /-- PADD -/
  | padd (p : PosId) (a : NmArgs)
  /-- PSUB -/
  | psub (p : PosId) (a : NmArgs)
  /-- PCMPLT -/
  | pcmplt (p : PosId) (a : NmArgs)
  /-- PCMPLTI -/
  | pcmplti (p : PosId) (a : NmArgs)
  /-- PAND -/
  | pand (p : PosId) (a : NmArgs)
  /-- POR -/
  | por (p : PosId) (a : NmArgs)
  /-- PXOR -/
  | pxor (p : PosId) (a : NmArgs)
  /-- PCOUNT -/
  | pcount (p : PosId) (a : NmArgs)
  /-- NM_CHUNK_START -/
  | nmChunkStart (p : PosId) (u : UnitId) (t : Nat)
  /-- NM_CHUNK_END -/
  | nmChunkEnd (p : PosId) (u : UnitId) (errs : List GErr)
  /-- NM_COMMAND_COMPLETE -/
  | nmCommandComplete (p : PosId) (u : UnitId)
  /-- REMOTE_GRANULE_ARRIVAL -/
  | remoteGranuleArrival (p : PosId) (g : RemoteGran)
  /-- WRITE -/
  | nmWrite (p : PosId) (u : UnitId) (errs : List GErr)
  /-- RACC -/
  | racc (p : PosId) (u : UnitId) (errs : List GErr)
  /-- XACC -/
  | xacc (p : PosId) (u : UnitId) (errs : List GErr)
  /-- ROW_BUS_TRANSFER -/
  | rowBusTransfer (t : TowerId)
  /-- LEDGER_WINDOW_READ -/
  | ledgerWindowRead (c : CoreId)
  /-- OPEN -/
  | kvOpen (q : KvReq)
  /-- APPEND -/
  | kvAppend (q : KvReq)
  /-- FIX -/
  | kvFix (q : KvReq)
  /-- CLEAR -/
  | kvClear (q : KvReq)
  /-- FORK -/
  | kvFork (q : KvReq)
  /-- FREE -/
  | kvFree (q : KvReq)
  /-- FADEQ -/
  | kvFadeq (q : KvReq)
  /-- REFILL -/
  | kvRefill (q : KvReq)
  /-- FADEHIT -/
  | kvFadehit (q : KvReq)
  /-- QUOTA -/
  | kvQuota (q : KvReq)
  /-- STAT -/
  | kvStat (q : KvReq)
  /-- COPY_ON_WRITE_SWITCH -/
  | copyOnWriteSwitch (idx : Nat)
  /-- POOL_CONFIG -/
  | poolConfig (p : Fin 16) (cfg0 cfg1 : Word)
  /-- HOLDER_CONFIG -/
  | holderConfig (h : Fin 256) (cfg : Word)
  /-- BUCKET_SAMPLE -/
  | bucketSample
  /-- SEAL_WINDOW_READ -/
  | sealWindowRead (c : CoreId)
  /-- SEAL: sequence number and word 0 -/
  | redSeal (x : MgmtRx) (ch : ChanId) (rank : Fin 64) (m : Word × Word)
  /-- ROSTER_FIX -/
  | rosterFix (ch : ChanId)
  /-- ROSTER -/
  | redRoster (x : MgmtRx) (m : ChanId × RosterMsg)
  /-- PULL -/
  | redPull (x : MgmtRx) (m : PullFor × PullMsg)
  /-- CONTRIBUTION -/
  | contribution (ch : ChanId) (m : SegMsg)
  /-- MIRROR_CHECK -/
  | mirrorCheck (ch : ChanId) (share : Fin 64)
  /-- CHECK: sequence number, and whether it passes -/
  | redCheck (x : MgmtRx) (ch : ChanId) (rank : Fin 64) (m : Word × Bool)
  /-- VERDICT: sequence number and verdict -/
  | redVerdict (x : MgmtRx) (ch : ChanId) (m : Word × RedVerdict)
  /-- RESULT_SEGMENT -/
  | resultSegment (ch : ChanId) (m : SegMsg)
  /-- BUCKET_COMPLETE -/
  | bucketComplete (ch : ChanId) (seq : Word)
  /-- RED_TIMEOUT -/
  | redTimeout (ch : ChanId) (w : RedWait)
  /-- LEADER_LOST -/
  | leaderLost (ch : ChanId)
  /-- CAP_NOTICE: rank and frame -/
  | capNotice (x : MgmtRx) (ch : ChanId) (m : Fin 64 × Word)
  /-- RED_UNFENCE -/
  | redUnfence (ch : ChanId)
  /-- COLLECTIVE_HOLD_END -/
  | collectiveHoldEnd
  /-- PARITY_WINDOW_READ -/
  | parityWindowRead (c : CoreId)
  /-- CLEARED: rank and generation -/
  | cleared (x : MgmtRx) (g : GrpId) (m : Fin 16 × Word)
  /-- PARITY_CONTRIBUTION -/
  | parityContribution (g : GrpId) (m : SegMsg)
  /-- DONE: rank and generation -/
  | parDone (x : MgmtRx) (g : GrpId) (m : Fin 16 × Word)
  /-- COMMIT -/
  | parCommit (x : MgmtRx) (m : GrpId × Word)
  /-- PARITY_LOSS -/
  | parityLoss (g : GrpId) (rank : Fin 16)
  /-- PAR_REBUILD -/
  | parRebuild (g : GrpId) (gen : Word)
  /-- REBUILD -/
  | rebuild (x : MgmtRx) (m : GrpId × Word)
  /-- REBUILD_SEGMENT -/
  | rebuildSegment (g : GrpId) (m : SegMsg)
  /-- SNAPSHOT_ARM -/
  | snapshotArm (frame : Word)
  /-- FIRST_WRITE_COPY -/
  | firstWriteCopy (c : CoreId) (page : Fin 2048)
  /-- BACKGROUND_COPY -/
  | backgroundCopy (x : CoreId × List GErr)
  /-- SNAPSHOT_DRAIN -/
  | snapshotDrain (c : CoreId)
  /-- SNAPSHOT_CANCEL -/
  | snapshotCancel
  /-- DOORBELL -/
  | doorbell (r : RingId) (v : Word)
  /-- RING_SERVICE -/
  | ringService
  /-- LOAD -/
  | plateLoad (r : RingId)
  /-- LAUNCH -/
  | plateLaunch (r : RingId)
  /-- UNLOAD -/
  | plateUnload (r : RingId)
  /-- STOP -/
  | plateStop (r : RingId)
  /-- WAIT -/
  | ringWait (r : RingId)
  /-- SETLR -/
  | setlr (r : RingId)
  /-- PLATE_ACTIVATION -/
  | plateActivation (pl : PlateId)
  /-- JOB_FILL -/
  | jobFill (pl : PlateId)
  /-- JOB_COMPLETE -/
  | jobComplete (pl : PlateId)
  /-- RING_WAIT_TIMEOUT -/
  | ringWaitTimeout (r : RingId)
  /-- RING_RESET -/
  | ringReset (r : RingId)
  /-- RESULT_STATUS_READ -/
  | resultStatusRead (k : SlotId)
  /-- RESULT_ACK -/
  | resultAck (k : SlotId) (seq : BitVec 24)
  /-- DATA -/
  | rayData (p : PortId) (head : BitVec 64) (pay : BitVec 1024)
  /-- EMPTY -/
  | rayEmpty (p : PortId) (w : RayWords)
  /-- ARR_DESC -/
  | arrDesc (p : PortId) (head : BitVec 64) (pay : BitVec 1024)
  /-- ARR_DATA -/
  | arrData (p : PortId) (head : BitVec 64) (pay : BitVec 1024)
  /-- EPOCH_MARK -/
  | epochMark (p : PortId) (w : RayWords) (src : BitVec 16) (epoch : Word)
  /-- RAY_CREDIT -/
  | rayCredit (p : PortId) (w : RayWords)
  /-- RAY_ACK_ONLY -/
  | rayAckOnly (p : PortId) (w : RayWords)
  /-- RAY_NAK: header, code and sequence number of the payload, and the rest of it -/
  | rayNak (p : PortId) (head : BitVec 64) (said : BitVec 20) (rest : BitVec 1004)
  /-- RAY_REPLAY_REQ -/
  | rayReplayReq (p : PortId) (head : BitVec 64) (pay : BitVec 1024)
  /-- BEACON: a proposal or not, K, and test -/
  | beacon (p : PortId) (w : RayWords) (m : Bool × BitVec 4 × Bool)
  /-- RAY_SEND -/
  | raySend (p : PortId)
  /-- TRANSIT_FORWARD -/
  | transitForward (p : PortId)
  /-- RAY_TRAINING -/
  | rayTraining (p : PortId) (t : TrainRes)
  /-- RAY_TRAIN_LIMIT -/
  | rayTrainLimit (p : PortId)
  /-- RAY_TRAIN_RETRY -/
  | rayTrainRetry (p : PortId)
  /-- RETRAIN -/
  | retrain (p : PortId)
  /-- PARTNER_TRAINING -/
  | partnerTraining (p : PortId)
  /-- RAY_VIOLATION_WINDOW -/
  | rayViolationWindow (p : PortId)
  /-- UNFENCE -/
  | unfence (p : PortId)
  /-- DISABLE -/
  | disable (p : PortId) (on : Bool)
  /-- EPOCH_CLOSE -/
  | epochClose (p : PortId) (e : Word)
  /-- SHUTTER_EDGE -/
  | shutterEdge (long : Bool) (skew : BitVec 8) (env : TickEnv)
  /-- SYNC_LOSS -/
  | syncLoss
  /-- REJOIN -/
  | rejoin
  /-- REJOIN_LIMIT -/
  | rejoinLimit
  /-- ROUTE_SWAP_ARM -/
  | routeSwapArm (frame : Word)
  /-- VIEW_HOLD -/
  | viewHold (on : Bool)
  /-- VIEW_HOLD_EXPIRY -/
  | viewHoldExpiry
  /-- REG_RD -/
  | regRd (w : RayWords) (more : List RayWords) (tag : BitVec 16) (addr : BitVec 26) (words : Nat)
  /-- REG_WR -/
  | regWr (w : RayWords) (more : List RayWords) (tag : BitVec 16) (addr : BitVec 26) (data : List Word)
  /-- MEM_RD -/
  | memRd (w : RayWords) (more : List RayWords) (tag : BitVec 16) (core : Nat) (addr : Word) (len : Nat)
  /-- MEM_WR -/
  | memWr (w : RayWords) (more : List RayWords) (tag : BitVec 16) (core : Nat) (addr : Word) (data : List Byte)
  /-- DMA_CPL -/
  | dmaCpl (f : RayWords × List RayWords) (tag : BitVec 16) (status : Nat) (data : List Byte)
  /-- ABA_DMA_TIMEOUT -/
  | abaDmaTimeout (tag : BitVec 16)
  /-- ABA_CREDIT -/
  | abaCredit (w : RayWords)
  /-- ABA_ACK_ONLY -/
  | abaAckOnly (w : RayWords)
  /-- ABA_NAK -/
  | abaNak (w : RayWords)
  /-- ABA_REPLAY_REQ -/
  | abaReplayReq (w : RayWords) (first : BitVec 12)
  /-- ABA_ACK_LIMIT -/
  | abaAckLimit
  /-- ABA_TRAINING -/
  | abaTraining (t : AbaTrain)
  /-- ABA_TRAIN_LIMIT -/
  | abaTrainLimit
  /-- ABA_TRAIN_RETRY -/
  | abaTrainRetry
  /-- ABA_RETRAIN -/
  | abaRetrain
  /-- ABA_VIOLATION_WINDOW -/
  | abaViolationWindow
  /-- APERTURE_EVALUATION -/
  | apertureEvaluation (power : Nat)
  /-- CAP_CHANGE -/
  | capChange (cap : Nat)
  /-- VOLTAGE_RAMP_DONE -/
  | voltageRampDone (h : HalfId)
  /-- PWR_BRAKE_ASSERT -/
  | pwrBrakeAssert
  /-- PWR_BRAKE_RELEASE -/
  | pwrBrakeRelease
  /-- FEED_LOST -/
  | feedLost (b : Bool)
  /-- FEED_RESTORED -/
  | feedRestored (b : Bool)
  /-- BOTH_FEEDS_LOST -/
  | bothFeedsLost
  /-- V_AUX_LOST -/
  | vAuxLost
  /-- REFCLK_LOST -/
  | refclkLost
  /-- TELEMETRY_SAMPLE -/
  | telemetrySample (smp : TelemSample)
  /-- PHASE_LOST -/
  | phaseLost (r : RegionId)
  /-- OVER_CURRENT_TRIP -/
  | overCurrentTrip (r : RegionId)
  /-- REGION_WAKE -/
  | regionWake (d : DomainId)
  /-- WAKE_RAMP_STEP -/
  | wakeRampStep (d : DomainId) (w : WakeSense)
  /-- WAKE_RETRY -/
  | wakeRetry (d : DomainId) (w : WakeSense)
  /-- WAKE_LIMIT -/
  | wakeLimit (d : DomainId)
  /-- WAKE_RESTART -/
  | wakeRestart (d : DomainId)
  /-- SENSOR_READ -/
  | sensorRead (t : TowerId) (vals : List Int)
  /-- THERMAL_EVALUATION -/
  | thermalEvaluation (h : HalfId)
  /-- SHADOW_COMPUTE: µJ of the domains since the last tick -/
  | shadowCompute (t : TowerId) (energy : List (DomainId × Nat))
  /-- SHADOW_HOLD_EXPIRY -/
  | shadowHoldExpiry (t : TowerId) (layer : Fin 8) (q : Fin 4)
  /-- THM_RECOVER -/
  | thmRecover (h : HalfId)
  /-- HOT_EXIT -/
  | hotExit (t : TowerId)
  /-- THERMTRIP -/
  | thermtrip (t : TowerId) (n : Nat)
  /-- MOD_RESET_ASSERT -/
  | modResetAssert (cool : Bool)
  /-- SAFELIGHT -/
  | bootSafelight (ok : Bool)
  /-- FUSE -/
  | bootFuse (f : Fuses)
  /-- STRIP -/
  | bootStrip (r : StripRes)
  /-- LOAD_PHASE -/
  | loadPhase (fl : Flash)
  /-- TRAIN -/
  | bootTrain
  /-- SHEET -/
  | bootSheet
  /-- PEER_WAIT_EXPIRY -/
  | peerWaitExpiry
  /-- CHECKER_TEST -/
  | checkerTest (force : Bool) (towers : BitVec 4)
  /-- DELAY_TRAINING_TEST -/
  | delayTrainingTest (force : Bool) (towers : BitVec 4)
  /-- REGULATOR_TEST -/
  | regulatorTest (force : Bool) (towers : BitVec 4)
  /-- SRAM_MARCH -/
  | sramMarch (force : Bool) (towers : BitVec 4)
  /-- DRAM_MARCH -/
  | dramMarch (force : Bool) (towers : BitVec 4)
  /-- TEST_UNIT -/
  | testUnit (res : UnitRes)
  /-- SLEEP_DIM -/
  | sleepDim
  /-- SLEEP_DARK -/
  | sleepDark
  /-- WAKE_FROM_DIM -/
  | wakeFromDim
  /-- WAKE_TIMER_EXPIRY -/
  | wakeTimerExpiry
  /-- DARK_WAKE_SIGNAL -/
  | darkWakeSignal (smbus : Bool)
  /-- RECOVERY_LOAD -/
  | recoveryLoad (flashOk : Bool)
  /-- SMBUS_RECOVERY_LOAD -/
  | smbusRecoveryLoad (user : Bool) (img : List Byte) (flashOk : Bool)
  /-- EVENT_FORCE -/
  | eventForce (pg inst : Nat) (code : BitVec 16)
  /-- EVENT_RECORD_WRITE -/
  | eventRecordWrite (sev : Fin 4)
  /-- FENCE_REQUEST -/
  | fenceRequest (r : RegionId) (core : Fin 64)
  /-- RESEAT_REQUEST -/
  | reseatRequest (t : TowerId) (half : Fin 2) (row : Fin 32)
  /-- EVACUATION -/
  | evacuation (t : TowerId)
  /-- EVACUATION_DONE -/
  | evacuationDone (t : TowerId)
  /-- SOFT_RESET -/
  | softReset (pg inst : Nat)
  /-- PAGE_LOCK -/
  | pageLock (pg inst : Nat)
  /-- PAGE_APPLY -/
  | pageApply (pg inst : Nat) (on : Bool)
  /-- LOW_WORD_READ -/
  | lowWordRead (addr : BitVec 26)
  /-- RATIO_WATCH_CLEAR -/
  | ratioWatchClear (r : RegionId) (sets : BitVec 16)
  /-- REGISTER_WRITE -/
  | registerWrite (addr : BitVec 26) (w : Word)
  /-- OWNER_PROGRAM -/
  | ownerProgram (w : Word) (readBack : Bool)
  /-- SVN_COMMIT -/
  | svnCommit
  /-- KEY_REVOKE -/
  | keyRevoke (keys : BitVec 4)
  /-- NONCE_REQ -/
  | nonceReq (level : Fin 4)
  /-- SUBMIT -/
  | secSubmit
  /-- GET_VERSION -/
  | getVersion (m : SpdmMsg)
  /-- GET_CAPABILITIES -/
  | getCapabilities (m : SpdmMsg)
  /-- NEGOTIATE_ALGORITHMS -/
  | negotiateAlgorithms (m : SpdmMsg)
  /-- GET_DIGESTS -/
  | getDigests (m : SpdmMsg)
  /-- GET_CERTIFICATE -/
  | getCertificate (m : SpdmMsg)
  /-- CHALLENGE -/
  | spdmChallenge (m : SpdmMsg)
  /-- GET_MEASUREMENTS -/
  | getMeasurements (m : SpdmMsg)
  /-- UNSUPPORTED_REQUEST -/
  | unsupportedRequest (m : SpdmMsg)
  /-- FEC_UNCORRECTABLE_CODEWORD -/
  | fecUncorrectableCodeword (p : Option PortId)
  /-- ABA_RETRAIN_DEFERRED -/
  | abaRetrainDeferred
  deriving DecidableEq, Repr

end Sys2Proof
end

