-- ==== Sys2Proof/Decode.lean ====
section
/-! DEFINITION. The command that a word spells. The table of this block gives bits to no row: its commands are packets,
flits, register writes and events, and no word spells one. -/
namespace Sys2Proof

/-- The command of a word by the table's bits: none, for any word of any width. -/
def decodeTableWord (_nbits _w : Nat) : Option Instr := none

end Sys2Proof
end

