-- ==== Sys2Proof/Machine/Maps.lean ====
section
/-! DEFINITION. Operations on the sparse maps in which registers, memory and the per-unit records are listed. -/
namespace Sys2Proof.Machine

/-- The value listed at key `k`. -/
def mget {β : Type} (k : Nat) : SMap β → Option β
  | [] => none
  | (a, b) :: r => if k = a then some b else mget k r

/-- The value listed at key `k`, else `d`. -/
def mgetD {β : Type} (k : Nat) (d : β) (m : SMap β) : β := (mget k m).getD d

/-- Key `k` set to `v`: it replaces the entry of `k` or goes in before the first larger key. -/
def mput {β : Type} (k : Nat) (v : β) : SMap β → SMap β
  | [] => [(k, v)]
  | (a, b) :: r => if k = a then (k, v) :: r else if k < a then (k, v) :: (a, b) :: r else (a, b) :: mput k v r

/-- Key `k` no longer listed. -/
def mdel {β : Type} (k : Nat) (m : SMap β) : SMap β := m.filter (fun p => p.1 ≠ k)

/-- The value at key `k` (or `d`) changed by `f`. -/
def mmod {β : Type} (k : Nat) (d : β) (f : β → β) (m : SMap β) : SMap β := mput k (f (mgetD k d m)) m

/-- Every listed value changed by `f`. -/
def mmap {β γ : Type} (f : Nat → β → γ) (m : SMap β) : SMap γ := m.map (fun p => (p.1, f p.1 p.2))

/-- The keys strictly rise. -/
def keysRise {β : Type} : SMap β → Bool
  | [] => true
  | [_] => true
  | a :: b :: r => decide (a.1 < b.1) && keysRise (b :: r)

/-- Key `k` is listed. -/
def mhas {β : Type} (k : Nat) (m : SMap β) : Bool := (mget k m).isSome

/-- Bit `i` of `n`. -/
def bitAt (n i : Nat) : Bool := n.testBit i

/-- Bits [lo + w - 1 : lo] of `n`. -/
def bitsAt (n lo w : Nat) : Nat := (n >>> lo) % 2 ^ w

/-- `n` with bits [lo + w - 1 : lo] replaced by `v`. -/
def putBits (n lo w v : Nat) : Nat := n - (bitsAt n lo w) <<< lo + (v % 2 ^ w) <<< lo

/-- ⌈a ÷ b⌉. -/
def ceilDiv (a b : Nat) : Nat := (a + b - 1) / b

/-- The two's-complement value of the low `w` bits of `n`. -/
def signed (w n : Nat) : Int := if n.testBit (w - 1) then (n % 2 ^ w : Nat) - (2 ^ w : Nat) else (n % 2 ^ w : Nat)

/-- The low `w` bits of the two's-complement form of `i`. -/
def unsigned (w : Nat) (i : Int) : Nat := (i % (2 ^ w : Nat)).toNat

/-- Little-endian number of a list of bytes (00 Conventions). -/
def leNat : List Byte → Nat
  | [] => 0
  | b :: r => b.toNat + 256 * leNat r

/-- The `k` little-endian bytes of `n`. -/
def leBytes : Nat → Nat → List Byte
  | 0, _ => []
  | k + 1, n => BitVec.ofNat 8 n :: leBytes k (n / 256)

/-- Ascending numbers `a`, `a + 1`, … (`k` of them). -/
def upFrom (a : Nat) : Nat → List Nat
  | 0 => []
  | k + 1 => a :: upFrom (a + 1) k

end Sys2Proof.Machine
end

