-- ==== Sys2Proof/Machine/Flags.lean ====
section
/-! DEFINITION. The arithmetic flags of 04 R164 and 10 R309 as one operation reports them, and how reports add up. -/
namespace Sys2Proof.Machine

/-- What an operation reports: the flags of TWR_RGN_ARITH, saturated elements, NaN elements written, and PEXP's NaN and
infinite scores (10 R309). `nanEvt` and `infEvt` say that EVT_ARITH_NAN or EVT_ARITH_INF is raised (04 R165). -/
structure Flg where
  nanIn : Bool
  infIn : Bool
  accOvf : Bool
  sat : Bool
  nanLost : Bool
  infOut : Bool
  satN : Nat
  nanN : Nat
  scoreNan : Nat
  scoreInf : Nat
  nanEvt : Bool
  infEvt : Bool
  deriving DecidableEq, Repr

/-- Nothing to report. -/
def Flg.none : Flg := ⟨false, false, false, false, false, false, 0, 0, 0, 0, false, false⟩

/-- Two reports together. -/
def Flg.or (a b : Flg) : Flg :=
  ⟨a.nanIn || b.nanIn, a.infIn || b.infIn, a.accOvf || b.accOvf, a.sat || b.sat, a.nanLost || b.nanLost,
    a.infOut || b.infOut, a.satN + b.satN, a.nanN + b.nanN, a.scoreNan + b.scoreNan, a.scoreInf + b.scoreInf,
    a.nanEvt || b.nanEvt, a.infEvt || b.infEvt⟩

/-- All reports of a list. -/
def Flg.all : List Flg → Flg
  | [] => Flg.none
  | f :: r => Flg.or f (Flg.all r)

/-- The six flags as bits [5:0] of TWR_RGN_ARITH (04 R164). -/
def Flg.bits (f : Flg) : Nat :=
  f.nanIn.toNat + 2 * f.infIn.toNat + 4 * f.accOvf.toNat + 8 * f.sat.toNat + 16 * f.nanLost.toNat + 32 * f.infOut.toNat

/-- The position of the lowest flag set in `n`, for FIRST (04 R164): flags of one operation set together are taken in
ascending bit position (entry 16). -/
def firstBit (n : Nat) : Nat :=
  if n.testBit 0 then 0 else if n.testBit 1 then 1 else if n.testBit 2 then 2 else if n.testBit 3 then 3
  else if n.testBit 4 then 4 else 5

end Sys2Proof.Machine
end

