-- ==== Sys2Proof/Machine/StateCore.lean ====
section
/-! DEFINITION. What one logical core holds (03 R81): contexts, registers, tray, bundle store, read cache, mailboxes,
the operations in flight and the shaft requests in issue order. Plain data. -/
namespace Sys2Proof.Machine

/-- A 128-byte line. -/
abbrev Line := BitVec 1024

/-- The presence states of 03 R87. -/
inductive Pres where
  | empty | pending | shaftPending | early | full
  deriving DecidableEq, Repr

/-- Presence codes (03 R87). -/
def Pres.code : Pres → Nat
  | .empty => 0 | .pending => 1 | .shaftPending => 2 | .early => 3 | .full => 4

/-- EARLY or FULL (03 R88). -/
def Pres.present : Pres → Bool
  | .early => true | .full => true | _ => false

/-- A tray line or a vector register: data, presence, poison (03 Presence). -/
structure Slot where
  data : Line
  pres : Pres
  poison : Bool
  deriving DecidableEq, Repr

/-- An EMPTY slot (03 R92). -/
def Slot.empty : Slot := ⟨0, .empty, false⟩

/-- A scalar register: 32 bits, early tag, poison bit. -/
structure SReg where
  val : BitVec 32
  early : Bool
  poison : Bool
  deriving DecidableEq, Repr

/-- A mask register: 64 bits, early tag, poison bit, pending bit (03 R88). -/
structure MReg where
  val : BitVec 64
  early : Bool
  poison : Bool
  pending : Bool
  deriving DecidableEq, Repr

/-- A bundle-store entry; a poisoned CODE line makes each of its bundles an ILLEGAL_BUNDLE (07 R232). -/
structure BWord where
  w : BitVec 128
  poison : Bool
  deriving DecidableEq, Repr

/-- How a context stands (03 R116): running, ended until the next tick, or halted for the plate. -/
inductive CtxMode where
  | run | ended | halted
  deriving DecidableEq, Repr

/-- What a context waits on after a fence issued: FENCE.SHAFT with the request numbers below which its own requests
count, or FENCE.NM with the command ordinal it waits for, the range, and the destination ranges of the commands it waits
for (03 R111, R112); and the bundle that issued it. -/
inductive FenceWait where
  | none
  | shaft (before bundle : Nat)
  | nm (upTo addr len bundle : Nat) (dests : List (Nat × Nat))
  deriving DecidableEq, Repr

/-- A context (03 R81). `readyAt` is the cycle from which its pointer names its next bundle (03 R557, the LDS stall of R98),
`delay` the first cycle at which that bundle may issue after a tray retry (03 R126);
`scales` are ts0 to ts7 (05 R179); `draws` the vector and CONV draw counters (03 R124). -/
structure Ctx where
  ptr : Nat
  mode : CtxMode
  wait : FenceWait
  readyAt : Nat
  delay : Nat
  scales : SMap Int
  drawV : Nat
  drawC : Nat
  deriving DecidableEq, Repr

/-- A context with no entry point is halted from launch (03 R116). -/
def Ctx.halted : Ctx := ⟨0, .halted, .none, 0, 0, [], 0, 0⟩

/-- A tile descriptor's fields (03 R101). -/
structure Desc where
  aLine : Nat
  bLine : Nat
  cLine : Nat
  m : Nat
  n : Nat
  k : Nat
  aFmt : Nat
  bFmt : Nat
  aScl : Nat
  bScl : Nat
  aScaled : Bool
  bScaled : Bool
  outLine : Nat
  outFmt : Nat
  outScaled : Bool
  batch : Nat
  bOrder : Nat
  deriving DecidableEq, Repr

/-- The cube-slot operations (03 R100). -/
inductive CubeOp where
  | tile | tileZ | mv | mvZ | conv
  deriving DecidableEq, Repr

/-- What an operation writes when it completes (03 R89). -/
inductive Eff where
  | vreg (x r : Nat) (data : Line) (early poison : Bool)
  | line (l : Nat) (data : Line) (early poison : Bool)
  | mask (x m : Nat) (val : BitVec 64) (early poison : Bool)
  | outSlot (k : Nat) (data : Line) (early poison : Bool)
  deriving DecidableEq, Repr

/-- A ratio-watch contribution of one WUPD lane (05 R173): the set, rho, and the unbiased exponent of a finite nonzero
VB lane. -/
structure RwUpd where
  set : Nat
  rho : Option Nat
  expo : Option Int
  deriving DecidableEq, Repr

/-- A cube-slot operation under way: its descriptor as read at issue and the descriptor's number, RND, whether it rounds
stochastically and the draw counter before it, and how many retakes ran (05 R180). -/
structure CubeJob where
  op : CubeOp
  desc : Desc
  td : Nat
  rnd : BitVec 2
  stoch : Bool
  draw : Nat
  runs : Nat
  deriving DecidableEq, Repr

/-- An operation in flight: its number, context, the bundle that issued it, the cycle at which it is due, the writes it
makes and what it reports when it completes, the lines it holds locked as (first, count) and the first cycle at which they are
free (none: once it completes), and its cube operation.
`conv`: a NaN it loses raises EVT_CONV_NAN_LOST (04 R165). -/
structure Flight where
  id : Nat
  ctx : Nat
  bundle : Nat
  due : Nat
  effs : List Eff
  flg : Flg
  rw : List RwUpd
  conv : Bool
  locks : List (Nat × Nat)
  lockTo : Option Nat
  cube : Option CubeJob
  early : Bool
  poison : Bool
  deriving DecidableEq, Repr

/-- The kinds of shaft request (03 R109). -/
inductive ShKind where
  | ld | st | code
  deriving DecidableEq, Repr

/-- A shaft request in the core's issue order (03 R110): `done` lines of `count` have moved. -/
structure ShReq where
  id : Nat
  ctx : Nat
  bundle : Nat
  kind : ShKind
  addr : Nat
  line : Nat
  count : Nat
  done : Nat
  bypass : Bool
  deriving DecidableEq, Repr

/-- A loose message: posting order, sender and destination by plate-relative number, the slot k and exposure of its
departure, the line and its poison (03 R120, R121); once it has departed, its number in the fabric, the lagged crossings
that it has still to make, the half-row that it crosses next from, and whether a crossing is under way (06 R213). -/
structure LooseMsg where
  ord : Nat
  src : Nat
  dst : Nat
  slot : Nat
  k : Nat
  due : Nat
  data : Line
  poison : Bool
  id : Nat
  path : List Nat
  row : Nat
  fly : Bool
  deriving DecidableEq, Repr

/-- What the plate fixes for a core at launch (03 R83, R85, R118, R123; 05 R167, R178, R184; 07 R224): the timed and
gradient contexts, the class of the cubes, the plate-relative number, the marks of the plate, its seed, and the region
record's budgets and the snapshot reserve; the frame of the launch. -/
structure CoreCfg where
  plate : Nat
  timed : Nat
  gradient : Nat
  cubesTimed : Bool
  rel : Nat
  loose : Bool
  looseM : Nat
  mirel : Bool
  training : Bool
  hostSlot : Bool
  seed : Nat
  reserve : Nat
  step : Nat
  cycles : Nat
  bd : Nat
  bs : Nat
  requests : Nat
  k : Nat
  g : Nat
  ps : Nat
  since : Nat
  deriving DecidableEq, Repr

def CoreCfg.none : CoreCfg :=
  ⟨0, 0, 0, false, 0, false, 0, false, false, false, 0, 0, 0, 0, 0, 0, 0, 0, 0, 0, 0⟩

/-- A logical core. `on`: its region is lit and runs a plate slice in this exposure, so that bundles issue and its router
follows its schedule. `stopped`: it
faulted or its region was stopped (03 R128). -/
structure Core where
  on : Bool
  stopped : Bool
  cfg : CoreCfg
  cyc : Nat
  slice : Nat
  ctxs : SMap Ctx
  sregs : SMap SReg
  vregs : SMap Slot
  mregs : SMap MReg
  tds : SMap (BitVec 128)
  tray : SMap Slot
  store : SMap BWord
  cache : SMap (List (Nat × Line × Bool))
  flights : List Flight
  nextId : Nat
  shq : List ShReq
  used : Nat
  usedD : Nat
  usedS : Nat
  codeq : List (Nat × BWord)
  doneCyc : Nat
  nmIssued : Nat
  nmSlice : Nat
  nmDone : Nat
  nmTick : Nat
  lastTimed : Nat
  lastFree : Nat
  reserveLeft : Nat
  posted : List LooseMsg
  postOrd : Nat
  held : List (Nat × Nat)
  shadow : SMap Slot
  deriving DecidableEq, Repr

/-- A core before any plate has run on it (03 R92; entry 6 for contents the spec leaves open). -/
def Core.idle : Core :=
  { on := false, stopped := false, cfg := CoreCfg.none, cyc := 0, slice := 0, ctxs := [], sregs := [], vregs := [],
    mregs := [], tds := [], tray := [], store := [], cache := [], flights := [], nextId := 0, shq := [], used := 0,
    usedD := 0, usedS := 0, codeq := [], doneCyc := 0, nmIssued := 0, nmSlice := 0, nmDone := 0, nmTick := 0, lastTimed := 15, lastFree := 15, reserveLeft := 0,
    posted := [], postOrd := 0, held := [], shadow := [] }

end Sys2Proof.Machine
end

