-- ==== Sys2Proof/Config.lean ====
section
/-! DEFINITION. The free values: what the spec leaves open. None has a body, so nothing in Lean can prove a value of
one; a claim holds for every value they may take. Each is named in the assumption log. -/
namespace Sys2Proof

/-- The number of an event's code (19 R506: the spec gives names, never numbers). Entry 11. -/
opaque Config.evCode : Nat → Nat

/-- What the k-th undefined value drawn by a run is (entry 1). -/
opaque Config.freeValue : Nat → Nat

/-- What a byte of DRAM or stack SRAM that nothing has written reads as (07 R235). Entry 2. -/
opaque Config.unwrittenByte : Nat → Byte

/-- Whether a granule or word that nothing has written reads as poison (07 R235). Entry 2. -/
opaque Config.unwrittenPoison : Nat → Bool

/-- The tone unit's fixed mapping (04 R156): operation number, input bits; the result bits where R157 states none.
Entry 12. -/
opaque Config.tone : Nat → Nat → Nat

/-- The near-memory GELU and SILU mappings to FP32 (08 R256): 0 GELU, 1 SILU; input as FP32 bits. Entry 13. -/
opaque Config.nmCurve : Nat → Nat → Nat

/-- SHA-384 of a byte string, as a 384-bit number (20 R519). Entry 14. -/
opaque Config.sha384 : List Byte → Nat

/-- What the boot ROM holds (20 R521): 0 to 3 the SHA-384 hashes of the Zorleril keys, 4 the digest of the ROM. Entry 14. -/
opaque Config.romHash : Nat → Nat

/-- The Zorleril public keys whose hashes the ROM holds (20 R521, R529). Entry 14. -/
opaque Config.zorKey : Nat → Nat

/-- The digest of measurement 5 (20 R526: its serialisation is not given) from the grade, the fused maximum stops and the
fused skips. Entry 14. -/
opaque Config.hwDigest : List Nat → Nat

/-- Whether a signature over a digest verifies under a public key (20 R519): key, digest, signature. Entry 14. -/
opaque Config.sigOk : Nat → Nat → Nat → Bool

/-- The device's signature over a digest under its identity key (20 R528). Entry 14. -/
opaque Config.sign : Nat → Nat → Nat

/-- The array descriptor that a delivered flit's payload holds (11 R344: its layout is not given), as one number:
[15:0] device, [27:16] core, [59:28] address, [67:60] granules, [71:68] operation, [103:72] epoch. Entry 23. -/
opaque Config.arrDesc : Nat → Nat

/-- The delay that full training finds best for a lane or wire: it is trimmed to 1 + this value modulo 62 (02 R67). Entry 140. -/
opaque Config.laneTrim : Nat → Nat

/-- The payload of a flit whose type's layout is not given (11 R326, R340, R344): the type, and what it says as numbers. Entry
23. -/
opaque Config.rayPayload : List Nat → Nat

/-- The class of a stream is RED (11 R337: the image does not say): the image, and the stream-table key. Entry 30. -/
opaque Config.streamRed : List Byte → Nat → Bool

/-- The phase in which a stream's flits first depart at their source (11 R334, R337: the image does not say): the image, and the
stream-table key. Entry 30. -/
opaque Config.rayPhase : List Byte → Nat → Nat

/-- The link hops of a stream's path (11 R334): the image, and the stream-table key. Entry 30. -/
opaque Config.rayHops : List Byte → Nat → Nat

/-- Transit flits of a port in an exposure (11 R337): the image, and set × 18 + port. Entry 30. -/
opaque Config.rayTransit : List Byte → Nat → Nat

/-- The layer map's content (05 R175): section bytes, layer, field (0 how many layers there are, 1 regions, 2 ratio-watch
set, 3 moment format, 4 address of the table). Entry 31. -/
opaque Config.layerMap : List Byte → Nat → Nat → Nat

end Sys2Proof
end

