-- ==== Sys2Proof/Machine/Num.lean ====
section
/-! DEFINITION. The number formats (04 R130), exact dyadic values, and the roundings of 04 R142, R151 to R153 and
05 R184. Arithmetic is exact on values; one function narrows. -/
namespace Sys2Proof.Machine

/-- The formats of 04 R130 by code, and INT32 of the near-memory units (08 R252). -/
inductive Fmt where
  | fp32 | fp16 | bf16 | e4m3 | e5m2 | e3m2 | e2m3 | e2m1 | int8 | int4 | int32
  deriving DecidableEq, Repr

/-- Format codes 0 to 9 (03 R101); 10 to 15 are reserved. -/
def Fmt.ofCode : Nat → Option Fmt
  | 0 => some .fp32 | 1 => some .fp16 | 2 => some .bf16 | 3 => some .e4m3 | 4 => some .e5m2
  | 5 => some .e3m2 | 6 => some .e2m3 | 7 => some .e2m1 | 8 => some .int8 | 9 => some .int4
  | _ => none

/-- Bits of an element (04 R130). -/
def Fmt.bits : Fmt → Nat
  | .fp32 => 32 | .fp16 => 16 | .bf16 => 16 | .e4m3 => 8 | .e5m2 => 8 | .e3m2 => 6 | .e2m3 => 6
  | .e2m1 => 4 | .int8 => 8 | .int4 => 4 | .int32 => 32

/-- Integer formats. -/
def Fmt.isInt : Fmt → Bool
  | .int8 => true | .int4 => true | .int32 => true
  | _ => false

/-- Exponent bits, mantissa bits and bias of a floating-point format (04 R130). -/
def Fmt.shape : Fmt → Nat × Nat × Nat
  | .fp32 => (8, 23, 127) | .fp16 => (5, 10, 15) | .bf16 => (8, 7, 127) | .e4m3 => (4, 3, 7)
  | .e5m2 => (5, 2, 15) | .e3m2 => (3, 2, 3) | .e2m3 => (2, 3, 1) | .e2m1 => (2, 1, 1)
  | .int8 => (0, 7, 0) | .int4 => (0, 3, 0) | .int32 => (0, 31, 0)

/-- The code, without sign, of the largest finite value (04 R130), and the largest integer of a conversion
(04 R153: the ranges are symmetric). -/
def Fmt.maxCode : Fmt → Nat
  | .fp32 => 0x7F7FFFFF | .fp16 => 0x7BFF | .bf16 => 0x7F7F | .e4m3 => 0x7E | .e5m2 => 0x7B
  | .e3m2 => 0x1F | .e2m3 => 0x1F | .e2m1 => 0x7 | .int8 => 127 | .int4 => 7 | .int32 => 0x7FFFFFFF

/-- Formats that hold infinities. -/
def Fmt.hasInf : Fmt → Bool
  | .fp32 => true | .fp16 => true | .bf16 => true | .e5m2 => true
  | _ => false

/-- The canonical NaN (04 R131); formats without NaN convert it to zero (04 R153). -/
def Fmt.nanCode : Fmt → Nat
  | .fp32 => 0x7FC00000 | .fp16 => 0x7E00 | .bf16 => 0x7FC0 | .e4m3 => 0x7F | .e5m2 => 0x7E
  | _ => 0

/-- Formats that hold a NaN. -/
def Fmt.hasNan : Fmt → Bool
  | .fp32 => true | .fp16 => true | .bf16 => true | .e4m3 => true | .e5m2 => true
  | _ => false

/-- A value: a NaN, an infinity, or (−1)^neg × m × 2^e exactly. -/
inductive Val where
  | nan
  | inf (neg : Bool)
  | fin (neg : Bool) (m : Nat) (e : Int)
  deriving DecidableEq, Repr

/-- The value of a signed integer. -/
def Val.ofInt (i : Int) : Val := .fin (decide (i < 0)) i.natAbs 0

/-- The value that the low bits of `n` encode in format `f` (04 R130, R132: subnormals are read). -/
def Fmt.decode (f : Fmt) (n : Nat) : Val :=
  if f.isInt then Val.ofInt (signed f.bits n)
  else
    match f.shape with
    | (eb, mb, bias) =>
      let neg := n.testBit (f.bits - 1)
      let e := bitsAt n mb eb
      let m := bitsAt n 0 mb
      let mag := bitsAt n 0 (f.bits - 1)
      if f.hasInf && decide (e = 2 ^ eb - 1) then (if m = 0 then .inf neg else .nan)
      else if f.hasNan && !f.hasInf && decide (mag = f.nanCode) then .nan
      else if e = 0 then .fin neg m (1 - bias - mb : Int)
      else .fin neg (2 ^ mb + m) (e - bias - mb : Int)

/-- A subnormal encoding (05 R184 reads and writes one as zero of its sign in Mirel mode). -/
def Fmt.isSub (f : Fmt) (n : Nat) : Bool :=
  !f.isInt && (match f.shape with
    | (eb, mb, _) => decide (bitsAt n mb eb = 0) && !decide (bitsAt n 0 mb = 0))

/-- A subnormal code replaced by zero of its sign (05 R184). -/
def Fmt.flush (f : Fmt) (n : Nat) : Nat := if f.isSub n then n - bitsAt n 0 (f.bits - 1) else n

/-- Sign of a value (false for NaN). -/
def Val.neg? : Val → Bool
  | .nan => false
  | .inf s => s
  | .fin s _ _ => s

/-- The value with its sign turned. -/
def Val.flip : Val → Val
  | .nan => .nan
  | .inf s => .inf (!s)
  | .fin s m e => .fin (!s) m e

def Val.isNan : Val → Bool
  | .nan => true
  | _ => false

def Val.isInf : Val → Bool
  | .inf _ => true
  | _ => false

def Val.isZero : Val → Bool
  | .fin _ m _ => decide (m = 0)
  | _ => false

/-- m × 2^e as an integer multiple of 2^lo, for e ≥ lo. -/
def scaled (m : Nat) (e lo : Int) : Nat := m <<< (e - lo).toNat

/-- The exact sum; a zero sum of opposite signs is +0 (IEEE 754, nearest and toward zero). -/
def Val.add : Val → Val → Val
  | .nan, _ => .nan
  | _, .nan => .nan
  | .inf a, .inf b => if a = b then .inf a else .nan
  | .inf a, _ => .inf a
  | _, .inf b => .inf b
  | .fin a m e, .fin b n f =>
    let lo := min e f
    let x := scaled m e lo
    let y := scaled n f lo
    if a = b then .fin a (x + y) lo
    else if y < x then .fin a (x - y) lo
    else if x < y then .fin b (y - x) lo
    else .fin false 0 lo

/-- The exact product; ∞ × 0 is NaN. -/
def Val.mul : Val → Val → Val
  | .nan, _ => .nan
  | _, .nan => .nan
  | .inf a, .inf b => .inf (a != b)
  | .inf a, .fin b n _ => if n = 0 then .nan else .inf (a != b)
  | .fin a m _, .inf b => if m = 0 then .nan else .inf (a != b)
  | .fin a m e, .fin b n f => .fin (a != b) (m * n) (e + f)

/-- The value times 2^k exactly. -/
def Val.shift (k : Int) : Val → Val
  | .fin s m e => .fin s m (e + k)
  | v => v

/-- The exact sum of a list, from +0 of no value: the group sum of 04 R142 and R143. -/
def Val.sum : List Val → Val
  | [] => .fin false 0 0
  | [v] => v
  | v :: r => Val.add v (Val.sum r)

/-- Strictly less; false on a NaN. Zeros are equal. -/
def Val.lt : Val → Val → Bool
  | .nan, _ => false
  | _, .nan => false
  | .inf a, .inf b => a && !b
  | .inf a, _ => a
  | _, .inf b => !b
  | .fin a m e, .fin b n f =>
    let lo := min e f
    let x : Int := scaled m e lo
    let y : Int := scaled n f lo
    decide ((if a then -x else x) < (if b then -y else y))

/-- IEEE 754 equality. -/
def Val.eq : Val → Val → Bool
  | .nan, _ => false
  | _, .nan => false
  | a, b => !Val.lt a b && !Val.lt b a

/-- How a value is narrowed: to nearest even, toward zero, stochastic (04 R152) with a 32-bit draw, or the Mirel's
stochastic rounding (05 R184). -/
inductive Rmode where
  | rne
  | rtz
  | stoch (draw : Nat)
  | mirel (draw : Nat)
  deriving DecidableEq, Repr

/-- `q` units and a remainder of `r` ÷ 2^k units, rounded to whole units on the magnitude (04 R151, R152). -/
def roundUnits (md : Rmode) (q r k : Nat) : Nat :=
  match md with
  | .rtz => q
  | .rne =>
    if 2 ^ k < 2 * r then q + 1 else if 2 * r = 2 ^ k && decide (q % 2 = 1) then q + 1 else q
  | .stoch d => if 2 ^ 24 ≤ (r <<< 24) >>> k + d % 2 ^ 24 then q + 1 else q
  | .mirel d => if 2 ^ 16 ≤ (r <<< 16) >>> k + (d >>> 16) % 2 ^ 16 then q + 1 else q

/-- m × 2^e in whole units of 2^u, rounded. -/
def toUnits (md : Rmode) (m : Nat) (e u : Int) : Nat :=
  if u ≤ e then m <<< (e - u).toNat
  else
    let k := (u - e).toNat
    roundUnits md (m >>> k) (m % 2 ^ k) k

/-- ⌊log2 (m × 2^e)⌋ for m > 0. -/
def log2Of (m : Nat) (e : Int) : Int := (Nat.log2 m : Int) + e

/-- The code, without sign and without an upper limit, of m × 2^e rounded to format `f`: a carry out of the mantissa
raises the exponent field of itself. -/
def roundCode (f : Fmt) (md : Rmode) (m : Nat) (e : Int) : Nat :=
  if m = 0 then 0
  else
    match f.shape with
    | (_, mb, bias) =>
      let emin : Int := 1 - bias
      let ex := max (log2Of m e) emin
      let n := toUnits md m e (ex - mb)
      (ex - emin).toNat * 2 ^ mb + n

/-- What a narrowing gives: the bits, and whether it saturated (SAT), lost a NaN (NAN_LOST), overflowed to an infinity,
or wrote a NaN. -/
structure Narrow where
  bits : Nat
  sat : Bool
  nanLost : Bool
  toInf : Bool
  isNan : Bool
  deriving DecidableEq, Repr

/-- A sign put on a magnitude code. -/
def withSign (f : Fmt) (neg : Bool) (code : Nat) : Nat :=
  if f.isInt then (if neg then (2 ^ f.bits - code) % 2 ^ f.bits else code)
  else if neg then code + 2 ^ (f.bits - 1) else code

/-- A value narrowed to format `f` (04 R151 to R153). -/
def narrow (f : Fmt) (md : Rmode) : Val → Narrow
  | .nan => ⟨f.nanCode, false, !f.hasNan, false, f.hasNan⟩
  | .inf s =>
    if f.hasInf then ⟨withSign f s (f.maxCode + 1), false, false, false, false⟩
    else ⟨withSign f s f.maxCode, true, false, false, false⟩
  | .fin s m e =>
    if f.isInt then
      let n := toUnits md m e 0
      if f.maxCode < n then ⟨withSign f s f.maxCode, true, false, false, false⟩
      else ⟨withSign f s n, false, false, false, false⟩
    else
      let c := roundCode f md m e
      if f.maxCode < c then
        if (f = .fp32 || f = .fp16 || f = .bf16) && md = .rne then
          ⟨withSign f s (f.maxCode + 1), false, false, true, false⟩
        else ⟨withSign f s f.maxCode, true, false, false, false⟩
      else ⟨withSign f s c, false, false, false, false⟩

/-- The value is held exactly by the format: it narrows without rounding, so it draws nothing (05 R168). -/
def Fmt.subsetOf (a b : Fmt) : Bool :=
  match a, b with
  | _, .fp32 => true
  | .e4m3, .fp16 => true | .e5m2, .fp16 => true | .e3m2, .fp16 => true | .e2m3, .fp16 => true
  | .e2m1, .fp16 => true | .int8, .fp16 => true | .int4, .fp16 => true
  | .e4m3, .bf16 => true | .e5m2, .bf16 => true | .e3m2, .bf16 => true | .e2m3, .bf16 => true
  | .e2m1, .bf16 => true | .int8, .bf16 => true | .int4, .bf16 => true
  | .e3m2, .e4m3 => true | .e2m3, .e4m3 => true | .e2m1, .e4m3 => true | .int4, .e4m3 => true
  | .e3m2, .e5m2 => true | .e2m1, .e5m2 => true | .int4, .e5m2 => true
  | .e2m1, .e3m2 => true | .int4, .e3m2 => true | .e2m1, .e2m3 => true | .int4, .int8 => true
  | a, b => decide (a = b)

/-- 03 R123: the mixing function. -/
def mix (z : Nat) : Nat :=
  let z := ((z ^^^ (z >>> 33)) * 0xFF51AFD7ED558CCD) % 2 ^ 64
  let z := ((z ^^^ (z >>> 33)) * 0xC4CEB9FE1A85EC53) % 2 ^ 64
  z ^^^ (z >>> 33)

/-- 03 R123: one draw of a core's counter-based generator, 32 bits. -/
def drawOf (seed slice core ctx unit lane draw : Nat) : Nat :=
  let w1 := core * 2 ^ 52 + ctx * 2 ^ 48 + unit * 2 ^ 46 + lane * 2 ^ 40 + draw
  let h := mix ((mix ((seed ^^^ slice) % 2 ^ 64)) ^^^ (w1 % 2 ^ 64))
  (h >>> 32) ^^^ (h % 2 ^ 32)

/-- Lines that `n` elements of `w` bits occupy (04 R133). -/
def lineCount (n w : Nat) : Nat := ceilDiv (n * w) 1024

/-- Element `e` of a densely packed stream of `w`-bit elements (04 R133). -/
def elemAt (w e : Nat) (stream : Nat) : Nat := bitsAt stream (e * w) w

/-- A stream packed from its elements, from bit 0 (04 R133). -/
def packElems (w : Nat) : List Nat → Nat
  | [] => 0
  | x :: r => x % 2 ^ w + (packElems w r) <<< w

end Sys2Proof.Machine
end

