-- ==== Sys2Proof/Machine/Tone.lean ====
section
/-! DEFINITION. The functions of the tone unit and of the near-memory activations (04 R156, R157; 08 R256). Each is one
fixed mapping that the spec bounds and does not give: the unit's own result stands where it keeps its bound, and the nearest
value where it would not. Logarithms and exponentials are enclosed by series in fixed point, 128 bits after the point. -/
namespace Sys2Proof.Machine

/-- The finite FP32 number whose low bits are `n`: an exponent field of all ones becomes the largest finite one. -/
def finite32 (n : Nat) : Nat :=
  if bitsAt n 23 8 = 255 then putBits (n % 2 ^ 32) 23 8 254 else n % 2 ^ 32

/-- The tone unit's functions (04 R156). -/
inductive Tone where
  | exp | exp2 | ln | rcp | rsq
  deriving DecidableEq, Repr

def Tone.code : Tone → Nat
  | .exp => 0 | .exp2 => 1 | .ln => 2 | .rcp => 3 | .rsq => 4

/-! ### Bounds -/

/-- The exponent of a number's last place: that of its decoding (04 R130). -/
def Val.place (v : Val) : Int :=
  match v with
  | .fin _ _ e => e
  | _ => 0

/-- Number `y` of a floating format lies within `n` units in the last place of the value v, or within 2^floor of it, whichever
is larger (04 R156; 08 R256). The last place is the larger of y's and that of `best`, the nearest number; the series' own
error is allowed for by one part in 2^20. -/
def nearVal (t : Fmt) (n : Nat) (floor : Int) (best y : Nat) (v : Val) : Bool :=
  match t.decode y, v with
  | .fin s a f, .fin r m e =>
    let u := max f (t.decode best).place
    let lo := min (min f e) (min u floor)
    let x : Int := scaled a f lo
    let z : Int := scaled m e lo
    let d := ((if s then -x else x) - (if r then -z else z)).natAbs
    decide (2 ^ 20 * d ≤ (2 ^ 20 + 1) * max (scaled n u lo) (scaled 1 floor lo))
  | _, _ => false

/-- A unit's own result `y`, if it keeps the bound about the value v; else the nearest number. -/
def bounded32 (n : Nat) (floor : Int) (y : Nat) (v : Val) : Nat :=
  let best := (narrow .fp32 .rne v).bits
  if nearVal .fp32 n floor best (finite32 y) v then finite32 y else best

/-! ### Series in fixed point -/

/-- 1 with 128 bits after the point. -/
def fixOne : Nat := 2 ^ 128
/-- ln 2 × 2^128, rounded down. -/
def fixLn2 : Nat := 235865763225513294137944142764154484399
/-- 2^128 ÷ √(2π), rounded down. -/
def fixInvRoot : Nat := 135753023439836232162591007175785461951

/-- m × 2^e with 128 bits after the point. -/
def toFix (m : Nat) (e : Int) : Nat := toUnits .rtz m e (-128)

/-- Terms r^i ÷ i! from the i-th on, which is `term`. -/
def expSeries (r : Nat) : Nat → Nat → Nat → Nat
  | 0, _, _ => 0
  | k + 1, i, term => term + expSeries r k (i + 1) (term * r / fixOne / (i + 1))

/-- e^x of a fixed-point x: x = k ln 2 + r with 0 ≤ r < ln 2, and the series of e^r. -/
def expVal (x : Int) : Val :=
  let k := x / (fixLn2 : Int)
  .fin false (expSeries (x - k * fixLn2).toNat 40 0 fixOne) (k - 128)

/-- A value of expVal in fixed point. -/
def expFix (x : Int) : Nat :=
  match expVal x with
  | .fin _ m e => toFix m e
  | _ => 0

/-- Terms z^(2i + 1) ÷ (2i + 1) from the i-th on; `pow` is z^(2i + 1). -/
def lnSeries (z : Nat) : Nat → Nat → Nat → Nat
  | 0, _, _ => 0
  | k + 1, i, pow => pow / (2 * i + 1) + lnSeries z k (i + 1) (pow * z / fixOne * z / fixOne)

/-- ln (m × 2^e) for m > 0: E ln 2 + 2 artanh ((M − 1) ÷ (M + 1)) with 1 ≤ M < 2. -/
def lnVal (m : Nat) (e : Int) : Val :=
  let l := Nat.log2 m
  let n := m <<< (128 + 64) >>> (64 + l)
  let z := ((n - fixOne) * fixOne) / (n + fixOne)
  let v : Int := (e + l) * fixLn2 + 2 * lnSeries z 45 0 z
  .fin (decide (v < 0)) v.natAbs (-128)

/-- Terms x^(2i + 1) ÷ (1 × 3 × … × (2i + 1)) from the i-th on, which is `term`. -/
def phiSeries (x : Nat) : Nat → Nat → Nat → Nat
  | 0, _, _ => 0
  | k + 1, i, term => term + phiSeries x k (i + 1) (term * x / fixOne * x / fixOne / (2 * i + 3))

/-- Φ(x) − 1/2 for a fixed-point x from 0 to 8 (08 R256). -/
def phiHalf (x : Nat) : Nat :=
  expFix (-((x * x / fixOne / 2 : Nat) : Int)) * fixInvRoot / fixOne * phiSeries x 200 0 x / fixOne

/-- x Φ(x) for |x| ≤ 8 (08 R252). -/
def geluVal (neg : Bool) (m : Nat) (e : Int) : Val :=
  let x := toFix m e
  let p := phiHalf x
  .fin neg (m * (if neg then fixOne / 2 - p else fixOne / 2 + p)) (e - 128)

/-- x ÷ (1 + e^−x) for |x| ≤ 16 (08 R252). -/
def siluVal (neg : Bool) (m : Nat) (e : Int) : Val :=
  let x : Int := toFix m e
  .fin neg (m <<< 256 / (fixOne + expFix (if neg then x else -x))) (e - 128)

/-! ### Reciprocals -/

/-- Whether FP32 number `y` lies within 1 ulp of 1 ÷ x, for x = m × 2^e (04 R156): |y × x − 1| ≤ ulp(y) × |x|. -/
def rcpOk (m : Nat) (e : Int) (y : Nat) : Bool :=
  match Fmt.decode .fp32 y with
  | .fin _ n f =>
    let p : Int := (m * n : Nat)
    let g := e + f
    -- compare in units of 2^g: 1 is 2^(-g); one ulp of y is its last place
    let ulp : Int := (if bitsAt y 23 8 = 0 then (-149 : Int) else (bitsAt y 23 8 : Int) - 150)
    let lo := min (min g 0) (e + ulp)
    let a := p * (2 : Int) ^ (g - lo).toNat
    let one := (2 : Int) ^ (0 - lo).toNat
    let t := (m : Int) * (2 : Int) ^ (e + ulp - lo).toNat
    decide ((a - one).natAbs ≤ t.natAbs)
  | _ => false

/-- ⌊√n⌋ by bisection on the bits, from bit `k` down. -/
def isqrtGo (n : Nat) : Nat → Nat → Nat
  | 0, r => r
  | k + 1, r => let t := r + 2 ^ k; isqrtGo n k (if t * t ≤ n then t else r)

/-- A quotient m ÷ d × 2^e narrowed to FP32 to nearest even, with enough quotient bits that one sticky bit decides. -/
def quotient32 (neg : Bool) (m d : Nat) (e : Int) : Nat :=
  if d = 0 then withSign .fp32 neg 0x7F800000
  else
    let k := 400
    let q := (m <<< k) / d
    let st := if (m <<< k) % d = 0 then 0 else 1
    (narrow .fp32 .rne (.fin neg (2 * q + st) (e - k - 1))).bits

/-- 1 ÷ x for finite nonzero x: the unit's own mapping where it keeps the bound of R156, else the nearest value. -/
def rcp32 (x : Nat) : Nat :=
  match Fmt.decode .fp32 x with
  | .fin s m e =>
    let y := (Config.tone 3 x) % 2 ^ 31
    if rcpOk m e y then withSign .fp32 s y else quotient32 s 1 m (-e)
  | _ => 0

/-- 1 ÷ √x for finite positive x (04 R156). -/
def rsq32 (x : Nat) : Nat :=
  match Fmt.decode .fp32 x with
  | .fin _ m e =>
    -- x = m' × 2^(2h): 1 ÷ √x = 2^-h ÷ √m', and r is √m' with 100 bits after the point
    let m' := if e % 2 = 0 then m else 2 * m
    let h := if e % 2 = 0 then e / 2 else (e - 1) / 2
    let r := isqrtGo (m' <<< 200) 140 0
    bounded32 1 (-200) (Config.tone 4 x % 2 ^ 31) (.fin false (1 <<< 400 / max 1 r) (-h - 300))
  | _ => 0

/-- A magnitude with a sign. -/
def signInt (neg : Bool) (n : Nat) : Int := if neg then -(n : Int) else n

/-- The result of the tone unit on FP32 bits `x` (04 R156, R157). -/
def tone (t : Tone) (x : Nat) : Nat :=
  match Fmt.decode .fp32 x with
  | .nan => Fmt.nanCode .fp32
  | .inf s =>
    match t, s with
    | .exp, true => 0 | .exp2, true => 0
    | .exp, false => 0x7F800000 | .exp2, false => 0x7F800000
    | .ln, true => Fmt.nanCode .fp32 | .ln, false => 0x7F800000
    | .rcp, s => withSign .fp32 s 0
    | .rsq, true => Fmt.nanCode .fp32 | .rsq, false => 0
  | .fin s m e =>
    if m = 0 then
      match t with
      | .exp => 0x3F800000 | .exp2 => 0x3F800000
      | .ln => 0xFF800000
      | .rcp => withSign .fp32 s 0x7F800000
      | .rsq => withSign .fp32 s 0x7F800000
    else
      match t with
      | .exp =>
        if s && decide (0xC2CFF1B5 ≤ x % 2 ^ 32) then 0
        else if !s && decide (0x42B17218 ≤ x % 2 ^ 32) then 0x7F800000
        else bounded32 1 (-200) (Config.tone 0 x % 2 ^ 31) (expVal (signInt s (toFix m e)))
      | .exp2 =>
        -- an integer exponent gives the power of two exactly
        if 0 ≤ e || m % 2 ^ (-e).toNat = 0 then
          let k : Int := if 0 ≤ e then (m <<< e.toNat : Nat) else (m >>> (-e).toNat : Nat)
          let k := if s then -k else k
          if 127 < k then 0x7F800000 else if k < -150 then 0
          else if k < -149 then bounded32 1 (-200) (Config.tone 1 x % 2 ^ 31) (.fin false 1 k)
          else (narrow .fp32 .rne (.fin false 1 k)).bits
        else if s && decide (0xC3160000 < x % 2 ^ 32) then 0
        else if !s && decide (0x43000000 ≤ x % 2 ^ 32) then 0x7F800000
        else bounded32 1 (-200) (Config.tone 1 x % 2 ^ 31) (expVal (signInt s (toFix m e) * fixLn2 / fixOne))
      | .ln =>
        if s then Fmt.nanCode .fp32 else if x % 2 ^ 32 = 0x3F800000 then 0
        else bounded32 2 (-25) (Config.tone 2 x) (lnVal m e)
      | .rcp => rcp32 x
      | .rsq => if s then Fmt.nanCode .fp32 else rsq32 x

/-- The result is an infinity though the input was finite, in a case that R157 does not list as exact: INF_OUT (04 R157, R164;
10 R312: the logarithm of 0 sets no flag; entry 124). -/
def toneInfOut (x y : Nat) : Bool :=
  (match Fmt.decode .fp32 x with
   | .fin _ m _ => decide (m ≠ 0)
   | _ => false) && (Fmt.decode .fp32 y).isInf

end Sys2Proof.Machine
end

