-- ==== Sys2Proof/Machine/Bundle.lean ====
section
/-! DEFINITION. The bundle and its five slots (03 R96 to R103, 05 R171, 10 R307): what their fields say, and which
encodings are reserved (03 R97). -/
namespace Sys2Proof.Machine

/-- The scalar operations with a register and an immediate form (03 R98). -/
inductive AluOp where
  | add | sub | and | or | xor | shl | shr | sra | mul | min | max | slt | sltu | seq
  deriving DecidableEq, Repr

/-- The scalar slot (03 R98). -/
inductive ScSlot where
  | nop
  | alu (op : AluOp) (sd sa sb : Reg4)
  | alui (op : AluOp) (sd sa : Reg4) (imm : BitVec 14)
  | lui (sd : Reg4) (imm : BitVec 18)
  | lds (sd sa : Reg4) (imm : BitVec 14)
  | sts (sd sa : Reg4) (imm : BitVec 14)
  | ptest (sd sa : Reg4) (imm : BitVec 14)
  | rds (sd : Reg4) (item : BitVec 14)
  | tdset (td : Fin 8) (w : Fin 4) (sa : Reg4)
  | beqz (sa : Reg4) (imm : BitVec 14)
  | bnez (sa : Reg4) (imm : BitVec 14)
  | br (imm : BitVec 14)
  deriving DecidableEq, Repr

/-- The vector operations on registers (03 R99, 05 R171, 10 R307). -/
inductive VOp where
  | fadd | fsub | fmul | ffma | fmin | fmax | iadd | isub | imul | and | or | xor | shl | shr
  | fcmplt | fcmpeq | icmplt | sel | cvt | vrand | perm | lred | wupd | lmax
  | exp | exp2 | ln | rcp | rsq | rscl | pexp | rcpz
  deriving DecidableEq, Repr

/-- The vector slot (03 R99). -/
inductive VSlot where
  | nop
  | op (o : VOp) (f : VFields)
  | vld (mask : Fin 8) (vd sa : Reg4) (line : BitVec 11)
  | vst (mask : Fin 8) (vd sa : Reg4) (line : BitVec 11)
  | vsplat (mask : Fin 8) (vd sa : Reg4)
  deriving DecidableEq, Repr

/-- The cube slot (03 R100). -/
inductive CSlot where
  | nop
  | op (o : CubeOp) (td : Fin 8) (rnd : BitVec 2)
  deriving DecidableEq, Repr

/-- The move slot (03 R102). -/
inductive MSlot where
  | nop
  | out (slot : Fin 32) (reg : Reg4)
  | outl (slot : Fin 32) (reg : Reg4) (off : BitVec 11)
  | take (slot : Fin 32) (reg : Reg4)
  | takel (slot : Fin 32) (reg : Reg4) (off : BitVec 11)
  | lpost (dst reg : Reg4) (off : BitVec 11)
  | ltake (dst reg : Reg4) (off : BitVec 11)
  deriving DecidableEq, Repr

/-- The shaft slot (03 R103); counts are COUNT − 1. -/
inductive ShSlot where
  | nop
  | ld (sa sb : Reg4) (count : Fin 64) (bypass : Bool)
  | st (sa sb : Reg4) (count : Fin 64)
  | nm (sb : Reg4)
  | fenceNm (sa : Reg4) (count : Fin 64)
  | fenceShaft
  | code (sa sb : Reg4) (count : Fin 64)
  | cinv (sa : Reg4) (count : Fin 64)
  deriving DecidableEq, Repr

/-- A bundle (03 R96). -/
structure Bundle where
  end_ : Bool
  halt : Bool
  sc : ScSlot
  v : VSlot
  cube : CSlot
  mv : MSlot
  sh : ShSlot
  deriving DecidableEq, Repr

/-- A bundle of five NOPs. -/
def Bundle.nops : Bundle := ⟨false, false, .nop, .nop, .nop, .nop, .nop⟩

def reg4 (n : Nat) : Reg4 := Fin.ofNat 16 n
def fin8 (n : Nat) : Fin 8 := Fin.ofNat 8 n

/-- OP 0x01 to 0x0E and, 0x10 higher, the immediate forms. -/
def AluOp.ofCode : Nat → Option AluOp
  | 1 => some .add | 2 => some .sub | 3 => some .and | 4 => some .or | 5 => some .xor | 6 => some .shl
  | 7 => some .shr | 8 => some .sra | 9 => some .mul | 10 => some .min | 11 => some .max | 12 => some .slt
  | 13 => some .sltu | 14 => some .seq | _ => none

/-- The scalar slot's 28 bits; none is a reserved encoding. Bits that a form does not use (SD of BEQZ, BNEZ and BR, SA of RDS
and BR, all of NOP's) are ignored (DESIGN CHOICE, entry 113). -/
def decodeScalar (w : Nat) : Option ScSlot :=
  let op := bitsAt w 22 6
  let sd := reg4 (bitsAt w 18 4)
  let sa := reg4 (bitsAt w 14 4)
  let imm := BitVec.ofNat 14 (bitsAt w 0 14)
  if op = 0 then some .nop
  else if op = 0x20 then some (.lui sd (BitVec.ofNat 18 (bitsAt w 0 18)))
  else if op = 0x21 then some (.lds sd sa imm)
  else if op = 0x22 then some (.sts sd sa imm)
  else if op = 0x23 then some (.ptest sd sa imm)
  else if op = 0x24 then some (.rds sd imm)
  else if op = 0x25 then
    if bitsAt w 2 12 = 0 && bitsAt w 21 1 = 0 then
      some (.tdset (fin8 (bitsAt w 18 3)) (Fin.ofNat 4 (bitsAt w 0 2)) sa)
    else none
  else if op = 0x28 then some (.beqz sa imm)
  else if op = 0x29 then some (.bnez sa imm)
  else if op = 0x2A then some (.br imm)
  else
    match AluOp.ofCode (op % 16), op / 16 with
    | some a, 0 => if bitsAt w 0 10 = 0 then some (.alu a sd sa (reg4 (bitsAt w 10 4))) else none
    | some a, 1 => some (.alui a sd sa imm)
    | _, _ => none

/-- OP codes of the vector slot's register operations. -/
def VOp.ofCode : Nat → Option VOp
  | 0x01 => some .fadd | 0x02 => some .fsub | 0x03 => some .fmul | 0x04 => some .ffma | 0x05 => some .fmin
  | 0x06 => some .fmax | 0x08 => some .iadd | 0x09 => some .isub | 0x0A => some .imul | 0x0B => some .and
  | 0x0C => some .or | 0x0D => some .xor | 0x0E => some .shl | 0x0F => some .shr | 0x10 => some .fcmplt
  | 0x11 => some .fcmpeq | 0x12 => some .icmplt | 0x14 => some .sel | 0x18 => some .cvt | 0x19 => some .vrand
  | 0x1A => some .perm | 0x1B => some .lred | 0x1C => some .wupd | 0x1D => some .lmax | 0x20 => some .exp
  | 0x21 => some .exp2 | 0x22 => some .ln | 0x23 => some .rcp | 0x24 => some .rsq | 0x25 => some .rscl
  | 0x26 => some .pexp | 0x27 => some .rcpz | _ => none

/-- The vector slot's 32 bits. Register fields that an operation does not use (VB and VC of unary operations, VC of those of two
operands), and NOP's fields but for the reserved bit, are ignored (DESIGN CHOICE, entry 113). -/
def decodeVector (w : Nat) : Option VSlot :=
  let op := bitsAt w 25 7
  let mask := fin8 (bitsAt w 22 3)
  let vd := reg4 (bitsAt w 18 4)
  let va := reg4 (bitsAt w 14 4)
  if op = 0 then (if bitsAt w 1 1 = 0 then some .nop else none)
  else if op = 0x30 then
    if bitsAt w 0 3 = 0 then some (.vld mask vd va (BitVec.ofNat 11 (bitsAt w 3 11))) else none
  else if op = 0x31 then
    if bitsAt w 0 3 = 0 then some (.vst mask vd va (BitVec.ofNat 11 (bitsAt w 3 11))) else none
  else if op = 0x32 then if bitsAt w 0 14 = 0 then some (.vsplat mask vd va) else none
  else
    match VOp.ofCode op with
    | some o =>
      if bitsAt w 1 1 = 0 then
        some (.op o ⟨mask, vd, va, reg4 (bitsAt w 10 4), reg4 (bitsAt w 6 4), BitVec.ofNat 2 (bitsAt w 4 2),
          BitVec.ofNat 2 (bitsAt w 2 2), w.testBit 0⟩)
      else none
    | none => none

/-- The cube slot's 16 bits. -/
def decodeCube (w : Nat) : Option CSlot :=
  let td := fin8 (bitsAt w 9 3)
  let rnd := BitVec.ofNat 2 (bitsAt w 7 2)
  if bitsAt w 0 7 ≠ 0 then none
  else
    match bitsAt w 12 4 with
    | 0 => some .nop
    | 1 => some (.op .tile td rnd)
    | 2 => some (.op .tileZ td rnd)
    | 3 => some (.op .mv td rnd)
    | 4 => some (.op .mvZ td rnd)
    | 5 => some (.op .conv td rnd)
    | _ => none

/-- The move slot's 24 bits. OFF is unused by OUT and TAKE, SLOT[4] by LPOST and LTAKE; the spec reserves neither. -/
def decodeMove (w : Nat) : Option MSlot :=
  let slot := Fin.ofNat 32 (bitsAt w 15 5)
  let reg := reg4 (bitsAt w 11 4)
  let off := BitVec.ofNat 11 (bitsAt w 0 11)
  match bitsAt w 20 4 with
  | 0 => some .nop
  | 1 => some (.out slot reg)
  | 2 => some (.outl slot reg off)
  | 3 => some (.take slot reg)
  | 4 => some (.takel slot reg off)
  | 5 => some (.lpost (reg4 (bitsAt w 15 4)) reg off)
  | 6 => some (.ltake (reg4 (bitsAt w 15 4)) reg off)
  | _ => none

/-- The shaft slot's 24 bits: FLAGS bits not named are reserved. Fields that a form does not use (SA, SB and COUNT of
FENCE.SHAFT, SA and COUNT of NM, SB of FENCE.NM and CINV, NOP's) are ignored (DESIGN CHOICE, entry 113). -/
def decodeShaft (w : Nat) : Option ShSlot :=
  let sa := reg4 (bitsAt w 15 4)
  let sb := reg4 (bitsAt w 11 4)
  let count := Fin.ofNat 64 (bitsAt w 5 6)
  let flags := bitsAt w 0 5
  if bitsAt w 19 5 = 1 then if flags < 2 then some (.ld sa sb count (flags = 1)) else none
  else if flags ≠ 0 then none
  else
    match bitsAt w 19 5 with
    | 0 => some .nop
    | 2 => some (.st sa sb count)
    | 3 => some (.nm sb)
    | 4 => some (.fenceNm sa count)
    | 5 => some .fenceShaft
    | 6 => some (.code sa sb count)
    | 7 => some (.cinv sa count)
    | _ => none

/-- A bundle's 128 bits (03 R96, R97): none where a slot's encoding is reserved, a reserved bit is set, or END and HALT
are both set. -/
def decodeBundle (w : BitVec 128) : Option Bundle :=
  let n := w.toNat
  if n.testBit 127 && n.testBit 126 then none
  else if bitsAt n 124 2 ≠ 0 then none
  else
    match decodeScalar (bitsAt n 96 28), decodeVector (bitsAt n 64 32), decodeCube (bitsAt n 48 16),
        decodeMove (bitsAt n 24 24), decodeShaft (bitsAt n 0 24) with
    | some a, some b, some c, some d, some e => some ⟨n.testBit 127, n.testBit 126, a, b, c, d, e⟩
    | _, _, _, _, _ => none

/-- Cycles from issue to result (03 R99, 05 R171, 10 R307). -/
def VOp.cycles : VOp → Nat
  | .fadd => 4 | .fsub => 4 | .fmul => 4 | .ffma => 4 | .fmin => 4 | .fmax => 4 | .cvt => 4 | .vrand => 4
  | .iadd => 2 | .isub => 2 | .imul => 2 | .and => 2 | .or => 2 | .xor => 2 | .shl => 2 | .shr => 2
  | .fcmplt => 2 | .fcmpeq => 2 | .icmplt => 2 | .sel => 2 | .perm => 2
  | .lred => 8 | .wupd => 8 | .lmax => 8 | .exp => 8 | .exp2 => 8 | .ln => 8 | .rcp => 8 | .rsq => 8
  | .rscl => 8 | .pexp => 8 | .rcpz => 8

/-- The comparisons write a mask register, not VD (03 R99). -/
def VOp.isCmp : VOp → Bool
  | .fcmplt => true | .fcmpeq => true | .icmplt => true | _ => false

/-- The tone unit's operations (04 R156, 10 R307). -/
def VOp.isTone : VOp → Bool
  | .exp => true | .exp2 => true | .ln => true | .rcp => true | .rsq => true
  | .rscl => true | .pexp => true | .rcpz => true | _ => false

/-- Operations that F16 may select a format for in 16-bit width (03 R99). -/
def VOp.takesF16 : VOp → Bool
  | .fadd => true | .fsub => true | .fmul => true | .ffma => true | .fmin => true | .fmax => true
  | .fcmplt => true | .fcmpeq => true | _ => false

/-- FADD, FSUB, FMUL, FFMA: stochastic rounding is reserved (04 R151). -/
def VOp.isArith : VOp → Bool
  | .fadd => true | .fsub => true | .fmul => true | .ffma => true | _ => false

/-- Operations of 32 lanes only: WIDTH 1 is ILLEGAL_BUNDLE (03 R99 LRED, 05 R171, 10 R307). DEDUCED for EXP, EXP2, LN,
RCP and RSQ: the tone unit has 32 FP32 lanes and no 16-bit form (04 R156; entry 15). -/
def VOp.only32 (o : VOp) : Bool := o.isTone || decide (o = .lred) || decide (o = .wupd) || decide (o = .lmax)

/-- Source vector registers an operation reads besides the mask (03 R99). -/
def VOp.reads (o : VOp) (f : VFields) : List Nat :=
  match o with
  | .ffma => [f.va.val, f.vb.val, f.vc.val]
  | .fadd => [f.va.val, f.vb.val] | .fsub => [f.va.val, f.vb.val] | .fmul => [f.va.val, f.vb.val]
  | .fmin => [f.va.val, f.vb.val] | .fmax => [f.va.val, f.vb.val]
  | .iadd => [f.va.val, f.vb.val] | .isub => [f.va.val, f.vb.val] | .imul => [f.va.val, f.vb.val]
  | .and => [f.va.val, f.vb.val] | .or => [f.va.val, f.vb.val] | .xor => [f.va.val, f.vb.val]
  | .shl => [f.va.val, f.vb.val] | .shr => [f.va.val, f.vb.val]
  | .fcmplt => [f.va.val, f.vb.val] | .fcmpeq => [f.va.val, f.vb.val] | .icmplt => [f.va.val, f.vb.val]
  | .sel => [f.va.val, f.vb.val] | .perm => [f.va.val, f.vb.val]
  | .rscl => [f.va.val, f.vb.val] | .pexp => [f.va.val, f.vb.val]
  | .wupd => [f.vd.val, f.va.val, f.vb.val]
  | .vrand => []
  | .cvt => [f.va.val] | .lred => [f.va.val] | .lmax => [f.va.val]
  | .exp => [f.va.val] | .exp2 => [f.va.val] | .ln => [f.va.val] | .rcp => [f.va.val] | .rsq => [f.va.val]
  | .rcpz => [f.va.val]

/-- The fields of a vector operation break no encoding rule (03 R99; 04 R151, R154; 05 R168, R171, R184; 10 R307). -/
def vFieldsOk (o : VOp) (f : VFields) (mirel : Bool) : Bool :=
  let w16 := decide (f.width = 1)
  decide (f.width.toNat ≤ 1)
  && decide (f.rnd ≠ 3)
  && (!f.f16 || (w16 && o.takesF16))
  && !(o.isArith && decide (f.rnd = 1))
  && !(o.only32 && w16)
  && !(o.isCmp && decide (f.vd.val % 8 = 0))
  && !(decide (o = .wupd) && mirel)
  && (if o = .cvt then
        match Fmt.ofCode f.vb.val, Fmt.ofCode f.vc.val with
        | some a, some b =>
          !(w16 && (decide (a = .fp32) || decide (b = .fp32)))
        | _, _ => false
      else true)

/-- A tile descriptor read (03 R101); none where a field is reserved. -/
def decodeDesc (d : BitVec 128) : Option Desc :=
  let n := d.toNat
  let w0 := bitsAt n 0 32
  let w1 := bitsAt n 32 32
  let w2 := bitsAt n 64 32
  let w3 := bitsAt n 96 32
  if bitsAt w0 22 10 ≠ 0 || bitsAt w1 29 3 ≠ 0 || bitsAt w2 24 8 ≠ 0 || bitsAt w3 22 10 ≠ 0 then none
  else if bitsAt w1 15 6 = 0 then none
  else if 9 < bitsAt w1 21 4 || 9 < bitsAt w1 25 4 || 9 < bitsAt w3 11 4 then none
  else if 7 < bitsAt w3 16 4 || bitsAt w3 20 2 = 3 then none
  else
    some
      { aLine := bitsAt w0 0 11, bLine := bitsAt w0 11 11, cLine := bitsAt w1 0 11,
        m := 8 * 2 ^ bitsAt w1 11 2, n := 32 * 2 ^ bitsAt w1 13 2, k := 4 * bitsAt w1 15 6,
        aFmt := bitsAt w1 21 4, bFmt := bitsAt w1 25 4, aScl := bitsAt w2 0 11, bScl := bitsAt w2 11 11,
        aScaled := w2.testBit 22, bScaled := w2.testBit 23, outLine := bitsAt w3 0 11,
        outFmt := bitsAt w3 11 4, outScaled := w3.testBit 15, batch := bitsAt w3 16 4 + 1,
        bOrder := bitsAt w3 20 2 }

def CubeOp.isTile : CubeOp → Bool
  | .tile => true | .tileZ => true | _ => false
def CubeOp.isMv : CubeOp → Bool
  | .mv => true | .mvZ => true | _ => false

/-- A format code of an integer operand. -/
def intCode (c : Nat) : Bool := decide (c = 8) || decide (c = 9)

/-- K4 is one to 64 in six bits, so a full 64 cannot be written; K is 4 to 252 (03 R101). -/
def Desc.legal (d : Desc) (o : CubeOp) (mirel : Bool) : Bool :=
  let scalesOk := (!d.aScaled || (3 ≤ d.aFmt && d.aFmt ≤ 8)) && (!d.bScaled || (3 ≤ d.bFmt && d.bFmt ≤ 8))
    && (!(d.aScaled || d.bScaled) || d.k % 32 = 0)
  let mirelOk := !mirel ||
    ((1 ≤ d.aFmt && (d.aFmt ≤ 4 || d.aFmt = 8)) && (1 ≤ d.bFmt && (d.bFmt ≤ 4 || d.bFmt = 8))
      && !d.aScaled && !d.bScaled)
  match o with
  | .conv =>
    d.bOrder = 0 && (if d.outScaled then 3 ≤ d.outFmt && d.outFmt ≤ 8 else d.outFmt ≤ 8)
      && (!mirel || (!d.outScaled && (d.outFmt ≤ 4 || d.outFmt = 8)))
  | .mv => 1 ≤ d.aFmt && d.aFmt ≤ 4 && 1 ≤ d.bFmt && d.m = 8 && scalesOk && mirelOk
  | .mvZ => 1 ≤ d.aFmt && d.aFmt ≤ 4 && 1 ≤ d.bFmt && d.m = 8 && scalesOk && mirelOk
  | _ => 1 ≤ d.aFmt && 1 ≤ d.bFmt && (intCode d.aFmt == intCode d.bFmt) && scalesOk && mirelOk

/-- Bits of a format code. -/
def fmtBits (c : Nat) : Nat := ((Fmt.ofCode c).getD .fp32).bits

/-- The line ranges (first, count) that a cube-slot operation reads (04 R133 to R137, R147, R159). -/
def Desc.reads (d : Desc) (o : CubeOp) : List (Nat × Nat) :=
  let c := (d.cLine, d.m * (d.n / 32))
  let a := (d.aLine, lineCount (d.m * d.k) (fmtBits d.aFmt))
  let b := (d.bLine, lineCount (d.n * d.k) (fmtBits d.bFmt))
  let sa := if d.aScaled then [(d.aScl, lineCount (d.m * (d.k / 32)) 8)] else []
  let sb := if d.bScaled then [(d.bScl, lineCount (d.n * (d.k / 32)) 8)] else []
  match o with
  | .conv => [c]
  | .tileZ => [a, b] ++ sa ++ sb
  | .mvZ => [a, b] ++ sa ++ sb
  | .tile => [a, b, c] ++ sa ++ sb
  | .mv =>
    [a, b] ++ sa ++ sb ++ (upFrom 0 (d.n / 32)).map (fun p => (d.cLine + p * d.m, d.batch))

/-- Lines of CONV's elements, and of the block scales after them (04 R147). -/
def Desc.outLines (d : Desc) : Nat :=
  lineCount (d.m * d.n) (fmtBits d.outFmt) + (if d.outScaled then lineCount (d.m * (d.n / 32)) 8 else 0)

/-- The line ranges that a cube-slot operation writes: an MV pass writes the rows of its batch (04 R159). -/
def Desc.writes (d : Desc) (o : CubeOp) : List (Nat × Nat) :=
  match o with
  | .conv => [(d.outLine, d.outLines)]
  | .tile => [(d.cLine, d.m * (d.n / 32))]
  | .tileZ => [(d.cLine, d.m * (d.n / 32))]
  | _ => (upFrom 0 (d.n / 32)).map (fun p => (d.cLine + p * d.m, d.batch))

/-- The step depth of the cubes by the wider operand (04 R139), and of the MV path by the weights (04 R158). -/
def stepDepth (d : Desc) (o : CubeOp) : Nat :=
  if o.isMv then (if fmtBits d.bFmt ≤ 8 then 4 else 2)
  else
    let w := max (fmtBits d.aFmt) (fmtBits d.bFmt)
    if w ≤ 6 then 8 else if w ≤ 8 then 4 else 2

/-- Cycles a cube-slot operation occupies its unit (04 R145, R148, R160; 05 R185). -/
def Desc.cycles (d : Desc) (o : CubeOp) (mirel : Bool) : Nat :=
  let s := ceilDiv d.k (stepDepth d o)
  match o with
  | .conv => d.m * d.n / 32 + 6
  | .tile => 6 + d.m + (if mirel then d.n / 32 * (d.m / 8) * 8 * s else d.n / 32 * (d.m / 8) * max s 8) + d.m
  | .tileZ => 6 + (if mirel then d.n / 32 * (d.m / 8) * 8 * s else d.n / 32 * (d.m / 8) * max s 8) + d.m
  | .mv => 6 + 8 + (if mirel then d.n / 32 * 8 * s else d.n / 32 * max s 8) + 8
  | .mvZ => 6 + (if mirel then d.n / 32 * 8 * s else d.n / 32 * max s 8) + 8

end Sys2Proof.Machine
end

