-- ==== Sys2Proof/Machine/VecOps.lean ====
section
/-! DEFINITION. What the vector unit and the tone unit compute (03 R99; 04 R151 to R157; 05 R171, R172, R184;
10 R307 to R309), lane by lane on exact values. -/
namespace Sys2Proof.Machine

/-- One lane's result and what it reports. -/
abbrev LaneOut := Nat × Flg

/-- A value narrowed to FP32, FP16 or BF16 by FADD and its kin (04 R155), Mirel flushing included (05 R184). A result
that became infinite from finite operands is INF_OUT (04 R164). -/
def fpOut (f : Fmt) (md : Rmode) (mirel : Bool) (v : Val) (nanIn : Bool) : LaneOut :=
  let r := narrow f md v
  (if mirel then f.flush r.bits else r.bits, { Flg.none with nanIn := nanIn, infOut := r.toInf })

/-- An operand read, with the Mirel's flush of subnormals (05 R184). -/
def fpIn (f : Fmt) (mirel : Bool) (n : Nat) : Val := f.decode (if mirel then f.flush n else n)

/-- The smaller of two values, −0 below +0; a NaN gives NaN (04 R155). -/
def fminV (a b : Val) : Val :=
  if a.isNan || b.isNan then .nan
  else if Val.lt a b then a else if Val.lt b a then b else if a.neg? then a else b

/-- The larger of two values, −0 below +0; a NaN gives NaN (04 R155). -/
def fmaxV (a b : Val) : Val :=
  if a.isNan || b.isNan then .nan
  else if Val.lt a b then b else if Val.lt b a then a else if a.neg? then b else a

/-- RND of an operation that rounds by 04 R151 without draws. -/
def rmodeOf (rnd : BitVec 2) : Rmode := if rnd = 2 then .rtz else .rne

/-- A stochastic rounding of an element, in Mirel mode by its 16-bit comparison (04 R152, 05 R184). -/
def stochMode (mirel : Bool) (draw : Nat) : Rmode := if mirel then .mirel draw else .stoch draw

/-- EXP of the rounded difference VA − VB (10 R308). -/
def expDiff (a b : Val) : Nat := tone .exp (narrow .fp32 .rne (Val.add a b.flip)).bits

/-- One tone-unit lane (04 R156, R157; 10 R307 to R309). -/
def toneLane (o : VOp) (a b : Nat) : LaneOut :=
  let x := Fmt.decode .fp32 a
  let y := Fmt.decode .fp32 b
  let out (r : Nat) (nanIn infIn infOut : Bool) : LaneOut :=
    let isN := (Fmt.decode .fp32 r).isNan
    (r, { Flg.none with nanIn := nanIn, infIn := infIn, infOut := infOut, nanN := isN.toNat, nanEvt := isN,
                        infEvt := infOut })
  let isInfR (r : Nat) : Bool := (Fmt.decode .fp32 r).isInf
  let posInf (v : Val) : Bool := decide (v = .inf false)
  match o with
  | .exp => let r := tone .exp a; out r x.isNan false (toneInfOut a r)
  | .exp2 => let r := tone .exp2 a; out r x.isNan false (toneInfOut a r)
  | .ln => let r := tone .ln a; out r x.isNan false (toneInfOut a r)
  | .rcp => let r := tone .rcp a; out r x.isNan false (toneInfOut a r)
  | .rsq => let r := tone .rsq a; out r x.isNan false (toneInfOut a r)
  | .rcpz => let r := if x.isZero then 0 else tone .rcp a; out r x.isNan false (toneInfOut a r)
  | .rscl =>
    let nan := x.isNan || y.isNan
    let r := if nan then Fmt.nanCode .fp32 else if Val.eq x y then 0x3F800000 else expDiff x y
    out r nan false (isInfR r && !posInf x && !posInf y)
  | .pexp =>
    let nan := x.isNan || y.isNan
    let r := if nan then Fmt.nanCode .fp32 else if x = .inf true then 0 else expDiff x y
    let (r, g) := out r nan (posInf x) (isInfR r && !posInf x && !posInf y)
    (r, { g with scoreNan := x.isNan.toNat, scoreInf := (posInf x).toNat })
  | _ => (0, Flg.none)

/-- The shift count of SHL and SHR (03 R99): VB[4:0] in 32-bit width, VB[3:0] in 16-bit width. -/
def laneShift (w b : Nat) : Nat := b % w

/-- One lane of an operation that works lane by lane, on elements of `w` bits. -/
def laneOp (o : VOp) (fm : Fmt) (md : Rmode) (mirel : Bool) (w a b c : Nat) (maskBit : Bool) : LaneOut :=
  let x := fpIn fm mirel a
  let y := fpIn fm mirel b
  let z := fpIn fm mirel c
  let nan2 := x.isNan || y.isNan
  match o with
  | .fadd => fpOut fm md mirel (Val.add x y) nan2
  | .fsub => fpOut fm md mirel (Val.add x y.flip) nan2
  | .fmul => fpOut fm md mirel (Val.mul x y) nan2
  | .ffma => fpOut fm md mirel (Val.add (Val.mul x y) z) (nan2 || z.isNan)
  | .fmin =>
    (if (fm.decode a).isNan || (fm.decode b).isNan then fm.nanCode
     else (narrow fm .rne (fminV (fm.decode a) (fm.decode b))).bits,
      { Flg.none with nanIn := (fm.decode a).isNan || (fm.decode b).isNan })
  | .fmax =>
    (if (fm.decode a).isNan || (fm.decode b).isNan then fm.nanCode
     else (narrow fm .rne (fmaxV (fm.decode a) (fm.decode b))).bits,
      { Flg.none with nanIn := (fm.decode a).isNan || (fm.decode b).isNan })
  | .iadd => ((a + b) % 2 ^ w, Flg.none)
  | .isub => ((a + 2 ^ w - b % 2 ^ w) % 2 ^ w, Flg.none)
  | .imul => ((a * b) % 2 ^ w, Flg.none)
  | .and => (a &&& b, Flg.none)
  | .or => (a ||| b, Flg.none)
  | .xor => (a ^^^ b, Flg.none)
  | .shl => ((a <<< laneShift w b) % 2 ^ w, Flg.none)
  | .shr => (a >>> laneShift w b, Flg.none)
  | .sel => (if maskBit then a else b, Flg.none)
  | _ => toneLane o a b

/-- A comparison's lane (03 R99, 04 R155). -/
def cmpLane (o : VOp) (fm : Fmt) (w a b : Nat) : Bool × Bool :=
  let x := fm.decode a
  let y := fm.decode b
  match o with
  | .fcmplt => (Val.lt x y, x.isNan || y.isNan)
  | .fcmpeq => (Val.eq x y, x.isNan || y.isNan)
  | _ => (decide (signed w a < signed w b), false)

/-- ulp(v) of a BF16 code as a power of two (05 R172). -/
def bfUlp (c : Nat) : Int := if bitsAt c 7 8 = 0 then -133 else (bitsAt c 7 8 : Int) - 134

/-- An exact quotient n ÷ d × 2^e rounded to FP32 to nearest even, for d > 0. -/
def divFp32 (n d : Nat) (e : Int) : Nat := if n = 0 then 0 else quotient32 false n d e

/-- One active lane of WUPD (05 R172): the weight, its remainder, the report and the ratio-watch contribution. A NaN in VB, which
only the ratio watch reads, sets no NAN_IN (DEDUCED, entry 137). -/
def wupdLane (md : Rmode) (w r delta vb : Nat) (set : Nat) : Nat × Nat × Flg × RwUpd :=
  let wv := Fmt.decode .bf16 w
  let dv := Fmt.decode .fp32 delta
  let rem : Val := (Val.ofInt (signed 8 r)).shift (bfUlp w - 7)
  let x := Val.add (Val.add wv rem) dv
  let bv := Fmt.decode .fp32 vb
  let ex : Option Int :=
    match bv with
    | .fin _ m e => if m = 0 then none else some (log2Of m e)
    | _ => none
  if x.isNan || dv.isNan then
    (Fmt.nanCode .bf16, 0, { Flg.none with nanIn := true }, ⟨set, none, none⟩)
  else
    let nw := narrow .bf16 md x
    let w' := nw.bits
    let diff := Val.add x (Fmt.decode .bf16 w').flip
    let q := diff.shift (7 - bfUlp w')
    let (r', cl) : Nat × Bool :=
      match q with
      | .fin s m e =>
        let n := toUnits .rne m e 0
        if 127 < n then (withSign .int8 s 127, true) else (withSign .int8 s n, false)
      | .inf s => (withSign .int8 s 127, true)
      | .nan => (0, false)
    let sat := nw.sat || cl
    let rho : Option Nat :=
      match dv, wv with
      | .fin _ dm de, .fin _ wm we =>
        -- the larger of |w| and 2^-24 as m × 2^e
        if Val.lt (.fin false wm we) (.fin false 1 (-24)) then some (divFp32 dm 1 (de + 24))
        else some (divFp32 dm wm (de - we))
      | .inf _, _ => some 0x7F800000
      | _, _ => some 0
    (w', r', { Flg.none with sat := sat, satN := sat.toNat, infOut := nw.toInf }, ⟨set, rho, ex⟩)

/-- What a vector operation gives: the new VD, or a mask; the report; ratio-watch contributions. -/
structure VRes where
  data : Line
  mask : BitVec 64
  flg : Flg
  rw : List RwUpd
  deriving DecidableEq, Repr

/-- A line packed from elements of `w` bits. -/
def lineOf (w : Nat) (es : List Nat) : Line := BitVec.ofNat 1024 (packElems w es)

/-- The sum of the active lanes as a chain of FP32 additions in ascending order (03 R99 LRED). -/
def lredGo (acc : Option Val) : List Val → Option Val
  | [] => acc
  | v :: r =>
    match acc with
    | none => lredGo (some v) r
    | some a => lredGo (some (Fmt.decode .fp32 (narrow .fp32 .rne (Val.add a v)).bits)) r

/-- A vector-slot register operation on whole operands. `draw` gives the draw of an element (03 R123, R124); `stoch`
says that the operation rounds stochastically (04 R151, 05 R168). -/
def vecExec (o : VOp) (f : VFields) (mirel stoch : Bool) (a b c old : Line) (mask oldMask : BitVec 64)
    (draw : Nat → Nat) : VRes :=
  let w16 := decide (f.width = 1)
  let w := if w16 then 16 else 32
  let n := if w16 then 64 else 32
  let fm : Fmt := if !w16 then .fp32 else if f.f16 then .bf16 else .fp16
  let el (l : Line) (i : Nat) : Nat := elemAt w i l.toNat
  let act (i : Nat) : Bool := mask.getLsbD i
  let lanes := upFrom 0 n
  match o with
  | .fcmplt | .fcmpeq | .icmplt =>
    let bits := lanes.map (fun i => if act i then cmpLane o fm w (el a i) (el b i) else (oldMask.getLsbD i, false))
    let m := packElems 1 (bits.map (fun p => p.1.toNat))
    { data := old, mask := BitVec.ofNat 64 m,
      flg := { Flg.none with nanIn := bits.any (fun p => p.2) }, rw := [] }
  | .cvt =>
    match Fmt.ofCode f.vb.val, Fmt.ofCode f.vc.val with
    | some src, some dst =>
      let one (i : Nat) : LaneOut :=
        let raw := elemAt src.bits i a.toNat
        let raw := if mirel then src.flush raw else raw
        let md := if stoch then stochMode mirel (draw i) else rmodeOf f.rnd
        let r := narrow dst md (src.decode raw)
        (if mirel then dst.flush r.bits else r.bits,
          { Flg.none with nanIn := (src.decode raw).isNan, sat := r.sat, satN := r.sat.toNat, nanLost := r.nanLost,
                          infOut := r.toInf })
      let rs := lanes.map (fun i =>
        if act i then one i else (elemAt dst.bits i old.toNat, Flg.none))
      { data := lineOf dst.bits (rs.map (fun p => p.1)), mask := oldMask, flg := Flg.all (rs.map (fun p => p.2)),
        rw := [] }
    | _, _ => { data := old, mask := oldMask, flg := Flg.none, rw := [] }
  | .vrand =>
    let rs := lanes.map (fun i =>
      if act i then (if w16 then draw i >>> 16 else draw i) else el old i)
    { data := lineOf w rs, mask := oldMask, flg := Flg.none, rw := [] }
  | .perm =>
    let rs := lanes.map (fun i => if act i then el a (el b i % n) else el old i)
    { data := lineOf w rs, mask := oldMask, flg := Flg.none, rw := [] }
  | .sel =>
    let rs := lanes.map (fun i => if act i then el a i else el b i)
    { data := lineOf w rs, mask := oldMask, flg := Flg.none, rw := [] }
  | .lred =>
    let vs := (lanes.filter act).map (fun i => Fmt.decode .fp32 (el a i))
    let sum : Nat := match lredGo none vs with
      | none => 0
      | some v => (narrow .fp32 .rne v).bits
    let rs := lanes.map (fun i => if act i then (if i = 0 then sum else 0) else el old i)
    { data := lineOf w rs, mask := oldMask,
      flg := { Flg.none with nanIn := vs.any Val.isNan,
                             infOut := !vs.any Val.isInf && (Fmt.decode .fp32 sum).isInf },
      rw := [] }
  | .lmax =>
    let vs := (lanes.filter act).map (fun i => Fmt.decode .fp32 (el a i))
    let mx := (narrow .fp32 .rne (vs.foldl fmaxV (.inf true))).bits
    let rs := lanes.map (fun i => if act i then mx else el old i)
    { data := lineOf w rs, mask := oldMask, flg := { Flg.none with nanIn := vs.any Val.isNan }, rw := [] }
  | .wupd =>
    let one (i : Nat) : Nat × Nat × Flg × Option RwUpd :=
      let wt := elemAt 16 i old.toNat
      let rm := elemAt 8 (64 + i) old.toNat
      if act i then
        let md := if stoch then stochMode mirel (draw i) else rmodeOf f.rnd
        match wupdLane md wt rm (el a i) (el b i) f.vc.val with
        | (w', r', g, u) => (w', r', g, some u)
      else (wt, rm, Flg.none, none)
    let rs := lanes.map one
    let ws := packElems 16 (rs.map (fun p => p.1))
    let ms := packElems 8 (rs.map (fun p => p.2.1))
    { data := BitVec.ofNat 1024 (ws + ms <<< 512), mask := oldMask,
      flg := Flg.all (rs.map (fun p => p.2.2.1)), rw := rs.filterMap (fun p => p.2.2.2) }
  | _ =>
    let md := rmodeOf f.rnd
    let rs := lanes.map (fun i =>
      if act i then laneOp o fm md mirel w (el a i) (el b i) (el c i) (act i) else (el old i, Flg.none))
    { data := lineOf w (rs.map (fun p => p.1)), mask := oldMask, flg := Flg.all (rs.map (fun p => p.2)), rw := [] }

/-- Bytes of inactive 32-bit lanes taken from `old` (03 R99: VLD, VST, VSPLAT). -/
def mergeLanes (mask : BitVec 64) (new old : Line) : Line :=
  lineOf 32 ((upFrom 0 32).map (fun i => if mask.getLsbD i then elemAt 32 i new.toNat else elemAt 32 i old.toNat))

end Sys2Proof.Machine
end

