-- ==== Sys2Proof/Machine/Cube.lean ====
section
/-! DEFINITION. What a cube-slot operation computes from the lines it names (04 R133 to R150, R158, R159; 05 R180 to
R184; 10 R306). Lines are read through a function; the results are whole lines. -/
namespace Sys2Proof.Machine

/-- Element `e` of `w` bits of the stream that starts at line `first` (04 R133); it may straddle two lines. -/
def streamElem (rd : Nat → Nat) (first w e : Nat) : Nat :=
  let b := e * w
  let l := first + b / 1024
  let o := b % 1024
  if o + w ≤ 1024 then bitsAt (rd l) o w
  else bitsAt (rd l + rd (l + 1) <<< 1024) o w

/-- Stream index of A's element (i, k) (04 R134). -/
def aIndex (k i kk : Nat) : Nat := i / 8 * 8 * k + kk * 8 + i % 8

/-- Stream index of B's element (k, j) by B_ORDER (04 R135, 10 R306). -/
def bIndex (order k n kk j : Nat) : Nat :=
  if order = 1 then kk * n + j else if order = 2 then j * k + kk else j / 32 * 32 * k + kk * 32 + j % 32

/-- An operand element's value: scaled integers are integer × 2^−6 (04 R142). -/
def opVal (code : Nat) (scaled mirel : Bool) (raw : Nat) : Val :=
  match Fmt.ofCode code with
  | some f =>
    let v := f.decode (if mirel then f.flush raw else raw)
    if f.isInt && scaled then v.shift (-6) else v
  | none => .nan

/-- Bounds of the groups of `k` values: 32 each, the last one shorter (04 R142); pairs in Mirel mode (05 R184). -/
def groups (size : Nat) : Nat → Nat → Nat → List (Nat × Nat)
  | 0, _, _ => []
  | fuel + 1, from_, k => if from_ < k then (from_, min size (k - from_)) :: groups size fuel (from_ + size) k else []

/-- One output element's accumulation (04 R142 to R144): the accumulator's FP32 code, the report, and whether a rounding
overflowed. With `sat` an overflowing rounding holds ±max finite (05 R180). A group that is NaN reports NAN_IN only, also where
an element of it was infinite (DEDUCED, entry 136). -/
def accumGo (mirel sat : Bool) (acc : Nat) : List Val → Nat × Flg × Bool
  | [] => (acc, Flg.none, false)
  | g :: r =>
    let a := Fmt.decode .fp32 (if mirel then Fmt.flush .fp32 acc else acc)
    let n := narrow .fp32 .rne (Val.add a g)
    let fin := !a.isNan && !a.isInf && !g.isNan && !g.isInf
    let ovf := fin && n.toInf
    let code := if ovf && sat then n.bits - 1 else if mirel then Fmt.flush .fp32 n.bits else n.bits
    match accumGo mirel sat code r with
    | (c, f, o) =>
      (c, Flg.or { Flg.none with nanIn := g.isNan, infIn := g.isInf, accOvf := ovf } f, ovf || o)

/-- A block-scale byte (04 R137). -/
def scaleByte (rd : Nat → Nat) (first idx : Nat) : Nat := streamElem rd first 8 idx

/-- The exact scaled sum of one group for output element (i, j) (04 R142, R143), times 2^-shift (05 R180, R181). -/
def groupSum (d : Desc) (rd : Nat → Nat) (mirel : Bool) (shift : Int) (i j : Nat) (g : Nat × Nat) : Val :=
  let wa := fmtBits d.aFmt
  let wb := fmtBits d.bFmt
  let prod (kk : Nat) : Val :=
    Val.mul (opVal d.aFmt d.aScaled mirel (streamElem rd d.aLine wa (aIndex d.k i kk)))
      (opVal d.bFmt d.bScaled mirel (streamElem rd d.bLine wb (bIndex d.bOrder d.k d.n kk j)))
  let s := Val.sum ((upFrom g.1 g.2).map prod)
  let gi := g.1 / 32
  let ea := if d.aScaled then scaleByte rd d.aScl ((i / 8 * (d.k / 32) + gi) * 8 + i % 8) else 127
  let eb := if d.bScaled then scaleByte rd d.bScl ((j / 32 * (d.k / 32) + gi) * 32 + j % 32) else 127
  if (d.aScaled && ea = 255) || (d.bScaled && eb = 255) then .nan
  else s.shift ((ea : Int) + eb - 254 - shift)

/-- The lines that a run gives, its report, and whether any rounding overflowed. -/
structure CubeOut where
  lines : List (Nat × Line)
  flg : Flg
  ovf : Bool
  deriving DecidableEq, Repr

/-- A TILE, TILE.Z, MV or MV.Z run (04 R141 to R144, R159): rows of the batch only for the MV path. -/
def gemm (o : CubeOp) (d : Desc) (rd : Nat → Nat) (mirel sat : Bool) (shift : Int) : CubeOut :=
  let rows := if o.isMv then d.batch else d.m
  let gs := groups (if mirel then 2 else 32) (d.k + 1) 0 d.k
  let fill := decide (o = .tile) || decide (o = .mv)
  let cell (l j i : Nat) : Nat × Flg × Bool :=
    accumGo mirel sat (if fill then elemAt 32 (j % 32) (rd l) else 0) (gs.map (groupSum d rd mirel shift i j))
  let line (p i : Nat) : (Nat × Line) × Flg × Bool :=
    let l := d.cLine + p * d.m + i
    let cs := (upFrom 0 32).map (fun q => cell l (p * 32 + q) i)
    let nanN := (cs.filter (fun c => (Fmt.decode .fp32 c.1).isNan)).length
    ((l, lineOf 32 (cs.map (fun c => c.1))),
      Flg.or { Flg.none with nanN := nanN, nanEvt := decide (0 < nanN) } (Flg.all (cs.map (fun c => c.2.1))),
      cs.any (fun c => c.2.2))
  let rs := (upFrom 0 (d.n / 32)).flatMap (fun p => (upFrom 0 rows).map (line p))
  { lines := rs.map (fun r => r.1), flg := Flg.all (rs.map (fun r => r.2.1)), ovf := rs.any (fun r => r.2.2) }

/-- emax of an element format (04 R150). -/
def emaxOf : Fmt → Int
  | .e4m3 => 8 | .e5m2 => 15 | .e3m2 => 4 | .e2m3 => 2 | .e2m1 => 2 | _ => 0

/-- The largest finite magnitude of a block as ⌊log2⌋; none if every finite value is 0 or none is finite (04 R150). -/
def amaxLog : List Val → Option Int
  | [] => none
  | v :: r =>
    let rest := amaxLog r
    match v with
    | .fin _ m e =>
      if m = 0 then rest
      else some (match rest with
        | some x => max x (log2Of m e)
        | none => log2Of m e)
    | _ => rest

/-- CONV (04 R147 to R150, R153; 05 R182): output lines and report. -/
def conv (d : Desc) (rd : Nat → Nat) (mirel : Bool) (ts : Int) (md : Nat → Rmode) : CubeOut :=
  let f := (Fmt.ofCode d.outFmt).getD .fp32
  let val (i j : Nat) : Val :=
    let raw := elemAt 32 (j % 32) (rd (d.cLine + j / 32 * d.m + i))
    Fmt.decode .fp32 (if mirel then Fmt.flush .fp32 raw else raw)
  let block (i b : Nat) : List Val := (upFrom (b * 32) 32).map (val i)
  -- scale exponent before and after ts (05 R182)
  let expo (i b : Nat) : Int :=
    match amaxLog (block i b) with
    | some l => max (-127) (min 127 (l - emaxOf f))
    | none => -127
  let sbyte (i b : Nat) : Nat :=
    if !f.hasNan && (block i b).any Val.isNan then 255 else (min (expo i b + ts) 127 + 127).toNat
  let elem (e : Nat) : Nat × Flg :=
    let i := e / (8 * d.n) * 8 + e % 8
    let j := e % (8 * d.n) / 8
    let v := val i j
    let sh : Int := if d.outScaled then ts - min (expo i (j / 32) + ts) 127 else ts
    let sh := if d.outScaled && f.isInt then sh + 6 else sh
    let r := narrow f (md e) (v.shift sh)
    let isN := r.isNan
    (if mirel then f.flush r.bits else r.bits,
      { Flg.none with nanIn := false, sat := r.sat, satN := r.sat.toNat, nanLost := r.nanLost, infOut := r.toInf,
                      nanN := isN.toNat, nanEvt := isN, infEvt := r.toInf })
  let es := (upFrom 0 (d.m * d.n)).map elem
  let ne := lineCount (d.m * d.n) f.bits
  let all := packElems f.bits (es.map (fun p => p.1))
  let scs : List Nat :=
    if d.outScaled then
      (upFrom 0 (d.m * (d.n / 32))).map (fun q =>
        let per := 8 * (d.n / 32)
        sbyte (q / per * 8 + q % 8) (q % per / 8))
    else []
  let sall := packElems 8 scs
  let cut (x l : Nat) : Line := BitVec.ofNat 1024 (x >>> (1024 * l))
  { lines := (upFrom 0 ne).map (fun l => (d.outLine + l, cut all l))
      ++ (upFrom 0 (d.outLines - ne)).map (fun l => (d.outLine + ne + l, cut sall l)),
    flg := Flg.all (es.map (fun p => p.2)), ovf := false }

end Sys2Proof.Machine
end

