-- ==== Sys2Proof/Machine/Operands.lean ====
section
/-! DEFINITION. The operands that a bundle names and their state (03 R88 to R94), the faults it can raise before it is
ready (03 R557), and its readiness (03 R88). -/
namespace Sys2Proof.Machine

/-- Context `x` of a core. -/
def Core.ctx (c : Core) (x : Nat) : Ctx := mgetD x Ctx.halted c.ctxs
def Core.setCtx (c : Core) (x : Nat) (k : Ctx) : Core := { c with ctxs := mput x k c.ctxs }

/-- Scalar register r of context x; s0 reads 0 (03 R81). -/
def Core.sreg (c : Core) (x r : Nat) : SReg :=
  if r = 0 then ⟨0, false, false⟩ else mgetD (x * 16 + r) ⟨0, false, false⟩ c.sregs
/-- A scalar register written; s0 keeps reading 0. -/
def Core.setSreg (c : Core) (x r : Nat) (v : SReg) : Core :=
  if r = 0 then c else { c with sregs := mput (x * 16 + r) v c.sregs }

/-- Vector register r of context x: EMPTY until written (03 R92). -/
def Core.vreg (c : Core) (x r : Nat) : Slot := mgetD (x * 16 + r) Slot.empty c.vregs
def Core.setVreg (c : Core) (x r : Nat) (v : Slot) : Core := { c with vregs := mput (x * 16 + r) v c.vregs }

/-- Mask register m of context x; m0 reads all ones (03 R81, R92). -/
def Core.mreg (c : Core) (x m : Nat) : MReg :=
  if m = 0 then ⟨BitVec.allOnes 64, false, false, false⟩ else mgetD (x * 8 + m) ⟨0, false, false, false⟩ c.mregs
def Core.setMreg (c : Core) (x m : Nat) (v : MReg) : Core :=
  if m = 0 then c else { c with mregs := mput (x * 8 + m) v c.mregs }

/-- Descriptor td of context x. -/
def Core.td (c : Core) (x t : Nat) : BitVec 128 := mgetD (x * 8 + t) 0 c.tds
def Core.setTd (c : Core) (x t : Nat) (v : BitVec 128) : Core := { c with tds := mput (x * 8 + t) v c.tds }

/-- Tray line l (03 R93). -/
def Core.line (c : Core) (l : Nat) : Slot := mgetD l Slot.empty c.tray
def Core.setLine (c : Core) (l : Nat) (v : Slot) : Core := { c with tray := mput l v c.tray }

/-- Outbound slot k is line 1,984 + k, inbound slot k line 2,016 + k (03 R93). -/
def outLine (k : Nat) : Nat := 1984 + k
def inLine (k : Nat) : Nat := 2016 + k

/-- Lines of the general area (03 R94). -/
def lineOk (l : Nat) : Bool := decide (l < 1984)
def rangeOk (r : Nat × Nat) : Bool := decide (r.2 = 0) || decide (r.1 + r.2 ≤ 1984)

/-- All lines of a range. -/
def linesOf (r : Nat × Nat) : List Nat := upFrom r.1 r.2

/-- Two ranges share a line. -/
def overlap (a b : Nat × Nat) : Bool := decide (a.1 < b.1 + b.2) && decide (b.1 < a.1 + a.2)

/-- Lines locked, in the core's current cycle, by an operation in flight or by a store that has not read them yet (03 R89). -/
def Core.locked (c : Core) (r : Nat × Nat) : Bool :=
  c.flights.any (fun f => f.lockTo.all (fun t => decide (c.cyc < t)) && f.locks.any (overlap r))
    || c.shq.any (fun q => decide (q.kind = .st) && overlap r (q.line, q.count))

/-- Lines that a shaft store holds locked (03 R86). -/
def Core.storeLocked (c : Core) (r : Nat × Nat) : Bool :=
  c.shq.any (fun q => decide (q.kind = .st) && overlap r (q.line, q.count))

/-- Value of a scalar register as a number. -/
def Core.sv (c : Core) (x : Nat) (r : Reg4) : Nat := (c.sreg x r.val).val.toNat

/-- A 32-bit sum of a register and a signed immediate of 14 bits times `k` (03 R98). -/
def addr14 (v : Nat) (imm : BitVec 14) (k : Int) : Nat := unsigned 32 ((v : Int) + imm.toInt * k)

/-- A 32-bit sum of a register and an unsigned offset (03 R99, R102). -/
def addrU (v n : Nat) : Nat := (v + n) % 2 ^ 32

/-- LDS and STS address a multiple of 4 from 0 to 0x3_DFFC (03 R98). -/
def wordAddrOk (a : Nat) : Bool := decide (a % 4 = 0) && decide (a ≤ 0x3DFFC)

/-- What a bundle names: vector registers read and written, line ranges read and written, scalars read, scalars read as
an address, a branch condition or by TDSET (03 R125), scalars written, masks read and written. -/
structure Names where
  vr : List Nat
  vw : List Nat
  lr : List (Nat × Nat)
  lw : List (Nat × Nat)
  sr : List Nat
  sa : List Nat
  sw : List Nat
  mr : List Nat
  mw : List Nat
  deriving DecidableEq, Repr

def Names.none : Names := ⟨[], [], [], [], [], [], [], [], []⟩

/-- Two slots' names together. -/
def Names.add (a b : Names) : Names :=
  ⟨a.vr ++ b.vr, a.vw ++ b.vw, a.lr ++ b.lr, a.lw ++ b.lw, a.sr ++ b.sr, a.sa ++ b.sa, a.sw ++ b.sw, a.mr ++ b.mr,
    a.mw ++ b.mw⟩

def scNames (c : Core) (x : Nat) : ScSlot → Names
  | .nop => Names.none
  | .alu _ sd sa sb => { Names.none with sr := [sa.val, sb.val], sw := [sd.val] }
  | .alui _ sd sa _ => { Names.none with sr := [sa.val], sw := [sd.val] }
  | .lui sd _ => { Names.none with sw := [sd.val] }
  | .lds sd sa imm =>
    { Names.none with sr := [sa.val], sa := [sa.val], sw := [sd.val], lr := [(addr14 (c.sv x sa) imm 4 / 128, 1)] }
  | .sts sd sa imm =>
    { Names.none with sr := [sa.val, sd.val], sa := [sa.val], lw := [(addr14 (c.sv x sa) imm 4 / 128, 1)] }
  | .ptest sd sa _ => { Names.none with sr := [sa.val], sa := [sa.val], sw := [sd.val] }
  | .rds sd _ => { Names.none with sw := [sd.val] }
  | .tdset _ _ sa => { Names.none with sr := [sa.val], sa := [sa.val] }
  | .beqz sa _ => { Names.none with sr := [sa.val], sa := [sa.val] }
  | .bnez sa _ => { Names.none with sr := [sa.val], sa := [sa.val] }
  | .br _ => Names.none

def vNames (c : Core) (x : Nat) : VSlot → Names
  | .nop => Names.none
  | .op o f =>
    let n := { Names.none with vr := o.reads f, mr := [f.mask.val] }
    if o.isCmp then { n with mw := [f.vd.val % 8] } else { n with vw := [f.vd.val] }
  | .vld m vd sa l =>
    { Names.none with sr := [sa.val], sa := [sa.val], mr := [m.val], vw := [vd.val],
                      lr := [(addrU (c.sv x sa) l.toNat, 1)] }
  | .vst m vd sa l =>
    { Names.none with sr := [sa.val], sa := [sa.val], mr := [m.val], vr := [vd.val],
                      lw := [(addrU (c.sv x sa) l.toNat, 1)] }
  | .vsplat m vd sa => { Names.none with sr := [sa.val], mr := [m.val], vw := [vd.val] }

def cNames (c : Core) (x : Nat) : CSlot → Names
  | .nop => Names.none
  | .op o td _ =>
    match decodeDesc (c.td x td.val) with
    | some d => { Names.none with lr := d.reads o, lw := d.writes o }
    | none => Names.none

def mNames (c : Core) (x : Nat) : MSlot → Names
  | .nop => Names.none
  | .out _ reg => { Names.none with vr := [reg.val] }
  | .outl _ reg off =>
    { Names.none with sr := [reg.val], sa := [reg.val], lr := [(addrU (c.sv x reg) off.toNat, 1)] }
  | .take _ reg => { Names.none with vw := [reg.val] }
  | .takel _ reg off =>
    { Names.none with sr := [reg.val], sa := [reg.val], lw := [(addrU (c.sv x reg) off.toNat, 1)] }
  | .lpost dst reg off =>
    { Names.none with sr := [reg.val, dst.val], sa := [reg.val], lr := [(addrU (c.sv x reg) off.toNat, 1)] }
  | .ltake dst reg off =>
    { Names.none with sr := [reg.val], sa := [reg.val], sw := [dst.val],
                      lw := [(addrU (c.sv x reg) off.toNat, 1)] }

/-- CODE's s[SB] is an address too, of the bundle store: a poisoned one is POISON_CONTROL (DEDUCED, entry 133). -/
def shNames (c : Core) (x : Nat) : ShSlot → Names
  | .nop => Names.none
  | .ld sa sb n _ =>
    { Names.none with sr := [sa.val, sb.val], sa := [sa.val, sb.val], lw := [(c.sv x sb, n.val + 1)] }
  | .st sa sb n =>
    { Names.none with sr := [sa.val, sb.val], sa := [sa.val, sb.val], lr := [(c.sv x sb, n.val + 1)] }
  | .nm sb => { Names.none with sr := [sb.val], sa := [sb.val], lr := [(c.sv x sb, 1)] }
  | .fenceNm sa _ => { Names.none with sr := [sa.val], sa := [sa.val] }
  | .fenceShaft => Names.none
  | .code sa sb _ => { Names.none with sr := [sa.val, sb.val], sa := [sa.val, sb.val] }
  | .cinv sa _ => { Names.none with sr := [sa.val], sa := [sa.val] }

/-- The five slots' names. -/
def Bundle.parts (b : Bundle) (c : Core) (x : Nat) : List Names :=
  [scNames c x b.sc, vNames c x b.v, cNames c x b.cube, mNames c x b.mv, shNames c x b.sh]

def Bundle.names (b : Bundle) (c : Core) (x : Nat) : Names := (b.parts c x).foldl Names.add Names.none

/-- Two slots name one destination (03 R90). -/
def clash : List Names → Bool
  | [] => false
  | n :: r =>
    r.any (fun k => n.vw.any (fun v => k.vw.contains v) || n.sw.any (fun v => k.sw.contains v)
      || n.mw.any (fun v => k.mw.contains v) || n.lw.any (fun a => k.lw.any (overlap a))) || clash r

/-- Cause codes of plate faults (03 R127, 08 R258, 11 R345). -/
inductive Cause where
  | illegalBundle | trayRange | shaftRange | bundleRange | scheduleMiss | mailboxOverrun | lagViolation | shaftBudget
  | exposureOverrun | poisonControl | nmCommand | nmBacklog | nmHazard | arrayFull
  deriving DecidableEq, Repr

def Cause.code : Cause → Nat
  | .illegalBundle => 1 | .trayRange => 2 | .shaftRange => 3 | .bundleRange => 4 | .scheduleMiss => 5
  | .mailboxOverrun => 6 | .lagViolation => 7 | .shaftBudget => 8 | .exposureOverrun => 9 | .poisonControl => 10
  | .nmCommand => 11 | .nmBacklog => 12 | .nmHazard => 13 | .arrayFull => 14

/-- The context is timed; every context of a loose plate is free (03 R83, R118). -/
def Core.isTimed (c : Core) (x : Nat) : Bool := !c.cfg.loose && c.cfg.timed.testBit x
/-- The context is a gradient context of a training-marked plate (05 R168). -/
def Core.isGradient (c : Core) (x : Nat) : Bool := c.cfg.training && c.cfg.gradient.testBit x

/-- A shaft request lies whole in one window on a 32-byte boundary (03 R107). -/
def shaftOk (a bytes : Nat) : Bool :=
  decide (a % 32 = 0) && (decide (a + bytes ≤ 0x8000000)
    || (decide (0x10000000 ≤ a) && decide (a + bytes ≤ 0x10180000)))

/-- The cube slot's encoding and legality (03 R101; 04 R140, R147, R151, R159; 05 R184; 10 R306). -/
def cubeLegal (c : Core) (x : Nat) : CSlot → Bool
  | .nop => true
  | .op o td rnd =>
    decide (rnd ≠ 3) && (match decodeDesc (c.td x td.val) with
      | some d => d.legal o c.cfg.mirel
      | none => false)

/-- RDS items (03 R98, 05 R179, 08 R265). Other item numbers are reserved values (DEDUCED from 03 R97; entry 17). -/
def rdsItemOk (i : BitVec 14) : Bool := decide (i.toNat ≤ 15)

/-- The bundle breaks an encoding rule (03 R90, R97 to R102). -/
def encodingBad (c : Core) (x : Nat) (b : Bundle) : Bool :=
  (b.end_ && b.halt)
  || (match b.sc with
      | .rds _ i => !rdsItemOk i
      | _ => false)
  || (match b.v with
      | .op o f => !vFieldsOk o f c.cfg.mirel
      | _ => false)
  || !cubeLegal c x b.cube
  || (match b.mv with
      | .nop => false
      | .lpost _ _ _ => !c.cfg.loose
      | .ltake _ _ _ => !c.cfg.loose
      | _ => c.cfg.loose)
  || clash (b.parts c x)

/-- A tray operand lies outside lines 0 to 1,983, or an address is out of range (03 R94). -/
def trayBad (c : Core) (x : Nat) (b : Bundle) : Bool :=
  let n := b.names c x
  (n.lr ++ n.lw).any (fun r => !rangeOk r)
  || (match b.sc with
      | .lds _ sa imm => !wordAddrOk (addr14 (c.sv x sa) imm 4)
      | .sts _ sa imm => !wordAddrOk (addr14 (c.sv x sa) imm 4)
      | .ptest _ sa imm => !lineOk (addr14 (c.sv x sa) imm 1)
      | _ => false)

/-- A shaft request outside the windows (03 R107). -/
def shaftBad (c : Core) (x : Nat) : ShSlot → Bool
  | .ld sa _ n _ => !shaftOk (c.sv x sa) ((n.val + 1) * 128)
  | .st sa _ n => !shaftOk (c.sv x sa) ((n.val + 1) * 128)
  | .code sa _ n => !shaftOk (c.sv x sa) ((n.val + 1) * 128)
  | _ => false

/-- Where a branch of the bundle at `ptr` goes, if it is taken (03 R98). -/
def branchTo (c : Core) (x ptr : Nat) : ScSlot → Option Int
  | .beqz sa imm => if c.sv x sa = 0 then some ((ptr : Int) + imm.toInt) else none
  | .bnez sa imm => if c.sv x sa ≠ 0 then some ((ptr : Int) + imm.toInt) else none
  | .br imm => some ((ptr : Int) + imm.toInt)
  | _ => none

/-- A bundle index out of range: a taken branch, or CODE's destination (03 R114). -/
def bundleBad (c : Core) (x ptr : Nat) (b : Bundle) : Bool :=
  (match branchTo c x ptr b.sc with
    | some t => decide (t < 0) || decide (2047 < t)
    | none => false)
  || (match b.sh with
    | .code _ sb n => decide (2048 < c.sv x sb * 8 + (n.val + 1) * 8)
    | _ => false)

def Pres.isShaftTimed : Pres → Bool
  | .shaftPending => true | .early => true | _ => false

/-- The class and mode rules: 03 R85, R86 for a timed context, R102 for OUT and OUTL. -/
def lagBad (c : Core) (x : Nat) (b : Bundle) : Bool :=
  let n := b.names c x
  let timed := c.isTimed x
  let cubeClass := match b.cube with
    | .nop => false
    | _ => c.cfg.cubesTimed != timed
  let early := (n.vr ++ n.vw).any (fun r => (c.vreg x r).pres.isShaftTimed)
    || (n.lr ++ n.lw).any (fun r => (linesOf r).any (fun l => (c.line l).pres.isShaftTimed))
    || n.sr.any (fun r => (c.sreg x r).early) || (n.mr ++ n.mw).any (fun m => (c.mreg x m).early)
  let r86 := timed && (early || n.lw.any c.storeLocked
    || (match b.sh with
        | .fenceShaft => true
        | .fenceNm _ _ => true
        | _ => false)
    || (match b.sc with
        | .ptest _ _ _ => true
        | _ => false))
  let r102 := match b.mv with
    | .out _ reg => !timed || decide ((c.vreg x reg.val).pres = .early)
    | .outl _ reg off => !timed || decide ((c.line (addrU (c.sv x reg) off.toNat)).pres = .early)
    | _ => false
  cubeClass || r86 || r102

/-- A poisoned scalar is used as an address, a branch condition or by TDSET (03 R125). -/
def poisonBad (c : Core) (x : Nat) (b : Bundle) : Bool := (b.names c x).sa.any (fun r => (c.sreg x r).poison)

/-- The faults of 03 R557 that a bundle at `ptr` meets before it is ready, in ascending code. -/
def earlyFaults (c : Core) (x ptr : Nat) (b : Bundle) : List Cause :=
  (if encodingBad c x b then [.illegalBundle] else [])
  ++ (if trayBad c x b then [.trayRange] else [])
  ++ (if shaftBad c x b.sh then [.shaftRange] else [])
  ++ (if bundleBad c x ptr b then [.bundleRange] else [])
  ++ (if lagBad c x b then [.lagViolation] else [])
  ++ (if poisonBad c x b then [.poisonControl] else [])

/-- Bytes that a request moves over each path (07 R224): DRAM window, SRAM window. -/
def reqBytes (c : Core) (x : Nat) : ShSlot → Nat × Nat
  | .ld sa _ n _ => if c.sv x sa < 0x8000000 then ((n.val + 1) * 128, 0) else (0, (n.val + 1) * 128)
  | .st sa _ n => if c.sv x sa < 0x8000000 then ((n.val + 1) * 128, 0) else (0, (n.val + 1) * 128)
  | .code sa _ n => if c.sv x sa < 0x8000000 then ((n.val + 1) * 128, 0) else (0, (n.val + 1) * 128)
  | _ => (0, 0)

/-- The slot makes a shaft request (03 R109). -/
def isRequest : ShSlot → Bool
  | .ld _ _ _ _ => true | .st _ _ _ => true | .nm _ => true | .code _ _ _ => true | _ => false

/-- The request exceeds the count or a byte budget (03 R109; 07 Shaft budgets). -/
def budgetBad (c : Core) (x : Nat) (s : ShSlot) : Bool :=
  isRequest s && (decide (min 64 c.cfg.requests < c.used + 1)
    || decide (c.cfg.bd < c.usedD + (reqBytes c x s).1) || decide (c.cfg.bs < c.usedS + (reqBytes c x s).2))

/-- The cubes or the MV path run an operation (04 R146). -/
def Core.cubeBusy (c : Core) : Bool := c.flights.any (fun f => f.cube.isSome)

/-- The lowest EMPTY outbound slot (03 R120). -/
def Core.freeOut (c : Core) : Option Nat := (upFrom 0 32).find? (fun k => decide ((c.line (outLine k)).pres = .empty))

/-- A destination is neither PENDING nor SHAFT_PENDING (03 R88). -/
def Pres.free : Pres → Bool
  | .pending => false | .shaftPending => false | _ => true

/-- The bundle is ready (03 R88, R102, R120). -/
def ready (c : Core) (x : Nat) (b : Bundle) : Bool :=
  let n := b.names c x
  n.vr.all (fun r => (c.vreg x r).pres.present)
  && n.lr.all (fun r => (linesOf r).all (fun l => (c.line l).pres.present))
  && n.vw.all (fun r => (c.vreg x r).pres.free)
  && n.lw.all (fun r => (linesOf r).all (fun l => (c.line l).pres.free) && !c.locked r)
  && (n.mr ++ n.mw).all (fun m => !(c.mreg x m).pending)
  && (match b.cube with
      | .nop => true
      | _ => !c.cubeBusy)
  && (match b.mv with
      | .nop => true
      | .out k _ => decide ((c.line (outLine k.val)).pres = .empty)
      | .outl k _ _ => decide ((c.line (outLine k.val)).pres = .empty)
      | .take k _ => decide ((c.line (inLine k.val)).pres = .full)
      | .takel k _ _ => decide ((c.line (inLine k.val)).pres = .full)
      | .lpost _ _ _ => c.freeOut.isSome
      | .ltake _ _ _ => !c.held.isEmpty)

end Sys2Proof.Machine
end

