-- ==== Sys2Proof/Machine/Issue.lean ====
section
/-! DEFINITION. What issuing a bundle does in its core (03 R89, R96 to R103, R111 to R116, R120, R121, R124): every slot
reads its sources from the core as it was, and the writes follow. -/
namespace Sys2Proof.Machine

/-- The core as it changes, and how many free values were drawn. -/
abbrev Work := Core × Nat

/-- A scalar operation (03 R98). -/
def aluVal (op : AluOp) (a b : BitVec 32) : BitVec 32 :=
  match op with
  | .add => a + b
  | .sub => a - b
  | .and => a &&& b
  | .or => a ||| b
  | .xor => a ^^^ b
  | .shl => a <<< (b.toNat % 32)
  | .shr => a >>> (b.toNat % 32)
  | .sra => a.sshiftRight (b.toNat % 32)
  | .mul => a * b
  | .min => if a.slt b then a else b
  | .max => if a.slt b then b else a
  | .slt => if a.slt b then 1 else 0
  | .sltu => if a.ult b then 1 else 0
  | .seq => if a = b then 1 else 0

/-- A 14-bit immediate as a scalar operand: signed (03 R98). -/
def immVal (imm : BitVec 14) : BitVec 32 := imm.signExtend 32

/-- A destination's old contents where a write keeps part of them: undefined where it was EMPTY (03 R89). -/
def kept (s : Slot) (free : Nat) : Line × Nat :=
  if s.pres = .empty then (BitVec.ofNat 1024 (Config.freeValue free), free + 1) else (s.data, free)

/-- An operation put in flight; its vector, line and mask destinations become PENDING (03 R89). -/
def addFlight (w : Core) (f : Flight) : Core :=
  let w := { w with flights := w.flights ++ [{ f with id := w.nextId }], nextId := w.nextId + 1 }
  f.effs.foldl (fun w e =>
    match e with
    | .vreg x r _ _ _ => w.setVreg x r { w.vreg x r with pres := .pending }
    | .line l _ _ _ => w.setLine l { w.line l with pres := .pending }
    | .mask x m _ _ _ => w.setMreg x m { w.mreg x m with pending := true }
    | .outSlot k _ _ _ => w.setLine (outLine k) { w.line (outLine k) with pres := .pending }) w

/-- A flight with the writes `effs` only. -/
def plainFlight (x ptr due : Nat) (effs : List Eff) : Flight :=
  ⟨0, x, ptr, due, effs, Flg.none, [], false, [], none, none, false, false⟩

/-- RDS (03 R98, 05 R179, 08 R265): the items' values; item 3 read in a free context carries the early tag. -/
def rdsVal (c : Core) (core x cyc : Nat) (item : BitVec 14) : SReg :=
  let v : Nat := match item.toNat with
    | 0 => core
    | 1 => x
    | 2 => c.slice
    | 3 => cyc
    | 4 => c.cfg.cycles
    | 5 => c.cfg.rel
    | 6 => c.reserveLeft
    | 7 => c.nmTick
    | n => unsigned 32 (mgetD (n - 8) 0 (c.ctx x).scales)
  ⟨BitVec.ofNat 32 v, decide (item = 3) && !c.isTimed x, false⟩

/-- The scalar slot (03 R98). `o` is the core before the bundle. -/
def doScalar (o : Core) (core x ptr cyc : Nat) (s : ScSlot) (w : Work) : Work :=
  match s with
  | .nop => w
  | .alu op sd sa sb =>
    let a := o.sreg x sa.val
    let b := o.sreg x sb.val
    (w.1.setSreg x sd.val ⟨aluVal op a.val b.val, a.early || b.early, a.poison || b.poison⟩, w.2)
  | .alui op sd sa imm =>
    let a := o.sreg x sa.val
    (w.1.setSreg x sd.val ⟨aluVal op a.val (immVal imm), a.early, a.poison⟩, w.2)
  | .lui sd imm => (w.1.setSreg x sd.val ⟨(imm.zeroExtend 32) <<< 14, false, false⟩, w.2)
  | .lds sd sa imm =>
    let a := addr14 (o.sv x sa) imm 4
    let l := o.line (a / 128)
    let e := (o.sreg x sa.val).early || decide (l.pres = .early)
    (w.1.setSreg x sd.val ⟨BitVec.ofNat 32 (elemAt 32 (a % 128 / 4) l.data.toNat), e, l.poison⟩, w.2)
  | .sts sd sa imm =>
    let a := addr14 (o.sv x sa) imm 4
    let l := o.line (a / 128)
    let v := o.sreg x sd.val
    match kept l w.2 with
    | (old, fr) =>
      let d := BitVec.ofNat 1024 (putBits old.toNat (a % 128 / 4 * 32) 32 v.val.toNat)
      let e := v.early || (o.sreg x sa.val).early || decide (l.pres = .early)
      (addFlight w.1 (plainFlight x ptr (cyc + 3) [.line (a / 128) d e (v.poison || l.poison)]), fr)
  | .ptest sd sa imm =>
    (w.1.setSreg x sd.val
      ⟨BitVec.ofNat 32 (o.line (addr14 (o.sv x sa) imm 1)).pres.code, true, false⟩, w.2)
  | .rds sd item => (w.1.setSreg x sd.val (rdsVal o core x cyc item), w.2)
  | .tdset t k sa =>
    (w.1.setTd x t.val
      (BitVec.ofNat 128 (putBits (o.td x t.val).toNat (32 * k.val) 32 (o.sv x sa))), w.2)
  | .beqz _ _ => w
  | .bnez _ _ => w
  | .br _ => w

/-- A draw for element e of an operation that found its counter at `d` (03 R123, R124; 05 R184 for Mirel mode). -/
def elemDraw (c : Core) (core x unit d e : Nat) : Nat :=
  drawOf c.cfg.seed c.slice (if c.cfg.mirel then c.cfg.rel else core) x unit (e % 64) ((d + e / 64) % 2 ^ 40)

/-- An operation rounds stochastically: by RND, or always in a gradient context unless the destination holds every
source value (04 R151, 05 R168). -/
def isStoch (c : Core) (x : Nat) (rnd : BitVec 2) (exact_ : Bool) : Bool :=
  if c.isGradient x then !exact_ else decide (rnd = 1)

/-- Every value of format code a is one of format code b. -/
def exactCvt (a b : Nat) : Bool :=
  match Fmt.ofCode a, Fmt.ofCode b with
  | some a, some b => a.subsetOf b
  | _, _ => false

/-- A vector operation rounds stochastically (04 R151; 05 R168, R172). -/
def vecStoch (o : Core) (x : Nat) (op : VOp) (f : VFields) : Bool :=
  match op with
  | .cvt => isStoch o x f.rnd (exactCvt f.vb.val f.vc.val)
  | .wupd => isStoch o x f.rnd false
  | _ => false

/-- The mask that a comparison in 32-bit width writes: its bits 63:32 belong to no lane, and no rule gives them a value (DESIGN
CHOICE: a free value, entry 130). -/
def cmpHigh (free : Nat) (m : BitVec 64) : BitVec 64 :=
  BitVec.ofNat 64 (m.toNat % 2 ^ 32 + Config.freeValue free % 2 ^ 32 * 2 ^ 32)

/-- The vector slot (03 R99). -/
def doVector (o : Core) (core x ptr cyc : Nat) (s : VSlot) (w : Work) : Work :=
  match s with
  | .nop => w
  | .op op f =>
    let mk := o.mreg x f.mask.val
    let src (r : Reg4) : Slot := o.vreg x r.val
    let st := vecStoch o x op f
    let draws := st || decide (op = .vrand)
    let d := (o.ctx x).drawV
    let lanes := if f.width = 1 then 64 else 32
    let activeAll := (upFrom 0 lanes).all (fun i => mk.val.getLsbD i)
    -- which old contents the write keeps part of (R89)
    let keeps := !activeAll && decide (op ≠ .sel)
    let dst := src f.vd
    match (if (keeps || decide (op = .wupd)) && !op.isCmp then kept dst w.2 else (dst.data, w.2)) with
    | (old, fr) =>
      let om := o.mreg x (f.vd.val % 8)
      let r := vecExec op f o.cfg.mirel st (src f.va).data (src f.vb).data (src f.vc).data old mk.val om.val
        (elemDraw o core x 0 d)
      let reads := op.reads f
      let e := reads.any (fun v => decide ((o.vreg x v).pres = .early)) || mk.early
        || (keeps && (if op.isCmp then om.early else decide (dst.pres = .early)))
      let p := reads.any (fun v => (o.vreg x v).poison) || mk.poison
        || (keeps && (if op.isCmp then om.poison else dst.poison))
      let mv := if f.width = 1 then r.mask else cmpHigh fr r.mask
      let eff := if op.isCmp then Eff.mask x (f.vd.val % 8) mv e p else Eff.vreg x f.vd.val r.data e p
      let fl := { plainFlight x ptr (cyc + op.cycles) [eff] with
        flg := r.flg, rw := r.rw, conv := decide (op = .cvt) }
      let w1 := addFlight w.1 fl
      let k := w1.ctx x
      (if draws then w1.setCtx x { k with drawV := (k.drawV + 1) % 2 ^ 40 } else w1,
        if op.isCmp && decide (f.width ≠ 1) then fr + 1 else fr)
  | .vld m vd sa l =>
    let mk := o.mreg x m.val
    let ln := o.line (addrU (o.sv x sa) l.toNat)
    let keeps := !(upFrom 0 32).all (fun i => mk.val.getLsbD i)
    let dst := o.vreg x vd.val
    match (if keeps then kept dst w.2 else (dst.data, w.2)) with
    | (old, fr) =>
      let e := decide (ln.pres = .early) || mk.early || (o.sreg x sa.val).early
        || (keeps && decide (dst.pres = .early))
      let p := ln.poison || mk.poison || (keeps && dst.poison)
      (addFlight w.1 (plainFlight x ptr (cyc + 3) [.vreg x vd.val (mergeLanes mk.val ln.data old) e p]), fr)
  | .vst m vd sa l =>
    let mk := o.mreg x m.val
    let a := addrU (o.sv x sa) l.toNat
    let ln := o.line a
    let keeps := !(upFrom 0 32).all (fun i => mk.val.getLsbD i)
    let v := o.vreg x vd.val
    match (if keeps then kept ln w.2 else (ln.data, w.2)) with
    | (old, fr) =>
      let e := decide (v.pres = .early) || mk.early || (o.sreg x sa.val).early
        || (keeps && decide (ln.pres = .early))
      let p := v.poison || mk.poison || (keeps && ln.poison)
      (addFlight w.1 (plainFlight x ptr (cyc + 3) [.line a (mergeLanes mk.val v.data old) e p]), fr)
  | .vsplat m vd sa =>
    let mk := o.mreg x m.val
    let sv := o.sreg x sa.val
    let keeps := !(upFrom 0 32).all (fun i => mk.val.getLsbD i)
    let dst := o.vreg x vd.val
    match (if keeps then kept dst w.2 else (dst.data, w.2)) with
    | (old, fr) =>
      let new := lineOf 32 ((upFrom 0 32).map (fun _ => sv.val.toNat))
      let e := sv.early || mk.early || (keeps && decide (dst.pres = .early))
      let p := sv.poison || mk.poison || (keeps && dst.poison)
      (addFlight w.1 (plainFlight x ptr (cyc + 2) [.vreg x vd.val (mergeLanes mk.val new old) e p]), fr)

/-- Lines of ranges set PENDING. -/
def pendLines (w : Core) (rs : List (Nat × Nat)) : Core :=
  rs.foldl (fun w r => (linesOf r).foldl (fun w l => w.setLine l { w.line l with pres := .pending }) w) w

/-- The first cycle at which the sources of a cube operation due at `due` are free: that of the last drain, after the last step
that reads them, for TILE, MV and MV.Z, and six cycles before its end for CONV; TILE.Z holds them to the end of its kept run
(04 R145, R148, R160; 05 R180; entry 131). -/
def lockEnd (o : CubeOp) (d : Desc) (due : Nat) : Option Nat :=
  match o with
  | .tile => some (due - d.m)
  | .tileZ => none
  | .mv => some (due - 8)
  | .mvZ => some (due - 8)
  | .conv => some (due - 6)

/-- The cube slot (03 R100; 04 R146): the unit runs with its sources locked; a stochastic CONV draws for each element
(03 R124, 04 R148). -/
def doCube (o : Core) (x ptr cyc : Nat) (s : CSlot) (w : Work) : Work :=
  match s with
  | .nop => w
  | .op op td rnd =>
    match decodeDesc (o.td x td.val) with
    | none => w
    | some d =>
      let ls := (d.reads op).flatMap linesOf
      let st := decide (op = .conv) && isStoch o x rnd (decide (d.outFmt = 0))
      let k := o.ctx x
      let job : CubeJob := ⟨op, d, td.val, rnd, st, k.drawC, 0⟩
      let fl := { plainFlight x ptr (cyc + d.cycles op o.cfg.mirel) [] with
        locks := d.reads op, lockTo := lockEnd op d (cyc + d.cycles op o.cfg.mirel), cube := some job, conv := decide (op = .conv),
        early := ls.any (fun l => decide ((o.line l).pres = .early)), poison := ls.any (fun l => (o.line l).poison) }
      let w1 := pendLines (addFlight w.1 fl) (d.writes op)
      let k1 := w1.ctx x
      (if st then w1.setCtx x { k1 with drawC := (k1.drawC + ceilDiv (d.m * d.n) 64) % 2 ^ 40 } else w1, w.2)

/-- The move slot (03 R102, R120, R121). An LPOST to the sender itself, or to a number that the plate does not have, is posted
and never departs: no c XOR o of R119 names it, and its slot stays taken (DEDUCED, entry 132). -/
def doMove (o : Core) (x ptr cyc : Nat) (s : MSlot) (w : Work) : Work :=
  match s with
  | .nop => w
  | .out k reg =>
    let v := o.vreg x reg.val
    (addFlight w.1 (plainFlight x ptr (cyc + 3) [.outSlot k.val v.data (decide (v.pres = .early)) v.poison]), w.2)
  | .outl k reg off =>
    let v := o.line (addrU (o.sv x reg) off.toNat)
    (addFlight w.1 (plainFlight x ptr (cyc + 3) [.outSlot k.val v.data (decide (v.pres = .early)) v.poison]), w.2)
  | .take k reg =>
    let v := o.line (inLine k.val)
    (addFlight (w.1.setLine (inLine k.val) { v with pres := .empty, poison := false })
      (plainFlight x ptr (cyc + 3) [.vreg x reg.val v.data false v.poison]), w.2)
  | .takel k reg off =>
    let v := o.line (inLine k.val)
    let s := o.sreg x reg.val
    (addFlight (w.1.setLine (inLine k.val) { v with pres := .empty, poison := false })
      (plainFlight x ptr (cyc + 3) [.line (addrU (o.sv x reg) off.toNat) v.data s.early v.poison]), w.2)
  | .lpost dst reg off =>
    match o.freeOut with
    | none => w
    | some k =>
      let v := o.line (addrU (o.sv x reg) off.toNat)
      let d := o.sreg x dst.val
      let p := v.poison || d.poison
      let e := decide (v.pres = .early) || (o.sreg x reg.val).early || d.early
      let m : LooseMsg := ⟨w.1.postOrd, o.cfg.rel, o.sv x dst, k, 0, 0, v.data, p, 0, [], 0, false⟩
      let w1 := { w.1 with posted := w.1.posted ++ [m], postOrd := w.1.postOrd + 1 }
      (addFlight w1 (plainFlight x ptr (cyc + 3) [.outSlot k v.data e p]), w.2)
  | .ltake dst reg off =>
    match o.held with
    | [] => w
    | (k, src) :: rest =>
      let v := o.line (inLine k)
      let s := o.sreg x reg.val
      let w1 := { w.1 with held := rest }
      let w1 := w1.setLine (inLine k) { v with pres := .empty, poison := false }
      let w1 := w1.setSreg x dst.val ⟨BitVec.ofNat 32 src, s.early, v.poison⟩
      (addFlight w1 (plainFlight x ptr (cyc + 3) [.line (addrU (o.sv x reg) off.toNat) v.data s.early v.poison]), w.2)

/-- A request queued in issue order and charged to the budgets (03 R109, R110). -/
def addReq (o w : Core) (x : Nat) (s : ShSlot) (q : ShReq) : Core :=
  let by_ := reqBytes o x s
  { w with shq := w.shq ++ [{ q with id := w.nextId }], nextId := w.nextId + 1, used := w.used + 1,
           usedD := w.usedD + by_.1, usedS := w.usedS + by_.2 }

/-- Read-cache lines of [a, a + len) dropped (03 R112, R113). -/
def dropCache (w : Core) (a len : Nat) : Core :=
  { w with cache := mmap (fun _ ways => ways.filter (fun l => !(decide (a ≤ l.1 + 127) && decide (l.1 < a + len)))) w.cache }

/-- The shaft slot (03 R103, R108 to R114). -/
def doShaft (o : Core) (x ptr : Nat) (s : ShSlot) (w : Work) : Work :=
  match s with
  | .nop => w
  | .ld sa sb n byp =>
    let w1 := addReq o w.1 x s ⟨0, x, ptr, .ld, o.sv x sa, o.sv x sb, n.val + 1, 0, byp⟩
    ((linesOf (o.sv x sb, n.val + 1)).foldl (fun w l => w.setLine l { w.line l with pres := .shaftPending }) w1, w.2)
  | .st sa sb n => (addReq o w.1 x s ⟨0, x, ptr, .st, o.sv x sa, o.sv x sb, n.val + 1, 0, false⟩, w.2)
  | .nm _ => ({ w.1 with used := w.1.used + 1, nmIssued := w.1.nmIssued + 1, nmSlice := w.1.nmSlice + 1 }, w.2)
  | .code sa sb n => (addReq o w.1 x s ⟨0, x, ptr, .code, o.sv x sa, o.sv x sb * 8, n.val + 1, 0, false⟩, w.2)
  | .fenceShaft =>
    let k := w.1.ctx x
    (w.1.setCtx x { k with wait := .shaft w.1.nextId ptr }, w.2)
  | .fenceNm sa n =>
    let k := w.1.ctx x
    (w.1.setCtx x { k with wait := .nm o.nmIssued (o.sv x sa) ((n.val + 1) * 4096) ptr [] }, w.2)
  | .cinv sa n => (dropCache w.1 (o.sv x sa) ((n.val + 1) * 4096), w.2)

/-- The bundle's branch is taken. -/
def nextPtr (o : Core) (x ptr : Nat) (b : Bundle) : Nat :=
  match branchTo o x ptr b.sc with
  | some t => t.toNat
  | none => ptr + 1

/-- Cycles that a bundle stalls its context for: 3 for LDS (03 R98). -/
def Bundle.stall (b : Bundle) : Nat :=
  match b.sc with
  | .lds _ _ _ => 3
  | _ => 0

/-- The context after its bundle issued (03 R97, R98, R116). -/
def advance (o : Core) (x ptr cyc : Nat) (b : Bundle) (w : Core) : Core :=
  let k := w.ctx x
  w.setCtx x
    { k with ptr := nextPtr o x ptr b, readyAt := cyc + 1 + b.stall,
             mode := if b.halt then .halted else if b.end_ then .ended else .run }

/-- All slots of a bundle issue together (03 R89, R97). The context is not moved. -/
def doSlots (core x ptr cyc : Nat) (b : Bundle) (o : Core) (free : Nat) : Work :=
  doShaft o x ptr b.sh
    (doMove o x ptr cyc b.mv
      (doCube o x ptr cyc b.cube
        (doVector o core x ptr cyc b.v
          (doScalar o core x ptr cyc b.sc (o, free)))))

/-- An effect applied when its operation completes: EARLY if a source was, else FULL (03 R89). -/
def applyEff (w : Core) : Eff → Core
  | .vreg x r d e p => w.setVreg x r ⟨d, if e then .early else .full, p⟩
  | .line l d e p => w.setLine l ⟨d, if e then .early else .full, p⟩
  | .mask x m v e p => w.setMreg x m ⟨v, e, p, false⟩
  | .outSlot k d e p => w.setLine (outLine k) ⟨d, if e then .early else .full, p⟩

/-- The operation numbered `id` leaves the list of those in flight. -/
def dropFlight (w : Core) (id : Nat) : Core := { w with flights := w.flights.filter (fun f => f.id ≠ id) }

/-- A flight's writes made (03 R89). -/
def landFlight (w : Core) (f : Flight) : Core := f.effs.foldl applyEff (dropFlight w f.id)

/-- Lines that a cube operation writes, EARLY if any source was EARLY (03 R89, R125). -/
def landLines (w : Core) (ls : List (Nat × Line)) (e p : Bool) : Core :=
  ls.foldl (fun w l => w.setLine l.1 ⟨l.2, if e then .early else .full, p⟩) w

/-- Reads a line's data as a number. -/
def Core.lineNat (c : Core) (l : Nat) : Nat := (c.line l).data.toNat

/-- A CONV in flight computed (04 R147 to R150). -/
def convOut (c : Core) (core : Nat) (f : Flight) (j : CubeJob) : CubeOut :=
  let md (e : Nat) : Rmode :=
    if j.stoch then stochMode c.cfg.mirel (elemDraw c core f.ctx 1 j.draw e) else rmodeOf j.rnd
  conv j.desc c.lineNat c.cfg.mirel (mgetD j.td 0 (c.ctx f.ctx).scales) md

/-- The outcome of a run of TILE, TILE.Z, MV or MV.Z (05 R180, R181). -/
inductive RunEnd where
  | retake | saturated | noReserve | clean
  deriving DecidableEq, Repr

/-- The group shift of a run: step × runs for TILE.Z, ts(i) for TILE (05 R180, R181). -/
def runShift (c : Core) (f : Flight) (j : CubeJob) : Int :=
  match j.op with
  | .tileZ => (c.cfg.step * j.runs : Nat)
  | .tile => mgetD j.td 0 (c.ctx f.ctx).scales
  | _ => 0

/-- A run's result; with a reserve an overflowing rounding holds ±max finite (05 R180); Mirel mode has no reserve
(05 R184). -/
def runOut (c : Core) (f : Flight) (j : CubeJob) : CubeOut :=
  gemm j.op j.desc c.lineNat c.cfg.mirel (decide (c.cfg.reserve ≠ 0) && !c.cfg.mirel) (runShift c f j)

/-- What a run's overflow leads to (05 R180, R181, R184). -/
def runEnd (c : Core) (j : CubeJob) (ovf : Bool) : RunEnd :=
  if !ovf then .clean
  else if c.cfg.reserve = 0 || c.cfg.mirel then .noReserve
  else if j.op = .tileZ && j.runs < 2 && j.desc.cycles j.op c.cfg.mirel ≤ c.reserveLeft then .retake
  else .saturated

end Sys2Proof.Machine
end

