-- ==== Sys2Proof/Machine/Events.lean ====
section
/-! DEFINITION. The events (00 R9; 19 R506 to R510 and the event tables of every chapter), each with its one severity.
The spec gives names and no code numbers: a number is a free value (entry 11). -/
namespace Sys2Proof.Machine

/-- Severities (00 R9). -/
inductive Sev where
  | note | warn | degrade | fatal
  deriving DecidableEq, Repr

def Sev.code : Sev → Nat
  | .note => 0 | .warn => 1 | .degrade => 2 | .fatal => 3

/-- Every event the spec names. EVT_RING_OVERFLOW is the overflow record's code (19 R507): it is never raised. -/
inductive Ev where
  | abaCreditClip
  | abaDmaError
  | abaDown
  | abaNak
  | abaNarrow
  | abaRetrain
  | abaStreamDrop
  | accOverflow
  | arithInf
  | arithNan
  | arrayFull
  | attnScoreInf
  | attnScoreNan
  | bridgeDown
  | bridgeLaneSpared
  | bridgeLate
  | bridgeNarrow
  | bridgeReplay
  | bundleRange
  | capUnreachable
  | checkerFail
  | convNanLost
  | coreFail
  | debugDenied
  | debugUnlock
  | dramCorr
  | dramUncorr
  | epochOrder
  | evacDone
  | eventBufferFull
  | exposureOverrun
  | factoryPageInvalid
  | feedLost
  | fixedBroken
  | floorBreach
  | forcedDark
  | fuseFail
  | fwInvalid
  | gradeClamp
  | illegalBundle
  | imgTagMissing
  | imgTagRange
  | keyRevoked
  | kvBucketLate
  | kvFade
  | kvFadedRead
  | kvPoolBusy
  | kvPoolConfig
  | kvQuotaCut
  | kvRefused
  | kvWindowOverrun
  | lagViolation
  | laneSpared
  | launchRefused
  | layerScaleLimit
  | ledgerImbalance
  | loadRefused
  | looseHole
  | mailboxOverrun
  | nmBacklog
  | nmCommand
  | nmHazard
  | nmLate
  | nmLayout
  | nmPoison
  | ownerProgFail
  | ownerSet
  | parLoss
  | parRebuildPoison
  | parRebuilt
  | parSealRefused
  | parUnrecoverable
  | parWindowOverrun
  | phaseLost
  | poisonControl
  | poisonRead
  | portHalfWidth
  | purgeDone
  | pwrBrake
  | rayCreditClip
  | rayFenced
  | rayLate
  | rayNak
  | rayNarrow
  | rayReplay
  | rayRetrain
  | rayTrainFail
  | redCapHold
  | redCapNotice
  | redDrop
  | redLeader
  | redMirrorFence
  | redPoison
  | redRereduce
  | redSealRefused
  | redTimeout
  | redWindowOverrun
  | refclkLost
  | refreshHot
  | regionDark
  | regionOc
  | rejoinFail
  | reseat
  | retake
  | ringFault
  | ringOverflow
  | ringWaitTimeout
  | rlDone
  | rlFail
  | routerLost
  | routeSwapLate
  | rwSumSat
  | scheduleMiss
  | seamParity
  | sensorDisagree
  | sensorFail
  | shaftBudget
  | shaftCeiling
  | shaftCtrlLost
  | shaftHalfWidth
  | shaftRange
  | sheetExtra
  | sheetHeld
  | sheetMissing
  | sheetNoLeader
  | sleepRefused
  | slotStaleAck
  | snapCancel
  | snapDone
  | snapRefused
  | sramCorr
  | sramUncorr
  | stretch
  | syncLost
  | telemDrop
  | testDone
  | testRefused
  | thermalBlind
  | thermalLimit
  | thermalThrottle
  | thermtrip
  | tileSaturated
  | towerLost
  | trayError
  | trayRange
  | userPageInvalid
  | vdroop
  | viewHoldExpired
  | wakeDeferred
  deriving DecidableEq, Repr

/-- All events, in alphabetical order of their names. -/
def Ev.all : List Ev :=
  [.abaCreditClip, .abaDmaError, .abaDown, .abaNak, .abaNarrow, .abaRetrain,
   .abaStreamDrop, .accOverflow, .arithInf, .arithNan, .arrayFull, .attnScoreInf,
   .attnScoreNan, .bridgeDown, .bridgeLaneSpared, .bridgeLate, .bridgeNarrow, .bridgeReplay,
   .bundleRange, .capUnreachable, .checkerFail, .convNanLost, .coreFail, .debugDenied,
   .debugUnlock, .dramCorr, .dramUncorr, .epochOrder, .evacDone, .eventBufferFull,
   .exposureOverrun, .factoryPageInvalid, .feedLost, .fixedBroken, .floorBreach, .forcedDark,
   .fuseFail, .fwInvalid, .gradeClamp, .illegalBundle, .imgTagMissing, .imgTagRange,
   .keyRevoked, .kvBucketLate, .kvFade, .kvFadedRead, .kvPoolBusy, .kvPoolConfig,
   .kvQuotaCut, .kvRefused, .kvWindowOverrun, .lagViolation, .laneSpared, .launchRefused,
   .layerScaleLimit, .ledgerImbalance, .loadRefused, .looseHole, .mailboxOverrun, .nmBacklog,
   .nmCommand, .nmHazard, .nmLate, .nmLayout, .nmPoison, .ownerProgFail,
   .ownerSet, .parLoss, .parRebuildPoison, .parRebuilt, .parSealRefused, .parUnrecoverable,
   .parWindowOverrun, .phaseLost, .poisonControl, .poisonRead, .portHalfWidth, .purgeDone,
   .pwrBrake, .rayCreditClip, .rayFenced, .rayLate, .rayNak, .rayNarrow,
   .rayReplay, .rayRetrain, .rayTrainFail, .redCapHold, .redCapNotice, .redDrop,
   .redLeader, .redMirrorFence, .redPoison, .redRereduce, .redSealRefused, .redTimeout,
   .redWindowOverrun, .refclkLost, .refreshHot, .regionDark, .regionOc, .rejoinFail,
   .reseat, .retake, .ringFault, .ringOverflow, .ringWaitTimeout, .rlDone,
   .rlFail, .routerLost, .routeSwapLate, .rwSumSat, .scheduleMiss, .seamParity,
   .sensorDisagree, .sensorFail, .shaftBudget, .shaftCeiling, .shaftCtrlLost, .shaftHalfWidth,
   .shaftRange, .sheetExtra, .sheetHeld, .sheetMissing, .sheetNoLeader, .sleepRefused,
   .slotStaleAck, .snapCancel, .snapDone, .snapRefused, .sramCorr, .sramUncorr,
   .stretch, .syncLost, .telemDrop, .testDone, .testRefused, .thermalBlind,
   .thermalLimit, .thermalThrottle, .thermtrip, .tileSaturated, .towerLost, .trayError,
   .trayRange, .userPageInvalid, .vdroop, .viewHoldExpired, .wakeDeferred]

/-- The place of an event among the names. -/
def Ev.idx : Ev → Nat
  | .abaCreditClip => 0
  | .abaDmaError => 1
  | .abaDown => 2
  | .abaNak => 3
  | .abaNarrow => 4
  | .abaRetrain => 5
  | .abaStreamDrop => 6
  | .accOverflow => 7
  | .arithInf => 8
  | .arithNan => 9
  | .arrayFull => 10
  | .attnScoreInf => 11
  | .attnScoreNan => 12
  | .bridgeDown => 13
  | .bridgeLaneSpared => 14
  | .bridgeLate => 15
  | .bridgeNarrow => 16
  | .bridgeReplay => 17
  | .bundleRange => 18
  | .capUnreachable => 19
  | .checkerFail => 20
  | .convNanLost => 21
  | .coreFail => 22
  | .debugDenied => 23
  | .debugUnlock => 24
  | .dramCorr => 25
  | .dramUncorr => 26
  | .epochOrder => 27
  | .evacDone => 28
  | .eventBufferFull => 29
  | .exposureOverrun => 30
  | .factoryPageInvalid => 31
  | .feedLost => 32
  | .fixedBroken => 33
  | .floorBreach => 34
  | .forcedDark => 35
  | .fuseFail => 36
  | .fwInvalid => 37
  | .gradeClamp => 38
  | .illegalBundle => 39
  | .imgTagMissing => 40
  | .imgTagRange => 41
  | .keyRevoked => 42
  | .kvBucketLate => 43
  | .kvFade => 44
  | .kvFadedRead => 45
  | .kvPoolBusy => 46
  | .kvPoolConfig => 47
  | .kvQuotaCut => 48
  | .kvRefused => 49
  | .kvWindowOverrun => 50
  | .lagViolation => 51
  | .laneSpared => 52
  | .launchRefused => 53
  | .layerScaleLimit => 54
  | .ledgerImbalance => 55
  | .loadRefused => 56
  | .looseHole => 57
  | .mailboxOverrun => 58
  | .nmBacklog => 59
  | .nmCommand => 60
  | .nmHazard => 61
  | .nmLate => 62
  | .nmLayout => 63
  | .nmPoison => 64
  | .ownerProgFail => 65
  | .ownerSet => 66
  | .parLoss => 67
  | .parRebuildPoison => 68
  | .parRebuilt => 69
  | .parSealRefused => 70
  | .parUnrecoverable => 71
  | .parWindowOverrun => 72
  | .phaseLost => 73
  | .poisonControl => 74
  | .poisonRead => 75
  | .portHalfWidth => 76
  | .purgeDone => 77
  | .pwrBrake => 78
  | .rayCreditClip => 79
  | .rayFenced => 80
  | .rayLate => 81
  | .rayNak => 82
  | .rayNarrow => 83
  | .rayReplay => 84
  | .rayRetrain => 85
  | .rayTrainFail => 86
  | .redCapHold => 87
  | .redCapNotice => 88
  | .redDrop => 89
  | .redLeader => 90
  | .redMirrorFence => 91
  | .redPoison => 92
  | .redRereduce => 93
  | .redSealRefused => 94
  | .redTimeout => 95
  | .redWindowOverrun => 96
  | .refclkLost => 97
  | .refreshHot => 98
  | .regionDark => 99
  | .regionOc => 100
  | .rejoinFail => 101
  | .reseat => 102
  | .retake => 103
  | .ringFault => 104
  | .ringOverflow => 105
  | .ringWaitTimeout => 106
  | .rlDone => 107
  | .rlFail => 108
  | .routerLost => 109
  | .routeSwapLate => 110
  | .rwSumSat => 111
  | .scheduleMiss => 112
  | .seamParity => 113
  | .sensorDisagree => 114
  | .sensorFail => 115
  | .shaftBudget => 116
  | .shaftCeiling => 117
  | .shaftCtrlLost => 118
  | .shaftHalfWidth => 119
  | .shaftRange => 120
  | .sheetExtra => 121
  | .sheetHeld => 122
  | .sheetMissing => 123
  | .sheetNoLeader => 124
  | .sleepRefused => 125
  | .slotStaleAck => 126
  | .snapCancel => 127
  | .snapDone => 128
  | .snapRefused => 129
  | .sramCorr => 130
  | .sramUncorr => 131
  | .stretch => 132
  | .syncLost => 133
  | .telemDrop => 134
  | .testDone => 135
  | .testRefused => 136
  | .thermalBlind => 137
  | .thermalLimit => 138
  | .thermalThrottle => 139
  | .thermtrip => 140
  | .tileSaturated => 141
  | .towerLost => 142
  | .trayError => 143
  | .trayRange => 144
  | .userPageInvalid => 145
  | .vdroop => 146
  | .viewHoldExpired => 147
  | .wakeDeferred => 148

/-- The code number of an event (19 R506): free. -/
def Ev.code (e : Ev) : Nat := Config.evCode e.idx % 2 ^ 16

/-- The one severity of an event (00 R9). The overflow record takes its queue's. -/
def Ev.sev : Ev → Sev
  | .abaCreditClip => .warn
  | .abaDmaError => .warn
  | .abaDown => .degrade
  | .abaNak => .warn
  | .abaNarrow => .degrade
  | .abaRetrain => .note
  | .abaStreamDrop => .warn
  | .accOverflow => .warn
  | .arithInf => .note
  | .arithNan => .note
  | .arrayFull => .warn
  | .attnScoreInf => .warn
  | .attnScoreNan => .warn
  | .bridgeDown => .degrade
  | .bridgeLaneSpared => .warn
  | .bridgeLate => .warn
  | .bridgeNarrow => .degrade
  | .bridgeReplay => .note
  | .bundleRange => .warn
  | .capUnreachable => .warn
  | .checkerFail => .degrade
  | .convNanLost => .warn
  | .coreFail => .degrade
  | .debugDenied => .warn
  | .debugUnlock => .warn
  | .dramCorr => .note
  | .dramUncorr => .warn
  | .epochOrder => .warn
  | .evacDone => .note
  | .eventBufferFull => .warn
  | .exposureOverrun => .warn
  | .factoryPageInvalid => .fatal
  | .feedLost => .warn
  | .fixedBroken => .warn
  | .floorBreach => .warn
  | .forcedDark => .note
  | .fuseFail => .fatal
  | .fwInvalid => .fatal
  | .gradeClamp => .note
  | .illegalBundle => .warn
  | .imgTagMissing => .warn
  | .imgTagRange => .warn
  | .keyRevoked => .note
  | .kvBucketLate => .warn
  | .kvFade => .note
  | .kvFadedRead => .warn
  | .kvPoolBusy => .warn
  | .kvPoolConfig => .warn
  | .kvQuotaCut => .note
  | .kvRefused => .warn
  | .kvWindowOverrun => .warn
  | .lagViolation => .warn
  | .laneSpared => .warn
  | .launchRefused => .warn
  | .layerScaleLimit => .warn
  | .ledgerImbalance => .fatal
  | .loadRefused => .warn
  | .looseHole => .warn
  | .mailboxOverrun => .warn
  | .nmBacklog => .warn
  | .nmCommand => .warn
  | .nmHazard => .warn
  | .nmLate => .warn
  | .nmLayout => .warn
  | .nmPoison => .note
  | .ownerProgFail => .warn
  | .ownerSet => .note
  | .parLoss => .degrade
  | .parRebuildPoison => .warn
  | .parRebuilt => .note
  | .parSealRefused => .warn
  | .parUnrecoverable => .degrade
  | .parWindowOverrun => .warn
  | .phaseLost => .degrade
  | .poisonControl => .warn
  | .poisonRead => .note
  | .portHalfWidth => .degrade
  | .purgeDone => .note
  | .pwrBrake => .warn
  | .rayCreditClip => .warn
  | .rayFenced => .degrade
  | .rayLate => .warn
  | .rayNak => .warn
  | .rayNarrow => .degrade
  | .rayReplay => .note
  | .rayRetrain => .note
  | .rayTrainFail => .degrade
  | .redCapHold => .note
  | .redCapNotice => .note
  | .redDrop => .warn
  | .redLeader => .note
  | .redMirrorFence => .degrade
  | .redPoison => .note
  | .redRereduce => .warn
  | .redSealRefused => .warn
  | .redTimeout => .warn
  | .redWindowOverrun => .warn
  | .refclkLost => .fatal
  | .refreshHot => .note
  | .regionDark => .degrade
  | .regionOc => .degrade
  | .rejoinFail => .warn
  | .reseat => .note
  | .retake => .note
  | .ringFault => .warn
  | .ringOverflow => .note
  | .ringWaitTimeout => .warn
  | .rlDone => .note
  | .rlFail => .warn
  | .routerLost => .degrade
  | .routeSwapLate => .warn
  | .rwSumSat => .note
  | .scheduleMiss => .warn
  | .seamParity => .warn
  | .sensorDisagree => .warn
  | .sensorFail => .warn
  | .shaftBudget => .warn
  | .shaftCeiling => .note
  | .shaftCtrlLost => .degrade
  | .shaftHalfWidth => .degrade
  | .shaftRange => .warn
  | .sheetExtra => .note
  | .sheetHeld => .warn
  | .sheetMissing => .degrade
  | .sheetNoLeader => .degrade
  | .sleepRefused => .warn
  | .slotStaleAck => .note
  | .snapCancel => .warn
  | .snapDone => .note
  | .snapRefused => .warn
  | .sramCorr => .note
  | .sramUncorr => .warn
  | .stretch => .note
  | .syncLost => .degrade
  | .telemDrop => .note
  | .testDone => .note
  | .testRefused => .warn
  | .thermalBlind => .degrade
  | .thermalLimit => .warn
  | .thermalThrottle => .note
  | .thermtrip => .fatal
  | .tileSaturated => .warn
  | .towerLost => .fatal
  | .trayError => .warn
  | .trayRange => .warn
  | .userPageInvalid => .warn
  | .vdroop => .warn
  | .viewHoldExpired => .note
  | .wakeDeferred => .warn

/-- The name read through EVT_NAME (19 R513). -/
def Ev.name : Ev → String
  | .abaCreditClip => "EVT_ABA_CREDIT_CLIP"
  | .abaDmaError => "EVT_ABA_DMA_ERROR"
  | .abaDown => "EVT_ABA_DOWN"
  | .abaNak => "EVT_ABA_NAK"
  | .abaNarrow => "EVT_ABA_NARROW"
  | .abaRetrain => "EVT_ABA_RETRAIN"
  | .abaStreamDrop => "EVT_ABA_STREAM_DROP"
  | .accOverflow => "EVT_ACC_OVERFLOW"
  | .arithInf => "EVT_ARITH_INF"
  | .arithNan => "EVT_ARITH_NAN"
  | .arrayFull => "EVT_ARRAY_FULL"
  | .attnScoreInf => "EVT_ATTN_SCORE_INF"
  | .attnScoreNan => "EVT_ATTN_SCORE_NAN"
  | .bridgeDown => "EVT_BRIDGE_DOWN"
  | .bridgeLaneSpared => "EVT_BRIDGE_LANE_SPARED"
  | .bridgeLate => "EVT_BRIDGE_LATE"
  | .bridgeNarrow => "EVT_BRIDGE_NARROW"
  | .bridgeReplay => "EVT_BRIDGE_REPLAY"
  | .bundleRange => "EVT_BUNDLE_RANGE"
  | .capUnreachable => "EVT_CAP_UNREACHABLE"
  | .checkerFail => "EVT_CHECKER_FAIL"
  | .convNanLost => "EVT_CONV_NAN_LOST"
  | .coreFail => "EVT_CORE_FAIL"
  | .debugDenied => "EVT_DEBUG_DENIED"
  | .debugUnlock => "EVT_DEBUG_UNLOCK"
  | .dramCorr => "EVT_DRAM_CORR"
  | .dramUncorr => "EVT_DRAM_UNCORR"
  | .epochOrder => "EVT_EPOCH_ORDER"
  | .evacDone => "EVT_EVAC_DONE"
  | .eventBufferFull => "EVT_EVENT_BUFFER_FULL"
  | .exposureOverrun => "EVT_EXPOSURE_OVERRUN"
  | .factoryPageInvalid => "EVT_FACTORY_PAGE_INVALID"
  | .feedLost => "EVT_FEED_LOST"
  | .fixedBroken => "EVT_FIXED_BROKEN"
  | .floorBreach => "EVT_FLOOR_BREACH"
  | .forcedDark => "EVT_FORCED_DARK"
  | .fuseFail => "EVT_FUSE_FAIL"
  | .fwInvalid => "EVT_FW_INVALID"
  | .gradeClamp => "EVT_GRADE_CLAMP"
  | .illegalBundle => "EVT_ILLEGAL_BUNDLE"
  | .imgTagMissing => "EVT_IMG_TAG_MISSING"
  | .imgTagRange => "EVT_IMG_TAG_RANGE"
  | .keyRevoked => "EVT_KEY_REVOKED"
  | .kvBucketLate => "EVT_KV_BUCKET_LATE"
  | .kvFade => "EVT_KV_FADE"
  | .kvFadedRead => "EVT_KV_FADED_READ"
  | .kvPoolBusy => "EVT_KV_POOL_BUSY"
  | .kvPoolConfig => "EVT_KV_POOL_CONFIG"
  | .kvQuotaCut => "EVT_KV_QUOTA_CUT"
  | .kvRefused => "EVT_KV_REFUSED"
  | .kvWindowOverrun => "EVT_KV_WINDOW_OVERRUN"
  | .lagViolation => "EVT_LAG_VIOLATION"
  | .laneSpared => "EVT_LANE_SPARED"
  | .launchRefused => "EVT_LAUNCH_REFUSED"
  | .layerScaleLimit => "EVT_LAYER_SCALE_LIMIT"
  | .ledgerImbalance => "EVT_LEDGER_IMBALANCE"
  | .loadRefused => "EVT_LOAD_REFUSED"
  | .looseHole => "EVT_LOOSE_HOLE"
  | .mailboxOverrun => "EVT_MAILBOX_OVERRUN"
  | .nmBacklog => "EVT_NM_BACKLOG"
  | .nmCommand => "EVT_NM_COMMAND"
  | .nmHazard => "EVT_NM_HAZARD"
  | .nmLate => "EVT_NM_LATE"
  | .nmLayout => "EVT_NM_LAYOUT"
  | .nmPoison => "EVT_NM_POISON"
  | .ownerProgFail => "EVT_OWNER_PROG_FAIL"
  | .ownerSet => "EVT_OWNER_SET"
  | .parLoss => "EVT_PAR_LOSS"
  | .parRebuildPoison => "EVT_PAR_REBUILD_POISON"
  | .parRebuilt => "EVT_PAR_REBUILT"
  | .parSealRefused => "EVT_PAR_SEAL_REFUSED"
  | .parUnrecoverable => "EVT_PAR_UNRECOVERABLE"
  | .parWindowOverrun => "EVT_PAR_WINDOW_OVERRUN"
  | .phaseLost => "EVT_PHASE_LOST"
  | .poisonControl => "EVT_POISON_CONTROL"
  | .poisonRead => "EVT_POISON_READ"
  | .portHalfWidth => "EVT_PORT_HALF_WIDTH"
  | .purgeDone => "EVT_PURGE_DONE"
  | .pwrBrake => "EVT_PWR_BRAKE"
  | .rayCreditClip => "EVT_RAY_CREDIT_CLIP"
  | .rayFenced => "EVT_RAY_FENCED"
  | .rayLate => "EVT_RAY_LATE"
  | .rayNak => "EVT_RAY_NAK"
  | .rayNarrow => "EVT_RAY_NARROW"
  | .rayReplay => "EVT_RAY_REPLAY"
  | .rayRetrain => "EVT_RAY_RETRAIN"
  | .rayTrainFail => "EVT_RAY_TRAIN_FAIL"
  | .redCapHold => "EVT_RED_CAP_HOLD"
  | .redCapNotice => "EVT_RED_CAP_NOTICE"
  | .redDrop => "EVT_RED_DROP"
  | .redLeader => "EVT_RED_LEADER"
  | .redMirrorFence => "EVT_RED_MIRROR_FENCE"
  | .redPoison => "EVT_RED_POISON"
  | .redRereduce => "EVT_RED_REREDUCE"
  | .redSealRefused => "EVT_RED_SEAL_REFUSED"
  | .redTimeout => "EVT_RED_TIMEOUT"
  | .redWindowOverrun => "EVT_RED_WINDOW_OVERRUN"
  | .refclkLost => "EVT_REFCLK_LOST"
  | .refreshHot => "EVT_REFRESH_HOT"
  | .regionDark => "EVT_REGION_DARK"
  | .regionOc => "EVT_REGION_OC"
  | .rejoinFail => "EVT_REJOIN_FAIL"
  | .reseat => "EVT_RESEAT"
  | .retake => "EVT_RETAKE"
  | .ringFault => "EVT_RING_FAULT"
  | .ringOverflow => "EVT_RING_OVERFLOW"
  | .ringWaitTimeout => "EVT_RING_WAIT_TIMEOUT"
  | .rlDone => "EVT_RL_DONE"
  | .rlFail => "EVT_RL_FAIL"
  | .routerLost => "EVT_ROUTER_LOST"
  | .routeSwapLate => "EVT_ROUTE_SWAP_LATE"
  | .rwSumSat => "EVT_RW_SUM_SAT"
  | .scheduleMiss => "EVT_SCHEDULE_MISS"
  | .seamParity => "EVT_SEAM_PARITY"
  | .sensorDisagree => "EVT_SENSOR_DISAGREE"
  | .sensorFail => "EVT_SENSOR_FAIL"
  | .shaftBudget => "EVT_SHAFT_BUDGET"
  | .shaftCeiling => "EVT_SHAFT_CEILING"
  | .shaftCtrlLost => "EVT_SHAFT_CTRL_LOST"
  | .shaftHalfWidth => "EVT_SHAFT_HALF_WIDTH"
  | .shaftRange => "EVT_SHAFT_RANGE"
  | .sheetExtra => "EVT_SHEET_EXTRA"
  | .sheetHeld => "EVT_SHEET_HELD"
  | .sheetMissing => "EVT_SHEET_MISSING"
  | .sheetNoLeader => "EVT_SHEET_NO_LEADER"
  | .sleepRefused => "EVT_SLEEP_REFUSED"
  | .slotStaleAck => "EVT_SLOT_STALE_ACK"
  | .snapCancel => "EVT_SNAP_CANCEL"
  | .snapDone => "EVT_SNAP_DONE"
  | .snapRefused => "EVT_SNAP_REFUSED"
  | .sramCorr => "EVT_SRAM_CORR"
  | .sramUncorr => "EVT_SRAM_UNCORR"
  | .stretch => "EVT_STRETCH"
  | .syncLost => "EVT_SYNC_LOST"
  | .telemDrop => "EVT_TELEM_DROP"
  | .testDone => "EVT_TEST_DONE"
  | .testRefused => "EVT_TEST_REFUSED"
  | .thermalBlind => "EVT_THERMAL_BLIND"
  | .thermalLimit => "EVT_THERMAL_LIMIT"
  | .thermalThrottle => "EVT_THERMAL_THROTTLE"
  | .thermtrip => "EVT_THERMTRIP"
  | .tileSaturated => "EVT_TILE_SATURATED"
  | .towerLost => "EVT_TOWER_LOST"
  | .trayError => "EVT_TRAY_ERROR"
  | .trayRange => "EVT_TRAY_RANGE"
  | .userPageInvalid => "EVT_USER_PAGE_INVALID"
  | .vdroop => "EVT_VDROOP"
  | .viewHoldExpired => "EVT_VIEW_HOLD_EXPIRED"
  | .wakeDeferred => "EVT_WAKE_DEFERRED"

end Sys2Proof.Machine
end

