-- ==== Sys2Proof/Machine/Regs.lean ====
section
/-! DEFINITION. The register pages (21 R534 to R544) and every register field the chapters map: its page, offset, bits,
access code and reset value (00 R6, R8). A field of a page with instances, or repeated within a page, is a function of
its index. -/
namespace Sys2Proof.Machine

/-- The block types (21 R539). -/
inductive Pg where
  | glb | boot | safe | sec | evt | ldg | apt | thm | pdn | twr | half | seam | rgn | shf | ray | brg | aba | kvl | red | snap | par | ring
  deriving DecidableEq, Repr

/-- Access codes (00 R6). -/
inductive Acc where
  | ro | rof | rw | rwt | rwl | w1c | wo
  deriving DecidableEq, Repr

/-- The tags of the configuration image (00 R8, 18 R493). -/
inductive Tag where

  | tAbaAckUs
  | tAbaDmaMs
  | tAbaExpWidth
  | tAbaThresh
  | tAbaTrainMs
  | tAptCap
  | tAptFixed
  | tAptFixStop
  | tAptIdleGate
  | tAptMaxStop
  | tAptTelemEn
  | tAptTelemSize
  | tAptTelemWin
  | tCapHoldMs
  | tCapWinMs
  | tEvtAlertEn
  | tEvtRingEn
  | tEvtRingSig
  | tEvtRingSize
  | tEvtRingWin
  | tHotExitMs
  | tKvlBktBc
  | tKvlBktCore
  | tKvlBktEn
  | tKvlBktMask
  | tKvlBktN
  | tKvlBktNb
  | tKvlBktThr
  | tKvlEn
  | tPdnOcA
  | tPdnOn
  | tPeerWaitS
  | tRayExpWidth
  | tRayRole
  | tRayStrict
  | tRayThresh
  | tRayTrainMs
  | tRedMirrorEn
  | tRedMirrorRate
  | tRedSeed
  | tRedTimeoutMs
  | tRejoinMs
  | tRingWaitMs
  | tRwThresh
  | tScrubDrate
  | tScrubEn
  | tScrubSrate
  | tSecPurge
  | tShadowHoldMs
  | tStretchAccept
  | tStretchEn
  | tStretchMax
  | tSyncDBoard
  | tSyncDCell
  | tSyncLossUs
  | tTelemVmin
  | tThmDramThr
  | tThmHyst
  | tThmLogicThr
  | tThmRecoverMs
  | tViewHoldMs
  | tWakeAbaes
  | tWakeLimitMs
  | tWakeRetryUs
  | tWakeSmbus
  | tWakeTimer
  | tRayDevId
  | tSyncLevel
  | tSheetPartner
  | tSmbAddr
  deriving DecidableEq, Repr

/-- A tag by name, NUL padding removed (18 R493). -/
def Tag.name : Tag → String
  | .tAbaAckUs => "ABA_ACK_US"
  | .tAbaDmaMs => "ABA_DMA_MS"
  | .tAbaExpWidth => "ABA_EXP_WIDTH"
  | .tAbaThresh => "ABA_THRESH"
  | .tAbaTrainMs => "ABA_TRAIN_MS"
  | .tAptCap => "APT_CAP"
  | .tAptFixed => "APT_FIXED"
  | .tAptFixStop => "APT_FIX_STOP"
  | .tAptIdleGate => "APT_IDLE_GATE"
  | .tAptMaxStop => "APT_MAX_STOP"
  | .tAptTelemEn => "APT_TELEM_EN"
  | .tAptTelemSize => "APT_TELEM_SIZE"
  | .tAptTelemWin => "APT_TELEM_WIN"
  | .tCapHoldMs => "CAP_HOLD_MS"
  | .tCapWinMs => "CAP_WIN_MS"
  | .tEvtAlertEn => "EVT_ALERT_EN"
  | .tEvtRingEn => "EVT_RING_EN"
  | .tEvtRingSig => "EVT_RING_SIG"
  | .tEvtRingSize => "EVT_RING_SIZE"
  | .tEvtRingWin => "EVT_RING_WIN"
  | .tHotExitMs => "HOT_EXIT_MS"
  | .tKvlBktBc => "KVL_BKT_BC"
  | .tKvlBktCore => "KVL_BKT_CORE"
  | .tKvlBktEn => "KVL_BKT_EN"
  | .tKvlBktMask => "KVL_BKT_MASK"
  | .tKvlBktN => "KVL_BKT_N"
  | .tKvlBktNb => "KVL_BKT_NB"
  | .tKvlBktThr => "KVL_BKT_THR"
  | .tKvlEn => "KVL_EN"
  | .tPdnOcA => "PDN_OC_A"
  | .tPdnOn => "PDN_ON"
  | .tPeerWaitS => "PEER_WAIT_S"
  | .tRayExpWidth => "RAY_EXP_WIDTH"
  | .tRayRole => "RAY_ROLE"
  | .tRayStrict => "RAY_STRICT"
  | .tRayThresh => "RAY_THRESH"
  | .tRayTrainMs => "RAY_TRAIN_MS"
  | .tRedMirrorEn => "RED_MIRROR_EN"
  | .tRedMirrorRate => "RED_MIRROR_RATE"
  | .tRedSeed => "RED_SEED"
  | .tRedTimeoutMs => "RED_TIMEOUT_MS"
  | .tRejoinMs => "REJOIN_MS"
  | .tRingWaitMs => "RING_WAIT_MS"
  | .tRwThresh => "RW_THRESH"
  | .tScrubDrate => "SCRUB_DRATE"
  | .tScrubEn => "SCRUB_EN"
  | .tScrubSrate => "SCRUB_SRATE"
  | .tSecPurge => "SEC_PURGE"
  | .tShadowHoldMs => "SHADOW_HOLD_MS"
  | .tStretchAccept => "STRETCH_ACCEPT"
  | .tStretchEn => "STRETCH_EN"
  | .tStretchMax => "STRETCH_MAX"
  | .tSyncDBoard => "SYNC_D_BOARD"
  | .tSyncDCell => "SYNC_D_CELL"
  | .tSyncLossUs => "SYNC_LOSS_US"
  | .tTelemVmin => "TELEM_VMIN"
  | .tThmDramThr => "THM_DRAM_THR"
  | .tThmHyst => "THM_HYST"
  | .tThmLogicThr => "THM_LOGIC_THR"
  | .tThmRecoverMs => "THM_RECOVER_MS"
  | .tViewHoldMs => "VIEW_HOLD_MS"
  | .tWakeAbaes => "WAKE_ABAES"
  | .tWakeLimitMs => "WAKE_LIMIT_MS"
  | .tWakeRetryUs => "WAKE_RETRY_US"
  | .tWakeSmbus => "WAKE_SMBUS"
  | .tWakeTimer => "WAKE_TIMER"
  | .tRayDevId => "RAY_DEV_ID"
  | .tSyncLevel => "SYNC_LEVEL"
  | .tSheetPartner => "SHEET_PARTNER"
  | .tSmbAddr => "SMB_ADDR"

def Tag.all : List Tag :=
  [.tAbaAckUs, .tAbaDmaMs, .tAbaExpWidth, .tAbaThresh, .tAbaTrainMs, .tAptCap,
   .tAptFixed, .tAptFixStop, .tAptIdleGate, .tAptMaxStop, .tAptTelemEn, .tAptTelemSize,
   .tAptTelemWin, .tCapHoldMs, .tCapWinMs, .tEvtAlertEn, .tEvtRingEn, .tEvtRingSig,
   .tEvtRingSize, .tEvtRingWin, .tHotExitMs, .tKvlBktBc, .tKvlBktCore, .tKvlBktEn,
   .tKvlBktMask, .tKvlBktN, .tKvlBktNb, .tKvlBktThr, .tKvlEn, .tPdnOcA,
   .tPdnOn, .tPeerWaitS, .tRayExpWidth, .tRayRole, .tRayStrict, .tRayThresh,
   .tRayTrainMs, .tRedMirrorEn, .tRedMirrorRate, .tRedSeed, .tRedTimeoutMs, .tRejoinMs,
   .tRingWaitMs, .tRwThresh, .tScrubDrate, .tScrubEn, .tScrubSrate, .tSecPurge,
   .tShadowHoldMs, .tStretchAccept, .tStretchEn, .tStretchMax, .tSyncDBoard, .tSyncDCell,
   .tSyncLossUs, .tTelemVmin, .tThmDramThr, .tThmHyst, .tThmLogicThr, .tThmRecoverMs,
   .tViewHoldMs, .tWakeAbaes, .tWakeLimitMs, .tWakeRetryUs, .tWakeSmbus, .tWakeTimer,
   .tRayDevId, .tSyncLevel, .tSheetPartner, .tSmbAddr]

/-- Where a reset value comes from (00 R8): a constant, a tag of the configuration image with its range, or the
fuses. -/
inductive Rst where
  | const (v : Nat)
  | img (t : Tag) (lo hi : Nat)
  | fused
  deriving DecidableEq, Repr

/-- Whose instance selects a field: its page's, the ring of RING_SEL, or the plate of RING_PLATE_SEL (14 R426). -/
inductive Sel where
  | page | ring | plate
  deriving DecidableEq, Repr

/-- A register field. -/
structure Fld where
  pg : Pg
  off : Nat
  lo : Nat
  w : Nat
  acc : Acc
  rst : Rst
  sel : Sel
  deriving DecidableEq, Repr

/-- The field a row of the map describes `count` times, `stride` apart. -/
structure Row where
  fld : Fld
  stride : Nat
  count : Nat
  deriving DecidableEq, Repr

/-- The i-th field of a repeated one. -/
def Fld.at (f : Fld) (stride i : Nat) : Fld := { f with off := f.off + stride * i }

/-- A number for each block type, for keys. -/
def Pg.num : Pg → Nat
  | .glb => 0
  | .boot => 1
  | .safe => 2
  | .sec => 3
  | .evt => 4
  | .ldg => 5
  | .apt => 6
  | .thm => 7
  | .pdn => 8
  | .twr => 9
  | .half => 10
  | .seam => 11
  | .rgn => 12
  | .shf => 13
  | .ray => 14
  | .brg => 15
  | .aba => 16
  | .kvl => 17
  | .red => 18
  | .snap => 19
  | .par => 20
  | .ring => 21

/-- The key of a field of instance `i`. -/
def Fld.key (f : Fld) (i : Nat) : Nat := ((f.pg.num * 65536 + i) * 4096 + f.off) * 64 + f.lo

/-- What a field reads while no value is listed for it: its constant reset value; 0 for one that the image or the fuses
give, until they do (entries 4 and 5). -/
def Fld.dflt (f : Fld) : Nat :=
  match f.rst with
  | .const v => v % 2 ^ f.w
  | _ => 0

/-! ### GLB -/

/-- R24 -/
def R.GLB_FRAME : Fld := ⟨.glb, 0x40, 0, 64, .rof, (.const 0), .page⟩
/-- R24 -/
def R.GLB_EXP_CUR_LEN : Fld := ⟨.glb, 0x48, 0, 10, .rof, (.const 0x64), .page⟩
/-- R24 -/
def R.GLB_EXP_NEXT_LEN : Fld := ⟨.glb, 0x48, 16, 10, .ro, (.const 0x64), .page⟩
/-- R24 -/
def R.GLB_EXP_DARK : Fld := ⟨.glb, 0x48, 31, 1, .rof, (.const 0), .page⟩
/-- R24 -/
def R.GLB_WISH_WISH : Fld := ⟨.glb, 0x4C, 0, 10, .ro, (.const 0x64), .page⟩
/-- R24 -/
def R.GLB_WISH_SETTER : Fld := ⟨.glb, 0x4C, 16, 6, .ro, (.const 0), .page⟩
/-- R24 -/
def R.GLB_WISH_NONE : Fld := ⟨.glb, 0x4C, 31, 1, .ro, (.const 1), .page⟩
/-- R24 -/
def R.GLB_SYNC_D_BOARD : Fld := ⟨.glb, 0x50, 0, 8, .rwl, (.img .tSyncDBoard 0 255), .page⟩
/-- R24 -/
def R.GLB_SYNC_D_CELL : Fld := ⟨.glb, 0x50, 8, 8, .rwl, (.img .tSyncDCell 0 255), .page⟩
/-- R24 -/
def R.GLB_SYNC_LEVEL : Fld := ⟨.glb, 0x50, 16, 3, .ro, (.const 0), .page⟩
/-- R24 -/
def R.GLB_SYNC_LEADER : Fld := ⟨.glb, 0x50, 19, 1, .ro, (.const 0), .page⟩
/-- R24 -/
def R.GLB_SYNC_LEN_GROUP_LEN : Fld := ⟨.glb, 0x54, 0, 10, .rof, (.const 0x64), .page⟩
/-- R24 -/
def R.GLB_SYNC_LEN_PROPOSED : Fld := ⟨.glb, 0x54, 16, 10, .ro, (.const 0x64), .page⟩
/-- R49 -/
def R.GLB_VIEW_CTRL_HOLD : Fld := ⟨.glb, 0x58, 0, 1, .rw, (.const 0), .page⟩
/-- R49 -/
def R.GLB_VIEW_CTRL_HELD : Fld := ⟨.glb, 0x58, 1, 1, .ro, (.const 0), .page⟩
/-- R49 -/
def R.GLB_VIEW_CTRL_HOLD_MS : Fld := ⟨.glb, 0x58, 8, 8, .rw, (.img .tViewHoldMs 0 100), .page⟩
/-- R39 -/
def R.GLB_REFRESH_HOT : Fld := ⟨.glb, 0x5C, 0, 4, .rof, (.const 0), .page⟩
/-- R39 -/
def R.GLB_REFRESH_FIRST : Fld := ⟨.glb, 0x5C, 4, 2, .rof, (.const 0), .page⟩
/-- R39 -/
def R.GLB_REFRESH_SECOND : Fld := ⟨.glb, 0x5C, 6, 2, .rof, (.const 0), .page⟩
/-- R354 -/
def R.GLB_GROUP_FRAME : Fld := ⟨.glb, 0x60, 0, 64, .rof, (.const 0), .page⟩
/-- R354 -/
def R.GLB_SYNC_STAT_REJOIN : Fld := ⟨.glb, 0x68, 0, 1, .wo, (.const 0), .page⟩
/-- R354 -/
def R.GLB_SYNC_STAT_JOINING : Fld := ⟨.glb, 0x68, 1, 1, .ro, (.const 0), .page⟩
/-- R354 -/
def R.GLB_SYNC_STAT_SKEW : Fld := ⟨.glb, 0x68, 8, 8, .rof, (.const 0), .page⟩
/-- R354 -/
def R.GLB_ROUTE_NEXT_SET : Fld := ⟨.glb, 0x6C, 0, 2, .rw, (.const 0), .page⟩
/-- R354 -/
def R.GLB_ROUTE_CUR_SET : Fld := ⟨.glb, 0x6C, 2, 2, .rof, (.const 0), .page⟩
/-- R354 -/
def R.GLB_ROUTE_AT : Fld := ⟨.glb, 0x70, 0, 32, .rw, (.const 0), .page⟩
/-- R540 -/
def R.GLB_SYNC_LOSS : Fld := ⟨.glb, 0x74, 0, 10, .rw, (.img .tSyncLossUs 9 1000), .page⟩
/-- R516 -/
def R.GLB_STRETCH_EN : Fld := ⟨.glb, 0x78, 0, 1, .rwl, (.img .tStretchEn 0 1), .page⟩
/-- R516 -/
def R.GLB_STRETCH_ACCEPT : Fld := ⟨.glb, 0x78, 1, 1, .rwl, (.img .tStretchAccept 0 1), .page⟩
/-- R516 -/
def R.GLB_STRETCH_MAX_LEN : Fld := ⟨.glb, 0x78, 2, 10, .rwl, (.img .tStretchMax 0 1023), .page⟩
/-- R516 -/
def R.GLB_STRETCH_LEN : Fld := ⟨.glb, 0x78, 18, 10, .rof, (.const 0), .page⟩
/-- R540 -/
def R.GLB_RSVD_WR : Fld := ⟨.glb, 0x7C, 0, 32, .rof, (.const 0), .page⟩
/-- R540 -/
def R.GLB_ID_GRADE : Fld := ⟨.glb, 0x80, 0, 1, .ro, .fused, .page⟩
/-- R540 -/
def R.GLB_ID_GRADE_STOP : Fld := ⟨.glb, 0x80, 1, 4, .ro, .fused, .page⟩
/-- R540 -/
def R.GLB_ID_GRADE_CAP : Fld := ⟨.glb, 0x80, 5, 11, .ro, .fused, .page⟩
/-- R540 -/
def R.GLB_ID_SILICON : Fld := ⟨.glb, 0x80, 16, 8, .ro, .fused, .page⟩
/-- R540 -/
def R.GLB_WR_IGNORED : Fld := ⟨.glb, 0x84, 0, 32, .rof, (.const 0), .page⟩
/-- R540 -/
def R.GLB_REJOIN_LIMIT : Fld := ⟨.glb, 0x88, 0, 16, .rw, (.img .tRejoinMs 10 60000), .page⟩
/-! ### BOOT -/

/-- R503 -/
def R.BOOT_STAT_STATE : Fld := ⟨.boot, 0x40, 0, 4, .ro, (.const 0), .page⟩
/-- R503 -/
def R.BOOT_STAT_CAUSE : Fld := ⟨.boot, 0x40, 8, 8, .ro, (.const 0), .page⟩
/-- R503 -/
def R.BOOT_STAT_RESET_KIND : Fld := ⟨.boot, 0x40, 16, 2, .ro, (.const 0), .page⟩
/-- R503 -/
def R.BOOT_CFG_STAT_FACTORY_OK : Fld := ⟨.boot, 0x44, 0, 1, .ro, (.const 0), .page⟩
/-- R503 -/
def R.BOOT_CFG_STAT_USER_OK : Fld := ⟨.boot, 0x44, 1, 1, .ro, (.const 0), .page⟩
/-- R503 -/
def R.BOOT_CFG_STAT_USER_SIGNED : Fld := ⟨.boot, 0x44, 2, 1, .ro, (.const 0), .page⟩
/-- R503 -/
def R.BOOT_CFG_STAT_RANGE : Fld := ⟨.boot, 0x44, 4, 12, .ro, (.const 0), .page⟩
/-- R503 -/
def R.BOOT_CFG_STAT_UNKNOWN : Fld := ⟨.boot, 0x44, 16, 16, .ro, (.const 0), .page⟩
/-- R503 -/
def R.BOOT_PEER_WAIT : Fld := ⟨.boot, 0x48, 0, 10, .rw, (.img .tPeerWaitS 0 600), .page⟩
/-- R503 -/
def R.BOOT_TEST_CODE : Fld := ⟨.boot, 0x50, 0, 4, .rw, (.const 0), .page⟩
/-- R503 -/
def R.BOOT_TEST_FORCE : Fld := ⟨.boot, 0x50, 4, 1, .rw, (.const 0), .page⟩
/-- R503 -/
def R.BOOT_TEST_GO : Fld := ⟨.boot, 0x50, 5, 1, .wo, (.const 0), .page⟩
/-- R503 -/
def R.BOOT_TEST_TOWERS : Fld := ⟨.boot, 0x50, 6, 4, .rw, (.const 0), .page⟩
/-- R503 -/
def R.BOOT_TEST_STATUS : Fld := ⟨.boot, 0x50, 10, 2, .ro, (.const 0), .page⟩
/-- R503 -/
def R.BOOT_TEST_RESULT : Fld := ⟨.boot, 0x50, 12, 2, .ro, (.const 0), .page⟩
/-- R503 -/
def R.BOOT_SLEEP : Fld := ⟨.boot, 0x58, 0, 2, .wo, (.const 0), .page⟩
/-- R503 -/
def R.BOOT_PHASE_MS (i : Nat) : Fld := ⟨.boot, 0x80 + 0x4 * i, 0, 16, .ro, (.const 0), .page⟩
/-- R542 -/
def R.BOOT_RL_CTRL_TARGET : Fld := ⟨.boot, 0x100, 0, 1, .rw, (.const 0), .page⟩
/-- R542 -/
def R.BOOT_RL_CTRL_GO : Fld := ⟨.boot, 0x100, 1, 1, .wo, (.const 0), .page⟩
/-- R542 -/
def R.BOOT_RL_CTRL_STATUS : Fld := ⟨.boot, 0x100, 2, 2, .ro, (.const 0), .page⟩
/-- R542 -/
def R.BOOT_RL_CTRL_CAUSE : Fld := ⟨.boot, 0x100, 4, 4, .ro, (.const 0), .page⟩
/-- R542 -/
def R.BOOT_RL_CTRL_SMBUS : Fld := ⟨.boot, 0x100, 8, 1, .ro, (.const 0), .page⟩
/-- R542 -/
def R.BOOT_RL_ADDR : Fld := ⟨.boot, 0x108, 0, 64, .rw, (.const 0), .page⟩
/-- R542 -/
def R.BOOT_RL_LEN : Fld := ⟨.boot, 0x110, 0, 32, .rw, (.const 0), .page⟩
/-- R542 -/
def R.BOOT_RL_DONE : Fld := ⟨.boot, 0x114, 0, 32, .ro, (.const 0), .page⟩
/-! ### SAFE -/

/-- R504 -/
def R.SAFE_WAKE_TIMER : Fld := ⟨.safe, 0x40, 0, 1, .rw, (.img .tWakeTimer 0 1), .page⟩
/-- R504 -/
def R.SAFE_WAKE_SMBUS : Fld := ⟨.safe, 0x40, 1, 1, .rw, (.img .tWakeSmbus 0 1), .page⟩
/-- R504 -/
def R.SAFE_WAKE_ABAES : Fld := ⟨.safe, 0x40, 2, 1, .rw, (.img .tWakeAbaes 0 1), .page⟩
/-- R504 -/
def R.SAFE_WAKE_AT : Fld := ⟨.safe, 0x48, 0, 64, .rw, (.const 0), .page⟩
/-- R504 -/
def R.SAFE_WAKE_CAUSE : Fld := ⟨.safe, 0x50, 0, 2, .ro, (.const 0), .page⟩
/-- R543 -/
def R.SAFE_TIMEBASE : Fld := ⟨.safe, 0x58, 0, 64, .ro, (.const 0), .page⟩
/-- R543 -/
def R.SAFE_FRAME : Fld := ⟨.safe, 0x60, 0, 64, .ro, (.const 0), .page⟩
/-- R543 -/
def R.SAFE_DOWN : Fld := ⟨.safe, 0x68, 0, 3, .ro, (.const 0), .page⟩
/-- R543 -/
def R.SAFE_TRIP_TOWER : Fld := ⟨.safe, 0x6C, 0, 2, .ro, (.const 0), .page⟩
/-- R543 -/
def R.SAFE_TRIP_SENSOR : Fld := ⟨.safe, 0x6C, 2, 7, .ro, (.const 0), .page⟩
/-- R543 -/
def R.SAFE_TRIP_KIND : Fld := ⟨.safe, 0x6C, 9, 1, .ro, (.const 0), .page⟩
/-- R543 -/
def R.SAFE_TRIP_VALID : Fld := ⟨.safe, 0x6C, 10, 1, .w1c, (.const 0), .page⟩
/-! ### SEC -/

/-- R532 -/
def R.SEC_STAT_FW_VALID : Fld := ⟨.sec, 0x40, 0, 1, .ro, (.const 0), .page⟩
/-- R532 -/
def R.SEC_STAT_OWNER_SET : Fld := ⟨.sec, 0x40, 1, 1, .rof, (.const 0), .page⟩
/-- R532 -/
def R.SEC_STAT_SPOILED : Fld := ⟨.sec, 0x40, 2, 1, .rof, (.const 0), .page⟩
/-- R532 -/
def R.SEC_STAT_USER_VERIFIED : Fld := ⟨.sec, 0x40, 3, 1, .ro, (.const 0), .page⟩
/-- R532 -/
def R.SEC_STAT_DEBUG : Fld := ⟨.sec, 0x40, 4, 2, .rof, (.const 0), .page⟩
/-- R532 -/
def R.SEC_STAT_PURGED : Fld := ⟨.sec, 0x40, 6, 1, .ro, (.const 0), .page⟩
/-- R532 -/
def R.SEC_STAT_FW_SVN : Fld := ⟨.sec, 0x40, 8, 8, .ro, (.const 0), .page⟩
/-- R532 -/
def R.SEC_STAT_MIN_SVN : Fld := ⟨.sec, 0x40, 16, 8, .ro, (.const 0), .page⟩
/-- R532 -/
def R.SEC_STAT_REVOKED : Fld := ⟨.sec, 0x40, 24, 4, .ro, (.const 0), .page⟩
/-- R532 -/
def R.SEC_STAT_CAUSE : Fld := ⟨.sec, 0x40, 28, 4, .ro, (.const 0), .page⟩
/-- R532 -/
def R.SEC_POLICY_PURGE : Fld := ⟨.sec, 0x44, 0, 1, .rwl, (.img .tSecPurge 0 1), .page⟩
/-- R532 -/
def R.SEC_POLICY_SVN_COMMIT : Fld := ⟨.sec, 0x44, 1, 1, .wo, (.const 0), .page⟩
/-- R532 -/
def R.SEC_POLICY_REVOKE : Fld := ⟨.sec, 0x44, 2, 4, .wo, (.const 0), .page⟩
/-- R532 -/
def R.SEC_OWNER_HASH (i : Nat) : Fld := ⟨.sec, 0x60 + 0x4 * i, 0, 32, .rw, (.const 0), .page⟩
/-- R532 -/
def R.SEC_OWNER_CTRL : Fld := ⟨.sec, 0x90, 0, 32, .wo, (.const 0), .page⟩
/-- R532 -/
def R.SEC_DBG_CTRL_LEVEL : Fld := ⟨.sec, 0xA0, 0, 2, .rw, (.const 0), .page⟩
/-- R532 -/
def R.SEC_DBG_CTRL_NONCE_REQ : Fld := ⟨.sec, 0xA0, 2, 1, .wo, (.const 0), .page⟩
/-- R532 -/
def R.SEC_DBG_CTRL_SUBMIT : Fld := ⟨.sec, 0xA0, 3, 1, .wo, (.const 0), .page⟩
/-- R532 -/
def R.SEC_DBG_CTRL_RESULT : Fld := ⟨.sec, 0xA0, 4, 2, .ro, (.const 0), .page⟩
/-- R532 -/
def R.SEC_DBG_CTRL_FAILS : Fld := ⟨.sec, 0xA0, 6, 4, .ro, (.const 0), .page⟩
/-- R532 -/
def R.SEC_DBG_NONCE (i : Nat) : Fld := ⟨.sec, 0xC0 + 0x4 * i, 0, 32, .ro, (.const 0), .page⟩
/-- R532 -/
def R.SEC_DBG_RESP (i : Nat) : Fld := ⟨.sec, 0x100 + 0x4 * i, 0, 32, .rw, (.const 0), .page⟩
/-- R532 -/
def R.SEC_DBG_KEY (i : Nat) : Fld := ⟨.sec, 0x160 + 0x4 * i, 0, 32, .rw, (.const 0), .page⟩
/-- R532 -/
def R.SEC_SERIAL (i : Nat) : Fld := ⟨.sec, 0x1E0 + 0x4 * i, 0, 32, .ro, .fused, .page⟩
/-- R532 -/
def R.SEC_MCTP_CTRL_TX_LEN : Fld := ⟨.sec, 0x200, 0, 11, .rw, (.const 0), .page⟩
/-- R532 -/
def R.SEC_MCTP_CTRL_GO : Fld := ⟨.sec, 0x200, 11, 1, .wo, (.const 0), .page⟩
/-- R532 -/
def R.SEC_MCTP_CTRL_RX_READY : Fld := ⟨.sec, 0x200, 12, 1, .ro, (.const 0), .page⟩
/-- R532 -/
def R.SEC_MCTP_CTRL_RX_LEN : Fld := ⟨.sec, 0x200, 13, 11, .ro, (.const 0), .page⟩
/-- R532 -/
def R.SEC_MCTP_TX (i : Nat) : Fld := ⟨.sec, 0x400 + 0x4 * i, 0, 32, .rw, (.const 0), .page⟩
/-- R532 -/
def R.SEC_MCTP_RX (i : Nat) : Fld := ⟨.sec, 0x800 + 0x4 * i, 0, 32, .ro, (.const 0), .page⟩
/-! ### EVT -/

/-- R513 -/
def R.EVT_RAISED : Fld := ⟨.evt, 0x40, 0, 64, .rof, (.const 0), .page⟩
/-- R513 -/
def R.EVT_DELIVERED : Fld := ⟨.evt, 0x48, 0, 64, .rof, (.const 0), .page⟩
/-- R513 -/
def R.EVT_COALESCED : Fld := ⟨.evt, 0x50, 0, 64, .rof, (.const 0), .page⟩
/-- R513 -/
def R.EVT_ALERT : Fld := ⟨.evt, 0x5C, 0, 4, .w1c, (.const 0), .page⟩
/-- R513 -/
def R.EVT_NAME_SEL : Fld := ⟨.evt, 0x60, 0, 16, .rw, (.const 0), .page⟩
/-- R513 -/
def R.EVT_NAME (i : Nat) : Fld := ⟨.evt, 0x80 + 0x4 * i, 0, 32, .ro, (.const 0), .page⟩
/-- R513 -/
def R.EVT_RING_CTRL_EN (i : Nat) : Fld := ⟨.evt, 0x100 + 0x20 * i, 0, 1, .rwt, (.img .tEvtRingEn 0 1), .page⟩
/-- R513 -/
def R.EVT_RING_CTRL_WINDOW (i : Nat) : Fld := ⟨.evt, 0x100 + 0x20 * i, 1, 4, .rwt, (.img .tEvtRingWin 0 15), .page⟩
/-- R513 -/
def R.EVT_RING_CTRL_SIZE (i : Nat) : Fld := ⟨.evt, 0x100 + 0x20 * i, 5, 5, .rwt, (.img .tEvtRingSize 4 20), .page⟩
/-- R513 -/
def R.EVT_RING_CTRL_SIGNAL (i : Nat) : Fld := ⟨.evt, 0x100 + 0x20 * i, 10, 8, .rwt, (.img .tEvtRingSig 0 255), .page⟩
/-- R513 -/
def R.EVT_RING_CTRL_ALERT_EN (i : Nat) : Fld := ⟨.evt, 0x100 + 0x20 * i, 18, 1, .rwt, (.img .tEvtAlertEn 0 1), .page⟩
/-- R513 -/
def R.EVT_RING_PROD (i : Nat) : Fld := ⟨.evt, 0x108 + 0x20 * i, 0, 64, .rof, (.const 0), .page⟩
/-- R513 -/
def R.EVT_RING_CONS (i : Nat) : Fld := ⟨.evt, 0x110 + 0x20 * i, 0, 64, .rw, (.const 0), .page⟩
/-- R513 -/
def R.EVT_RING_QUEUED (i : Nat) : Fld := ⟨.evt, 0x118 + 0x20 * i, 0, 13, .rof, (.const 0), .page⟩
/-! ### LDG -/

/-- R544 -/
def R.LDG_FAIL_LEDGER : Fld := ⟨.ldg, 0x40, 0, 4, .rof, (.const 0), .page⟩
/-- R544 -/
def R.LDG_FAIL_VALID : Fld := ⟨.ldg, 0x40, 4, 1, .rof, (.const 0), .page⟩
/-- R544 -/
def R.LDG_FAIL_INST : Fld := ⟨.ldg, 0x44, 0, 32, .rof, (.const 0), .page⟩
/-- R544 -/
def R.LDG_FAIL_FRAME : Fld := ⟨.ldg, 0x48, 0, 64, .rof, (.const 0), .page⟩
/-- R544 -/
def R.LDG_FAIL_LEFT : Fld := ⟨.ldg, 0x50, 0, 64, .rof, (.const 0), .page⟩
/-- R544 -/
def R.LDG_FAIL_RIGHT : Fld := ⟨.ldg, 0x58, 0, 64, .rof, (.const 0), .page⟩
/-- R544 -/
def R.LDG_FAIL_CNT : Fld := ⟨.ldg, 0x60, 0, 32, .rof, (.const 0), .page⟩
/-- R544 -/
def R.LDG_CHECKS : Fld := ⟨.ldg, 0x68, 0, 64, .rof, (.const 0), .page⟩
/-! ### APT -/

/-- R467 -/
def R.APT_CTRL_FIXED : Fld := ⟨.apt, 0x40, 0, 1, .rwt, (.img .tAptFixed 0 1), .page⟩
/-- R467 -/
def R.APT_CTRL_FIX_STOP : Fld := ⟨.apt, 0x40, 1, 4, .rwt, (.img .tAptFixStop 0 8), .page⟩
/-- R467 -/
def R.APT_CTRL_MAX_STOP : Fld := ⟨.apt, 0x40, 5, 4, .rwt, (.img .tAptMaxStop 0 8), .page⟩
/-- R467 -/
def R.APT_CTRL_IDLE_GATE : Fld := ⟨.apt, 0x40, 9, 1, .rwt, (.img .tAptIdleGate 0 1), .page⟩
/-- R467 -/
def R.APT_CAP : Fld := ⟨.apt, 0x44, 0, 11, .rwt, (.img .tAptCap 0 2047), .page⟩
/-- R467 -/
def R.APT_CAP_WIN : Fld := ⟨.apt, 0x48, 0, 7, .rwt, (.img .tCapWinMs 0 100), .page⟩
/-- R467 -/
def R.APT_STAT_TARGET : Fld := ⟨.apt, 0x4C, 0, 4, .rof, (.const 6), .page⟩
/-- R467 -/
def R.APT_STAT_K : Fld := ⟨.apt, 0x4C, 4, 4, .rof, (.const 0), .page⟩
/-- R467 -/
def R.APT_STAT_LOCAL_K : Fld := ⟨.apt, 0x4C, 8, 4, .rof, (.const 0), .page⟩
/-- R467 -/
def R.APT_STAT_UNREACHABLE : Fld := ⟨.apt, 0x4C, 12, 1, .rof, (.const 0), .page⟩
/-- R467 -/
def R.APT_STAT_HOLD : Fld := ⟨.apt, 0x4C, 13, 1, .rof, (.const 0), .page⟩
/-- R467 -/
def R.APT_STAT_BRAKE : Fld := ⟨.apt, 0x4C, 14, 1, .rof, (.const 0), .page⟩
/-- R467 -/
def R.APT_STAT_FIXED_HELD : Fld := ⟨.apt, 0x4C, 15, 1, .rof, (.const 0), .page⟩
/-- R467 -/
def R.APT_POWER_LAST : Fld := ⟨.apt, 0x50, 0, 16, .ro, (.const 0), .page⟩
/-- R467 -/
def R.APT_POWER_WIN : Fld := ⟨.apt, 0x50, 16, 16, .ro, (.const 0), .page⟩
/-- R467 -/
def R.APT_FEED_A_V : Fld := ⟨.apt, 0x54, 0, 8, .ro, (.const 0), .page⟩
/-- R467 -/
def R.APT_FEED_B_V : Fld := ⟨.apt, 0x54, 8, 8, .ro, (.const 0), .page⟩
/-- R467 -/
def R.APT_FEED_A_OK : Fld := ⟨.apt, 0x54, 16, 1, .ro, (.const 0), .page⟩
/-- R467 -/
def R.APT_FEED_B_OK : Fld := ⟨.apt, 0x54, 17, 1, .ro, (.const 0), .page⟩
/-- R467 -/
def R.APT_FEED_AUX_OK : Fld := ⟨.apt, 0x54, 18, 1, .ro, (.const 0), .page⟩
/-- R467 -/
def R.APT_DARK_CNT : Fld := ⟨.apt, 0x58, 0, 64, .rof, (.const 0), .page⟩
/-- R467 -/
def R.APT_E_JOBSUM : Fld := ⟨.apt, 0x60, 0, 64, .rof, (.const 0), .page⟩
/-- R467 -/
def R.APT_E_UNATTR : Fld := ⟨.apt, 0x68, 0, 64, .rof, (.const 0), .page⟩
/-- R467 -/
def R.APT_E_MEAS : Fld := ⟨.apt, 0x70, 0, 64, .rof, (.const 0), .page⟩
/-- R467 -/
def R.APT_JOB_SEL : Fld := ⟨.apt, 0x78, 0, 32, .rw, (.const 0), .page⟩
/-- R467 -/
def R.APT_JOB_E : Fld := ⟨.apt, 0x80, 0, 64, .rof, (.const 0), .page⟩
/-- R467 -/
def R.APT_TELEM_EN : Fld := ⟨.apt, 0x88, 0, 1, .rwt, (.img .tAptTelemEn 0 1), .page⟩
/-- R467 -/
def R.APT_TELEM_WINDOW : Fld := ⟨.apt, 0x88, 1, 4, .rwt, (.img .tAptTelemWin 0 15), .page⟩
/-- R467 -/
def R.APT_TELEM_SIZE : Fld := ⟨.apt, 0x88, 5, 5, .rwt, (.img .tAptTelemSize 4 16), .page⟩
/-- R467 -/
def R.APT_TELEM_VMIN_EXPORT : Fld := ⟨.apt, 0x88, 10, 1, .rwt, (.img .tTelemVmin 0 1), .page⟩
/-- R467 -/
def R.APT_TELEM_PROD : Fld := ⟨.apt, 0x90, 0, 64, .rof, (.const 0), .page⟩
/-- R467 -/
def R.APT_TELEM_CONS : Fld := ⟨.apt, 0x98, 0, 64, .rw, (.const 0), .page⟩
/-- R467 -/
def R.APT_TELEM_DROP : Fld := ⟨.apt, 0xA0, 0, 32, .rof, (.const 0), .page⟩
/-- R467 -/
def R.APT_VMIN_CNT : Fld := ⟨.apt, 0xA4, 0, 32, .rof, (.const 0), .page⟩
/-- R467 -/
def R.APT_HALF_STOP_STOP (i : Nat) : Fld := ⟨.apt, 0x100 + 0x4 * i, 0, 4, .rof, (.const 0), .page⟩
/-- R467 -/
def R.APT_HALF_STOP_CEIL (i : Nat) : Fld := ⟨.apt, 0x100 + 0x4 * i, 4, 4, .rof, (.const 0), .page⟩
/-- R467 -/
def R.APT_HALF_STOP_FLOOR (i : Nat) : Fld := ⟨.apt, 0x100 + 0x4 * i, 8, 4, .rof, (.const 0), .page⟩
/-- R467 -/
def R.APT_HALF_STOP_LIMITER (i : Nat) : Fld := ⟨.apt, 0x100 + 0x4 * i, 12, 4, .rof, (.const 0), .page⟩
/-- R467 -/
def R.APT_VMIN_LOG_DOMAIN (i : Nat) : Fld := ⟨.apt, 0x400 + 0x10 * i, 0, 7, .rof, (.const 0), .page⟩
/-- R467 -/
def R.APT_VMIN_LOG_DEPTH (i : Nat) : Fld := ⟨.apt, 0x400 + 0x10 * i, 8, 8, .rof, (.const 0), .page⟩
/-- R467 -/
def R.APT_VMIN_LOG_MIN (i : Nat) : Fld := ⟨.apt, 0x400 + 0x10 * i, 16, 12, .rof, (.const 0), .page⟩
/-- R467 -/
def R.APT_VMIN_LOG_TIMEBASE (i : Nat) : Fld := ⟨.apt, 0x408 + 0x10 * i, 0, 64, .rof, (.const 0), .page⟩
/-! ### THM -/

/-- R483 -/
def R.THM_CTRL_LOGIC_THR : Fld := ⟨.thm, 0x40, 0, 7, .rwt, (.img .tThmLogicThr 90 104), .page⟩
/-- R483 -/
def R.THM_CTRL_DRAM_THR : Fld := ⟨.thm, 0x40, 8, 7, .rwt, (.img .tThmDramThr 86 94), .page⟩
/-- R483 -/
def R.THM_CTRL_HYST : Fld := ⟨.thm, 0x40, 16, 4, .rwt, (.img .tThmHyst 2 15), .page⟩
/-- R483 -/
def R.THM_STAT_K_TH : Fld := ⟨.thm, 0x44, 0, 4, .rof, (.const 0), .page⟩
/-- R483 -/
def R.THM_STAT_DISAGREE : Fld := ⟨.thm, 0x44, 8, 8, .rof, (.const 0), .page⟩
/-- R483 -/
def R.THM_STAT_FAILED : Fld := ⟨.thm, 0x44, 16, 9, .rof, (.const 0), .page⟩
/-- R483 -/
def R.THM_STAT_BLIND : Fld := ⟨.thm, 0x44, 25, 1, .rof, (.const 0), .page⟩
/-- R483 -/
def R.THM_HOT_EXIT : Fld := ⟨.thm, 0x48, 0, 7, .rw, (.img .tHotExitMs 1 100), .page⟩
/-- R483 -/
def R.THM_SHADOW_HOLD : Fld := ⟨.thm, 0x4C, 0, 7, .ro, (.img .tShadowHoldMs 10 10), .page⟩
/-- R483 -/
def R.THM_RECOVER : Fld := ⟨.thm, 0x50, 0, 7, .rw, (.img .tThmRecoverMs 1 100), .page⟩
/-- R483 -/
def R.THM_THROTTLE_CNT : Fld := ⟨.thm, 0x58, 0, 64, .rof, (.const 0), .page⟩
/-- R483 -/
def R.THM_HALF_T_LOGIC (i : Nat) : Fld := ⟨.thm, 0x100 + 0x4 * i, 0, 10, .rof, (.const 0), .page⟩
/-- R483 -/
def R.THM_HALF_T_DRAM (i : Nat) : Fld := ⟨.thm, 0x100 + 0x4 * i, 10, 10, .rof, (.const 0), .page⟩
/-- R483 -/
def R.THM_HALF_CEIL (i : Nat) : Fld := ⟨.thm, 0x100 + 0x4 * i, 20, 4, .rof, (.const 8), .page⟩
/-- R483 -/
def R.THM_HALF_GOV (i : Nat) : Fld := ⟨.thm, 0x100 + 0x4 * i, 24, 3, .rof, (.const 0), .page⟩
/-- R483 -/
def R.THM_HALF_SHADOW (i : Nat) : Fld := ⟨.thm, 0x100 + 0x4 * i, 27, 1, .rof, (.const 0), .page⟩
/-- R484 -/
def R.THM_SENSOR_TEMP (t i : Nat) : Fld := ⟨.thm, 0x400 + 0x200 * t + 4 * i, 0, 10, .ro, (.const 0), .page⟩
/-- R484 -/
def R.THM_SENSOR_SHADOW (t i : Nat) : Fld := ⟨.thm, 0x400 + 0x200 * t + 4 * i, 10, 10, .ro, (.const 0), .page⟩
/-- R484 -/
def R.THM_SENSOR_FAIL (t i : Nat) : Fld := ⟨.thm, 0x400 + 0x200 * t + 4 * i, 20, 1, .rof, (.const 0), .page⟩
/-- R484 -/
def R.THM_SENSOR_TRUSTED (t i : Nat) : Fld := ⟨.thm, 0x400 + 0x200 * t + 4 * i, 21, 1, .rof, (.const 0), .page⟩
/-- R484 -/
def R.THM_COEF (tq i : Nat) : Fld := ⟨.thm, 0xC00 + 0x20 * tq + 4 * i, 0, 16, .ro, .fused, .page⟩
/-! ### PDN -/

/-- R468 -/
def R.PDN_CTRL : Fld := ⟨.pdn, 0x40, 0, 1, .rw, (.img .tPdnOn 0 1), .page⟩
/-- R468 -/
def R.PDN_STAT_STATE : Fld := ⟨.pdn, 0x44, 0, 2, .rof, (.const 0), .page⟩
/-- R468 -/
def R.PDN_STAT_DEFERRED : Fld := ⟨.pdn, 0x44, 2, 1, .ro, (.const 0), .page⟩
/-- R468 -/
def R.PDN_STAT_STEP : Fld := ⟨.pdn, 0x44, 3, 5, .ro, (.const 0), .page⟩
/-- R468 -/
def R.PDN_STAT_PHASES_LOST : Fld := ⟨.pdn, 0x44, 8, 3, .rof, (.const 0), .page⟩
/-- R468 -/
def R.PDN_STAT_PHASE_CEIL : Fld := ⟨.pdn, 0x44, 11, 4, .rof, (.const 8), .page⟩
/-- R468 -/
def R.PDN_WAKE_RETRY : Fld := ⟨.pdn, 0x48, 0, 8, .ro, (.img .tWakeRetryUs 8 8), .page⟩
/-- R468 -/
def R.PDN_WAKE_LIMIT : Fld := ⟨.pdn, 0x4C, 0, 8, .ro, (.img .tWakeLimitMs 2 2), .page⟩
/-- R468 -/
def R.PDN_OC_LIMIT : Fld := ⟨.pdn, 0x50, 0, 8, .rwl, (.img .tPdnOcA 0 255), .page⟩
/-- R468 -/
def R.PDN_I_AVG : Fld := ⟨.pdn, 0x54, 0, 16, .ro, (.const 0), .page⟩
/-- R468 -/
def R.PDN_I_PEAK : Fld := ⟨.pdn, 0x54, 16, 16, .ro, (.const 0), .page⟩
/-- R468 -/
def R.PDN_VMIN_MIN : Fld := ⟨.pdn, 0x58, 0, 12, .ro, (.const 0xFFF), .page⟩
/-- R468 -/
def R.PDN_VMIN_TARGET : Fld := ⟨.pdn, 0x58, 12, 12, .ro, (.const 0), .page⟩
/-- R468 -/
def R.PDN_VMIN_CLR : Fld := ⟨.pdn, 0x58, 24, 1, .wo, (.const 0), .page⟩
/-- R468 -/
def R.PDN_E : Fld := ⟨.pdn, 0x60, 0, 64, .rof, (.const 0), .page⟩
/-! ### TWR -/

/-- R79 -/
def R.TWR_SHIFT_SKIP (i : Nat) : Fld := ⟨.twr, 0x100 + 0x4 * i, 0, 5, .rof, (.const 0x1F), .page⟩
/-- R79 -/
def R.TWR_SHIFT_SPARE_FREE (i : Nat) : Fld := ⟨.twr, 0x100 + 0x4 * i, 5, 1, .rof, (.const 1), .page⟩
/-- R79 -/
def R.TWR_SHIFT_HOLE (i : Nat) : Fld := ⟨.twr, 0x100 + 0x4 * i, 6, 1, .rof, (.const 0), .page⟩
/-- R79 -/
def R.TWR_SHIFT_ORIGIN (i : Nat) : Fld := ⟨.twr, 0x100 + 0x4 * i, 7, 1, .rof, (.const 0), .page⟩
/-- R79 -/
def R.TWR_SHIFT_HOLE_COL (i : Nat) : Fld := ⟨.twr, 0x100 + 0x4 * i, 8, 4, .rof, (.const 0), .page⟩
/-- R79 -/
def R.TWR_SHIFT_SELFTEST (i : Nat) : Fld := ⟨.twr, 0x100 + 0x4 * i, 12, 1, .rof, (.const 0), .page⟩
/-- R517 -/
def R.TWR_EVAC_CTRL_ROW : Fld := ⟨.twr, 0x200, 0, 5, .rw, (.const 0), .page⟩
/-- R517 -/
def R.TWR_EVAC_CTRL_HALF : Fld := ⟨.twr, 0x200, 5, 1, .rw, (.const 0), .page⟩
/-- R517 -/
def R.TWR_EVAC_CTRL_SRC_COL : Fld := ⟨.twr, 0x200, 6, 4, .rw, (.const 0), .page⟩
/-- R517 -/
def R.TWR_EVAC_CTRL_DST_COL : Fld := ⟨.twr, 0x200, 10, 4, .rw, (.const 0), .page⟩
/-- R517 -/
def R.TWR_EVAC_CTRL_GO : Fld := ⟨.twr, 0x200, 14, 1, .wo, (.const 0), .page⟩
/-- R517 -/
def R.TWR_EVAC_CTRL_STATUS : Fld := ⟨.twr, 0x200, 16, 2, .ro, (.const 0), .page⟩
/-- R517 -/
def R.TWR_EVAC_CTRL_CAUSE : Fld := ⟨.twr, 0x200, 20, 4, .ro, (.const 0), .page⟩
/-- R517 -/
def R.TWR_EVAC_SADDR : Fld := ⟨.twr, 0x204, 0, 32, .rw, (.const 0), .page⟩
/-- R517 -/
def R.TWR_EVAC_DADDR : Fld := ⟨.twr, 0x208, 0, 32, .rw, (.const 0), .page⟩
/-- R517 -/
def R.TWR_EVAC_LEN : Fld := ⟨.twr, 0x20C, 0, 16, .rw, (.const 0), .page⟩
/-- R517 -/
def R.TWR_EVAC_DONE : Fld := ⟨.twr, 0x210, 0, 32, .rof, (.const 0), .page⟩
/-- R515 -/
def R.TWR_RESEAT_ROW : Fld := ⟨.twr, 0x220, 0, 5, .rw, (.const 0), .page⟩
/-- R515 -/
def R.TWR_RESEAT_HALF : Fld := ⟨.twr, 0x220, 5, 1, .rw, (.const 0), .page⟩
/-- R515 -/
def R.TWR_RESEAT_GO : Fld := ⟨.twr, 0x220, 6, 1, .wo, (.const 0), .page⟩
/-- R515 -/
def R.TWR_RESEAT_STATUS : Fld := ⟨.twr, 0x220, 8, 2, .ro, (.const 0), .page⟩
/-- R515 -/
def R.TWR_RESEAT_CAUSE : Fld := ⟨.twr, 0x220, 12, 4, .ro, (.const 0), .page⟩
/-! ### HALF -/

/-- R217 -/
def R.HALF_FABRIC_LOST : Fld := ⟨.half, 0x40, 0, 1, .rof, (.const 0), .page⟩
/-- R217 -/
def R.HALF_FABRIC_ROW : Fld := ⟨.half, 0x40, 4, 5, .rof, (.const 0), .page⟩
/-- R217 -/
def R.HALF_FABRIC_COL : Fld := ⟨.half, 0x40, 9, 4, .rof, (.const 0), .page⟩
/-- R217 -/
def R.HALF_FENCE_DROP : Fld := ⟨.half, 0x44, 0, 32, .rof, (.const 0), .page⟩
/-- R217 -/
def R.HALF_POISON_OUT : Fld := ⟨.half, 0x48, 0, 32, .rof, (.const 0), .page⟩
/-! ### SEAM -/

/-- R218 -/
def R.SEAM_LINK_W2E : Fld := ⟨.seam, 0x40, 0, 32, .rof, (.const 0xFFFFFFFF), .page⟩
/-- R218 -/
def R.SEAM_LINK_E2W : Fld := ⟨.seam, 0x44, 0, 32, .rof, (.const 0xFFFFFFFF), .page⟩
/-- R218 -/
def R.SEAM_FLITS_W2E : Fld := ⟨.seam, 0x48, 0, 64, .rof, (.const 0), .page⟩
/-- R218 -/
def R.SEAM_FLITS_E2W : Fld := ⟨.seam, 0x50, 0, 64, .rof, (.const 0), .page⟩
/-- R218 -/
def R.SEAM_PEAK_W2E_PEAK : Fld := ⟨.seam, 0x58, 0, 12, .rof, (.const 0), .page⟩
/-- R218 -/
def R.SEAM_PEAK_E2W_PEAK : Fld := ⟨.seam, 0x58, 16, 12, .rof, (.const 0), .page⟩
/-- R218 -/
def R.SEAM_PARITY : Fld := ⟨.seam, 0x5C, 0, 32, .rof, (.const 0), .page⟩
/-! ### RGN -/

/-- R129 -/
def R.TWR_RGN_FAULT_CORE : Fld := ⟨.rgn, 0x40, 0, 6, .rof, (.const 0), .page⟩
/-- R129 -/
def R.TWR_RGN_FAULT_CONTEXT : Fld := ⟨.rgn, 0x40, 6, 4, .rof, (.const 0), .page⟩
/-- R129 -/
def R.TWR_RGN_FAULT_CAUSE : Fld := ⟨.rgn, 0x40, 10, 6, .rof, (.const 0), .page⟩
/-- R129 -/
def R.TWR_RGN_FAULT_BUNDLE : Fld := ⟨.rgn, 0x40, 16, 11, .rof, (.const 0), .page⟩
/-- R129 -/
def R.TWR_RGN_FAULT_VALID : Fld := ⟨.rgn, 0x40, 31, 1, .w1c, (.const 0), .page⟩
/-- R129 -/
def R.TWR_RGN_FAULT_CYC_CYCLE : Fld := ⟨.rgn, 0x44, 0, 12, .rof, (.const 0), .page⟩
/-- R129 -/
def R.TWR_RGN_FAULT_CYC_FRAME_LO : Fld := ⟨.rgn, 0x44, 12, 20, .rof, (.const 0), .page⟩
/-- R129 -/
def R.TWR_RGN_CYCLES_DECLARED : Fld := ⟨.rgn, 0x48, 0, 12, .rof, (.const 0), .page⟩
/-- R129 -/
def R.TWR_RGN_CYCLES_LAST_DONE : Fld := ⟨.rgn, 0x48, 16, 12, .rof, (.const 0), .page⟩
/-- R129 -/
def R.TWR_RGN_MISS : Fld := ⟨.rgn, 0x4C, 0, 32, .rof, (.const 0), .page⟩
/-- R129 -/
def R.TWR_RGN_TRAY_RETRY : Fld := ⟨.rgn, 0x50, 0, 32, .rof, (.const 0), .page⟩
/-- R129 -/
def R.TWR_RGN_LOOSE_DROP : Fld := ⟨.rgn, 0x54, 0, 32, .rof, (.const 0), .page⟩
/-- R164 -/
def R.TWR_RGN_ARITH_NAN_IN : Fld := ⟨.rgn, 0x58, 0, 1, .w1c, (.const 0), .page⟩
/-- R164 -/
def R.TWR_RGN_ARITH_INF_IN : Fld := ⟨.rgn, 0x58, 1, 1, .w1c, (.const 0), .page⟩
/-- R164 -/
def R.TWR_RGN_ARITH_ACC_OVF : Fld := ⟨.rgn, 0x58, 2, 1, .w1c, (.const 0), .page⟩
/-- R164 -/
def R.TWR_RGN_ARITH_SAT : Fld := ⟨.rgn, 0x58, 3, 1, .w1c, (.const 0), .page⟩
/-- R164 -/
def R.TWR_RGN_ARITH_NAN_LOST : Fld := ⟨.rgn, 0x58, 4, 1, .w1c, (.const 0), .page⟩
/-- R164 -/
def R.TWR_RGN_ARITH_INF_OUT : Fld := ⟨.rgn, 0x58, 5, 1, .w1c, (.const 0), .page⟩
/-- R164 -/
def R.TWR_RGN_ARITH_FIRST : Fld := ⟨.rgn, 0x58, 16, 5, .rof, (.const 0), .page⟩
/-- R164 -/
def R.TWR_RGN_SAT_CNT : Fld := ⟨.rgn, 0x5C, 0, 32, .rof, (.const 0), .page⟩
/-- R164 -/
def R.TWR_RGN_NAN_CNT : Fld := ⟨.rgn, 0x60, 0, 32, .rof, (.const 0), .page⟩
/-- R186 -/
def R.TWR_RGN_TRAIN_TRAINING : Fld := ⟨.rgn, 0x64, 0, 1, .rof, (.const 0), .page⟩
/-- R186 -/
def R.TWR_RGN_TRAIN_MIREL : Fld := ⟨.rgn, 0x64, 1, 1, .rof, (.const 0), .page⟩
/-- R186 -/
def R.TWR_RGN_TRAIN_STEP : Fld := ⟨.rgn, 0x64, 2, 4, .rof, (.const 0), .page⟩
/-- R186 -/
def R.TWR_RGN_TRAIN_RESERVE : Fld := ⟨.rgn, 0x64, 16, 12, .rof, (.const 0), .page⟩
/-- R186 -/
def R.TWR_RGN_RETAKE_CNT : Fld := ⟨.rgn, 0x68, 0, 32, .rof, (.const 0), .page⟩
/-- R186 -/
def R.TWR_RGN_TILE_SAT_CNT : Fld := ⟨.rgn, 0x6C, 0, 32, .rof, (.const 0), .page⟩
/-- R186 -/
def R.TWR_RGN_RESERVE_MIN : Fld := ⟨.rgn, 0x70, 0, 12, .rof, (.const 0xFFF), .page⟩
/-- R186 -/
def R.TWR_RGN_RW_THRESH : Fld := ⟨.rgn, 0x74, 0, 32, .rwt, (.img .tRwThresh 0 0xFFFFFFFF), .page⟩
/-- R186 -/
def R.TWR_RGN_RW_CLR : Fld := ⟨.rgn, 0x78, 0, 16, .wo, (.const 0), .page⟩
/-- R243 -/
def R.TWR_RGN_SHAFT_CEIL : Fld := ⟨.rgn, 0x80, 0, 4, .rof, (.const 0), .page⟩
/-- R243 -/
def R.TWR_RGN_SHAFT_LAP_MAX : Fld := ⟨.rgn, 0x80, 16, 16, .rof, (.const 0), .page⟩
/-- R321 -/
def R.TWR_RGN_SCORE_NAN : Fld := ⟨.rgn, 0x84, 0, 32, .rof, (.const 0), .page⟩
/-- R321 -/
def R.TWR_RGN_SCORE_INF : Fld := ⟨.rgn, 0x88, 0, 32, .rof, (.const 0), .page⟩
/-- R513 -/
def R.TWR_RGN_FENCED : Fld := ⟨.rgn, 0x90, 0, 64, .rof, (.const 0), .page⟩
/-- R513 -/
def R.TWR_RGN_FENCE_LOG_CORE : Fld := ⟨.rgn, 0x98, 0, 6, .rof, (.const 0), .page⟩
/-- R513 -/
def R.TWR_RGN_FENCE_LOG_CAUSE : Fld := ⟨.rgn, 0x98, 6, 4, .rof, (.const 0), .page⟩
/-- R513 -/
def R.TWR_RGN_FENCE_LOG_VALID : Fld := ⟨.rgn, 0x98, 11, 1, .w1c, (.const 0), .page⟩
/-- R513 -/
def R.TWR_RGN_FENCE_LOG_FRAME_LO : Fld := ⟨.rgn, 0x98, 12, 20, .rof, (.const 0), .page⟩
/-- R513 -/
def R.TWR_RGN_FENCE_REQ_CORE : Fld := ⟨.rgn, 0x9C, 0, 6, .wo, (.const 0), .page⟩
/-- R513 -/
def R.TWR_RGN_FENCE_REQ_GO : Fld := ⟨.rgn, 0x9C, 6, 1, .wo, (.const 0), .page⟩
/-- R186 -/
def R.TWR_RGN_RW_SUM (i : Nat) : Fld := ⟨.rgn, 0x100 + 0x20 * i, 0, 64, .rof, (.const 0), .page⟩
/-- R186 -/
def R.TWR_RGN_RW_COUNT (i : Nat) : Fld := ⟨.rgn, 0x108 + 0x20 * i, 0, 64, .rof, (.const 0), .page⟩
/-- R186 -/
def R.TWR_RGN_RW_OVER (i : Nat) : Fld := ⟨.rgn, 0x110 + 0x20 * i, 0, 64, .rof, (.const 0), .page⟩
/-- R186 -/
def R.TWR_RGN_RW_MAX (i : Nat) : Fld := ⟨.rgn, 0x118 + 0x20 * i, 0, 32, .rof, (.const 0), .page⟩
/-- R186 -/
def R.TWR_RGN_RW_EMAX (i : Nat) : Fld := ⟨.rgn, 0x11C + 0x20 * i, 0, 8, .rof, (.const 0x80), .page⟩
/-- R186 -/
def R.TWR_RGN_RW_SUM_SAT (i : Nat) : Fld := ⟨.rgn, 0x11C + 0x20 * i, 8, 1, .rof, (.const 0), .page⟩
/-! ### SHF -/

/-- R80 -/
def R.SHF_LANE_SRAM_SP : Fld := ⟨.shf, 0x40, 0, 6, .rof, (.const 0), .page⟩
/-- R80 -/
def R.SHF_LANE_DRAM_SP : Fld := ⟨.shf, 0x40, 6, 4, .rof, (.const 0), .page⟩
/-- R80 -/
def R.SHF_LANE_CTRL_SP : Fld := ⟨.shf, 0x40, 10, 2, .rof, (.const 0), .page⟩
/-- R80 -/
def R.SHF_LANE_SRAM_HALF : Fld := ⟨.shf, 0x40, 12, 1, .rof, (.const 0), .page⟩
/-- R80 -/
def R.SHF_LANE_DRAM_HALF : Fld := ⟨.shf, 0x40, 13, 1, .rof, (.const 0), .page⟩
/-- R80 -/
def R.SHF_LANE_RETUNE_GRP : Fld := ⟨.shf, 0x40, 16, 8, .rof, (.const 0), .page⟩
/-- R80 -/
def R.SHF_PORT_SP : Fld := ⟨.shf, 0x44, 0, 16, .rof, (.const 0), .page⟩
/-- R80 -/
def R.SHF_PORT_HALF : Fld := ⟨.shf, 0x44, 16, 4, .rof, (.const 0), .page⟩
/-- R80 -/
def R.SHF_MAP_MEM_LOGICAL : Fld := ⟨.shf, 0x48, 0, 11, .rof, (.const 0x7FF), .page⟩
/-- R80 -/
def R.SHF_MAP_CORE_LOGICAL : Fld := ⟨.shf, 0x48, 16, 11, .rof, (.const 0x7FF), .page⟩
/-- R80 -/
def R.SHF_MAP_NEIGHBOUR : Fld := ⟨.shf, 0x48, 27, 1, .rof, (.const 0), .page⟩
/-- R80 -/
def R.SHF_MAP_HOLE : Fld := ⟨.shf, 0x48, 28, 1, .rof, (.const 0), .page⟩
/-- R242 -/
def R.SHF_DRAM_CORR : Fld := ⟨.shf, 0x60, 0, 32, .rof, (.const 0), .page⟩
/-- R242 -/
def R.SHF_DRAM_UNCORR : Fld := ⟨.shf, 0x64, 0, 32, .rof, (.const 0), .page⟩
/-- R242 -/
def R.SHF_SRAM_CORR : Fld := ⟨.shf, 0x68, 0, 32, .rof, (.const 0), .page⟩
/-- R242 -/
def R.SHF_SRAM_UNCORR : Fld := ⟨.shf, 0x6C, 0, 32, .rof, (.const 0), .page⟩
/-- R242 -/
def R.SHF_POISON_READ : Fld := ⟨.shf, 0x70, 0, 32, .rof, (.const 0), .page⟩
/-- R242 -/
def R.SHF_RMW : Fld := ⟨.shf, 0x74, 0, 32, .rof, (.const 0), .page⟩
/-- R242 -/
def R.SHF_ERR_LOG_VALID : Fld := ⟨.shf, 0x78, 0, 1, .w1c, (.const 0), .page⟩
/-- R242 -/
def R.SHF_ERR_LOG_STORE : Fld := ⟨.shf, 0x78, 1, 1, .rof, (.const 0), .page⟩
/-- R242 -/
def R.SHF_ERR_LOG_KIND : Fld := ⟨.shf, 0x78, 2, 2, .rof, (.const 0), .page⟩
/-- R242 -/
def R.SHF_ERR_LOG_POS : Fld := ⟨.shf, 0x78, 4, 7, .rof, (.const 0), .page⟩
/-- R242 -/
def R.SHF_ERR_LOG_SOURCE : Fld := ⟨.shf, 0x78, 11, 2, .rof, (.const 0), .page⟩
/-- R242 -/
def R.SHF_ERR_LOG_FRAME_LO : Fld := ⟨.shf, 0x78, 13, 19, .rof, (.const 0), .page⟩
/-- R242 -/
def R.SHF_ERR_ADDR : Fld := ⟨.shf, 0x7C, 0, 32, .rof, (.const 0), .page⟩
/-- R242 -/
def R.SHF_SCRUB_CTRL_EN : Fld := ⟨.shf, 0x80, 0, 1, .rwt, (.img .tScrubEn 0 1), .page⟩
/-- R242 -/
def R.SHF_SCRUB_CTRL_DRATE : Fld := ⟨.shf, 0x80, 1, 3, .rwt, (.img .tScrubDrate 0 7), .page⟩
/-- R242 -/
def R.SHF_SCRUB_CTRL_SRATE : Fld := ⟨.shf, 0x80, 4, 4, .rwt, (.img .tScrubSrate 0 15), .page⟩
/-- R242 -/
def R.SHF_SCRUB_LAP_DRAM_LAP : Fld := ⟨.shf, 0x84, 0, 16, .rof, (.const 0), .page⟩
/-- R242 -/
def R.SHF_SCRUB_LAP_SRAM_LAP : Fld := ⟨.shf, 0x84, 16, 16, .rof, (.const 0), .page⟩
/-- R242 -/
def R.SHF_SCRUB_POS_PAGE : Fld := ⟨.shf, 0x88, 0, 11, .rof, (.const 0), .page⟩
/-- R242 -/
def R.SHF_SCRUB_POS_LINE : Fld := ⟨.shf, 0x88, 16, 14, .rof, (.const 0), .page⟩
/-- R242 -/
def R.SHF_POISON_SEEN : Fld := ⟨.shf, 0x8C, 0, 32, .rof, (.const 0), .page⟩
/-- R242 -/
def R.SHF_TOUCH : Fld := ⟨.shf, 0x90, 0, 12, .rof, (.const 0), .page⟩
/-- R242 -/
def R.SHF_TEST_RUN : Fld := ⟨.shf, 0x94, 0, 1, .wo, (.const 0), .page⟩
/-- R242 -/
def R.SHF_TEST_DONE : Fld := ⟨.shf, 0x94, 1, 1, .rof, (.const 0), .page⟩
/-- R242 -/
def R.SHF_TEST_DRAM_PASS : Fld := ⟨.shf, 0x94, 2, 1, .rof, (.const 0), .page⟩
/-- R242 -/
def R.SHF_TEST_SRAM_PASS : Fld := ⟨.shf, 0x94, 3, 1, .rof, (.const 0), .page⟩
/-- R242 -/
def R.SHF_TEST_FAILED : Fld := ⟨.shf, 0x94, 8, 14, .rof, (.const 0), .page⟩
/-- R269 -/
def R.SHF_NM_CFG_K : Fld := ⟨.shf, 0xA0, 0, 12, .rof, (.const 0), .page⟩
/-- R269 -/
def R.SHF_NM_CFG_G : Fld := ⟨.shf, 0xA0, 12, 14, .rof, (.const 0), .page⟩
/-- R269 -/
def R.SHF_NM_RSV : Fld := ⟨.shf, 0xA4, 0, 14, .rof, (.const 0), .page⟩
/-- R269 -/
def R.SHF_NM_BACKLOG_CYCLES : Fld := ⟨.shf, 0xA8, 0, 24, .ro, (.const 0), .page⟩
/-- R269 -/
def R.SHF_NM_BACKLOG_CMDS : Fld := ⟨.shf, 0xA8, 24, 8, .ro, (.const 0), .page⟩
/-- R269 -/
def R.SHF_NM_DONE : Fld := ⟨.shf, 0xB0, 0, 64, .rof, (.const 0), .page⟩
/-- R269 -/
def R.SHF_NM_CHUNKS : Fld := ⟨.shf, 0xB8, 0, 64, .rof, (.const 0), .page⟩
/-- R269 -/
def R.SHF_NM_RACC : Fld := ⟨.shf, 0xC0, 0, 64, .rof, (.const 0), .page⟩
/-- R269 -/
def R.SHF_NM_LAST : Fld := ⟨.shf, 0xC8, 0, 32, .rof, (.const 0), .page⟩
/-- R269 -/
def R.SHF_NM_POISON : Fld := ⟨.shf, 0xCC, 0, 32, .rof, (.const 0), .page⟩
/-- R269 -/
def R.SHF_NM_SAT : Fld := ⟨.shf, 0xD0, 0, 32, .rof, (.const 0), .page⟩
/-- R269 -/
def R.SHF_NM_LATE : Fld := ⟨.shf, 0xD4, 0, 32, .rof, (.const 0), .page⟩
/-- R269 -/
def R.SHF_NM_ABORT : Fld := ⟨.shf, 0xD8, 0, 32, .rof, (.const 0), .page⟩
/-- R269 -/
def R.SHF_NM_LAYOUT (i : Nat) : Fld := ⟨.shf, 0x400 + 0x4 * i, 0, 32, .rof, (.const 0), .page⟩
/-! ### RAY -/

/-- R353 -/
def R.RAY_CTRL_ROLE : Fld := ⟨.ray, 0x40, 0, 4, .rwt, (.img .tRayRole 0 8), .page⟩
/-- R353 -/
def R.RAY_CTRL_EXP_WIDTH : Fld := ⟨.ray, 0x40, 4, 2, .rwl, (.img .tRayExpWidth 0 2), .page⟩
/-- R353 -/
def R.RAY_CTRL_STRICT : Fld := ⟨.ray, 0x40, 6, 1, .rwl, (.img .tRayStrict 0 1), .page⟩
/-- R353 -/
def R.RAY_CTRL_RETRAIN : Fld := ⟨.ray, 0x40, 7, 1, .wo, (.const 0), .page⟩
/-- R353 -/
def R.RAY_CTRL_UNFENCE : Fld := ⟨.ray, 0x40, 8, 1, .wo, (.const 0), .page⟩
/-- R353 -/
def R.RAY_CTRL_DISABLE : Fld := ⟨.ray, 0x40, 9, 1, .rw, (.const 0), .page⟩
/-- R353 -/
def R.RAY_STAT_STATE : Fld := ⟨.ray, 0x44, 0, 3, .rof, (.const 0), .page⟩
/-- R353 -/
def R.RAY_STAT_WIDTH : Fld := ⟨.ray, 0x44, 3, 2, .rof, (.const 0), .page⟩
/-- R353 -/
def R.RAY_STAT_DEGRADED : Fld := ⟨.ray, 0x44, 5, 1, .rof, (.const 0), .page⟩
/-- R353 -/
def R.RAY_STAT_PARTNER_ID : Fld := ⟨.ray, 0x44, 6, 16, .rof, (.const 0), .page⟩
/-- R353 -/
def R.RAY_STAT_PARTNER_PORT : Fld := ⟨.ray, 0x44, 22, 5, .rof, (.const 0), .page⟩
/-- R353 -/
def R.RAY_STAT_LAST_CAUSE : Fld := ⟨.ray, 0x44, 27, 3, .rof, (.const 0), .page⟩
/-- R353 -/
def R.RAY_LAT : Fld := ⟨.ray, 0x48, 0, 16, .rof, (.const 0), .page⟩
/-- R353 -/
def R.RAY_THRESH_VIOL : Fld := ⟨.ray, 0x4C, 0, 8, .rwt, (.img .tRayThresh 0 4095), .page⟩
/-- R353 -/
def R.RAY_THRESH_RETRAINS : Fld := ⟨.ray, 0x4C, 8, 4, .rwt, (.img .tRayThresh 0 4095), .page⟩
/-- R353 -/
def R.RAY_TRAIN_LIMIT : Fld := ⟨.ray, 0x50, 0, 32, .rw, (.img .tRayTrainMs 100 10000), .page⟩
/-- R353 -/
def R.RAY_EPOCH_CLOSE : Fld := ⟨.ray, 0x54, 0, 32, .wo, (.const 0), .page⟩
/-- R353 -/
def R.RAY_REPLAY : Fld := ⟨.ray, 0x58, 0, 64, .rof, (.const 0), .page⟩
/-- R353 -/
def R.RAY_FEC_UNCORR : Fld := ⟨.ray, 0x60, 0, 64, .rof, (.const 0), .page⟩
/-- R353 -/
def R.RAY_NAK_TX : Fld := ⟨.ray, 0x68, 0, 32, .rof, (.const 0), .page⟩
/-- R353 -/
def R.RAY_LATE : Fld := ⟨.ray, 0x6C, 0, 32, .rof, (.const 0), .page⟩
/-- R353 -/
def R.RAY_CRD_AVAIL : Fld := ⟨.ray, 0x80, 0, 64, .rof, (.const 0), .page⟩
/-- R353 -/
def R.RAY_CRD_OUT : Fld := ⟨.ray, 0x88, 0, 64, .rof, (.const 0), .page⟩
/-- R353 -/
def R.RAY_CRD_ADV : Fld := ⟨.ray, 0x90, 0, 64, .rof, (.const 0), .page⟩
/-- R353 -/
def R.RAY_CRD_CLIP : Fld := ⟨.ray, 0x98, 0, 64, .rof, (.const 0), .page⟩
/-- R353 -/
def R.RAY_BUF_FREE : Fld := ⟨.ray, 0xA0, 0, 64, .rof, (.const 16384), .page⟩
/-- R353 -/
def R.RAY_BUF_OCC : Fld := ⟨.ray, 0xA8, 0, 64, .rof, (.const 0), .page⟩
/-- R353 -/
def R.RAY_BUF_TOTAL : Fld := ⟨.ray, 0xB0, 0, 64, .rof, (.const 16384), .page⟩
/-- R353 -/
def R.RAY_EPOCH_DONE (i : Nat) : Fld := ⟨.ray, 0x400 + 0x4 * i, 0, 32, .rof, (.const 0), .page⟩
/-! ### BRG -/

/-- R219 -/
def R.BRG_STAT_WIDTH_D0 : Fld := ⟨.brg, 0x40, 0, 2, .rof, (.const 2), .page⟩
/-- R219 -/
def R.BRG_STAT_WIDTH_D1 : Fld := ⟨.brg, 0x40, 2, 2, .rof, (.const 2), .page⟩
/-- R219 -/
def R.BRG_STAT_SP_D0 : Fld := ⟨.brg, 0x40, 4, 7, .rof, (.const 0), .page⟩
/-- R219 -/
def R.BRG_STAT_SP_D1 : Fld := ⟨.brg, 0x40, 11, 7, .rof, (.const 0), .page⟩
/-- R219 -/
def R.BRG_STAT_SB_SP_D0 : Fld := ⟨.brg, 0x40, 18, 2, .rof, (.const 0), .page⟩
/-- R219 -/
def R.BRG_STAT_SB_SP_D1 : Fld := ⟨.brg, 0x40, 20, 2, .rof, (.const 0), .page⟩
/-- R219 -/
def R.BRG_RETUNE_GROUP_D0 : Fld := ⟨.brg, 0x44, 0, 7, .rof, (.const 0), .page⟩
/-- R219 -/
def R.BRG_RETUNE_GROUP_D1 : Fld := ⟨.brg, 0x44, 8, 7, .rof, (.const 0), .page⟩
/-- R219 -/
def R.BRG_REPLAY (i : Nat) : Fld := ⟨.brg, 0x48 + 0x8 * i, 0, 64, .rof, (.const 0), .page⟩
/-- R219 -/
def R.BRG_LATE (i : Nat) : Fld := ⟨.brg, 0x58 + 0x4 * i, 0, 32, .rof, (.const 0), .page⟩
/-- R219 -/
def R.BRG_CRD_AVAIL (i : Nat) : Fld := ⟨.brg, 0x80 + 0x30 * i, 0, 64, .rof, (.const 1024), .page⟩
/-- R219 -/
def R.BRG_CRD_OUT (i : Nat) : Fld := ⟨.brg, 0x88 + 0x30 * i, 0, 64, .rof, (.const 0), .page⟩
/-- R219 -/
def R.BRG_CRD_ADV (i : Nat) : Fld := ⟨.brg, 0x90 + 0x30 * i, 0, 64, .rof, (.const 1024), .page⟩
/-- R219 -/
def R.BRG_BUF_FREE (i : Nat) : Fld := ⟨.brg, 0x98 + 0x30 * i, 0, 64, .rof, (.const 64), .page⟩
/-- R219 -/
def R.BRG_BUF_OCC (i : Nat) : Fld := ⟨.brg, 0xA0 + 0x30 * i, 0, 64, .rof, (.const 0), .page⟩
/-- R219 -/
def R.BRG_BUF_TOTAL (i : Nat) : Fld := ⟨.brg, 0xA8 + 0x30 * i, 0, 64, .rof, (.const 64), .page⟩
/-! ### ABA -/

/-- R445 -/
def R.ABA_CTRL_RETRAIN : Fld := ⟨.aba, 0x40, 0, 1, .wo, (.const 0), .page⟩
/-- R445 -/
def R.ABA_CTRL_EXP_WIDTH : Fld := ⟨.aba, 0x40, 1, 2, .rwl, (.img .tAbaExpWidth 0 3), .page⟩
/-- R445 -/
def R.ABA_STAT_STATE : Fld := ⟨.aba, 0x44, 0, 3, .ro, (.const 0), .page⟩
/-- R445 -/
def R.ABA_STAT_WIDTH : Fld := ⟨.aba, 0x44, 3, 3, .ro, (.const 0), .page⟩
/-- R445 -/
def R.ABA_STAT_DEGRADED : Fld := ⟨.aba, 0x44, 6, 1, .ro, (.const 0), .page⟩
/-- R445 -/
def R.ABA_STAT_RECOVERY : Fld := ⟨.aba, 0x44, 7, 1, .ro, (.const 0), .page⟩
/-- R445 -/
def R.ABA_REPLAY : Fld := ⟨.aba, 0x48, 0, 64, .rof, (.const 0), .page⟩
/-- R445 -/
def R.ABA_FEC_UNCORR : Fld := ⟨.aba, 0x50, 0, 64, .rof, (.const 0), .page⟩
/-- R445 -/
def R.ABA_NAK_TX : Fld := ⟨.aba, 0x58, 0, 32, .rof, (.const 0), .page⟩
/-- R445 -/
def R.ABA_VIOL : Fld := ⟨.aba, 0x5C, 0, 32, .rof, (.const 0), .page⟩
/-- R445 -/
def R.ABA_DMA_ERR : Fld := ⟨.aba, 0x60, 0, 32, .rof, (.const 0), .page⟩
/-- R445 -/
def R.ABA_SIG_COALESCED : Fld := ⟨.aba, 0x64, 0, 32, .rof, (.const 0), .page⟩
/-- R445 -/
def R.ABA_TRAIN_LIMIT : Fld := ⟨.aba, 0x68, 0, 32, .rw, (.img .tAbaTrainMs 10 1000), .page⟩
/-- R445 -/
def R.ABA_DMA_TIMEOUT : Fld := ⟨.aba, 0x6C, 0, 32, .rw, (.img .tAbaDmaMs 1 1000), .page⟩
/-- R445 -/
def R.ABA_ACK_LIMIT : Fld := ⟨.aba, 0x70, 0, 32, .rw, (.img .tAbaAckUs 2 100), .page⟩
/-- R445 -/
def R.ABA_THRESH_VIOL : Fld := ⟨.aba, 0x74, 0, 8, .rwt, (.img .tAbaThresh 0 4095), .page⟩
/-- R445 -/
def R.ABA_THRESH_RETRAINS : Fld := ⟨.aba, 0x74, 8, 4, .rwt, (.img .tAbaThresh 0 4095), .page⟩
/-- R445 -/
def R.ABA_REG_IGNORED : Fld := ⟨.aba, 0x78, 0, 32, .rof, (.const 0), .page⟩
/-- R445 -/
def R.ABA_CRD_AVAIL : Fld := ⟨.aba, 0x80, 0, 64, .rof, (.const 4096), .page⟩
/-- R445 -/
def R.ABA_CRD_OUT : Fld := ⟨.aba, 0x88, 0, 64, .rof, (.const 0), .page⟩
/-- R445 -/
def R.ABA_CRD_ADV : Fld := ⟨.aba, 0x90, 0, 64, .rof, (.const 4096), .page⟩
/-- R445 -/
def R.ABA_BUF_FREE : Fld := ⟨.aba, 0x98, 0, 64, .rof, (.const 4096), .page⟩
/-- R445 -/
def R.ABA_BUF_OCC : Fld := ⟨.aba, 0xA0, 0, 64, .rof, (.const 0), .page⟩
/-- R445 -/
def R.ABA_BUF_TOTAL : Fld := ⟨.aba, 0xA8, 0, 64, .rof, (.const 4096), .page⟩
/-- R445 -/
def R.ABA_CRD_CLIP : Fld := ⟨.aba, 0xB0, 0, 64, .rof, (.const 0), .page⟩
/-- R445 -/
def R.ABA_STREAM_EN : Fld := ⟨.aba, 0xC0, 0, 1, .rwt, (.const 0), .page⟩
/-- R445 -/
def R.ABA_STREAM_WINDOW : Fld := ⟨.aba, 0xC0, 1, 4, .rwt, (.const 0), .page⟩
/-- R445 -/
def R.ABA_STREAM_SIZE : Fld := ⟨.aba, 0xC0, 5, 5, .rwt, (.const 0), .page⟩
/-- R445 -/
def R.ABA_STREAM_PROD : Fld := ⟨.aba, 0xC8, 0, 64, .rof, (.const 0), .page⟩
/-- R445 -/
def R.ABA_STREAM_CONS : Fld := ⟨.aba, 0xD0, 0, 64, .rw, (.const 0), .page⟩
/-- R445 -/
def R.ABA_STREAM_DROP : Fld := ⟨.aba, 0xD8, 0, 32, .rof, (.const 0), .page⟩
/-- R445 -/
def R.ABA_WIN_BASE (i : Nat) : Fld := ⟨.aba, 0x100 + 0x20 * i, 0, 64, .rwt, (.const 0), .page⟩
/-- R445 -/
def R.ABA_WIN_SIZE (i : Nat) : Fld := ⟨.aba, 0x108 + 0x20 * i, 0, 64, .rwt, (.const 0), .page⟩
/-- R445 -/
def R.ABA_WIN_CTRL_EN (i : Nat) : Fld := ⟨.aba, 0x110 + 0x20 * i, 0, 1, .rwt, (.const 0), .page⟩
/-- R445 -/
def R.ABA_WIN_CTRL_READ (i : Nat) : Fld := ⟨.aba, 0x110 + 0x20 * i, 1, 1, .rwt, (.const 0), .page⟩
/-- R445 -/
def R.ABA_WIN_CTRL_WRITE (i : Nat) : Fld := ⟨.aba, 0x110 + 0x20 * i, 2, 1, .rwt, (.const 0), .page⟩
/-! ### KVL -/

/-- R302 -/
def R.KVL_CTRL : Fld := ⟨.kvl, 0x40, 0, 1, .rwl, (.img .tKvlEn 0 1), .page⟩
/-- R302 -/
def R.KVL_STAT : Fld := ⟨.kvl, 0x44, 0, 19, .rof, (.const 0), .page⟩
/-- R302 -/
def R.KVL_DEFER : Fld := ⟨.kvl, 0x48, 0, 32, .rof, (.const 0), .page⟩
/-- R302 -/
def R.KVL_FADELIST : Fld := ⟨.kvl, 0x4C, 0, 21, .rof, (.const 0), .page⟩
/-- R302 -/
def R.KVL_CMD (i : Nat) : Fld := ⟨.kvl, 0x60 + 0x4 * i, 0, 32, .rw, (.const 0), .page⟩
/-- R302 -/
def R.KVL_CMD_GO : Fld := ⟨.kvl, 0x80, 0, 1, .wo, (.const 0), .page⟩
/-- R302 -/
def R.KVL_CMD_STAT_BUSY : Fld := ⟨.kvl, 0x84, 0, 1, .ro, (.const 0), .page⟩
/-- R302 -/
def R.KVL_CMD_STAT_STATUS : Fld := ⟨.kvl, 0x84, 8, 8, .ro, (.const 0), .page⟩
/-- R302 -/
def R.KVL_CMD_STAT_TAG : Fld := ⟨.kvl, 0x84, 16, 16, .ro, (.const 0), .page⟩
/-- R302 -/
def R.KVL_CMD_RSP (i : Nat) : Fld := ⟨.kvl, 0xA0 + 0x4 * i, 0, 32, .ro, (.const 0), .page⟩
/-- R302 -/
def R.KVL_POOL_FREE_SUM : Fld := ⟨.kvl, 0x100, 0, 64, .rof, (.const 0), .page⟩
/-- R302 -/
def R.KVL_POOL_LIVE_SUM : Fld := ⟨.kvl, 0x108, 0, 64, .rof, (.const 0), .page⟩
/-- R302 -/
def R.KVL_POOL_LATENT_SUM : Fld := ⟨.kvl, 0x110, 0, 64, .rof, (.const 0), .page⟩
/-- R302 -/
def R.KVL_POOL_FADED_SUM : Fld := ⟨.kvl, 0x118, 0, 64, .rof, (.const 0), .page⟩
/-- R302 -/
def R.KVL_POOL_TOTAL_SUM : Fld := ⟨.kvl, 0x120, 0, 64, .rof, (.const 0), .page⟩
/-- R302 -/
def R.KVL_REF_SUM : Fld := ⟨.kvl, 0x130, 0, 64, .rof, (.const 0), .page⟩
/-- R302 -/
def R.KVL_REF_ENTRIES : Fld := ⟨.kvl, 0x138, 0, 64, .rof, (.const 0), .page⟩
/-- R302 -/
def R.KVL_BUCKET_CTRL_EN : Fld := ⟨.kvl, 0x140, 0, 1, .rwt, (.img .tKvlBktEn 0 1), .page⟩
/-- R302 -/
def R.KVL_BUCKET_CTRL_BC : Fld := ⟨.kvl, 0x140, 1, 3, .rwt, (.img .tKvlBktBc 0 7), .page⟩
/-- R302 -/
def R.KVL_BUCKET_CTRL_NB : Fld := ⟨.kvl, 0x140, 4, 4, .rwt, (.img .tKvlBktNb 0 15), .page⟩
/-- R302 -/
def R.KVL_BUCKET_CTRL_CORE : Fld := ⟨.kvl, 0x140, 8, 12, .rwt, (.img .tKvlBktCore 0 4095), .page⟩
/-- R302 -/
def R.KVL_BUCKET_MASK : Fld := ⟨.kvl, 0x144, 0, 16, .rwt, (.img .tKvlBktMask 0 65535), .page⟩
/-- R302 -/
def R.KVL_BUCKET_N : Fld := ⟨.kvl, 0x148, 0, 16, .rwt, (.img .tKvlBktN 512 65535), .page⟩
/-- R302 -/
def R.KVL_BUCKET_GEN : Fld := ⟨.kvl, 0x14C, 0, 32, .rof, (.const 0), .page⟩
/-- R302 -/
def R.KVL_BUCKET_THR (i : Nat) : Fld := ⟨.kvl, 0x180 + 0x4 * i, 0, 32, .rwt, (.img .tKvlBktThr 0 0xFFFFFFFF), .page⟩
/-- R303 -/
def R.KVL_POOL_CFG0_EN (i : Nat) : Fld := ⟨.kvl, 0x400 + 0x40 * i, 0, 1, .rwt, (.const 0), .page⟩
/-- R303 -/
def R.KVL_POOL_CFG0_TOWERS (i : Nat) : Fld := ⟨.kvl, 0x400 + 0x40 * i, 1, 4, .rwt, (.const 0), .page⟩
/-- R303 -/
def R.KVL_POOL_CFG0_PAGE_LO (i : Nat) : Fld := ⟨.kvl, 0x400 + 0x40 * i, 5, 11, .rwt, (.const 0), .page⟩
/-- R303 -/
def R.KVL_POOL_CFG0_PAGE_HI (i : Nat) : Fld := ⟨.kvl, 0x400 + 0x40 * i, 16, 11, .rwt, (.const 0), .page⟩
/-- R303 -/
def R.KVL_POOL_CFG1_TOK_SHIFT (i : Nat) : Fld := ⟨.kvl, 0x404 + 0x40 * i, 0, 4, .rwt, (.const 0), .page⟩
/-- R303 -/
def R.KVL_POOL_CFG1_DEPTH (i : Nat) : Fld := ⟨.kvl, 0x404 + 0x40 * i, 4, 6, .rwt, (.const 0), .page⟩
/-- R303 -/
def R.KVL_POOL_CFG1_TOK_BYTES (i : Nat) : Fld := ⟨.kvl, 0x404 + 0x40 * i, 12, 12, .rwt, (.const 1), .page⟩
/-- R303 -/
def R.KVL_POOL_FREE (i : Nat) : Fld := ⟨.kvl, 0x408 + 0x40 * i, 0, 64, .rof, (.const 0), .page⟩
/-- R303 -/
def R.KVL_POOL_LIVE (i : Nat) : Fld := ⟨.kvl, 0x410 + 0x40 * i, 0, 64, .rof, (.const 0), .page⟩
/-- R303 -/
def R.KVL_POOL_LATENT (i : Nat) : Fld := ⟨.kvl, 0x418 + 0x40 * i, 0, 64, .rof, (.const 0), .page⟩
/-- R303 -/
def R.KVL_POOL_FADED (i : Nat) : Fld := ⟨.kvl, 0x420 + 0x40 * i, 0, 64, .rof, (.const 0), .page⟩
/-- R303 -/
def R.KVL_POOL_TOTAL (i : Nat) : Fld := ⟨.kvl, 0x428 + 0x40 * i, 0, 64, .rof, (.const 0), .page⟩
/-- R303 -/
def R.KVL_POOL_RETIRED (i : Nat) : Fld := ⟨.kvl, 0x430 + 0x40 * i, 0, 64, .rof, (.const 0), .page⟩
/-- R303 -/
def R.KVL_POOL_RELEASING (i : Nat) : Fld := ⟨.kvl, 0x438 + 0x40 * i, 0, 32, .rof, (.const 0), .page⟩
/-- R304 -/
def R.KVL_HOLDER_CFG_POOL (i : Nat) : Fld := ⟨.kvl, 0x800 + 0x8 * i, 0, 4, .rwt, (.const 0), .page⟩
/-- R304 -/
def R.KVL_HOLDER_CFG_EN (i : Nat) : Fld := ⟨.kvl, 0x800 + 0x8 * i, 4, 1, .rwt, (.const 0), .page⟩
/-- R304 -/
def R.KVL_HOLDER_CFG_QUOTA (i : Nat) : Fld := ⟨.kvl, 0x800 + 0x8 * i, 8, 24, .rwt, (.const 0), .page⟩
/-- R304 -/
def R.KVL_HOLDER_USE_USED (i : Nat) : Fld := ⟨.kvl, 0x804 + 0x8 * i, 0, 24, .rof, (.const 0), .page⟩
/-- R304 -/
def R.KVL_HOLDER_USE_OVER (i : Nat) : Fld := ⟨.kvl, 0x804 + 0x8 * i, 24, 1, .rof, (.const 0), .page⟩
/-- R304 -/
def R.KVL_HOLDER_USE_CUT (i : Nat) : Fld := ⟨.kvl, 0x804 + 0x8 * i, 25, 1, .w1c, (.const 0), .page⟩
/-! ### RED -/

/-- R377 -/
def R.RED_CTRL_EN : Fld := ⟨.red, 0x40, 0, 1, .rwt, (.const 0), .page⟩
/-- R377 -/
def R.RED_CTRL_UNFENCE : Fld := ⟨.red, 0x40, 1, 1, .wo, (.const 0), .page⟩
/-- R377 -/
def R.RED_CTRL_RANK : Fld := ⟨.red, 0x40, 8, 6, .rwt, (.const 0), .page⟩
/-- R377 -/
def R.RED_STAT_STATE : Fld := ⟨.red, 0x44, 0, 2, .rof, (.const 0), .page⟩
/-- R377 -/
def R.RED_STAT_OPEN : Fld := ⟨.red, 0x44, 2, 4, .rof, (.const 0), .page⟩
/-- R377 -/
def R.RED_STAT_LEADER : Fld := ⟨.red, 0x44, 6, 6, .rof, (.const 0), .page⟩
/-- R377 -/
def R.RED_SPAN_CORE_BASE : Fld := ⟨.red, 0x48, 0, 12, .rwt, (.const 0), .page⟩
/-- R377 -/
def R.RED_SPAN_K : Fld := ⟨.red, 0x48, 12, 4, .rwt, (.const 0), .page⟩
/-- R377 -/
def R.RED_MIRROR_EN : Fld := ⟨.red, 0x4C, 0, 1, .rwt, (.img .tRedMirrorEn 0 1), .page⟩
/-- R377 -/
def R.RED_MIRROR_RATE : Fld := ⟨.red, 0x4C, 1, 5, .rwt, (.img .tRedMirrorRate 8 16), .page⟩
/-- R377 -/
def R.RED_MEMBERS : Fld := ⟨.red, 0x50, 0, 64, .rwt, (.const 0), .page⟩
/-- R377 -/
def R.RED_TIMEOUT : Fld := ⟨.red, 0x58, 0, 14, .rw, (.img .tRedTimeoutMs 10 10000), .page⟩
/-- R377 -/
def R.RED_CAP_NOTE_RANK : Fld := ⟨.red, 0x5C, 0, 6, .rof, (.const 0), .page⟩
/-- R377 -/
def R.RED_CAP_NOTE_FRAME_LO : Fld := ⟨.red, 0x5C, 8, 24, .rof, (.const 0), .page⟩
/-- R377 -/
def R.RED_SEED : Fld := ⟨.red, 0x60, 0, 64, .rwt, (.img .tRedSeed 0 0xFFFFFFFFFFFFFFFF), .page⟩
/-- R377 -/
def R.RED_DROP_LOG : Fld := ⟨.red, 0x68, 0, 64, .rof, (.const 0), .page⟩
/-- R377 -/
def R.RED_SEQ_NEXT : Fld := ⟨.red, 0x70, 0, 32, .rof, (.const 0), .page⟩
/-- R377 -/
def R.RED_DONE_SEQ : Fld := ⟨.red, 0x74, 0, 32, .rof, (.const 0), .page⟩
/-- R377 -/
def R.RED_CAP_HOLD : Fld := ⟨.red, 0x78, 0, 2, .rw, (.img .tCapHoldMs 0 3), .page⟩
/-- R377 -/
def R.RED_BUCKETS : Fld := ⟨.red, 0x80, 0, 64, .rof, (.const 0), .page⟩
/-- R377 -/
def R.RED_MIRROR_SAMPLES : Fld := ⟨.red, 0x88, 0, 64, .rof, (.const 0), .page⟩
/-- R377 -/
def R.RED_MIRROR_SKIP : Fld := ⟨.red, 0x90, 0, 32, .rof, (.const 0), .page⟩
/-- R377 -/
def R.RED_REREDUCE : Fld := ⟨.red, 0x94, 0, 32, .rof, (.const 0), .page⟩
/-- R377 -/
def R.RED_DROPS : Fld := ⟨.red, 0x98, 0, 32, .rof, (.const 0), .page⟩
/-- R377 -/
def R.RED_TALLY_EXP (i : Nat) : Fld := ⟨.red, 0x100 + 0x20 * i, 0, 64, .rof, (.const 0), .page⟩
/-- R377 -/
def R.RED_TALLY_RCV (i : Nat) : Fld := ⟨.red, 0x108 + 0x20 * i, 0, 64, .rof, (.const 0), .page⟩
/-- R377 -/
def R.RED_TALLY_DROP (i : Nat) : Fld := ⟨.red, 0x110 + 0x20 * i, 0, 64, .rof, (.const 0), .page⟩
/-- R377 -/
def R.RED_TALLY_OUT (i : Nat) : Fld := ⟨.red, 0x118 + 0x20 * i, 0, 64, .rof, (.const 0), .page⟩
/-- R377 -/
def R.RED_ROSTER_CNT_COUNT (i : Nat) : Fld := ⟨.red, 0x200 + 0x10 * i, 0, 7, .rof, (.const 0), .page⟩
/-- R377 -/
def R.RED_ROSTER_CNT_SEQ (i : Nat) : Fld := ⟨.red, 0x200 + 0x10 * i, 7, 25, .rof, (.const 0), .page⟩
/-- R377 -/
def R.RED_ROSTER_DIGEST (i : Nat) : Fld := ⟨.red, 0x208 + 0x10 * i, 0, 64, .rof, (.const 0), .page⟩
/-- R377 -/
def R.RED_ROUTE_PORT (i : Nat) : Fld := ⟨.red, 0x300 + 0x4 * i, 0, 5, .rwt, (.const 0x1F), .page⟩
/-- R377 -/
def R.RED_ROUTE_STREAM (i : Nat) : Fld := ⟨.red, 0x300 + 0x4 * i, 5, 5, .rwt, (.const 0), .page⟩
/-! ### SNAP -/

/-- R395 -/
def R.SNAP_CTRL_DEST : Fld := ⟨.snap, 0x40, 0, 1, .rwt, (.const 0), .page⟩
/-- R395 -/
def R.SNAP_CTRL_CANCEL : Fld := ⟨.snap, 0x40, 1, 1, .wo, (.const 0), .page⟩
/-- R395 -/
def R.SNAP_AT : Fld := ⟨.snap, 0x44, 0, 32, .rw, (.const 0), .page⟩
/-- R395 -/
def R.SNAP_STAT_STATE : Fld := ⟨.snap, 0x48, 0, 3, .rof, (.const 0), .page⟩
/-- R395 -/
def R.SNAP_STAT_CAUSE : Fld := ⟨.snap, 0x48, 8, 4, .rof, (.const 0), .page⟩
/-- R395 -/
def R.SNAP_STAGE_PAGE : Fld := ⟨.snap, 0x4C, 0, 11, .rwt, (.const 0), .page⟩
/-- R395 -/
def R.SNAP_STAGE_COUNT : Fld := ⟨.snap, 0x4C, 11, 7, .rwt, (.const 0), .page⟩
/-- R395 -/
def R.SNAP_DEST : Fld := ⟨.snap, 0x50, 0, 64, .rwt, (.const 0), .page⟩
/-- R395 -/
def R.SNAP_PEER : Fld := ⟨.snap, 0x58, 0, 16, .rwt, (.const 0), .page⟩
/-- R395 -/
def R.SNAP_SHUTTER : Fld := ⟨.snap, 0x60, 0, 64, .rof, (.const 0), .page⟩
/-- R395 -/
def R.SNAP_PAGES : Fld := ⟨.snap, 0x68, 0, 64, .rof, (.const 0), .page⟩
/-- R395 -/
def R.SNAP_COPIED : Fld := ⟨.snap, 0x70, 0, 64, .rof, (.const 0), .page⟩
/-- R395 -/
def R.SNAP_TOUCHED : Fld := ⟨.snap, 0x78, 0, 64, .rof, (.const 0), .page⟩
/-- R395 -/
def R.SNAP_DRAINED : Fld := ⟨.snap, 0x80, 0, 64, .rof, (.const 0), .page⟩
/-- R395 -/
def R.SNAP_DESC_CORE_BASE (i : Nat) : Fld := ⟨.snap, 0x100 + 0x10 * i, 0, 12, .rwt, (.const 0), .page⟩
/-- R395 -/
def R.SNAP_DESC_K (i : Nat) : Fld := ⟨.snap, 0x100 + 0x10 * i, 12, 4, .rwt, (.const 0), .page⟩
/-- R395 -/
def R.SNAP_DESC_VALID (i : Nat) : Fld := ⟨.snap, 0x100 + 0x10 * i, 16, 1, .rwt, (.const 0), .page⟩
/-- R395 -/
def R.SNAP_DESC_BASE (i : Nat) : Fld := ⟨.snap, 0x104 + 0x10 * i, 0, 32, .rwt, (.const 0), .page⟩
/-- R395 -/
def R.SNAP_DESC_PAGES (i : Nat) : Fld := ⟨.snap, 0x108 + 0x10 * i, 0, 12, .rwt, (.const 0), .page⟩
/-! ### PAR -/

/-- R394 -/
def R.PAR_CFG_EN (i : Nat) : Fld := ⟨.par, 0x100 + 0x100 * i, 0, 1, .rwt, (.const 0), .page⟩
/-- R394 -/
def R.PAR_CFG_GM1 (i : Nat) : Fld := ⟨.par, 0x100 + 0x100 * i, 1, 4, .rwt, (.const 0), .page⟩
/-- R394 -/
def R.PAR_CFG_RANK (i : Nat) : Fld := ⟨.par, 0x100 + 0x100 * i, 5, 4, .rwt, (.const 0), .page⟩
/-- R394 -/
def R.PAR_CFG_CHANNEL (i : Nat) : Fld := ⟨.par, 0x100 + 0x100 * i, 9, 6, .rwt, (.const 0), .page⟩
/-- R394 -/
def R.PAR_CFG_U (i : Nat) : Fld := ⟨.par, 0x100 + 0x100 * i, 15, 4, .rwt, (.const 0), .page⟩
/-- R394 -/
def R.PAR_SPAN_CORE_BASE (i : Nat) : Fld := ⟨.par, 0x104 + 0x100 * i, 0, 12, .rwt, (.const 0), .page⟩
/-- R394 -/
def R.PAR_SPAN_K (i : Nat) : Fld := ⟨.par, 0x104 + 0x100 * i, 12, 4, .rwt, (.const 0), .page⟩
/-- R394 -/
def R.PAR_BUF0 (i : Nat) : Fld := ⟨.par, 0x108 + 0x100 * i, 0, 32, .rwt, (.const 0), .page⟩
/-- R394 -/
def R.PAR_BUF1 (i : Nat) : Fld := ⟨.par, 0x10C + 0x100 * i, 0, 32, .rwt, (.const 0), .page⟩
/-- R394 -/
def R.PAR_STAT_STATE (i : Nat) : Fld := ⟨.par, 0x110 + 0x100 * i, 0, 3, .rof, (.const 0), .page⟩
/-- R394 -/
def R.PAR_STAT_POISON (i : Nat) : Fld := ⟨.par, 0x110 + 0x100 * i, 3, 1, .rof, (.const 0), .page⟩
/-- R394 -/
def R.PAR_STAT_LOST (i : Nat) : Fld := ⟨.par, 0x110 + 0x100 * i, 4, 4, .rof, (.const 0), .page⟩
/-- R394 -/
def R.PAR_STAT_LEADER (i : Nat) : Fld := ⟨.par, 0x110 + 0x100 * i, 8, 4, .rof, (.const 0), .page⟩
/-- R394 -/
def R.PAR_COMMIT (i : Nat) : Fld := ⟨.par, 0x114 + 0x100 * i, 0, 32, .rof, (.const 0xFFFFFFFF), .page⟩
/-- R394 -/
def R.PAR_REBUILD (i : Nat) : Fld := ⟨.par, 0x118 + 0x100 * i, 0, 32, .wo, (.const 0), .page⟩
/-- R394 -/
def R.PAR_GENS (i : Nat) : Fld := ⟨.par, 0x120 + 0x100 * i, 0, 64, .rof, (.const 0), .page⟩
/-- R394 -/
def R.PAR_REBUILDS (i : Nat) : Fld := ⟨.par, 0x128 + 0x100 * i, 0, 32, .rof, (.const 0), .page⟩
/-- R394 -/
def R.PAR_POISON (i : Nat) : Fld := ⟨.par, 0x12C + 0x100 * i, 0, 32, .rof, (.const 0), .page⟩
/-- R394 -/
def R.PAR_ROUTE_PORT (g i : Nat) : Fld := ⟨.par, 0x140 + 0x100 * g + 4 * i, 0, 5, .rwt, (.const 0x1F), .page⟩
/-- R394 -/
def R.PAR_ROUTE_STREAM (g i : Nat) : Fld := ⟨.par, 0x140 + 0x100 * g + 4 * i, 5, 5, .rwt, (.const 0), .page⟩
/-! ### RING -/

/-- R426 -/
def R.RING_SEL : Fld := ⟨.ring, 0x40, 0, 16, .rw, (.const 0), .page⟩
/-- R426 -/
def R.RING_CFG_EN : Fld := ⟨.ring, 0x48, 0, 1, .rw, (.const 0), .ring⟩
/-- R426 -/
def R.RING_CFG_RESET : Fld := ⟨.ring, 0x48, 1, 1, .wo, (.const 0), .ring⟩
/-- R426 -/
def R.RING_CFG_SIZE : Fld := ⟨.ring, 0x48, 2, 5, .rw, (.const 4), .ring⟩
/-- R426 -/
def R.RING_CFG_SIGNAL : Fld := ⟨.ring, 0x48, 8, 8, .rw, (.const 0), .ring⟩
/-- R426 -/
def R.RING_BASE : Fld := ⟨.ring, 0x50, 0, 64, .rw, (.const 0), .ring⟩
/-- R426 -/
def R.RING_CQ : Fld := ⟨.ring, 0x58, 0, 64, .rw, (.const 0), .ring⟩
/-- R426 -/
def R.RING_PROD : Fld := ⟨.ring, 0x60, 0, 64, .rof, (.const 0), .ring⟩
/-- R426 -/
def R.RING_CONS : Fld := ⟨.ring, 0x68, 0, 64, .rof, (.const 0), .ring⟩
/-- R426 -/
def R.RING_PEND : Fld := ⟨.ring, 0x70, 0, 64, .rof, (.const 0), .ring⟩
/-- R426 -/
def R.RING_STAT_STATE : Fld := ⟨.ring, 0x78, 0, 2, .rof, (.const 0), .ring⟩
/-- R426 -/
def R.RING_STAT_CAUSE : Fld := ⟨.ring, 0x78, 8, 8, .rof, (.const 0), .ring⟩
/-- R426 -/
def R.RING_FLUSHED : Fld := ⟨.ring, 0x7C, 0, 32, .rof, (.const 0), .ring⟩
/-- R426 -/
def R.RING_WAIT_LIMIT : Fld := ⟨.ring, 0x80, 0, 32, .rw, (.img .tRingWaitMs 1 60000), .page⟩
/-- R426 -/
def R.RING_STALE_ACK : Fld := ⟨.ring, 0x84, 0, 32, .rof, (.const 0), .page⟩
/-- R426 -/
def R.RING_LATE_RESULT : Fld := ⟨.ring, 0x88, 0, 32, .rof, (.const 0), .page⟩
/-- R426 -/
def R.RING_CFG_IGNORED : Fld := ⟨.ring, 0x8C, 0, 32, .rof, (.const 0), .page⟩
/-- R426 -/
def R.RING_PROD_SUM : Fld := ⟨.ring, 0x90, 0, 64, .rof, (.const 0), .page⟩
/-- R426 -/
def R.RING_CONS_SUM : Fld := ⟨.ring, 0x98, 0, 64, .rof, (.const 0), .page⟩
/-- R426 -/
def R.RING_PEND_SUM : Fld := ⟨.ring, 0xA0, 0, 64, .rof, (.const 0), .page⟩
/-- R426 -/
def R.RING_PLATE_SEL : Fld := ⟨.ring, 0xC0, 0, 8, .rw, (.const 0), .page⟩
/-- R426 -/
def R.RING_PLATE_STAT_STATE : Fld := ⟨.ring, 0xC4, 0, 2, .rof, (.const 0), .plate⟩
/-- R426 -/
def R.RING_PLATE_STAT_SET : Fld := ⟨.ring, 0xC4, 2, 2, .rof, (.const 0), .plate⟩
/-- R426 -/
def R.RING_PLATE_JOB : Fld := ⟨.ring, 0xC8, 0, 32, .rof, (.const 0), .plate⟩
/-- R426 -/
def R.RING_PLATE_REGIONS : Fld := ⟨.ring, 0xD0, 0, 64, .rof, (.const 0), .plate⟩

/-! ### The page header (21 R536, 19 R509) -/

/-- PG_CTRL.EN -/
def H.EN (p : Pg) : Fld := ⟨p, 0x008, 0, 1, .rw, .const 1, .page⟩
/-- PG_CTRL.LOCK: writing 1 locks; writing 0 has no effect -/
def H.LOCK (p : Pg) : Fld := ⟨p, 0x008, 2, 1, .rw, .const 0, .page⟩
/-- PG_CTRL.APPLY -/
def H.APPLY (p : Pg) : Fld := ⟨p, 0x008, 3, 1, .rw, .const 0, .page⟩
/-- PG_STAT.DEGRADED -/
def H.DEGRADED (p : Pg) : Fld := ⟨p, 0x00C, 0, 1, .rof, .const 0, .page⟩
/-- PG_STAT.OUT -/
def H.OUT (p : Pg) : Fld := ⟨p, 0x00C, 1, 1, .rof, .const 0, .page⟩
/-- PG_EVT.SEV -/
def H.SEV (p : Pg) : Fld := ⟨p, 0x010, 0, 4, .w1c, .const 0, .page⟩
/-- PG_EVT_EN.EN -/
def H.EVT_EN (p : Pg) : Fld := ⟨p, 0x014, 0, 2, .rw, .const 3, .page⟩
/-- PG_EVT_CNT: every raise on the page, 64 bits -/
def H.EVT_CNT (p : Pg) : Fld := ⟨p, 0x020, 0, 64, .ro, .const 0, .page⟩

/-- The block registers of a GLB page. -/
def rowsGlb : List Row :=
  [⟨R.GLB_FRAME, 0, 1⟩, ⟨R.GLB_EXP_CUR_LEN, 0, 1⟩, ⟨R.GLB_EXP_NEXT_LEN, 0, 1⟩,
   ⟨R.GLB_EXP_DARK, 0, 1⟩, ⟨R.GLB_WISH_WISH, 0, 1⟩, ⟨R.GLB_WISH_SETTER, 0, 1⟩,
   ⟨R.GLB_WISH_NONE, 0, 1⟩, ⟨R.GLB_SYNC_D_BOARD, 0, 1⟩, ⟨R.GLB_SYNC_D_CELL, 0, 1⟩,
   ⟨R.GLB_SYNC_LEVEL, 0, 1⟩, ⟨R.GLB_SYNC_LEADER, 0, 1⟩, ⟨R.GLB_SYNC_LEN_GROUP_LEN, 0, 1⟩,
   ⟨R.GLB_SYNC_LEN_PROPOSED, 0, 1⟩, ⟨R.GLB_VIEW_CTRL_HOLD, 0, 1⟩, ⟨R.GLB_VIEW_CTRL_HELD, 0, 1⟩,
   ⟨R.GLB_VIEW_CTRL_HOLD_MS, 0, 1⟩, ⟨R.GLB_REFRESH_HOT, 0, 1⟩, ⟨R.GLB_REFRESH_FIRST, 0, 1⟩,
   ⟨R.GLB_REFRESH_SECOND, 0, 1⟩, ⟨R.GLB_GROUP_FRAME, 0, 1⟩, ⟨R.GLB_SYNC_STAT_REJOIN, 0, 1⟩,
   ⟨R.GLB_SYNC_STAT_JOINING, 0, 1⟩, ⟨R.GLB_SYNC_STAT_SKEW, 0, 1⟩, ⟨R.GLB_ROUTE_NEXT_SET, 0, 1⟩]
  ++ [⟨R.GLB_ROUTE_CUR_SET, 0, 1⟩, ⟨R.GLB_ROUTE_AT, 0, 1⟩, ⟨R.GLB_SYNC_LOSS, 0, 1⟩,
   ⟨R.GLB_STRETCH_EN, 0, 1⟩, ⟨R.GLB_STRETCH_ACCEPT, 0, 1⟩, ⟨R.GLB_STRETCH_MAX_LEN, 0, 1⟩,
   ⟨R.GLB_STRETCH_LEN, 0, 1⟩, ⟨R.GLB_RSVD_WR, 0, 1⟩, ⟨R.GLB_ID_GRADE, 0, 1⟩,
   ⟨R.GLB_ID_GRADE_STOP, 0, 1⟩, ⟨R.GLB_ID_GRADE_CAP, 0, 1⟩, ⟨R.GLB_ID_SILICON, 0, 1⟩,
   ⟨R.GLB_WR_IGNORED, 0, 1⟩, ⟨R.GLB_REJOIN_LIMIT, 0, 1⟩]

/-- The block registers of a BOOT page. -/
def rowsBoot : List Row :=
  [⟨R.BOOT_STAT_STATE, 0, 1⟩, ⟨R.BOOT_STAT_CAUSE, 0, 1⟩, ⟨R.BOOT_STAT_RESET_KIND, 0, 1⟩,
   ⟨R.BOOT_CFG_STAT_FACTORY_OK, 0, 1⟩, ⟨R.BOOT_CFG_STAT_USER_OK, 0, 1⟩, ⟨R.BOOT_CFG_STAT_USER_SIGNED, 0, 1⟩,
   ⟨R.BOOT_CFG_STAT_RANGE, 0, 1⟩, ⟨R.BOOT_CFG_STAT_UNKNOWN, 0, 1⟩, ⟨R.BOOT_PEER_WAIT, 0, 1⟩,
   ⟨R.BOOT_TEST_CODE, 0, 1⟩, ⟨R.BOOT_TEST_FORCE, 0, 1⟩, ⟨R.BOOT_TEST_GO, 0, 1⟩,
   ⟨R.BOOT_TEST_TOWERS, 0, 1⟩, ⟨R.BOOT_TEST_STATUS, 0, 1⟩, ⟨R.BOOT_TEST_RESULT, 0, 1⟩,
   ⟨R.BOOT_SLEEP, 0, 1⟩, ⟨R.BOOT_PHASE_MS 0, 4, 6⟩, ⟨R.BOOT_RL_CTRL_TARGET, 0, 1⟩,
   ⟨R.BOOT_RL_CTRL_GO, 0, 1⟩, ⟨R.BOOT_RL_CTRL_STATUS, 0, 1⟩, ⟨R.BOOT_RL_CTRL_CAUSE, 0, 1⟩,
   ⟨R.BOOT_RL_CTRL_SMBUS, 0, 1⟩, ⟨R.BOOT_RL_ADDR, 0, 1⟩, ⟨R.BOOT_RL_LEN, 0, 1⟩]
  ++ [⟨R.BOOT_RL_DONE, 0, 1⟩]

/-- The block registers of a SAFE page. -/
def rowsSafe : List Row :=
  [⟨R.SAFE_WAKE_TIMER, 0, 1⟩, ⟨R.SAFE_WAKE_SMBUS, 0, 1⟩, ⟨R.SAFE_WAKE_ABAES, 0, 1⟩,
   ⟨R.SAFE_WAKE_AT, 0, 1⟩, ⟨R.SAFE_WAKE_CAUSE, 0, 1⟩, ⟨R.SAFE_TIMEBASE, 0, 1⟩,
   ⟨R.SAFE_FRAME, 0, 1⟩, ⟨R.SAFE_DOWN, 0, 1⟩, ⟨R.SAFE_TRIP_TOWER, 0, 1⟩,
   ⟨R.SAFE_TRIP_SENSOR, 0, 1⟩, ⟨R.SAFE_TRIP_KIND, 0, 1⟩, ⟨R.SAFE_TRIP_VALID, 0, 1⟩]

/-- The block registers of a SEC page. -/
def rowsSec : List Row :=
  [⟨R.SEC_STAT_FW_VALID, 0, 1⟩, ⟨R.SEC_STAT_OWNER_SET, 0, 1⟩, ⟨R.SEC_STAT_SPOILED, 0, 1⟩,
   ⟨R.SEC_STAT_USER_VERIFIED, 0, 1⟩, ⟨R.SEC_STAT_DEBUG, 0, 1⟩, ⟨R.SEC_STAT_PURGED, 0, 1⟩,
   ⟨R.SEC_STAT_FW_SVN, 0, 1⟩, ⟨R.SEC_STAT_MIN_SVN, 0, 1⟩, ⟨R.SEC_STAT_REVOKED, 0, 1⟩,
   ⟨R.SEC_STAT_CAUSE, 0, 1⟩, ⟨R.SEC_POLICY_PURGE, 0, 1⟩, ⟨R.SEC_POLICY_SVN_COMMIT, 0, 1⟩,
   ⟨R.SEC_POLICY_REVOKE, 0, 1⟩, ⟨R.SEC_OWNER_HASH 0, 4, 12⟩, ⟨R.SEC_OWNER_CTRL, 0, 1⟩,
   ⟨R.SEC_DBG_CTRL_LEVEL, 0, 1⟩, ⟨R.SEC_DBG_CTRL_NONCE_REQ, 0, 1⟩, ⟨R.SEC_DBG_CTRL_SUBMIT, 0, 1⟩,
   ⟨R.SEC_DBG_CTRL_RESULT, 0, 1⟩, ⟨R.SEC_DBG_CTRL_FAILS, 0, 1⟩, ⟨R.SEC_DBG_NONCE 0, 4, 8⟩,
   ⟨R.SEC_DBG_RESP 0, 4, 24⟩, ⟨R.SEC_DBG_KEY 0, 4, 25⟩, ⟨R.SEC_SERIAL 0, 4, 4⟩]
  ++ [⟨R.SEC_MCTP_CTRL_TX_LEN, 0, 1⟩, ⟨R.SEC_MCTP_CTRL_GO, 0, 1⟩, ⟨R.SEC_MCTP_CTRL_RX_READY, 0, 1⟩,
   ⟨R.SEC_MCTP_CTRL_RX_LEN, 0, 1⟩, ⟨R.SEC_MCTP_TX 0, 4, 256⟩, ⟨R.SEC_MCTP_RX 0, 4, 256⟩]

/-- The block registers of a EVT page. -/
def rowsEvt : List Row :=
  [⟨R.EVT_RAISED, 0, 1⟩, ⟨R.EVT_DELIVERED, 0, 1⟩, ⟨R.EVT_COALESCED, 0, 1⟩,
   ⟨R.EVT_ALERT, 0, 1⟩, ⟨R.EVT_NAME_SEL, 0, 1⟩, ⟨R.EVT_NAME 0, 4, 8⟩,
   ⟨R.EVT_RING_CTRL_EN 0, 32, 4⟩, ⟨R.EVT_RING_CTRL_WINDOW 0, 32, 4⟩, ⟨R.EVT_RING_CTRL_SIZE 0, 32, 4⟩,
   ⟨R.EVT_RING_CTRL_SIGNAL 0, 32, 4⟩, ⟨R.EVT_RING_CTRL_ALERT_EN 0, 32, 4⟩, ⟨R.EVT_RING_PROD 0, 32, 4⟩,
   ⟨R.EVT_RING_CONS 0, 32, 4⟩, ⟨R.EVT_RING_QUEUED 0, 32, 4⟩]

/-- The block registers of a LDG page. -/
def rowsLdg : List Row :=
  [⟨R.LDG_FAIL_LEDGER, 0, 1⟩, ⟨R.LDG_FAIL_VALID, 0, 1⟩, ⟨R.LDG_FAIL_INST, 0, 1⟩,
   ⟨R.LDG_FAIL_FRAME, 0, 1⟩, ⟨R.LDG_FAIL_LEFT, 0, 1⟩, ⟨R.LDG_FAIL_RIGHT, 0, 1⟩,
   ⟨R.LDG_FAIL_CNT, 0, 1⟩, ⟨R.LDG_CHECKS, 0, 1⟩]

/-- The block registers of a APT page. -/
def rowsApt : List Row :=
  [⟨R.APT_CTRL_FIXED, 0, 1⟩, ⟨R.APT_CTRL_FIX_STOP, 0, 1⟩, ⟨R.APT_CTRL_MAX_STOP, 0, 1⟩,
   ⟨R.APT_CTRL_IDLE_GATE, 0, 1⟩, ⟨R.APT_CAP, 0, 1⟩, ⟨R.APT_CAP_WIN, 0, 1⟩,
   ⟨R.APT_STAT_TARGET, 0, 1⟩, ⟨R.APT_STAT_K, 0, 1⟩, ⟨R.APT_STAT_LOCAL_K, 0, 1⟩,
   ⟨R.APT_STAT_UNREACHABLE, 0, 1⟩, ⟨R.APT_STAT_HOLD, 0, 1⟩, ⟨R.APT_STAT_BRAKE, 0, 1⟩,
   ⟨R.APT_STAT_FIXED_HELD, 0, 1⟩, ⟨R.APT_POWER_LAST, 0, 1⟩, ⟨R.APT_POWER_WIN, 0, 1⟩,
   ⟨R.APT_FEED_A_V, 0, 1⟩, ⟨R.APT_FEED_B_V, 0, 1⟩, ⟨R.APT_FEED_A_OK, 0, 1⟩,
   ⟨R.APT_FEED_B_OK, 0, 1⟩, ⟨R.APT_FEED_AUX_OK, 0, 1⟩, ⟨R.APT_DARK_CNT, 0, 1⟩,
   ⟨R.APT_E_JOBSUM, 0, 1⟩, ⟨R.APT_E_UNATTR, 0, 1⟩, ⟨R.APT_E_MEAS, 0, 1⟩]
  ++ [⟨R.APT_JOB_SEL, 0, 1⟩, ⟨R.APT_JOB_E, 0, 1⟩, ⟨R.APT_TELEM_EN, 0, 1⟩,
   ⟨R.APT_TELEM_WINDOW, 0, 1⟩, ⟨R.APT_TELEM_SIZE, 0, 1⟩, ⟨R.APT_TELEM_VMIN_EXPORT, 0, 1⟩,
   ⟨R.APT_TELEM_PROD, 0, 1⟩, ⟨R.APT_TELEM_CONS, 0, 1⟩, ⟨R.APT_TELEM_DROP, 0, 1⟩,
   ⟨R.APT_VMIN_CNT, 0, 1⟩, ⟨R.APT_HALF_STOP_STOP 0, 4, 8⟩, ⟨R.APT_HALF_STOP_CEIL 0, 4, 8⟩,
   ⟨R.APT_HALF_STOP_FLOOR 0, 4, 8⟩, ⟨R.APT_HALF_STOP_LIMITER 0, 4, 8⟩, ⟨R.APT_VMIN_LOG_DOMAIN 0, 16, 64⟩,
   ⟨R.APT_VMIN_LOG_DEPTH 0, 16, 64⟩, ⟨R.APT_VMIN_LOG_MIN 0, 16, 64⟩, ⟨R.APT_VMIN_LOG_TIMEBASE 0, 16, 64⟩]

/-- The block registers of a THM page. -/
def rowsThm : List Row :=
  [⟨R.THM_CTRL_LOGIC_THR, 0, 1⟩, ⟨R.THM_CTRL_DRAM_THR, 0, 1⟩, ⟨R.THM_CTRL_HYST, 0, 1⟩,
   ⟨R.THM_STAT_K_TH, 0, 1⟩, ⟨R.THM_STAT_DISAGREE, 0, 1⟩, ⟨R.THM_STAT_FAILED, 0, 1⟩,
   ⟨R.THM_STAT_BLIND, 0, 1⟩, ⟨R.THM_HOT_EXIT, 0, 1⟩, ⟨R.THM_SHADOW_HOLD, 0, 1⟩,
   ⟨R.THM_RECOVER, 0, 1⟩, ⟨R.THM_THROTTLE_CNT, 0, 1⟩, ⟨R.THM_HALF_T_LOGIC 0, 4, 8⟩,
   ⟨R.THM_HALF_T_DRAM 0, 4, 8⟩, ⟨R.THM_HALF_CEIL 0, 4, 8⟩, ⟨R.THM_HALF_GOV 0, 4, 8⟩,
   ⟨R.THM_HALF_SHADOW 0, 4, 8⟩, ⟨R.THM_SENSOR_TEMP 0 0, 4, 116⟩, ⟨R.THM_SENSOR_TEMP 1 0, 4, 116⟩,
   ⟨R.THM_SENSOR_TEMP 2 0, 4, 116⟩, ⟨R.THM_SENSOR_TEMP 3 0, 4, 116⟩, ⟨R.THM_SENSOR_SHADOW 0 0, 4, 116⟩,
   ⟨R.THM_SENSOR_SHADOW 1 0, 4, 116⟩, ⟨R.THM_SENSOR_SHADOW 2 0, 4, 116⟩, ⟨R.THM_SENSOR_SHADOW 3 0, 4, 116⟩]
  ++ [⟨R.THM_SENSOR_FAIL 0 0, 4, 116⟩, ⟨R.THM_SENSOR_FAIL 1 0, 4, 116⟩, ⟨R.THM_SENSOR_FAIL 2 0, 4, 116⟩,
   ⟨R.THM_SENSOR_FAIL 3 0, 4, 116⟩, ⟨R.THM_SENSOR_TRUSTED 0 0, 4, 116⟩, ⟨R.THM_SENSOR_TRUSTED 1 0, 4, 116⟩,
   ⟨R.THM_SENSOR_TRUSTED 2 0, 4, 116⟩, ⟨R.THM_SENSOR_TRUSTED 3 0, 4, 116⟩, ⟨R.THM_COEF 0 0, 4, 7⟩,
   ⟨R.THM_COEF 1 0, 4, 7⟩, ⟨R.THM_COEF 2 0, 4, 7⟩, ⟨R.THM_COEF 3 0, 4, 7⟩,
   ⟨R.THM_COEF 4 0, 4, 7⟩, ⟨R.THM_COEF 5 0, 4, 7⟩, ⟨R.THM_COEF 6 0, 4, 7⟩,
   ⟨R.THM_COEF 7 0, 4, 7⟩, ⟨R.THM_COEF 8 0, 4, 7⟩, ⟨R.THM_COEF 9 0, 4, 7⟩,
   ⟨R.THM_COEF 10 0, 4, 7⟩, ⟨R.THM_COEF 11 0, 4, 7⟩, ⟨R.THM_COEF 12 0, 4, 7⟩,
   ⟨R.THM_COEF 13 0, 4, 7⟩, ⟨R.THM_COEF 14 0, 4, 7⟩, ⟨R.THM_COEF 15 0, 4, 7⟩]

/-- The block registers of a PDN page. -/
def rowsPdn : List Row :=
  [⟨R.PDN_CTRL, 0, 1⟩, ⟨R.PDN_STAT_STATE, 0, 1⟩, ⟨R.PDN_STAT_DEFERRED, 0, 1⟩,
   ⟨R.PDN_STAT_STEP, 0, 1⟩, ⟨R.PDN_STAT_PHASES_LOST, 0, 1⟩, ⟨R.PDN_STAT_PHASE_CEIL, 0, 1⟩,
   ⟨R.PDN_WAKE_RETRY, 0, 1⟩, ⟨R.PDN_WAKE_LIMIT, 0, 1⟩, ⟨R.PDN_OC_LIMIT, 0, 1⟩,
   ⟨R.PDN_I_AVG, 0, 1⟩, ⟨R.PDN_I_PEAK, 0, 1⟩, ⟨R.PDN_VMIN_MIN, 0, 1⟩,
   ⟨R.PDN_VMIN_TARGET, 0, 1⟩, ⟨R.PDN_VMIN_CLR, 0, 1⟩, ⟨R.PDN_E, 0, 1⟩]

/-- The block registers of a TWR page. -/
def rowsTwr : List Row :=
  [⟨R.TWR_SHIFT_SKIP 0, 4, 64⟩, ⟨R.TWR_SHIFT_SPARE_FREE 0, 4, 64⟩, ⟨R.TWR_SHIFT_HOLE 0, 4, 64⟩,
   ⟨R.TWR_SHIFT_ORIGIN 0, 4, 64⟩, ⟨R.TWR_SHIFT_HOLE_COL 0, 4, 64⟩, ⟨R.TWR_SHIFT_SELFTEST 0, 4, 64⟩,
   ⟨R.TWR_EVAC_CTRL_ROW, 0, 1⟩, ⟨R.TWR_EVAC_CTRL_HALF, 0, 1⟩, ⟨R.TWR_EVAC_CTRL_SRC_COL, 0, 1⟩,
   ⟨R.TWR_EVAC_CTRL_DST_COL, 0, 1⟩, ⟨R.TWR_EVAC_CTRL_GO, 0, 1⟩, ⟨R.TWR_EVAC_CTRL_STATUS, 0, 1⟩,
   ⟨R.TWR_EVAC_CTRL_CAUSE, 0, 1⟩, ⟨R.TWR_EVAC_SADDR, 0, 1⟩, ⟨R.TWR_EVAC_DADDR, 0, 1⟩,
   ⟨R.TWR_EVAC_LEN, 0, 1⟩, ⟨R.TWR_EVAC_DONE, 0, 1⟩, ⟨R.TWR_RESEAT_ROW, 0, 1⟩,
   ⟨R.TWR_RESEAT_HALF, 0, 1⟩, ⟨R.TWR_RESEAT_GO, 0, 1⟩, ⟨R.TWR_RESEAT_STATUS, 0, 1⟩,
   ⟨R.TWR_RESEAT_CAUSE, 0, 1⟩]

/-- The block registers of a HALF page. -/
def rowsHalf : List Row :=
  [⟨R.HALF_FABRIC_LOST, 0, 1⟩, ⟨R.HALF_FABRIC_ROW, 0, 1⟩, ⟨R.HALF_FABRIC_COL, 0, 1⟩,
   ⟨R.HALF_FENCE_DROP, 0, 1⟩, ⟨R.HALF_POISON_OUT, 0, 1⟩]

/-- The block registers of a SEAM page. -/
def rowsSeam : List Row :=
  [⟨R.SEAM_LINK_W2E, 0, 1⟩, ⟨R.SEAM_LINK_E2W, 0, 1⟩, ⟨R.SEAM_FLITS_W2E, 0, 1⟩,
   ⟨R.SEAM_FLITS_E2W, 0, 1⟩, ⟨R.SEAM_PEAK_W2E_PEAK, 0, 1⟩, ⟨R.SEAM_PEAK_E2W_PEAK, 0, 1⟩,
   ⟨R.SEAM_PARITY, 0, 1⟩]

/-- The block registers of a RGN page. -/
def rowsRgn : List Row :=
  [⟨R.TWR_RGN_FAULT_CORE, 0, 1⟩, ⟨R.TWR_RGN_FAULT_CONTEXT, 0, 1⟩, ⟨R.TWR_RGN_FAULT_CAUSE, 0, 1⟩,
   ⟨R.TWR_RGN_FAULT_BUNDLE, 0, 1⟩, ⟨R.TWR_RGN_FAULT_VALID, 0, 1⟩, ⟨R.TWR_RGN_FAULT_CYC_CYCLE, 0, 1⟩,
   ⟨R.TWR_RGN_FAULT_CYC_FRAME_LO, 0, 1⟩, ⟨R.TWR_RGN_CYCLES_DECLARED, 0, 1⟩, ⟨R.TWR_RGN_CYCLES_LAST_DONE, 0, 1⟩,
   ⟨R.TWR_RGN_MISS, 0, 1⟩, ⟨R.TWR_RGN_TRAY_RETRY, 0, 1⟩, ⟨R.TWR_RGN_LOOSE_DROP, 0, 1⟩,
   ⟨R.TWR_RGN_ARITH_NAN_IN, 0, 1⟩, ⟨R.TWR_RGN_ARITH_INF_IN, 0, 1⟩, ⟨R.TWR_RGN_ARITH_ACC_OVF, 0, 1⟩,
   ⟨R.TWR_RGN_ARITH_SAT, 0, 1⟩, ⟨R.TWR_RGN_ARITH_NAN_LOST, 0, 1⟩, ⟨R.TWR_RGN_ARITH_INF_OUT, 0, 1⟩,
   ⟨R.TWR_RGN_ARITH_FIRST, 0, 1⟩, ⟨R.TWR_RGN_SAT_CNT, 0, 1⟩, ⟨R.TWR_RGN_NAN_CNT, 0, 1⟩,
   ⟨R.TWR_RGN_TRAIN_TRAINING, 0, 1⟩, ⟨R.TWR_RGN_TRAIN_MIREL, 0, 1⟩, ⟨R.TWR_RGN_TRAIN_STEP, 0, 1⟩]
  ++ [⟨R.TWR_RGN_TRAIN_RESERVE, 0, 1⟩, ⟨R.TWR_RGN_RETAKE_CNT, 0, 1⟩, ⟨R.TWR_RGN_TILE_SAT_CNT, 0, 1⟩,
   ⟨R.TWR_RGN_RESERVE_MIN, 0, 1⟩, ⟨R.TWR_RGN_RW_THRESH, 0, 1⟩, ⟨R.TWR_RGN_RW_CLR, 0, 1⟩,
   ⟨R.TWR_RGN_SHAFT_CEIL, 0, 1⟩, ⟨R.TWR_RGN_SHAFT_LAP_MAX, 0, 1⟩, ⟨R.TWR_RGN_SCORE_NAN, 0, 1⟩,
   ⟨R.TWR_RGN_SCORE_INF, 0, 1⟩, ⟨R.TWR_RGN_FENCED, 0, 1⟩, ⟨R.TWR_RGN_FENCE_LOG_CORE, 0, 1⟩,
   ⟨R.TWR_RGN_FENCE_LOG_CAUSE, 0, 1⟩, ⟨R.TWR_RGN_FENCE_LOG_VALID, 0, 1⟩, ⟨R.TWR_RGN_FENCE_LOG_FRAME_LO, 0, 1⟩,
   ⟨R.TWR_RGN_FENCE_REQ_CORE, 0, 1⟩, ⟨R.TWR_RGN_FENCE_REQ_GO, 0, 1⟩, ⟨R.TWR_RGN_RW_SUM 0, 32, 16⟩,
   ⟨R.TWR_RGN_RW_COUNT 0, 32, 16⟩, ⟨R.TWR_RGN_RW_OVER 0, 32, 16⟩, ⟨R.TWR_RGN_RW_MAX 0, 32, 16⟩,
   ⟨R.TWR_RGN_RW_EMAX 0, 32, 16⟩, ⟨R.TWR_RGN_RW_SUM_SAT 0, 32, 16⟩]

/-- The block registers of a SHF page. -/
def rowsShf : List Row :=
  [⟨R.SHF_LANE_SRAM_SP, 0, 1⟩, ⟨R.SHF_LANE_DRAM_SP, 0, 1⟩, ⟨R.SHF_LANE_CTRL_SP, 0, 1⟩,
   ⟨R.SHF_LANE_SRAM_HALF, 0, 1⟩, ⟨R.SHF_LANE_DRAM_HALF, 0, 1⟩, ⟨R.SHF_LANE_RETUNE_GRP, 0, 1⟩,
   ⟨R.SHF_PORT_SP, 0, 1⟩, ⟨R.SHF_PORT_HALF, 0, 1⟩, ⟨R.SHF_MAP_MEM_LOGICAL, 0, 1⟩,
   ⟨R.SHF_MAP_CORE_LOGICAL, 0, 1⟩, ⟨R.SHF_MAP_NEIGHBOUR, 0, 1⟩, ⟨R.SHF_MAP_HOLE, 0, 1⟩,
   ⟨R.SHF_DRAM_CORR, 0, 1⟩, ⟨R.SHF_DRAM_UNCORR, 0, 1⟩, ⟨R.SHF_SRAM_CORR, 0, 1⟩,
   ⟨R.SHF_SRAM_UNCORR, 0, 1⟩, ⟨R.SHF_POISON_READ, 0, 1⟩, ⟨R.SHF_RMW, 0, 1⟩,
   ⟨R.SHF_ERR_LOG_VALID, 0, 1⟩, ⟨R.SHF_ERR_LOG_STORE, 0, 1⟩, ⟨R.SHF_ERR_LOG_KIND, 0, 1⟩,
   ⟨R.SHF_ERR_LOG_POS, 0, 1⟩, ⟨R.SHF_ERR_LOG_SOURCE, 0, 1⟩, ⟨R.SHF_ERR_LOG_FRAME_LO, 0, 1⟩]
  ++ [⟨R.SHF_ERR_ADDR, 0, 1⟩, ⟨R.SHF_SCRUB_CTRL_EN, 0, 1⟩, ⟨R.SHF_SCRUB_CTRL_DRATE, 0, 1⟩,
   ⟨R.SHF_SCRUB_CTRL_SRATE, 0, 1⟩, ⟨R.SHF_SCRUB_LAP_DRAM_LAP, 0, 1⟩, ⟨R.SHF_SCRUB_LAP_SRAM_LAP, 0, 1⟩,
   ⟨R.SHF_SCRUB_POS_PAGE, 0, 1⟩, ⟨R.SHF_SCRUB_POS_LINE, 0, 1⟩, ⟨R.SHF_POISON_SEEN, 0, 1⟩,
   ⟨R.SHF_TOUCH, 0, 1⟩, ⟨R.SHF_TEST_RUN, 0, 1⟩, ⟨R.SHF_TEST_DONE, 0, 1⟩,
   ⟨R.SHF_TEST_DRAM_PASS, 0, 1⟩, ⟨R.SHF_TEST_SRAM_PASS, 0, 1⟩, ⟨R.SHF_TEST_FAILED, 0, 1⟩,
   ⟨R.SHF_NM_CFG_K, 0, 1⟩, ⟨R.SHF_NM_CFG_G, 0, 1⟩, ⟨R.SHF_NM_RSV, 0, 1⟩,
   ⟨R.SHF_NM_BACKLOG_CYCLES, 0, 1⟩, ⟨R.SHF_NM_BACKLOG_CMDS, 0, 1⟩, ⟨R.SHF_NM_DONE, 0, 1⟩,
   ⟨R.SHF_NM_CHUNKS, 0, 1⟩, ⟨R.SHF_NM_RACC, 0, 1⟩, ⟨R.SHF_NM_LAST, 0, 1⟩]
  ++ [⟨R.SHF_NM_POISON, 0, 1⟩, ⟨R.SHF_NM_SAT, 0, 1⟩, ⟨R.SHF_NM_LATE, 0, 1⟩,
   ⟨R.SHF_NM_ABORT, 0, 1⟩, ⟨R.SHF_NM_LAYOUT 0, 4, 64⟩]

/-- The block registers of a RAY page. -/
def rowsRay : List Row :=
  [⟨R.RAY_CTRL_ROLE, 0, 1⟩, ⟨R.RAY_CTRL_EXP_WIDTH, 0, 1⟩, ⟨R.RAY_CTRL_STRICT, 0, 1⟩,
   ⟨R.RAY_CTRL_RETRAIN, 0, 1⟩, ⟨R.RAY_CTRL_UNFENCE, 0, 1⟩, ⟨R.RAY_CTRL_DISABLE, 0, 1⟩,
   ⟨R.RAY_STAT_STATE, 0, 1⟩, ⟨R.RAY_STAT_WIDTH, 0, 1⟩, ⟨R.RAY_STAT_DEGRADED, 0, 1⟩,
   ⟨R.RAY_STAT_PARTNER_ID, 0, 1⟩, ⟨R.RAY_STAT_PARTNER_PORT, 0, 1⟩, ⟨R.RAY_STAT_LAST_CAUSE, 0, 1⟩,
   ⟨R.RAY_LAT, 0, 1⟩, ⟨R.RAY_THRESH_VIOL, 0, 1⟩, ⟨R.RAY_THRESH_RETRAINS, 0, 1⟩,
   ⟨R.RAY_TRAIN_LIMIT, 0, 1⟩, ⟨R.RAY_EPOCH_CLOSE, 0, 1⟩, ⟨R.RAY_REPLAY, 0, 1⟩,
   ⟨R.RAY_FEC_UNCORR, 0, 1⟩, ⟨R.RAY_NAK_TX, 0, 1⟩, ⟨R.RAY_LATE, 0, 1⟩,
   ⟨R.RAY_CRD_AVAIL, 0, 1⟩, ⟨R.RAY_CRD_OUT, 0, 1⟩, ⟨R.RAY_CRD_ADV, 0, 1⟩]
  ++ [⟨R.RAY_CRD_CLIP, 0, 1⟩, ⟨R.RAY_BUF_FREE, 0, 1⟩, ⟨R.RAY_BUF_OCC, 0, 1⟩,
   ⟨R.RAY_BUF_TOTAL, 0, 1⟩, ⟨R.RAY_EPOCH_DONE 0, 4, 128⟩]

/-- The block registers of a BRG page. -/
def rowsBrg : List Row :=
  [⟨R.BRG_STAT_WIDTH_D0, 0, 1⟩, ⟨R.BRG_STAT_WIDTH_D1, 0, 1⟩, ⟨R.BRG_STAT_SP_D0, 0, 1⟩,
   ⟨R.BRG_STAT_SP_D1, 0, 1⟩, ⟨R.BRG_STAT_SB_SP_D0, 0, 1⟩, ⟨R.BRG_STAT_SB_SP_D1, 0, 1⟩,
   ⟨R.BRG_RETUNE_GROUP_D0, 0, 1⟩, ⟨R.BRG_RETUNE_GROUP_D1, 0, 1⟩, ⟨R.BRG_REPLAY 0, 8, 2⟩,
   ⟨R.BRG_LATE 0, 4, 2⟩, ⟨R.BRG_CRD_AVAIL 0, 48, 2⟩, ⟨R.BRG_CRD_OUT 0, 48, 2⟩,
   ⟨R.BRG_CRD_ADV 0, 48, 2⟩, ⟨R.BRG_BUF_FREE 0, 48, 2⟩, ⟨R.BRG_BUF_OCC 0, 48, 2⟩,
   ⟨R.BRG_BUF_TOTAL 0, 48, 2⟩]

/-- The block registers of a ABA page. -/
def rowsAba : List Row :=
  [⟨R.ABA_CTRL_RETRAIN, 0, 1⟩, ⟨R.ABA_CTRL_EXP_WIDTH, 0, 1⟩, ⟨R.ABA_STAT_STATE, 0, 1⟩,
   ⟨R.ABA_STAT_WIDTH, 0, 1⟩, ⟨R.ABA_STAT_DEGRADED, 0, 1⟩, ⟨R.ABA_STAT_RECOVERY, 0, 1⟩,
   ⟨R.ABA_REPLAY, 0, 1⟩, ⟨R.ABA_FEC_UNCORR, 0, 1⟩, ⟨R.ABA_NAK_TX, 0, 1⟩,
   ⟨R.ABA_VIOL, 0, 1⟩, ⟨R.ABA_DMA_ERR, 0, 1⟩, ⟨R.ABA_SIG_COALESCED, 0, 1⟩,
   ⟨R.ABA_TRAIN_LIMIT, 0, 1⟩, ⟨R.ABA_DMA_TIMEOUT, 0, 1⟩, ⟨R.ABA_ACK_LIMIT, 0, 1⟩,
   ⟨R.ABA_THRESH_VIOL, 0, 1⟩, ⟨R.ABA_THRESH_RETRAINS, 0, 1⟩, ⟨R.ABA_REG_IGNORED, 0, 1⟩,
   ⟨R.ABA_CRD_AVAIL, 0, 1⟩, ⟨R.ABA_CRD_OUT, 0, 1⟩, ⟨R.ABA_CRD_ADV, 0, 1⟩,
   ⟨R.ABA_BUF_FREE, 0, 1⟩, ⟨R.ABA_BUF_OCC, 0, 1⟩, ⟨R.ABA_BUF_TOTAL, 0, 1⟩]
  ++ [⟨R.ABA_CRD_CLIP, 0, 1⟩, ⟨R.ABA_STREAM_EN, 0, 1⟩, ⟨R.ABA_STREAM_WINDOW, 0, 1⟩,
   ⟨R.ABA_STREAM_SIZE, 0, 1⟩, ⟨R.ABA_STREAM_PROD, 0, 1⟩, ⟨R.ABA_STREAM_CONS, 0, 1⟩,
   ⟨R.ABA_STREAM_DROP, 0, 1⟩, ⟨R.ABA_WIN_BASE 0, 32, 16⟩, ⟨R.ABA_WIN_SIZE 0, 32, 16⟩,
   ⟨R.ABA_WIN_CTRL_EN 0, 32, 16⟩, ⟨R.ABA_WIN_CTRL_READ 0, 32, 16⟩, ⟨R.ABA_WIN_CTRL_WRITE 0, 32, 16⟩]

/-- The block registers of a KVL page. -/
def rowsKvl : List Row :=
  [⟨R.KVL_CTRL, 0, 1⟩, ⟨R.KVL_STAT, 0, 1⟩, ⟨R.KVL_DEFER, 0, 1⟩,
   ⟨R.KVL_FADELIST, 0, 1⟩, ⟨R.KVL_CMD 0, 4, 8⟩, ⟨R.KVL_CMD_GO, 0, 1⟩,
   ⟨R.KVL_CMD_STAT_BUSY, 0, 1⟩, ⟨R.KVL_CMD_STAT_STATUS, 0, 1⟩, ⟨R.KVL_CMD_STAT_TAG, 0, 1⟩,
   ⟨R.KVL_CMD_RSP 0, 4, 8⟩, ⟨R.KVL_POOL_FREE_SUM, 0, 1⟩, ⟨R.KVL_POOL_LIVE_SUM, 0, 1⟩,
   ⟨R.KVL_POOL_LATENT_SUM, 0, 1⟩, ⟨R.KVL_POOL_FADED_SUM, 0, 1⟩, ⟨R.KVL_POOL_TOTAL_SUM, 0, 1⟩,
   ⟨R.KVL_REF_SUM, 0, 1⟩, ⟨R.KVL_REF_ENTRIES, 0, 1⟩, ⟨R.KVL_BUCKET_CTRL_EN, 0, 1⟩,
   ⟨R.KVL_BUCKET_CTRL_BC, 0, 1⟩, ⟨R.KVL_BUCKET_CTRL_NB, 0, 1⟩, ⟨R.KVL_BUCKET_CTRL_CORE, 0, 1⟩,
   ⟨R.KVL_BUCKET_MASK, 0, 1⟩, ⟨R.KVL_BUCKET_N, 0, 1⟩, ⟨R.KVL_BUCKET_GEN, 0, 1⟩]
  ++ [⟨R.KVL_BUCKET_THR 0, 4, 15⟩, ⟨R.KVL_POOL_CFG0_EN 0, 64, 16⟩, ⟨R.KVL_POOL_CFG0_TOWERS 0, 64, 16⟩,
   ⟨R.KVL_POOL_CFG0_PAGE_LO 0, 64, 16⟩, ⟨R.KVL_POOL_CFG0_PAGE_HI 0, 64, 16⟩, ⟨R.KVL_POOL_CFG1_TOK_SHIFT 0, 64, 16⟩,
   ⟨R.KVL_POOL_CFG1_DEPTH 0, 64, 16⟩, ⟨R.KVL_POOL_CFG1_TOK_BYTES 0, 64, 16⟩, ⟨R.KVL_POOL_FREE 0, 64, 16⟩,
   ⟨R.KVL_POOL_LIVE 0, 64, 16⟩, ⟨R.KVL_POOL_LATENT 0, 64, 16⟩, ⟨R.KVL_POOL_FADED 0, 64, 16⟩,
   ⟨R.KVL_POOL_TOTAL 0, 64, 16⟩, ⟨R.KVL_POOL_RETIRED 0, 64, 16⟩, ⟨R.KVL_POOL_RELEASING 0, 64, 16⟩,
   ⟨R.KVL_HOLDER_CFG_POOL 0, 8, 256⟩, ⟨R.KVL_HOLDER_CFG_EN 0, 8, 256⟩, ⟨R.KVL_HOLDER_CFG_QUOTA 0, 8, 256⟩,
   ⟨R.KVL_HOLDER_USE_USED 0, 8, 256⟩, ⟨R.KVL_HOLDER_USE_OVER 0, 8, 256⟩, ⟨R.KVL_HOLDER_USE_CUT 0, 8, 256⟩]

/-- The block registers of a RED page. -/
def rowsRed : List Row :=
  [⟨R.RED_CTRL_EN, 0, 1⟩, ⟨R.RED_CTRL_UNFENCE, 0, 1⟩, ⟨R.RED_CTRL_RANK, 0, 1⟩,
   ⟨R.RED_STAT_STATE, 0, 1⟩, ⟨R.RED_STAT_OPEN, 0, 1⟩, ⟨R.RED_STAT_LEADER, 0, 1⟩,
   ⟨R.RED_SPAN_CORE_BASE, 0, 1⟩, ⟨R.RED_SPAN_K, 0, 1⟩, ⟨R.RED_MIRROR_EN, 0, 1⟩,
   ⟨R.RED_MIRROR_RATE, 0, 1⟩, ⟨R.RED_MEMBERS, 0, 1⟩, ⟨R.RED_TIMEOUT, 0, 1⟩,
   ⟨R.RED_CAP_NOTE_RANK, 0, 1⟩, ⟨R.RED_CAP_NOTE_FRAME_LO, 0, 1⟩, ⟨R.RED_SEED, 0, 1⟩,
   ⟨R.RED_DROP_LOG, 0, 1⟩, ⟨R.RED_SEQ_NEXT, 0, 1⟩, ⟨R.RED_DONE_SEQ, 0, 1⟩,
   ⟨R.RED_CAP_HOLD, 0, 1⟩, ⟨R.RED_BUCKETS, 0, 1⟩, ⟨R.RED_MIRROR_SAMPLES, 0, 1⟩,
   ⟨R.RED_MIRROR_SKIP, 0, 1⟩, ⟨R.RED_REREDUCE, 0, 1⟩, ⟨R.RED_DROPS, 0, 1⟩]
  ++ [⟨R.RED_TALLY_EXP 0, 32, 8⟩, ⟨R.RED_TALLY_RCV 0, 32, 8⟩, ⟨R.RED_TALLY_DROP 0, 32, 8⟩,
   ⟨R.RED_TALLY_OUT 0, 32, 8⟩, ⟨R.RED_ROSTER_CNT_COUNT 0, 16, 8⟩, ⟨R.RED_ROSTER_CNT_SEQ 0, 16, 8⟩,
   ⟨R.RED_ROSTER_DIGEST 0, 16, 8⟩, ⟨R.RED_ROUTE_PORT 0, 4, 64⟩, ⟨R.RED_ROUTE_STREAM 0, 4, 64⟩]

/-- The block registers of a SNAP page. -/
def rowsSnap : List Row :=
  [⟨R.SNAP_CTRL_DEST, 0, 1⟩, ⟨R.SNAP_CTRL_CANCEL, 0, 1⟩, ⟨R.SNAP_AT, 0, 1⟩,
   ⟨R.SNAP_STAT_STATE, 0, 1⟩, ⟨R.SNAP_STAT_CAUSE, 0, 1⟩, ⟨R.SNAP_STAGE_PAGE, 0, 1⟩,
   ⟨R.SNAP_STAGE_COUNT, 0, 1⟩, ⟨R.SNAP_DEST, 0, 1⟩, ⟨R.SNAP_PEER, 0, 1⟩,
   ⟨R.SNAP_SHUTTER, 0, 1⟩, ⟨R.SNAP_PAGES, 0, 1⟩, ⟨R.SNAP_COPIED, 0, 1⟩,
   ⟨R.SNAP_TOUCHED, 0, 1⟩, ⟨R.SNAP_DRAINED, 0, 1⟩, ⟨R.SNAP_DESC_CORE_BASE 0, 16, 8⟩,
   ⟨R.SNAP_DESC_K 0, 16, 8⟩, ⟨R.SNAP_DESC_VALID 0, 16, 8⟩, ⟨R.SNAP_DESC_BASE 0, 16, 8⟩,
   ⟨R.SNAP_DESC_PAGES 0, 16, 8⟩]

/-- The block registers of a PAR page. -/
def rowsPar : List Row :=
  [⟨R.PAR_CFG_EN 0, 256, 4⟩, ⟨R.PAR_CFG_GM1 0, 256, 4⟩, ⟨R.PAR_CFG_RANK 0, 256, 4⟩,
   ⟨R.PAR_CFG_CHANNEL 0, 256, 4⟩, ⟨R.PAR_CFG_U 0, 256, 4⟩, ⟨R.PAR_SPAN_CORE_BASE 0, 256, 4⟩,
   ⟨R.PAR_SPAN_K 0, 256, 4⟩, ⟨R.PAR_BUF0 0, 256, 4⟩, ⟨R.PAR_BUF1 0, 256, 4⟩,
   ⟨R.PAR_STAT_STATE 0, 256, 4⟩, ⟨R.PAR_STAT_POISON 0, 256, 4⟩, ⟨R.PAR_STAT_LOST 0, 256, 4⟩,
   ⟨R.PAR_STAT_LEADER 0, 256, 4⟩, ⟨R.PAR_COMMIT 0, 256, 4⟩, ⟨R.PAR_REBUILD 0, 256, 4⟩,
   ⟨R.PAR_GENS 0, 256, 4⟩, ⟨R.PAR_REBUILDS 0, 256, 4⟩, ⟨R.PAR_POISON 0, 256, 4⟩,
   ⟨R.PAR_ROUTE_PORT 0 0, 4, 16⟩, ⟨R.PAR_ROUTE_PORT 1 0, 4, 16⟩, ⟨R.PAR_ROUTE_PORT 2 0, 4, 16⟩,
   ⟨R.PAR_ROUTE_PORT 3 0, 4, 16⟩, ⟨R.PAR_ROUTE_STREAM 0 0, 4, 16⟩, ⟨R.PAR_ROUTE_STREAM 1 0, 4, 16⟩]
  ++ [⟨R.PAR_ROUTE_STREAM 2 0, 4, 16⟩, ⟨R.PAR_ROUTE_STREAM 3 0, 4, 16⟩]

/-- The block registers of a RING page. -/
def rowsRing : List Row :=
  [⟨R.RING_SEL, 0, 1⟩, ⟨R.RING_CFG_EN, 0, 1⟩, ⟨R.RING_CFG_RESET, 0, 1⟩,
   ⟨R.RING_CFG_SIZE, 0, 1⟩, ⟨R.RING_CFG_SIGNAL, 0, 1⟩, ⟨R.RING_BASE, 0, 1⟩,
   ⟨R.RING_CQ, 0, 1⟩, ⟨R.RING_PROD, 0, 1⟩, ⟨R.RING_CONS, 0, 1⟩,
   ⟨R.RING_PEND, 0, 1⟩, ⟨R.RING_STAT_STATE, 0, 1⟩, ⟨R.RING_STAT_CAUSE, 0, 1⟩,
   ⟨R.RING_FLUSHED, 0, 1⟩, ⟨R.RING_WAIT_LIMIT, 0, 1⟩, ⟨R.RING_STALE_ACK, 0, 1⟩,
   ⟨R.RING_LATE_RESULT, 0, 1⟩, ⟨R.RING_CFG_IGNORED, 0, 1⟩, ⟨R.RING_PROD_SUM, 0, 1⟩,
   ⟨R.RING_CONS_SUM, 0, 1⟩, ⟨R.RING_PEND_SUM, 0, 1⟩, ⟨R.RING_PLATE_SEL, 0, 1⟩,
   ⟨R.RING_PLATE_STAT_STATE, 0, 1⟩, ⟨R.RING_PLATE_STAT_SET, 0, 1⟩, ⟨R.RING_PLATE_JOB, 0, 1⟩]
  ++ [⟨R.RING_PLATE_REGIONS, 0, 1⟩]

/-- The block registers of a page, by block type. -/
def Pg.rows : Pg → List Row
  | .glb => rowsGlb
  | .boot => rowsBoot
  | .safe => rowsSafe
  | .sec => rowsSec
  | .evt => rowsEvt
  | .ldg => rowsLdg
  | .apt => rowsApt
  | .thm => rowsThm
  | .pdn => rowsPdn
  | .twr => rowsTwr
  | .half => rowsHalf
  | .seam => rowsSeam
  | .rgn => rowsRgn
  | .shf => rowsShf
  | .ray => rowsRay
  | .brg => rowsBrg
  | .aba => rowsAba
  | .kvl => rowsKvl
  | .red => rowsRed
  | .snap => rowsSnap
  | .par => rowsPar
  | .ring => rowsRing

/-- TYPE of PG_IDENT (21 R539): shaft pages have one TYPE per tower. `i` is the device-wide instance. -/
def Pg.type (p : Pg) (i : Nat) : Nat :=
  match p with
  | .glb => 0x001 | .boot => 0x002 | .safe => 0x003 | .sec => 0x004 | .evt => 0x005 | .ldg => 0x006 | .apt => 0x007
  | .thm => 0x008 | .pdn => 0x010 | .twr => 0x020 | .half => 0x021 | .seam => 0x022 | .rgn => 0x023
  | .shf => 0x024 + i / 1088 | .ray => 0x030 | .brg => 0x031 | .aba => 0x032 | .kvl => 0x040 | .red => 0x041
  | .snap => 0x042 | .par => 0x043 | .ring => 0x044

/-- INSTANCE of PG_IDENT (21 R539). -/
def Pg.instance_ (p : Pg) (i : Nat) : Nat :=
  match p with
  | .shf => i % 1088
  | _ => i

/-- COUNT of PG_CAPS: instances of the block type in the device (21 R536, R539). -/
def Pg.count : Pg → Nat
  | .pdn => 106 | .twr => 4 | .half => 8 | .seam => 4 | .rgn => 64 | .shf => 4352 | .ray => 18 | .brg => 6
  | .red => 64 | _ => 1

/-- PG_CAPS.SRESET: every page but GLB, BOOT, SAFE, SEC, EVT and LDG (21 R537; entry 18). -/
def Pg.sreset : Pg → Bool
  | .glb => false | .boot => false | .safe => false | .sec => false | .evt => false | .ldg => false
  | _ => true

/-- SOURCE of an event record: PG_IDENT[31:8] (19 R506). -/
def Pg.source (p : Pg) (i : Nat) : Nat := p.type i * 4096 + p.instance_ i

/-- The page and device-wide instance that serve a 4 KiB page of the window (21 R534, R539). -/
def pageAt (n : Nat) : Option (Pg × Nat) :=
  if n < 8 then
    match n with
    | 0 => some (.glb, 0) | 1 => some (.boot, 0) | 2 => some (.safe, 0) | 3 => some (.sec, 0)
    | 4 => some (.evt, 0) | 5 => some (.ldg, 0) | 6 => some (.apt, 0) | _ => some (.thm, 0)
  else if 0x10 ≤ n ∧ n < 0x10 + 106 then some (.pdn, n - 0x10)
  else if 0x800 ≤ n ∧ n < 0x2800 then
    let t := (n - 0x800) / 0x800
    let k := (n - 0x800) % 0x800
    if k = 0 then some (.twr, t)
    else if k = 1 ∨ k = 2 then some (.half, t * 2 + (k - 1))
    else if k = 3 then some (.seam, t)
    else if 0x10 ≤ k ∧ k < 0x20 then some (.rgn, t * 16 + (k - 0x10))
    else if 0x100 ≤ k ∧ k < 0x100 + 1088 then some (.shf, t * 1088 + (k - 0x100))
    else none
  else if 0x2800 ≤ n ∧ n < 0x2812 then some (.ray, n - 0x2800)
  else if 0x2812 ≤ n ∧ n < 0x2818 then some (.brg, n - 0x2812)
  else if n = 0x2818 then some (.aba, 0)
  else if n = 0x2900 then some (.kvl, 0)
  else if 0x2901 ≤ n ∧ n < 0x2941 then some (.red, n - 0x2901)
  else if n = 0x2941 then some (.snap, 0)
  else if n = 0x2942 then some (.par, 0)
  else if n = 0x2943 then some (.ring, 0)
  else none

end Sys2Proof.Machine
end

