-- ==== Sys2Proof/Machine/StateHost.lean ====
section
/-! DEFINITION. The event records and queues (19 R506 to R508, 18 R492), the Abaes endpoint (15 R432 to R442) and the
actions that wait for the next tick (00 R6, R7; 21 R537). Plain data. -/
namespace Sys2Proof.Machine

/-- An event record (19 R506). `src` is SOURCE; `pg` and `inst` name the recording page; `tag` is JOB_TAG. -/
structure ERec where
  ev : Ev
  pg : Pg
  inst : Nat
  startup : Bool
  forced : Bool
  frame : Nat
  tb : Nat
  count : Nat
  tag : Nat
  deriving DecidableEq, Repr

/-- SOURCE of a record. -/
def ERec.src (r : ERec) : Nat := r.pg.source r.inst

/-- The event state: records open in this exposure and raises that PG_EVT_EN disables, the four device queues, the four
overflow records, the start-up buffer and whether it overflowed. `next` and `silentNext` are the raises of a fix window,
which belong to the exposure that it opens (19 R506). -/
structure EvtSt where
  opn : List ERec
  silent : Nat
  next : List ERec
  silentNext : Nat
  queues : SMap (List ERec)
  overflow : SMap ERec
  startup : List ERec
  startupLost : Nat
  deriving DecidableEq, Repr

def EvtSt.init : EvtSt := ⟨[], 0, [], 0, [], [], [], 0⟩

/-- A packet that the device sends (15 R433). -/
inductive AbaPkt where
  | regCpl (tag status : Nat) (words : List Nat)
  | memCpl (tag status frame : Nat) (data : List Byte)
  | dmaRd (tag addr len : Nat)
  | dmaWr (addr : Nat) (data : List Byte)
  | signal (num count frame : Nat)
  | credit
  | ackOnly
  | nak (code seq : Nat)
  | replayReq (seq : Nat)
  deriving DecidableEq, Repr

/-- A packet of the replay buffer: its first SEQ, its flits, and the credits that it returned. -/
structure AbaKept where
  seq : Nat
  n : Nat
  crd : Nat
  pkt : AbaPkt
  deriving DecidableEq, Repr

/-- A packet that left: its first SEQ (of sequenced types), the credits that it returned, and its flits as they went. -/
structure AbaSent where
  seq : Option Nat
  crd : Nat
  pkt : AbaPkt
  flits : List RayWords
  deriving DecidableEq, Repr

/-- What a DMA read is for (15 R438, R439). -/
inductive DmaFor where
  | entries (ring first count : Nat)
  | entry (ring idx : Nat)
  | recovery (pass : Nat)
  deriving DecidableEq, Repr

/-- An outstanding DMA read. -/
structure DmaRd where
  tag : Nat
  addr : Nat
  len : Nat
  purpose : DmaFor
  deriving DecidableEq, Repr

/-- A register request: words written from a window offset, or a read of words that answers a tag (15 R435). -/
inductive RegReq where
  | write (addr : Nat) (data : List Nat)
  | read (tag addr words : Nat)
  deriving DecidableEq, Repr

/-- A register request that waits: a doorbell write until the memory writes before it have been served, and every request
behind it (15 R437). -/
structure HeldReg where
  waits : List Nat
  req : RegReq
  deriving DecidableEq, Repr

/-- The Abaes endpoint: the next sequence number to send and the next expected, the replay buffer, packets waiting for credits
or for the link, packets that left in this exposure, credits to return, what the adapter has been told is received,
outstanding host requests by tag (true for a memory write), DMA reads and the next tag, register requests that wait, signals
per number (sent in this exposure; held), violations of the window, when it retrained, whether a retrain is deferred, and the
width being tried (code of ABA_STAT). -/
structure Aba where
  txSeq : Nat
  rxSeq : Nat
  replay : List AbaKept
  txq : List AbaPkt
  out : List AbaSent
  owed : Nat
  acked : Nat
  reqs : List (Nat × Bool)
  dmas : List DmaRd
  dmaTag : Nat
  held : List HeldReg
  sent : List Nat
  sigHeld : SMap Nat
  viol : Nat
  retrains : List Nat
  deferred : Bool
  width : Nat
  deriving DecidableEq, Repr

def Aba.init : Aba :=
  { txSeq := 0, rxSeq := 0, replay := [], txq := [], out := [], owed := 0, acked := 0, reqs := [], dmas := [], dmaTag := 0, held := [],
    sent := [], sigHeld := [], viol := 0, retrains := [], deferred := false, width := 0 }

/-- The timers whose expiry is a command (01 R54, R371 and the chapters that name them), with what it concerns. -/
inductive Timer where
  | viewHold
  | hotExit (tower : Nat)
  | shadowHold (tower layer quadrant : Nat)
  | thmRecover (half : Nat)
  | wakeRetry (domain : Nat) (w : WakeSense)
  | wakeLimit (domain : Nat)
  | collectiveHold
  | leaderLost (ch : Nat)
  | redTimeout (ch : Nat) (w : RedWait)
  | parLoss (group rank : Nat)
  | ringWait (ring : Nat)
  | rayTrainLimit (port : Nat)
  | rayTrainRetry (port : Nat)
  | abaTrainLimit
  | abaTrainRetry
  | abaAckLimit
  | dma (tag : Nat)
  | syncLoss
  | rejoin
  deriving DecidableEq, Repr

/-- An action that the next tick makes (00 R6, R7; 01 R49; 21 R537); `expire`: a timer that expired in Dim (18 R501). -/
inductive TickAct where
  | write (pg : Pg) (inst off lo w val : Nat)
  | softReset (pg : Pg) (inst : Nat)
  | viewHold (on : Bool)
  | fence (core cause : Nat)
  | reseat (tower half row : Nat)
  | reseatDone (tower half row : Nat)
  | ringReset (ring : Nat)
  | ringOff (sev : Nat)
  | redUnfence (ch : Nat)
  | rwClr (region sets : Nat)
  | stopPlate (plate status cause : Nat)
  | unload (plate : Nat)
  | debugOn (level : Nat)
  | ownerSet
  | sleepDim
  | sleepDark
  | halfLost (half row col : Nat)
  | wakeDone (region : Nat)
  | expire (t : Timer)
  deriving DecidableEq, Repr

end Sys2Proof.Machine
end

