-- ==== Sys2Proof/Machine/StateKv.lean ====
section
/-! DEFINITION. The KV page ledger's state (09 R271 to R301). Plain data. -/
namespace Sys2Proof.Machine

/-- The operations of the ledger (09 R284). -/
inductive KvOp where
  | open_ | append | fix | clear | fork | free | fadeq | refill | fadehit | quota | stat
  deriving DecidableEq, Repr

/-- The class of a frame that is not FREE (09 R288, R299). -/
inductive KvCls where
  | live | latent | faded
  deriving DecidableEq, Repr

/-- A frame that has left FREE: its pool, the holder charged, its class, whether it is a table frame, its reference count (0
also for a copy that no entry points at yet), and, once it is releasing, the number below which every table write must have been
served. -/
structure KvFrame where
  pool : Nat
  holder : Nat
  cls : KvCls
  table : Bool
  refs : Nat
  rel : Option Nat
  deriving DecidableEq, Repr

/-- A block of a sequence: its core, the pages of its frames there, whether it has entries in the core's table, its class
(09 R276, R279). A block that a fence faded has none: it is recorded only in the fade list (09 R273). -/
structure KvBlk where
  core : Nat
  pages : List Nat
  inTab : Bool
  cls : KvCls
  deriving DecidableEq, Repr

/-- A sequence's local table on one core: levels, and node pages by level × 2^40 + index (09 R278, R279). -/
structure KvTab where
  levels : Nat
  nodes : SMap Nat
  deriving DecidableEq, Repr

/-- A sequence (09 R275 to R277): `last` is the tick at which a command naming it last took effect; `closing` until its
index may be reused. -/
structure KvSeq where
  gen : Nat
  holder : Nat
  base : Nat
  w : Nat
  fixed : Nat
  lat : Nat
  last : Nat
  blks : SMap KvBlk
  tabs : SMap KvTab
  closing : Bool
  deriving DecidableEq, Repr

/-- A fade-list record (09 R295). -/
structure KvFade where
  idx : Nat
  start : Nat
  len : Nat
  deriving DecidableEq, Repr

/-- A write of the engine to a core's memory (09 R286). -/
structure KvWrite where
  num : Nat
  core : Nat
  addr : Nat
  data : List Byte
  deriving DecidableEq, Repr

/-- A request received (09 R286): the timebase at its receipt, its rank among those of one timebase tick (the host's 0, a
window's 1 + its core), and whether it was deferred. -/
structure KvIn where
  time : Nat
  rank : Nat
  late : Bool
  req : KvReq
  deriving DecidableEq, Repr

/-- A response waiting for its writes to be served (09 R286). -/
structure KvResp where
  src : KvSrc
  op : Nat
  status : Nat
  tag : Nat
  word1 : Nat
  res0 : Nat
  res1 : Nat
  applied : Nat
  after : Nat
  deriving DecidableEq, Repr

/-- What a frame is needed for: frame j of a new block, a table node, or the copy of frame j of a shared block
(09 R287, R292). -/
inductive KvUse where
  | data (b j : Nat)
  | node (key : Nat)
  | copy (b j : Nat)
  deriving DecidableEq, Repr

/-- A frame needed on a core, in a bank column if it is a copy. -/
structure KvNeed where
  core : Nat
  bank : Option Nat
  use : KvUse
  deriving DecidableEq, Repr

/-- What a command waits for (09 R286, R287, R292): the one before it for its handle; the release of faded frames, once the
writes below a number are served; its copies, whose COPY commands are `issued` and then have all ended (`ready`); `faded`: it has
waited for faded frames. -/
inductive KvStage where
  | held
  | fading (after : Nat)
  | copying (faded issued ready : Bool)
  deriving DecidableEq, Repr

/-- A command that waits; `got` are the pages reserved or taken for its needs. -/
structure KvWait where
  req : KvReq
  stage : KvStage
  got : List (KvNeed × Nat)
  deriving DecidableEq, Repr

/-- What a round of the sorter waits for (09 R301): the lengths to be written; its Darkroom commands; its table to be
written. -/
inductive KvSort where
  | lengths (after : Nat)
  | sorting
  | table (after : Nat)
  deriving DecidableEq, Repr

/-- A round of the length bucket sorter (09 R300, R301): its sampling frame, its area, NB, and the handles sampled, by index,
with their handle words. -/
structure KvRound where
  gen : Nat
  area : Nat
  core : Nat
  buckets : Nat
  handles : List (Nat × Nat)
  stage : KvSort
  deriving DecidableEq, Repr

/-- The page ledger's engine. `resv` are frames that waiting commands hold; `moved` the frames that changed class at the tick
under way (09 R298); `ins` the requests received and not yet taken; `backs` cores whose frames return to their pools once the
writes below the number given are served; `retired` the cores whose frames have left their pools. -/
structure Kv where
  seqs : SMap KvSeq
  gens : SMap Nat
  frames : SMap KvFrame
  resv : List Nat
  moved : List Nat
  fades : List KvFade
  writes : List KvWrite
  nextWrite : Nat
  unserved : List Nat
  resps : List KvResp
  waits : List KvWait
  ins : List KvIn
  tails : SMap Nat
  retired : List Nat
  backs : List (Nat × Nat)
  round : Option KvRound
  deriving DecidableEq, Repr

def Kv.init : Kv :=
  { seqs := [], gens := [], frames := [], resv := [], moved := [], fades := [], writes := [], nextWrite := 0, unserved := [],
    resps := [], waits := [], ins := [], tails := [], retired := [], backs := [], round := none }

end Sys2Proof.Machine
end

