-- ==== Sys2Proof/Machine/StatePlate.lean ====
section
/-! DEFINITION. Plates, jobs, rings and result slots (14 R397 to R424), and the flits of the package fabric
(06 R189 to R208). Plain data. -/
namespace Sys2Proof.Machine

/-- A flit: VALID, POISON, the lagged destination, 128 bytes (06 R189); `loose`: the loose message that it carries over a
seam or bridge (06 R213). -/
structure Flit where
  valid : Bool
  poison : Bool
  dslot : Nat
  dcol : Nat
  data : Line
  loose : Option Nat
  deriving DecidableEq, Repr

/-- An empty flit (06 R193). -/
def Flit.none : Flit := ⟨false, false, 0, 0, 0, Option.none⟩
/-- A poison flit (06 R193). -/
def Flit.bad : Flit := ⟨true, true, 0, 0, 0, Option.none⟩

/-- A flit on a bridge: sequence number, the tap it was injected at (06 R202, R203). -/
structure BrgFlit where
  seq : Nat
  tap : Nat
  flit : Flit
  deriving DecidableEq, Repr

/-- One direction of a bridge: the send queue, the sender's next sequence number, the number expected at the landing end,
the landing queue, and unrepaired data groups (06 R206, R208). -/
structure BrgDir where
  sendq : List BrgFlit
  next : Nat
  expect : Nat
  landq : List BrgFlit
  broken : List Nat
  deriving DecidableEq, Repr

def BrgDir.init : BrgDir := ⟨[], 0, 0, [], []⟩

/-- The delay trims of the shafts' lanes and the bridges' wires (02 R67 to R69; 06 R208), by lane key (position × 2,272 +
lane) or wire key: whether lanes and wires have been trained; the trims that re-tuning moved; lanes whose pattern failed at
their last re-tune; lanes that have failed; spares in use. -/
structure Tuning where
  lanes : Bool
  wires : Bool
  trims : SMap Nat
  suspect : List Nat
  dead : List Nat
  spares : List Nat
  deriving DecidableEq, Repr

def Tuning.init : Tuning := ⟨false, false, [], [], [], []⟩

/-- The package fabric: flits on mesh wires by (router × 8 + input port) × 4,096 + cycle, the seam crossing queues by
(tower × 64 + row × 2 + direction), bridge directions by (bridge × 2 + direction), seam crossings of this exposure, the
loose messages under way by destination core and the number of the next one, the groups re-tuned last, the trims, the shafts'
repair groups with an unrepaired lane by position, and the lane group that the host sees. -/
structure Fabric where
  wires : SMap Flit
  seams : SMap (List Flit)
  brgs : SMap BrgDir
  crossings : SMap Nat
  loose : List (Nat × LooseMsg)
  looseNext : Nat
  retune : Option Nat
  retuneB : Option Nat
  tune : Tuning
  broken : List (Nat × Nat)
  shown : Nat
  deriving DecidableEq, Repr

def Fabric.init : Fabric := ⟨[], [], [], [], [], 0, none, none, Tuning.init, [], 0⟩

/-- A region record of a plate (14 R399). -/
structure RegionRec where
  region : Nat
  cycles : Nat
  bd : Nat
  bs : Nat
  requests : Nat
  k : Nat
  ar : Nat
  deriving DecidableEq, Repr

/-- A route-schedule entry (06 R190). -/
structure RouteEntry where
  cycle : Nat
  inp : Nat
  out : Nat
  slot : Nat
  dcol : Nat
  phase : Nat
  ext4 : Nat
  deriving DecidableEq, Repr

/-- A plate image as the loader read it (14 R397 to R400). `cores` ascend; the per-core sections are listed by core, route
schedules by set × 4,096 + core, stream-table entries by set × 576 + port × 32 + stream. `tables` are the sets with stream
tables; `hops` counts the link hops of a stream (11 R334), `brgNeed` the width need by bridge (06 R205), `brgUse` the bridge
directions used, as bridge × 2 + direction, `rayNeed` the lanes a port must have (11 R337). -/
structure Image where
  loose : Bool
  training : Bool
  mirel : Bool
  hostSlot : Bool
  regions : Nat
  floor : Nat
  period : Nat
  retakeStep : Nat
  snapReserve : Nat
  retakeReserve : Nat
  routeSets : Nat
  looseM : Nat
  looseBase : Nat
  resultCore : Nat
  bundles : Nat
  constLines : Nat
  argLine : Nat
  entries : Nat
  shelf : Nat
  recs : List RegionRec
  cores : List Nat
  code : SMap (List (BitVec 128))
  consts : SMap (List Line)
  maps : SMap Nat
  starts : List (List Nat)
  routes : SMap (List RouteEntry)
  streams : SMap Nat
  tables : List Nat
  seamBudget : List Nat
  brgBudget : List Nat
  layers : List Byte
  holes : List Nat
  ledger : List Nat
  hops : SMap Nat
  brgNeed : SMap Nat
  brgUse : List Nat
  rayNeed : SMap Nat
  deriving DecidableEq, Repr

/-- A job under way (14 R405 to R408): staged until `begun`, then `fill` fill exposures are left, and `ready` once its cores
are prepared; `written`: its layer table is in place once the Darkroom's writes before this number are served; `slices` lit
slices ran; `stopping` says how it ends at the next tick: the entry status and the cause. It fills from frame `from_` on;
`first` is the frame of the first slice; `stops` are the STOP entries that wait for its end, by ring and index. -/
structure Job where
  tag : Nat
  entry : Nat
  slot : Option Nat
  seq : Nat
  seed : Nat
  args : Nat
  ring : Nat
  idx : Nat
  fill : Nat
  begun : Bool
  written : Nat
  ready : Bool
  slices : Nat
  from_ : Nat
  stops : List (Nat × Nat)
  first : Option Nat
  stopping : Option (Nat × Nat)
  deriving DecidableEq, Repr

/-- A job that has completed and whose record is to be written (14 R407, R416): status, cause, the completion tick's frame,
its energy in mJ. -/
structure EndedJob where
  job : Job
  status : Nat
  cause : Nat
  frame : Nat
  energy : Nat
  deriving DecidableEq, Repr

/-- How a plate number stands (14 R426). -/
inductive PlateSt where
  | free | loading | loaded | running
  deriving DecidableEq, Repr

/-- A plate number's state: the image, the ring entry that loads it, the exposure from which its regions are active, the
current job, the route set, LR_MULT and the scale exponents of its layers (05 R175). -/
structure Plate where
  st : PlateSt
  img : Option Image
  loader : Option (Nat × Nat × Nat)
  active : Option Nat
  job : Option Job
  ended : List EndedJob
  set : Nat
  oldSet : Nat
  lr : SMap Nat
  kNew : SMap Int
  kOld : SMap Int
  unload : Bool
  deriving DecidableEq, Repr

def Plate.free : Plate := ⟨.free, none, none, none, none, [], 0, 0, [], [], [], false⟩

/-- Plates that hold their regions. -/
def Plate.holds (k : Plate) : Bool := decide (k.st ≠ .free)

/-- A ring entry fetched and not yet complete (14 R412): `started` entries wait for their completion only; `held` ones were
held when last examined; `buf` are the bytes that a LOAD or SETLR has fetched. -/
structure REntry where
  idx : Nat
  op : Nat
  signal : Bool
  barrier : Bool
  tag : Nat
  plate : Nat
  entry : Nat
  slot : Nat
  noSlot : Bool
  addr : Nat
  length : Nat
  target : Nat
  args : Nat
  bad : Bool
  started : Bool
  held : Bool
  buf : List Byte
  deriving DecidableEq, Repr

/-- A ring (14 R411 to R419): the doorbell's latest value, the pending bit, the sampled bit and value, the next entry to
fetch, entries fetched and not complete, records written, whether it is faulted and held. -/
structure Ring where
  bell : Nat
  pend : Bool
  sampled : Bool
  value : Nat
  fetched : Nat
  queue : List REntry
  cons : Nat
  faulted : Option Nat
  reset : Bool
  deriving DecidableEq, Repr

def Ring.init : Ring := ⟨0, false, false, 0, 0, [], 0, none, false⟩

/-- STATE of a result slot (14 R420). -/
inductive SlotSt where
  | empty | latent | fixed | consumed
  deriving DecidableEq, Repr

def SlotSt.code : SlotSt → Nat
  | .empty => 0 | .latent => 1 | .fixed => 2 | .consumed => 3

/-- A result slot (14 R420 to R423): `read` once its STATUS has been read while FIXED. -/
structure RSlot where
  st : SlotSt
  seq : Nat
  read : Bool
  noResult : Bool
  poison : Bool
  tag : Nat
  frame : Nat
  data : BitVec 896
  deriving DecidableEq, Repr

/-- At reset every slot is CONSUMED with SEQ 0 (14 R420). -/
def RSlot.init : RSlot := ⟨.consumed, 0, false, false, false, 0, 0, 0⟩

/-- The frame sequencer (14 R409, R414; 01 R44): the regions whose staging for an exposure an invalidation cleared, as
(region, exposure), and the ring serviced last. -/
structure Sequencer where
  dark : List (Nat × Nat)
  lastRing : Nat
  deriving DecidableEq, Repr

/-- Ring 0 is serviced first (entry 8). -/
def Sequencer.init : Sequencer := ⟨[], 65535⟩

end Sys2Proof.Machine
end

