-- ==== Sys2Proof/Machine/StatePower.lean ====
section
/-! DEFINITION. What the Aperture controller, the thermal control, start-up, the safelight and the security functions hold
beside their registers (16 R447 to R466; 17 R472 to R482; 18 R486 to R502; 19 R514 to R517; 20 R519 to R531). Plain
data. -/
namespace Sys2Proof.Machine

/-- The Aperture controller (16 R448 to R464): the last power samples in W, newest first; the timebase at which the last
change of the operating point came into force, and whether one waits for its length; consecutive samples above the cap at k =
15; by half, the stop whose voltage is in force, the stop being ramped to, and the stop whose ramp ended in the fix window;
halves in breach of their floor; whether a broken fixed mode has been raised; whether a run of forced dark frames lasts;
PWR_BRAKE# sampled asserted, and the frames at which an assertion and a release act; droop ceilings by half and those of the
next tick; the carried energy fraction in nJ; µJ by job tag, the completed tags held, newest first, and the host's view of the
tags' energies. -/
structure Apt where
  samples : List Nat
  moved : Nat
  waiting : Bool
  excess : Nat
  volt : SMap Nat
  ramp : SMap Nat
  late : SMap Nat
  breach : List Nat
  broken : Bool
  forced : Bool
  pin : Bool
  brakeOn : Option Nat
  brakeOff : Option Nat
  droop : SMap Nat
  droopNext : SMap Nat
  frac : Nat
  energy : SMap Nat
  done : List Nat
  seen : SMap Nat
  deriving DecidableEq, Repr

def Apt.init : Apt :=
  { samples := [], moved := 0, waiting := false, excess := 0, volt := [], ramp := [], late := [], breach := [], broken := false,
    forced := false, pin := false, brakeOn := none, brakeOff := none, droop := [], droopNext := [], frac := 0, energy := [],
    done := [], seen := [] }

/-- The energies that an exposure's tick measured, kept for 10 ms: the timebase, µJ by domain, and the bytes that the shafts
moved in it by tower × 4 + quadrant (17 R475, R476). -/
structure HeatSample where
  at_ : Nat
  energy : SMap Nat
  bytes : SMap Nat
  deriving DecidableEq, Repr

/-- Thermal control (17 R473 to R482): shadow temperatures in µ°C by (tower × 32 + layer × 4 + quadrant); layer-quadrants
whose difference is above 8 °C, those at or below 4 °C, those in disagreement; precaution ceilings by half; the ceilings
that throttling set; halves in a run of throttling; halves held at S3; towers that enter and leave hot refresh at the next
tick (bits); THERMTRIP#; the energies of the last 10 ms, and the bytes that the shafts have moved in this exposure. -/
structure Therm where
  shadow : SMap Int
  high : List Nat
  low : List Nat
  dis : List Nat
  prec : SMap Nat
  base : SMap Nat
  runs : List Nat
  blind : List Nat
  hotIn : Nat
  hotOut : Nat
  trip : Bool
  heat : List HeatSample
  bytes : SMap Nat
  deriving DecidableEq, Repr

def Therm.init : Therm := ⟨[], [], [], [], [], [], [], [], 0, 0, false, [], []⟩

/-- A requested test under way (18 R498): its code, the towers, whether it forces dark frames, the next unit, whether one
has failed, whether it is cancelled at the next tick. -/
structure Test where
  code : Nat
  towers : Nat
  force : Bool
  unit : Nat
  fails : Bool
  cancelled : Bool
  deriving DecidableEq, Repr

/-- A recovery load under way (21 R542): target, whether over SMBus, pass, the length, the bytes fetched. -/
structure RecLoad where
  user : Bool
  smbus : Bool
  pass : Nat
  len : Nat
  buf : List Byte
  first : List Byte
  deriving DecidableEq, Repr

/-- Start-up and sleep (18 R486 to R502; 21 R542): fused maximum stops by physical core; skips that take effect at release as
(half-row, physical column); reset values from the configuration image by field key; images that recovery loads programmed;
the timebase at which the phase began; whether SAFELIGHT has run; the kind of start-up's frame to continue from; a test; a
recovery load; ALERT# of a failed safelight; whether EVT_SHEET_HELD has been raised; MOD_RESET# asserted; the module powered;
whether ticks run (a FATAL event in service leaves them running, 19 R518); waiting for a leader's first edge; BOOT_PEER_WAIT
has expired with no leader heard, which leaves the device alone (18 R496); logical cores that become holes at release, each
with its fence cause; a wake source ended Dark; TRAIN's work has started; whether the shift maps are loaded (02 R72); whether
the flash programs without an error. -/
structure Boot where
  stops : SMap Nat
  skips : List (Nat × Nat)
  cfg : SMap Nat
  fw : Option (List Byte)
  user : Option (List Byte)
  phaseAt : Nat
  alive : Bool
  resume : Option Nat
  test : Option Test
  rl : Option RecLoad
  alert : Bool
  heldSaid : Bool
  reset : Bool
  powered : Bool
  ticks : Bool
  edge : Bool
  peerOver : Bool
  holes : List (Nat × Nat)
  woken : Bool
  trained : Bool
  mapped : Bool
  partOk : Bool
  deriving DecidableEq, Repr

def Boot.init : Boot :=
  { stops := [], skips := [], cfg := [], fw := none, user := none, phaseAt := 0, alive := false, resume := none, test := none,
    rl := none, alert := false, heldSaid := false, reset := false, powered := true, ticks := false, edge := false, peerOver := false, holes := [], woken := false,
    trained := false, mapped := false, partOk := true }

/-- An evacuation under way (19 R517): half, row, source and destination columns and addresses, granules, granules done. -/
structure Evac where
  half : Nat
  row : Nat
  src : Nat
  dst : Nat
  saddr : Nat
  daddr : Nat
  len : Nat
  done : Nat
  deriving DecidableEq, Repr

/-- One-time-programmable bits (20 R521 to R523). -/
structure Otp where
  revoked : Nat
  minSvn : Nat
  owner : Option Nat
  spoiled : Bool
  deriving DecidableEq, Repr

/-- An SPDM connection of one endpoint (20 R528): how far it has come (0 none, 1 version, 2 capabilities, 3 algorithms), and
its transcript. -/
structure Spdm where
  stage : Nat
  script : List Byte
  deriving DecidableEq, Repr

/-- What the responder answers (20 R525 to R527): its endpoint, and the content of the reply. -/
inductive SpdmBody where
  | version
  | capabilities (flags exponent : Nat)
  | algorithms
  | digests (chain : Nat)
  | certificate (off len : Nat)
  | challenge (summary sig : Nat)
  | measurements (blocks : List (Nat × Nat)) (sig : Option Nat)
  | error (code : Nat)
  deriving DecidableEq, Repr

/-- The security functions (20 R519 to R531): the OTP bits; the revocation bits and minimum SVN that this start-up
uses; the index of the running image's key; the live nonce; the
digests of measurements 1 to 5; connections and last replies by endpoint (0 mailbox, 1 SMBus). -/
structure Sec where
  otp : Otp
  revoked : Nat
  minSvn : Nat
  key : Nat
  nonce : Option Nat
  meas : SMap Nat
  conns : SMap Spdm
  replies : SMap SpdmBody
  deriving DecidableEq, Repr

def Sec.init : Sec := ⟨⟨0, 0, none, false⟩, 0, 0, 0, none, [], [], []⟩

end Sys2Proof.Machine
end

