-- ==== Sys2Proof/Machine/StateRay.lean ====
section
/-! DEFINITION. The Ray ports (11 R323 to R353) and the sync group (01 R19 to R24; 11 R339 to R343). Plain data. -/
namespace Sys2Proof.Machine

/-- Flit classes (11 R325). -/
inductive RCls where
  | slot | red | array | ctrl
  deriving DecidableEq, Repr

def RCls.code : RCls → Nat
  | .slot => 0 | .red => 1 | .array => 2 | .ctrl => 3

/-- Darkroom management messages (11 R326; 12 R363, R376; 13 R383 to R385): the channel or group, and the message. -/
inductive Mgmt where
  | ident (dev port role : Nat)
  | sealMsg (ch rank seq word0 : Nat)
  | roster (ch : Nat) (m : RosterMsg)
  | pull (ch : Nat) (m : PullMsg)
  | check (ch rank seq : Nat) (pass : Bool)
  | verdict (ch seq : Nat) (v : RedVerdict)
  | lost (ch seq rank : Nat)
  | capNotice (ch rank cap frame : Nat)
  | cleared (g rank gen : Nat)
  | done (g rank gen : Nat)
  | commit (g gen : Nat)
  | rebuild (g gen : Nat)
  | parPull (g rank unit seg : Nat)
  deriving DecidableEq, Repr

/-- What a Ray flit carries (11 R326): a mesh flit (DATA, or EMPTY if not valid), a segment header (12 R367), and the
other types. -/
inductive RBody where
  | mesh (f : Flit)
  | segHdr (first rank kind tag seq seg : Nat)
  | desc (d : ArrDesc)
  | arr (d : Line) (poison : Bool)
  | mark (src epoch : Nat)
  | credit
  | mgmt (m : Mgmt)
  | ackOnly
  | nak (code seq : Nat)
  | replayReq (first : Nat)
  | beacon (m : BeaconMsg)
  deriving DecidableEq, Repr

/-- A flit to send: class, stream at the receiving port, LAG_TAG (none: its first departure is still to come), body. -/
structure RFlit where
  cls : RCls
  stream : Nat
  tag : Option Nat
  body : RBody
  deriving DecidableEq, Repr

/-- A flit on the wires: SEQ (of sequenced types), ACK, CRD, what it carries, and its header and payload. -/
structure RSent where
  seq : Option Nat
  ack : Nat
  crd : Nat
  flit : RFlit
  words : RayWords
  deriving DecidableEq, Repr

/-- A flit held for release (11 R334): its stream, the frame in which it is due, and the mesh flit. -/
structure RxFlit where
  red : Bool
  stream : Nat
  due : Nat
  flit : Flit
  deriving DecidableEq, Repr

/-- A transit flit waiting at its outgoing port: the port whose buffer holds it, the frame in which it leaves. -/
structure TxTransit where
  inPort : Nat
  due : Nat
  flit : RFlit
  deriving DecidableEq, Repr

/-- An array transfer whose data are arriving: the descriptor (none while a bad one is discarded), data flits still to
come, granules already passed on. -/
structure ArrCur where
  desc : Option ArrDesc
  left : Nat
  at_ : Nat
  deriving DecidableEq, Repr

/-- One Ray port: sequence numbers, the replay buffer oldest first as (SEQ, CRD, flit) and how many of its newest flits are to
be sent again, flits waiting by kind, credits to return, the SLOT flits held for release, the number of RED flits held for the
channels and those of them not yet joined to a segment, by stream, array flits in arrival order, the transfer arriving and the
one being fed by plates (data flits to come), occupancy by class, releases that found no flit as (stream, frame), violations
of the window and whether the port starved throughout it, when it retrained, the last epoch closed, marks waiting for their
transfers as (cell, epoch, number), whether it has trained since its last full training, the flit on its wires, and the role
its partner said at training. -/
structure RayPort where
  txSeq : Nat
  rxSeq : Nat
  replay : List (Nat × Nat × RFlit)
  resend : Nat
  ctl : List RFlit
  sendq : List RFlit
  arrq : List RFlit
  transit : List TxTransit
  owed : Nat
  rx : List RxFlit
  redHeld : Nat
  redq : List (Nat × Flit)
  rxArr : List RFlit
  cur : Option ArrCur
  feed : Nat
  occMain : Nat
  occRed : Nat
  missed : List (Nat × Nat)
  viol : Nat
  starved : Bool
  retrains : List Nat
  epoch : Nat
  marks : List (Nat × Nat × Nat)
  known : Bool
  wire : Option RSent
  prole : Nat
  deriving DecidableEq, Repr

def RayPort.init : RayPort :=
  { txSeq := 0, rxSeq := 0, replay := [], resend := 0, ctl := [], sendq := [], arrq := [], transit := [], owed := 0, rx := [],
    redHeld := 0, redq := [], rxArr := [], cur := none, feed := 0, occMain := 0, occRed := 0, missed := [], viol := 0, starved := false,
    retrains := [], epoch := 0, marks := [], known := false, wire := none, prole := 0 }

/-- What a group agrees on for a frame: its length in 10 ns units, its dark ratio, and whether a test of a member forces
frames (01 R20; 16 R453; 18 R498). -/
structure Agreed where
  len : Nat
  k : Nat
  test : Bool
  deriving DecidableEq, Repr

/-- The sync group: this device's latest proposal, lengths adopted by group frame (01 R20), the largest proposals by group
frame at a leader or on the way to it, the swap armed and the frame of the last swap (11 R338), the last beacon's frame and
the delay of its tick, whether a SHUTTER edge or beacon has been heard since start-up, the number of the next array transfer,
and the pulse that SHUTTER_OUT gave at the last tick, in ns (11 R339; 0: held low). -/
structure Sync where
  own : Agreed
  adopted : SMap Agreed
  proposals : SMap Agreed
  swapAt : Option Nat
  swapped : Option Nat
  beacon : Option Nat
  delay : Nat
  heard : Bool
  xfer : Nat
  shutter : Nat
  deriving DecidableEq, Repr

def Sync.init : Sync := ⟨⟨100, 0, false⟩, [], [], none, none, none, 0, false, 0, 0⟩

/-- Values of the configuration image that no register holds (18 R495, 20): the identity, SYNC_LEVEL, the SMBus address,
SHEET_PARTNER by port. -/
structure ImgVals where
  devId : Nat
  level : Nat
  smbAddr : Nat
  partners : SMap Nat
  deriving DecidableEq, Repr

def ImgVals.init : ImgVals := ⟨0, 0, 0, []⟩

end Sys2Proof.Machine
end

