-- ==== Sys2Proof/Machine/StateRed.lean ====
section
/-! DEFINITION. Reduction channels (12 R356 to R377) and parity groups (13 R379 to R386). Plain data. -/
namespace Sys2Proof.Machine

/-- A sampled element of the mirror check (12 R372, R373): the exact sum and the exact sum of magnitudes, in units of
2^−149, and whether the sample is skipped. -/
structure Mirror where
  sum : Int
  mags : Nat
  skip : Bool
  deriving DecidableEq, Repr

/-- How far a bucket has come at this member (12 R363). -/
inductive RedPhase where
  | sealed | apply | check | spread
  deriving DecidableEq, Repr

/-- A bucket sealed and not yet complete (12 R358 to R373): its seal's index, window core and words; the ranks of its roster,
of its first roster, and the ranks dropped from it; mismatches so far; by segment of this owner's shares how many ranks have
been passed to the shaft; contributions pulled (rank, segment), and those held; shares checked and whether one missed; the
samples by element; result segments passed to their shafts, those held for room and those under conversion; whether one is
poisoned; ranks dropped from distribution. -/
structure RedBkt where
  seq : Nat
  idx : Nat
  core : Nat
  w0 : Nat
  src : Nat
  acc : Nat
  res : Nat
  phase : RedPhase
  roster : Option Nat
  first : Nat
  dropped : Nat
  misses : Nat
  passed : SMap Nat
  pulls : List (Nat × Nat)
  held : List SegMsg
  checked : List Nat
  miss : Bool
  sent : Bool
  mirror : SMap Mirror
  got : List Nat
  resHeld : List SegMsg
  conv : List Nat
  poison : Bool
  gone : Nat
  tag : Nat
  deriving DecidableEq, Repr

/-- A channel: its open buckets in sequence order, seals and checks that reached it as leader by sequence number, sequence
numbers whose roster it has fixed, and rosters to be applied at the next tick. -/
structure RedChan where
  bkts : List RedBkt
  heard : SMap (List (Nat × Nat))
  checks : SMap (List (Nat × Bool))
  fixed : List Nat
  rosters : List RosterMsg
  deriving DecidableEq, Repr

def RedChan.init : RedChan := ⟨[], [], [], [], []⟩

/-- A parity group: the ranks present, the generation being formed and the ranks that cleared for it; whether this member's
parity unit is being cleared, or is cleared and said so; its seal (window core, index); the segments (rank, segment)
whose contributions arrived, those held for room; whether it said DONE; the ranks DONE at the leader; a commit for the
next tick; a rebuild for the next tick; the rebuild of this replacement: segments (rank, unit, segment) pulled and not
arrived, those still to pull, segments held; the rank whose pulls a survivor serves, and whether that rebuild has ended. -/
structure ParGrp where
  present : Nat
  gen : Nat
  cleared : List Nat
  clearing : Bool
  said : Bool
  posted : Option (Nat × Nat)
  sentTo : List Nat
  got : List (Nat × Nat)
  held : List SegMsg
  doneSaid : Bool
  dones : List Nat
  commit : Option Nat
  rebuildAt : Option Nat
  rebuild : Option Nat
  mine : Bool
  pulls : List (Nat × Nat × Nat)
  todo : List (Nat × Nat × Nat)
  rebHeld : List SegMsg
  newcomer : Option Nat
  back : Bool
  deriving DecidableEq, Repr

def ParGrp.init : ParGrp :=
  { present := 0, gen := 0, cleared := [], clearing := false, said := false, posted := none, sentTo := [], got := [], held := [],
    doneSaid := false, dones := [], commit := none, rebuildAt := none, rebuild := none, mine := false, pulls := [], todo := [],
    rebHeld := [], newcomer := none, back := false }

/-- The channels, the parity groups, the TAIL of each seal window and parity window by core, and the collective hold: the
buckets (channel, sequence number) open at the cap change (12 R375). -/
structure Red where
  chans : SMap RedChan
  groups : SMap ParGrp
  sealTails : SMap Nat
  parTails : SMap Nat
  hold : Option (List (Nat × Nat))
  deriving DecidableEq, Repr

def Red.init : Red := ⟨[], [], [], [], none⟩

end Sys2Proof.Machine
end

