-- ==== Sys2Proof/Machine/StateShaft.lean ====
section
/-! DEFINITION. What one shaft holds (01 R29; 07 R229, R234 to R240; 08 R259 to R267): the host queue, the near-memory
units' queues and running chunks, the inbound buffer, the checker run, the touch map. Plain data. -/
namespace Sys2Proof.Machine

/-- The windows in which plates post requests (09 R282; 12 R359; 13 R382). -/
inductive WinKind where
  | ledger | seal | parity
  deriving DecidableEq, Repr

/-- Who made an access of a host queue: the host; a numbered write of the Darkroom; an engine's read of a window (09 R282,
R286; 12 R359; 13 R382). -/
inductive HSrc where
  | host
  | engine (num : Nat)
  | window (k : WinKind)
  deriving DecidableEq, Repr

/-- An access to one aligned granule of 4 KiB (15 R436): reads return it whole; the last of a host read's completions
frees its tag. -/
structure HReq where
  src : HSrc
  tag : Nat
  write : Bool
  core : Nat
  addr : Nat
  len : Nat
  data : List Byte
  last : Bool
  deriving DecidableEq, Repr

/-- The operations of near-memory commands (08 R252, R253). -/
inductive NmOp where
  | add | mul | fma | axpby | scale | max | min | cmplt | cmpeq | xor | fill | copy | relu | gelu | silu | cvt
  | setlayout | plane | unplane | padd | psub | pcmplt | pcmplti | pand | por | pxor | pcount
  deriving DecidableEq, Repr

/-- A near-memory command as issued (08 R251). `stoch`: it rounds stochastically (08 R257, 05 R168). -/
structure NmCmd where
  op : NmOp
  fmt : Nat
  fmt2 : Nat
  rnd : Nat
  w1 : Nat
  dst : Nat
  srca : Nat
  srcb : Nat
  srcc : Nat
  count : Nat
  imm0 : Nat
  imm1 : Nat
  deriving DecidableEq, Repr

/-- A reduction's conversion (12 R368): word 0 of its draws, the first wire element, and the roster count by which a mean
is divided. -/
structure RedCvt where
  w0 : Nat
  first : Nat
  mean : Option Nat
  deriving DecidableEq, Repr

/-- Who issued a command, for its draws and its bound (08 R257, R262): the core (none for the Darkroom), the slice, the
ordinal of the slice, its plate's seed, the exposure of issue and K, the core's shaft requests that must be performed
first (08 R259), and the reduction whose conversion it is. -/
structure NmIssuer where
  core : Option Nat
  slice : Nat
  q : Nat
  seed : Nat
  stoch : Bool
  frame : Nat
  k : Nat
  after : Nat
  ord : Nat
  red : Option RedCvt
  deriving DecidableEq, Repr

/-- A granule that arrived from the fabric or a Ray port (08 R267); `tag` names the array transfer or reduction it belongs
to. -/
structure RGran where
  addr : Nat
  data : BitVec 256
  poison : Bool
  tag : Option (Nat × Nat)
  deriving DecidableEq, Repr

/-- A unit's queue entry: a command with the elements (or pages) done, or one remote chunk. `age` orders the entries of
all units of a shaft (08 R260). -/
inductive NmWork where
  | cmd (age : Nat) (c : NmCmd) (by_ : NmIssuer) (done : Nat) (abort : Bool)
  | remote (age : Nat) (kind : RemKind) (gs : List RGran)
  deriving DecidableEq, Repr

/-- A chunk in progress: its queue entry, the layers whose ports it holds, its elements (first, number), and whether it is
remote. -/
structure NmRun where
  age : Nat
  layers : List Nat
  first : Nat
  n : Nat
  remote : Bool
  deriving DecidableEq, Repr

/-- A checker run: the exposure in which no batch runs any more (that of the command or of the last batch), vectors per DRAM
decoder still to run, and failures so far (07 R237). -/
structure ChkRun where
  last : Option Nat
  left : Nat
  dram : Nat
  sram : Nat
  deriving DecidableEq, Repr

/-- One shaft. `slotNs` is the host-slot time used in this exposure in units of 1/252 ns, `slotGran` the 4 KiB granules
served in it; `lent`: the host slot of this exposure is the plate's (01 R32); `undo`: the units that host writes replaced in
this exposure, as the tick fixed them, with their poison (01 R30); `moved` the DRAM-path bytes of this exposure; `waits`:
commands that have not entered their unit's queue (08 R259); `remoteUsed` the remote port cycles of this exposure;
`inbox` granules of the inbound buffer; `fin` commands completed and
not yet at their reported tick (08 R262); `lost` once its control or both halves of a path failed (02 R69); `scrubs`: the
scrubber's next granule by layer, as page × 2,048 + granule; `scrubD` and `scrubS`: when it last read; `lapD` and `lapS`: when
the laps under way began (07 R239, R240). -/
structure Shaft where
  hostq : List HReq
  slotNs : Nat
  slotGran : Nat
  lent : Bool
  undo : SMap (List Byte × Bool)
  touch : Nat
  moved : Nat
  queues : SMap (List NmWork)
  waits : List (Nat × NmWork)
  runs : SMap NmRun
  age : Nat
  remoteUsed : Nat
  inbox : Nat
  fin : List NmWork
  check : Option ChkRun
  untrusted : Bool
  untrustedNext : Bool
  lost : Bool
  backs : List Nat
  scrubs : SMap Nat
  scrubD : Option Nat
  scrubS : Option Nat
  lapD : Option Nat
  lapS : Option Nat
  deriving DecidableEq, Repr

def Shaft.init : Shaft :=
  { hostq := [], slotNs := 0, slotGran := 0, lent := false, undo := [], touch := 0, moved := 0, queues := [], waits := [],
    runs := [], age := 0, remoteUsed := 0, inbox := 0, fin := [], check := none, untrusted := false, untrustedNext := false,
    lost := false, backs := [], scrubs := [], scrubD := none, scrubS := none, lapD := none, lapS := none }

/-- A range of memory keys in which what nothing has written since reads as zero (`free` none), or as the free value of
that number (07 R235; 20 R531); `sram`: only the stack SRAM in it. -/
structure Void where
  lo : Nat
  hi : Nat
  sram : Bool
  free : Option Nat
  deriving DecidableEq, Repr

/-- The first key after all of memory. -/
def memTop : Nat := 4352 * 2 ^ 29

/-- A descriptor of a snapshot set (13 R387): first core, cores, first page, pages on each core. -/
structure SnapDesc where
  base : Nat
  cores : Nat
  page : Nat
  pages : Nat
  deriving DecidableEq, Repr

/-- A page being copied or copied (13 R390 to R392): its stage slot, 4 KiB pieces copied, drained. -/
structure SnapPage where
  slot : Nat
  pieces : Nat
  drained : Bool
  deriving DecidableEq, Repr

/-- The snapshot (13 R387 to R392). `armed`: the low 32 bits of the group frame it starts at. `pages` is keyed by
core × 2,048 + page; `firsts` counts the first-write copies of this exposure by core. -/
structure Snap where
  armed : Option Nat
  on : Bool
  descs : List SnapDesc
  stage : Nat
  count : Nat
  pages : SMap SnapPage
  firsts : SMap Nat
  deriving DecidableEq, Repr

def Snap.init : Snap := ⟨none, false, [], 0, 0, [], []⟩

end Sys2Proof.Machine
end

