-- ==== Sys2Proof/Machine/State.lean ====
section
/-! DEFINITION. The whole state of the block, and its state right after a cold power-on. Plain data. -/
namespace Sys2Proof.Machine

/-- What stops the machine with a fault. -/
inductive Fault where
  /-- Raised by no command of this model: the spec gives every command an effect. Safe. -/
  | never
  deriving DecidableEq, Repr

/-- What has no meaning in the model. -/
inductive Refusal where
  /-- A command without a meaning in the model, by its mnemonic. Safe. -/
  | notModelled (mnemonic : String)
  deriving DecidableEq, Repr

/-- The device. `fences` lists the causes of the cores that are fenced,
`stretch` the stretches granted in ns by region (19 R516), `refRows` the refreshed rows of a
tower's layer by tower × 4 + layer, and `refAt` the exposure whose refresh has run (07 R241).
`late` are the actions received in a fix window, for the tick after (00 R7). -/
structure State where
  pending : List Instr
  free : Nat
  timebase : Nat
  tickBase : Nat
  regs : SMap Nat
  rof : SMap Nat
  view : SMap Nat
  seqRof : Nat
  seqView : Nat
  latches : SMap Nat
  lastEv : SMap Ev
  acts : List TickAct
  late : List TickAct
  evt : EvtSt
  aba : Aba
  mem : SMap Byte
  marks : SMap Bool
  voids : List Void
  shafts : SMap Shaft
  snap : Snap
  cores : SMap Core
  plates : SMap Plate
  rings : SMap Ring
  slots : SMap RSlot
  kv : Kv
  seqr : Sequencer
  fab : Fabric
  ray : SMap RayPort
  sync : Sync
  img : ImgVals
  red : Red
  apt : Apt
  therm : Therm
  boot : Boot
  evacs : SMap Evac
  fences : SMap Nat
  stretch : SMap Nat
  refRows : SMap Nat
  refAt : Option Nat
  sec : Sec
  deriving DecidableEq, Repr

/-- The device right after a cold power-on (18 R486, R489): V_AUX has just come into range, start-up stands before
SAFELIGHT, every register has the value that it resets to, and memory holds nothing known (07 R235, entry 2). -/
def State.reset : State :=
  { pending := [], free := 0, timebase := 0, tickBase := 0, regs := [], rof := [], view := [], seqRof := 0, seqView := 0,
    latches := [], lastEv := [], acts := [], late := [], evt := EvtSt.init, aba := Aba.init, mem := [], marks := [], voids := [⟨0, memTop, false, some 0⟩],
    shafts := [], snap := Snap.init, cores := [], plates := [], rings := [], slots := [], kv := Kv.init,
    seqr := Sequencer.init, fab := Fabric.init, ray := [], sync := Sync.init, img := ImgVals.init, red := Red.init,
    apt := Apt.init, therm := Therm.init, boot := Boot.init, evacs := [], fences := [], stretch := [], refRows := [],
    refAt := none, sec := Sec.init }

end Sys2Proof.Machine
end

