-- ==== Sys2Proof/Machine/Ops.lean ====
section
/-! DEFINITION. The named operations on the state that every family uses: register fields, events, numbering of cores and
positions, memory bytes, plate faults, the next tick's actions. -/
namespace Sys2Proof.Machine

/-- The outcome of a command. -/
abbrev Res := Host.Outcome State Fault Refusal

/-! ### Register fields -/

/-- The live value of a field of instance `i`. -/
def rd (f : Fld) (i : Nat) (s : State) : Nat := mgetD (f.key i) f.dflt s.regs

/-- A field set to the low bits of `v`. -/
def wr (f : Fld) (i v : Nat) (s : State) : State := { s with regs := mput (f.key i) (v % 2 ^ f.w) s.regs }

/-- A counter raised by `n`; it holds at its limit (21 R538). -/
def bump (f : Fld) (i n : Nat) (s : State) : State := wr f i (min (rd f i s + n) (2 ^ f.w - 1)) s

/-- A counter lowered by `n`. -/
def drop (f : Fld) (i n : Nat) (s : State) : State := wr f i (rd f i s - n) s

/-- Bits set in a field. -/
def orIn (f : Fld) (i v : Nat) (s : State) : State := wr f i (rd f i s ||| v) s

/-- A one-bit field as a Bool. -/
def flag (f : Fld) (i : Nat) (s : State) : Bool := decide (rd f i s ≠ 0)

/-- The number of the current exposure (01 R12, R24). -/
def State.frame (s : State) : Nat := rd R.GLB_FRAME 0 s

/-- A free value drawn (entry 1). -/
def State.fresh (s : State) : Nat × State := (Config.freeValue s.free, { s with free := s.free + 1 })

/-- Start-up is over: the device was released (18 R497) and is not in Dim. -/
def State.released (s : State) : Bool := decide (7 ≤ rd R.BOOT_STAT_STATE 0 s) && decide (rd R.BOOT_STAT_STATE 0 s ≤ 8)

/-- Ticks run: the device is released and not in Dim, or FAILED in service (19 R518). -/
def inService (s : State) : Bool := s.released || (decide (rd R.BOOT_STAT_STATE 0 s = 10) && s.boot.ticks)

/-- Time since the tick, in 10 ns. -/
def sinceTick (s : State) : Nat := s.timebase - s.tickBase

/-- The fix window has begun: the last 100 ns of the exposure (01 R11). -/
def inFix (s : State) : Bool := inService s && decide (rd R.GLB_EXP_CUR_LEN 0 s ≤ sinceTick s + 10)

/-- The host slot: the first 200 ns (01 R25, R29). -/
def inSlot (s : State) : Bool := decide (sinceTick s < 20)

/-- From 200 ns after the tick to the fix window: plate shaft writes, transfers and chunks (01 R25; 07 R224). -/
def inWindow (s : State) : Bool := decide (20 ≤ sinceTick s) && !inFix s

/-- The refresh interval: from 200 ns to 400 ns (01 R37). -/
def inRefresh (s : State) : Bool := decide (20 ≤ sinceTick s) && decide (sinceTick s < 40)

/-- What no fix window sees (01 R26). -/
def beforeFix (f : State → State) (s : State) : State := if inFix s then s else f s

/-- The exposure that something which happens now acts on: before the fix window the next one, else the one after (00 R7,
01 R44, 14 R409). -/
def actFrame (s : State) : Nat := s.frame + (if sinceTick s + 10 < rd R.GLB_EXP_CUR_LEN 0 s then 1 else 2)

/-- What happens only while ticks run. -/
def served (f : State → State) (s : State) : State := if inService s then f s else s

/-- What a Ray port does: from TRAIN on, and in Dim (18 R488, R499). -/
def linked (f : State → State) (s : State) : State :=
  if inService s || (decide (4 ≤ rd R.BOOT_STAT_STATE 0 s) && decide (rd R.BOOT_STAT_STATE 0 s ≤ 6))
    || decide (rd R.BOOT_STAT_STATE 0 s = 11) then f s else s

/-- An action queued for the next tick, behind those received before it; one received in the fix window waits for the tick
after (00 R7). -/
def later (a : TickAct) (s : State) : State :=
  if inFix s then { s with late := s.late ++ [a] } else { s with acts := s.acts ++ [a] }

/-! ### Numbering (02 R56 to R64) -/

def towerOf (c : Nat) : Nat := c / 1024
def halfOf (c : Nat) : Nat := c / 512
def rowOf (c : Nat) : Nat := c / 16 % 32
def colOf (c : Nat) : Nat := c % 16

/-- The logical core at half `h` (tower × 2 + half), row, logical column (02 R61). -/
def coreAt (h row col : Nat) : Nat := h * 512 + row * 16 + col

/-- Device-wide region of a core: four rows of a half (02 R61; 01 R18). -/
def regionOf (c : Nat) : Nat := halfOf c * 8 + rowOf c / 4

/-- The core within its region: row in region × 16 + logical column (03 R129). -/
def coreInRegion (c : Nat) : Nat := rowOf c % 4 * 16 + colOf c

/-- The logical core k of a region. -/
def regionCore (r k : Nat) : Nat := coreAt (r / 8) (r % 8 * 4 + k / 16) (k % 16)

/-- The 64 cores of a region, ascending. -/
def regionCores (r : Nat) : List Nat := (upFrom 0 64).map (regionCore r)

/-- The memory position of a logical core (02 R62, R64). -/
def posOf (c : Nat) : Nat := halfOf c * 544 + rowOf c * 17 + colOf c

/-- The logical core whose memory lies at a position; none for a spare position. -/
def coreOfPos (p : Nat) : Option Nat :=
  if p % 17 = 16 then none else some (p / 544 * 512 + p % 544 / 17 * 16 + p % 17)

/-- Index of a half-row's TWR_SHIFT in its tower's page (02 R79). -/
def shiftIdx (c : Nat) : Nat := halfOf c % 2 * 32 + rowOf c

/-! ### Events (00 R9, R10; 19 R506 to R509) -/

/-- Key of a page instance. -/
def pageKey (pg : Pg) (i : Nat) : Nat := pg.num * 65536 + i

/-- One more raise of an open record, or a new record (00 R10). -/
def addRec (r : ERec) : List ERec → List ERec
  | [] => [r]
  | a :: l =>
    if a.ev = r.ev ∧ a.pg = r.pg ∧ a.inst = r.inst ∧ a.forced = r.forced then { a with count := a.count + 1 } :: l
    else a :: addRec r l

/-- The start-up buffer holds the first 256 records; a later one joins a held record of its code and source, or is counted
in a final record (18 R492). -/
def addStartup (r : ERec) (e : EvtSt) : EvtSt :=
  if e.startup.length < 256 then { e with startup := e.startup ++ [{ r with startup := true, frame := 0 }] }
  else if e.startup.any (fun a => decide (a.ev = r.ev) && decide (a.src = r.src) && a.forced == r.forced) then
    { e with startup := addRec { r with startup := true } e.startup }
  else { e with startupLost := e.startupLost + 1 }

/-- An event's mark on its page: PG_EVT and PG_EVT_CNT (19 R509). -/
def evMark (e : Ev) (pg : Pg) (i : Nat) (s : State) : State :=
  let s := orIn (H.SEV pg) i (2 ^ e.sev.code) s
  let s := bump (H.EVT_CNT pg) i 1 s
  { s with lastEv := mput (pageKey pg i) e s.lastEv }

/-- The records of a severity are written (19 R509: DEGRADE and FATAL cannot be disabled). -/
def evOn (e : Ev) (pg : Pg) (i : Nat) (s : State) : Bool :=
  decide (2 ≤ e.sev.code) || (rd (H.EVT_EN pg) i s).testBit e.sev.code

/-- The record of a raise. -/
def evRec (e : Ev) (pg : Pg) (i tag : Nat) (forced : Bool) (s : State) : ERec :=
  ⟨e, pg, i, false, forced, s.frame, s.timebase, 1, tag⟩

/-- A record joins those of its exposure: a raise in the fix window counts in the next one (19 R506). -/
def fileRec (r : ERec) (fix : Bool) (e : EvtSt) : EvtSt :=
  if fix then { e with next := addRec { r with frame := r.frame + 1 } e.next } else { e with opn := addRec r e.opn }

/-- A raise that PG_EVT_EN disables counts in its exposure (19 R507, R509). -/
def fileSilent (fix : Bool) (e : EvtSt) : EvtSt :=
  if fix then { e with silentNext := e.silentNext + 1 } else { e with silent := e.silent + 1 }

/-- An event raised, with its record's job tag; `forced` through PG_EVT_FORCE. -/
def raiseRec (e : Ev) (pg : Pg) (i tag : Nat) (forced : Bool) (s : State) : State :=
  let r := evRec e pg i tag forced s
  let s := evMark e pg i s
  if !evOn e pg i s then { s with evt := fileSilent (inFix s) s.evt }
  else if rd R.BOOT_STAT_STATE 0 s < 7 then { s with evt := addStartup r s.evt }
  else { s with evt := fileRec r (inFix s) s.evt }

/-- No job is attributed (19 R506). -/
def noTag : Nat := 0xFFFFFFFF

/-- Every plate whose job is under way is stopped at the next tick (19 R518). -/
def stopAll (s : State) (status cause : Nat) : State :=
  s.plates.foldl (fun s p => if p.2.job.isSome then later (.stopPlate p.1 status cause) s else s) s

/-- A FATAL event in service: FAILED with cause IN_SERVICE_FATAL, and running jobs stop at the next tick (19 R518). -/
def fatal (s : State) : State :=
  if s.released then wr R.BOOT_STAT_CAUSE 0 5 (wr R.BOOT_STAT_STATE 0 10 (stopAll s 2 0)) else s

/-- An event raised by the device, with a job tag. -/
def raiseTag (e : Ev) (pg : Pg) (i tag : Nat) (s : State) : State :=
  let s := raiseRec e pg i tag false s
  if e.sev = .fatal then fatal s else s

/-- An event raised by the device. -/
def raise (e : Ev) (pg : Pg) (i : Nat) (s : State) : State := raiseTag e pg i noTag s

/-- `n` raises of one event in one exposure. -/
def raiseN (e : Ev) (pg : Pg) (i : Nat) : Nat → State → State
  | 0, s => s
  | n + 1, s => raiseN e pg i n (raise e pg i s)

/-! ### Ledgers (01 R50, R51; 21 R544) -/

/-- An identity fails: the first failure of all is recorded with its two sides, every one is counted and raised. -/
def ledgerFail (ledger inst left right : Nat) (s : State) : State :=
  let s := bump R.LDG_FAIL_CNT 0 1 s
  let s := if flag R.LDG_FAIL_VALID 0 s then s
    else wr R.LDG_FAIL_VALID 0 1 (wr R.LDG_FAIL_LEDGER 0 ledger (wr R.LDG_FAIL_INST 0 inst
      (wr R.LDG_FAIL_FRAME 0 s.frame (wr R.LDG_FAIL_LEFT 0 left (wr R.LDG_FAIL_RIGHT 0 right s)))))
  raise .ledgerImbalance .ldg 0 s

/-! ### Cores -/

def State.core (s : State) (c : Nat) : Core := mgetD c Core.idle s.cores
def State.setCore (s : State) (c : Nat) (k : Core) : State := { s with cores := mput c k s.cores }
def State.plate (s : State) (p : Nat) : Plate := mgetD p Plate.free s.plates
def State.setPlate (s : State) (p : Nat) (k : Plate) : State := { s with plates := mput p k s.plates }
def State.ring (s : State) (r : Nat) : Ring := mgetD r Ring.init s.rings
def State.setRing (s : State) (r : Nat) (k : Ring) : State := { s with rings := mput r k s.rings }
def State.rslot (s : State) (k : Nat) : RSlot := mgetD k RSlot.init s.slots
def State.setRslot (s : State) (k : Nat) (v : RSlot) : State := { s with slots := mput k v s.slots }

/-- The core is fenced (19 R512, R513). -/
def fenced (c : Nat) (s : State) : Bool := (rd R.TWR_RGN_FENCED (regionOf c) s).testBit (coreInRegion c)

/-- The core is the hole of its half-row (02 R75, R79). -/
def isHole (c : Nat) (s : State) : Bool :=
  flag (R.TWR_SHIFT_HOLE (shiftIdx c)) (towerOf c) s
    && decide (rd (R.TWR_SHIFT_HOLE_COL (shiftIdx c)) (towerOf c) s = colOf c)

/-- The physical column, as a position, whose shaft serves the memory at a position (02 R70, R71). -/
def pathOf (p : Nat) (s : State) : Nat :=
  match coreOfPos p with
  | some c => p + (if rd (R.TWR_SHIFT_SKIP (shiftIdx c)) (towerOf c) s ≤ colOf c then 1 else 0)
  | none => p

/-- The job that runs on a core's plate, if one is under way. -/
def jobOf (c : Nat) (s : State) : Option Job := (s.plate (s.core c).cfg.plate).job

/-- The plate that holds a region. -/
def plateOfRegion (r : Nat) (s : State) : Option (Nat × Plate) :=
  s.plates.find? (fun e => e.2.holds && (match e.2.img with
    | some m => m.regions.testBit r
    | none => false))

/-- The record of a region in the plate that holds it (14 R399). -/
def recOf (r : Nat) (s : State) : Option RegionRec :=
  match plateOfRegion r s with
  | some (_, k) => (match k.img with
    | some m => m.recs.find? (fun q => decide (q.region = r))
    | none => none)
  | none => none

/-- The tag of the job of a core's plate. -/
def tagOf (c : Nat) (s : State) : Nat :=
  match jobOf c s with
  | some j => j.tag
  | none => noTag

/-- The event of a plate fault's cause (03 R127, 08 R258, 11 R345). -/
def Cause.ev : Cause → Ev
  | .illegalBundle => .illegalBundle
  | .trayRange => .trayRange
  | .shaftRange => .shaftRange
  | .bundleRange => .bundleRange
  | .scheduleMiss => .scheduleMiss
  | .mailboxOverrun => .mailboxOverrun
  | .lagViolation => .lagViolation
  | .shaftBudget => .shaftBudget
  | .exposureOverrun => .exposureOverrun
  | .poisonControl => .poisonControl
  | .nmCommand => .nmCommand
  | .nmBacklog => .nmBacklog
  | .nmHazard => .nmHazard
  | .arrayFull => .arrayFull

/-- The causes that TWR_RGN_MISS counts: misses and overruns (03 R128, R129). -/
def Cause.isMiss : Cause → Bool
  | .scheduleMiss => true
  | .mailboxOverrun => true
  | .exposureOverrun => true
  | _ => false

/-- The region holds a fault record of this exposure and cycle, of a core with a higher number: of faults in one cycle the
lowest CORE is recorded (03 R558). -/
def laterCore (c cyc : Nat) (s : State) : Bool :=
  let r := regionOf c
  decide (coreInRegion c < rd R.TWR_RGN_FAULT_CORE r s) && decide (rd R.TWR_RGN_FAULT_CYC_CYCLE r s = cyc)
    && decide (rd R.TWR_RGN_FAULT_CYC_FRAME_LO r s = s.frame % 2 ^ 20)

/-- TWR_RGN_FAULT and TWR_RGN_FAULT_CYC, if no record is held (03 R129, R558). -/
def recordFault (c ctx bundle cyc : Nat) (cause : Cause) (s : State) : State :=
  let r := regionOf c
  if flag R.TWR_RGN_FAULT_VALID r s && !laterCore c cyc s then s
  else
    wr R.TWR_RGN_FAULT_VALID r 1 (wr R.TWR_RGN_FAULT_CORE r (coreInRegion c) (wr R.TWR_RGN_FAULT_CONTEXT r ctx
      (wr R.TWR_RGN_FAULT_CAUSE r cause.code (wr R.TWR_RGN_FAULT_BUNDLE r bundle
        (wr R.TWR_RGN_FAULT_CYC_CYCLE r cyc (wr R.TWR_RGN_FAULT_CYC_FRAME_LO r s.frame s))))))

/-- Device-wide regions of a set of bits. -/
def regionList (n : Nat) : List Nat := (upFrom 0 64).filter (fun r => n.testBit r)

/-- The staging of a region for exposure `n` is cleared (01 R44). -/
def invalidate (n r : Nat) (s : State) : State :=
  if s.seqr.dark.contains (r, n) then s else { s with seqr := { s.seqr with dark := s.seqr.dark ++ [(r, n)] } }

/-- Every region of a plate invalidated. -/
def invalidatePlate (n : Nat) (m : Image) (s : State) : State :=
  (regionList m.regions).foldl (fun s r => invalidate n r s) s

/-- The plate faulted in the exposure that closes: its job ends at this tick, or has ended at it (03 R128). -/
def faultedNow (k : Plate) (s : State) : Bool :=
  match k.job with
  | some j => j.stopping.isSome
  | none => k.ended.any (fun e => decide (e.status = 1) && decide (e.frame = s.frame + 1))

/-- The job tag of a plate's fault: that of the job under way, or of one that ended at this tick. -/
def faultTag (k : Plate) (s : State) : Nat :=
  match k.job with
  | some j => j.tag
  | none => ((k.ended.find? (fun e => decide (e.frame = s.frame + 1))).map (fun e => e.job.tag)).getD noTag

/-- A plate fault (03 R127, R128, R558): the faulting core stops, the fault is recorded and raised, the plate's staging for
exposure `n` is invalidated (01 R44), and the job ends with FAULT at the next tick. A further miss or overrun of a plate that is
already stopping is only counted. -/
def plateFaultAt (n c ctx bundle cyc : Nat) (cause : Cause) (s : State) : State :=
  let p := (s.core c).cfg.plate
  let pl := s.plate p
  let s := if cause.isMiss then bump R.TWR_RGN_MISS (regionOf c) 1 s else s
  let s := s.setCore c { s.core c with stopped := true }
  if faultedNow pl s && cause.isMiss then s
  else
    let s := raiseTag cause.ev .rgn (regionOf c) (faultTag pl s) (recordFault c ctx bundle cyc cause s)
    match pl.img, pl.job with
    | some m, some j =>
      if j.stopping.isSome then s
      else invalidatePlate n m (s.setPlate p { pl with job := some { j with stopping := some (1, cause.code) } })
    | _, _ => s

/-- A plate fault now. -/
def plateFault (c ctx bundle cyc : Nat) (cause : Cause) (s : State) : State :=
  plateFaultAt (actFrame s) c ctx bundle cyc cause s

/-! ### Memory (02 R63; 07 R221 to R223, R232 to R236) -/

/-- Key of a byte: the position and the shaft address. -/
def cellKey (p a : Nat) : Nat := p * 2 ^ 29 + a

/-- What a byte that is not listed reads as: the newest range that covers it says (none: zero; a number: that free
value); number 0 at power-up (07 R235, entry 2). -/
def voidOf (k : Nat) : List Void → Option Nat
  | [] => some 0
  | v :: r => if v.lo ≤ k ∧ k < v.hi ∧ (v.sram = false ∨ 2 ^ 28 ≤ k % 2 ^ 29) then v.free else voidOf k r

/-- The canonical form of memory: the keys rise, and no byte is listed that an unlisted one would be known to read as. -/
def Memory.wf (mem : SMap Byte) (voids : List Void) : Bool :=
  keysRise mem && mem.all (fun e => !(decide (voidOf e.1 voids = none) && decide (e.2 = 0)))

/-- Index of a free value of memory: its number and the key. -/
def voidIdx (e k : Nat) : Nat := e * 2 ^ 42 + k

/-- One byte of a memory position; a byte that nothing has written reads as a free value (07 R235, entry 2). -/
def readByte (p a : Nat) (s : State) : Byte :=
  match mget (cellKey p a) s.mem with
  | some b => b
  | none =>
    match voidOf (cellKey p a) s.voids with
    | some e => Config.unwrittenByte (voidIdx e (cellKey p a))
    | none => 0

/-- One byte written; the value that an unlisted byte is known to read as is not listed. -/
def writeByte (p a : Nat) (b : Byte) (s : State) : State :=
  if voidOf (cellKey p a) s.voids = none ∧ b = 0 then { s with mem := mdel (cellKey p a) s.mem }
  else { s with mem := mput (cellKey p a) b s.mem }

/-- `n` bytes from address `a`. -/
def readBytes (p a n : Nat) (s : State) : List Byte := (upFrom a n).map (fun x => readByte p x s)

/-- Bytes written from address `a` upward. -/
def writeBytes (p : Nat) : Nat → List Byte → State → State
  | _, [], s => s
  | a, b :: l, s => writeBytes p (a + 1) l (writeByte p a b s)

/-- An address of the DRAM window (03 R107). -/
def isDram (a : Nat) : Bool := decide (a < 0x8000000)

/-- The protected unit that holds an address: a 32-byte granule of DRAM, a 64-bit word of stack SRAM (07 R227, R230). -/
def unitSize (a : Nat) : Nat := if isDram a then 32 else 8
def unitOf (a : Nat) : Nat := a / unitSize a * unitSize a

/-- Bytes that become undefined read as fresh free values (07 R235, entry 2): nothing is listed for them. -/
def forgetRange (p a n : Nat) (s : State) : State :=
  let inside (k : Nat) : Bool := decide (cellKey p a ≤ k) && decide (k < cellKey p (a + n))
  { s with mem := s.mem.filter (fun e => !inside e.1), marks := s.marks.filter (fun e => !inside e.1),
           voids := ⟨cellKey p a, cellKey p (a + n), false, some (s.free + 1)⟩ :: s.voids, free := s.free + 1 }

/-- A line's 128 bytes as a number. -/
def readLine (p a : Nat) (s : State) : Line := BitVec.ofNat 1024 (leNat (readBytes p a 128 s))

end Sys2Proof.Machine
end

