-- ==== Sys2Proof/Machine/Shaft.lean ====
section
/-! DEFINITION. Checked reads and protected writes of one memory position (07 R227 to R238): clean, corrected,
uncorrectable and poisoned units, the error log, the touch map and write-backs. -/
namespace Sys2Proof.Machine

def State.shaft (s : State) (p : Nat) : Shaft := mgetD p Shaft.init s.shafts
def State.setShaft (s : State) (p : Nat) (k : Shaft) : State := { s with shafts := mput p k s.shafts }

/-- Tower × 4 + quadrant of a memory position (17 R472). -/
def quadOf (p : Nat) : Nat := p / 1088 * 4 + p / 544 % 2 * 2 + p / 17 % 32 / 16

def setTherm (f : Therm → Therm) (s : State) : State := { s with therm := f s.therm }

/-- Bytes moved on a shaft, for the power map (17 R476). -/
def shaftBytes (p n : Nat) (s : State) : State := setTherm (fun k => { k with bytes := mmod (quadOf p) 0 (fun m => m + n) k.bytes }) s

/-- SOURCE of SHF_ERR_LOG (07 R242). -/
inductive ErrSrc where
  | core | host | scrub | unit
  deriving DecidableEq, Repr

def ErrSrc.code : ErrSrc → Nat
  | .core => 0 | .host => 1 | .scrub => 2 | .unit => 3

/-- SHF_ERR_LOG and SHF_ERR_ADDR, if no record is held (07 R242). -/
def errLog (p a kind pos : Nat) (src : ErrSrc) (s : State) : State :=
  if flag R.SHF_ERR_LOG_VALID p s then s
  else
    wr R.SHF_ERR_LOG_VALID p 1 (wr R.SHF_ERR_LOG_STORE p (if isDram a then 0 else 1)
      (wr R.SHF_ERR_LOG_KIND p kind (wr R.SHF_ERR_LOG_POS p pos (wr R.SHF_ERR_LOG_SOURCE p src.code
        (wr R.SHF_ERR_LOG_FRAME_LO p s.frame (wr R.SHF_ERR_ADDR p a s))))))

/-! ### Layers (02 R63; 07 R221, R222, R241) -/

/-- The DRAM layer of an address, 0 for L3: bits [23:22] (07 R221). -/
def layerOf (a : Nat) : Nat := a / 0x400000 % 4

/-- The DRAM layer of a page: bits [7:6] of its number (07 R222). -/
def pageLayer (pg : Nat) : Nat := pg / 64 % 4

/-- The layers refreshing in this exposure in a position's tower (01 R37 to R39). -/
def refreshing (p : Nat) (s : State) : List Nat :=
  rd R.GLB_REFRESH_FIRST 0 s ::
    (if (rd R.GLB_REFRESH_HOT 0 s).testBit (p / 1088) then [rd R.GLB_REFRESH_SECOND 0 s] else [])

/-- A layer accepts no access now: it refreshes (07 R241). -/
def layerShut (p l : Nat) (s : State) : Bool := inRefresh s && (refreshing p s).contains l

/-- The address of the line that a position's core moves next over its shaft, if a request waits (03 R110). -/
def pathNext (p : Nat) (s : State) : Option Nat :=
  match coreOfPos p with
  | some c => (s.core c).shq.head?.map (fun q => q.addr + 128 * q.done)
  | none => none

/-- A layer's port is free for the scrubber, a write-back, the snapshot copier or the row bus now: no host slot, fix window,
refresh, DRAM-path access or chunk (07 R234, R239, R241; 02 R77). -/
def portIdle (p l : Nat) (s : State) : Bool :=
  inWindow s && !layerShut p l s && (s.shaft p).runs.all (fun r => !r.2.layers.contains l)
    && (pathNext p s).all (fun a => !isDram a || decide (layerOf a ≠ l))

/-- A page's touch bit set (07 R236). -/
def touchPage (p a : Nat) (s : State) : State :=
  if isDram a then
    let k := s.shaft p
    let pg := a / 65536
    if k.touch.testBit pg then s
    else bump R.SHF_TOUCH p 1 (s.setShaft p { k with touch := k.touch + 2 ^ pg })
  else s

/-- A whole unit's poison mark (07 R232, R233). -/
def markUnit (p a : Nat) (poison : Bool) (s : State) : State :=
  { s with marks := if poison then mput (cellKey p a) true s.marks else mdel (cellKey p a) s.marks }

/-- The unit at `a` is stored as poison. A unit that nothing has written is or is not by a free value (07 R235,
entry 2). -/
def storedPoison (p a : Nat) (s : State) : Bool :=
  mgetD (cellKey p a) false s.marks

/-- Nothing has written the unit since its contents became undefined (07 R235). -/
def unwritten (p a : Nat) (s : State) : Bool :=
  (voidOf (cellKey p a) s.voids).isSome && !mhas (cellKey p a) s.mem && !mhas (cellKey p a) s.marks

/-- A unit that nothing has written fails its check, by a free value (07 R235, entry 2). -/
def unwrittenBad (p a : Nat) (s : State) : Bool :=
  match voidOf (cellKey p a) s.voids with
  | some e => unwritten p a s && Config.unwrittenPoison (voidIdx e (cellKey p a))
  | none => false

/-- A whole unit stored, clean or as poison; a pending write-back of it is dropped (07 R233, R234). -/
def storeUnit (p a : Nat) (bytes : List Byte) (poison : Bool) (s : State) : State :=
  let s := markUnit p a poison (writeBytes p a bytes (shaftBytes p (unitSize a) s))
  let k := s.shaft p
  touchPage p a (s.setShaft p { k with backs := k.backs.filter (fun b => b ≠ a) })

/-! ### Checked reads (07 R231) -/

/-- An uncorrectable unit: rewritten as poison at once (07 R231). -/
def uncorrect (p a pos : Nat) (src : ErrSrc) (s : State) : State :=
  let s := markUnit p a true s
  let s := touchPage p a s
  let s := if isDram a then bump R.SHF_DRAM_UNCORR p 1 (raise .dramUncorr .shf p s)
    else bump R.SHF_SRAM_UNCORR p 1 (raise .sramUncorr .shf p s)
  errLog p a 1 pos src s

/-- A corrected unit: written back in the next idle cycle (07 R231, R234). -/
def correct (p a pos : Nat) (src : ErrSrc) (s : State) : State :=
  let k := s.shaft p
  let s := s.setShaft p { k with backs := if k.backs.contains a then k.backs else k.backs ++ [a] }
  let s := if isDram a then bump R.SHF_DRAM_CORR p 1 (raise .dramCorr .shf p s)
    else bump R.SHF_SRAM_CORR p 1 (raise .sramCorr .shf p s)
  errLog p a 0 pos src s

/-- A poisoned unit delivered: SHF_POISON_READ and EVT_POISON_READ are for what cores and the host receive (07 R231, R242,
R244; entry 19). -/
def poisonSeen (p a : Nat) (src : ErrSrc) (s : State) : State :=
  match src with
  | .scrub => bump R.SHF_POISON_SEEN p 1 s
  | .unit => errLog p a 2 0 src s
  | _ => errLog p a 2 0 src (bump R.SHF_POISON_READ p 1 (raise .poisonRead .shf p s))

/-- One unit read and checked (07 R231): true if it is delivered as poison. Every read of an untrusted position is
(07 R238). -/
def checkUnit (p a : Nat) (src : ErrSrc) (errs : List GErr) (s : State) : Bool × State :=
  let s := shaftBytes p (unitSize a) s
  if storedPoison p a s || (s.shaft p).untrusted then (true, poisonSeen p a src s)
  else
    match errs.find? (fun e => decide (e.addr = a)) with
    | some e => if e.corr then (false, correct p a e.pos.toNat src s) else (true, uncorrect p a e.pos.toNat src s)
    | none =>
      if unwrittenBad p a s then
        (true, uncorrect p a (Config.freeValue s.free % (if isDram a then 34 else 72)) src { s with free := s.free + 1 })
      else (false, s)

/-- Units checked in address order: the poisoned ones among them, and the state. -/
def checkUnits (p : Nat) (src : ErrSrc) (errs : List GErr) : List Nat → State → List Nat × State
  | [], s => ([], s)
  | a :: r, s =>
    match checkUnit p a src errs s with
    | (b, s) =>
      match checkUnits p src errs r s with
      | (l, s) => (if b then a :: l else l, s)

/-! ### The snapshot (13 R387 to R392) -/

/-- Key of a core's page. -/
def snapKey (c pg : Nat) : Nat := c * 2048 + pg

/-- The page belongs to the snapshot set. -/
def inSet (s : State) (c pg : Nat) : Bool :=
  s.snap.descs.any (fun d => decide (d.base ≤ c) && decide (c < d.base + d.cores)
    && decide (d.page ≤ pg) && decide (pg < d.page + d.pages))

/-- The page is protected: in the set of a running snapshot and not yet copied whole. -/
def protectedPage (c pg : Nat) (s : State) : Bool :=
  s.snap.on && inSet s c pg && (match mget (snapKey c pg) s.snap.pages with
    | some q => decide (q.pieces < 16)
    | none => true)

/-- Stage slots of a core that hold a page. -/
def slotsUsed (c : Nat) (s : State) : List Nat :=
  (s.snap.pages.filter (fun q => decide (q.1 / 2048 = c) && !q.2.drained)).map (fun q => q.2.slot)

/-- The lowest stage slot of a core that is free. -/
def freeStage (c : Nat) (s : State) : Option Nat :=
  (upFrom 0 s.snap.count).find? (fun k => !(slotsUsed c s).contains k)

/-- Granules copied from one page of a position to another: each is read and checked, poison stays poison (13 R390; 07 R231). -/
def copyGranules (p src dst : Nat) (errs : List GErr) (is : List Nat) (s : State) : State :=
  is.foldl (fun s i =>
    match checkUnit p (src + 32 * i) .unit errs s with
    | (bad, s) => storeUnit p (dst + 32 * i) (readBytes p (src + 32 * i) 32 s) bad s) s

/-- The pieces of a page that remain are copied into its stage slot (13 R390, R391). -/
def copyPage (c pg slot done : Nat) (s : State) : State :=
  let s := copyGranules (posOf c) (pg * 65536) ((s.snap.stage + slot) * 65536) [] (upFrom (128 * done) (2048 - 128 * done)) s
  bump R.SNAP_COPIED 0 1
    { s with snap := { s.snap with pages := mput (snapKey c pg) ⟨slot, 16, false⟩ s.snap.pages } }

/-- The snapshot ends without an image: every protection ends (13 R390, R392). -/
def snapCancel (cause : Nat) (s : State) : State :=
  let s := { s with snap := { s.snap with on := false, armed := none, pages := [] } }
  wr R.SNAP_STAT_STATE 0 4 (wr R.SNAP_STAT_CAUSE 0 cause (raise .snapCancel .snap 0 s))

/-- A write that meets a protected page (13 R390): the page is copied first if a copy of this exposure's reserve and a
stage slot are left, else the snapshot is cancelled. -/
def snapHook (p a : Nat) (s : State) : State :=
  if !s.snap.on || !isDram a then s
  else
    match coreOfPos p with
    | none => s
    | some c =>
      let pg := a / 65536
      if !protectedPage c pg s then s
      else
        let n := mgetD c 0 s.snap.firsts
        let part := mget (snapKey c pg) s.snap.pages
        let slot := match part with
          | some q => some q.slot
          | none => freeStage c s
        match slot with
        | some k =>
          if n < (s.core c).cfg.ps then
            let s := copyPage c pg k (match part with
              | some q => q.pieces
              | none => 0) s
            bump R.SNAP_TOUCHED 0 1 { s with snap := { s.snap with firsts := mput c (n + 1) s.snap.firsts } }
          else snapCancel 1 s
        | none => snapCancel 1 s

/-- A whole unit written by a core, a near-memory unit, a remote chunk, a KV copy or the row bus: a snapshot first takes
a protected page (13 R390). -/
def writeUnit (p a : Nat) (bytes : List Byte) (poison : Bool) (s : State) : State :=
  storeUnit p a bytes poison (snapHook p a s)

/-- Units of [a, a + n). -/
def unitsOf (a n : Nat) : List Nat :=
  let u := unitSize a
  let first := unitOf a
  (upFrom 0 (ceilDiv (a + n - first) u)).map (fun i => first + u * i)

/-- A line read by a core: its data, poisoned if any of its units is (07 R232). -/
def coreReadLine (p a : Nat) (errs : List GErr) (s : State) : Line × Bool × State :=
  match checkUnits p .core errs (unitsOf a 128) s with
  | (bad, s) => (readLine p a s, !bad.isEmpty, s)

/-- A line's bytes. -/
def lineBytes (l : Line) : List Byte := leBytes 128 l.toNat

/-- A line written by a core: all its units clean, or all as poison (07 R233). -/
def coreWriteLine (p a : Nat) (l : Line) (poison : Bool) (s : State) : State :=
  let u := unitSize a
  (upFrom 0 (128 / u)).foldl
    (fun s i => writeUnit p (a + u * i) (leBytes u (l.toNat >>> (8 * (u * i)))) poison s) s

/-- The position's SRAM path is free for the scrubber or a write-back: no core or host access uses it (07 R234, R239). -/
def sramIdle (p : Nat) (s : State) : Bool :=
  let k := s.shaft p
  !inFix s && (!inSlot s || (k.hostq.isEmpty && !k.lent))
    && (inSlot s || (pathNext p s).all isDram)

/-- The write-back of a corrected unit in an idle cycle, if no newer write dropped it (07 R234). It is a write of its page
(07 R236). -/
def writeBack (p : Nat) (s : State) : State :=
  let k := s.shaft p
  match k.backs with
  | [] => s
  | a :: r =>
    if if isDram a then portIdle p (layerOf a) s else sramIdle p s then touchPage p a (shaftBytes p (unitSize a) (s.setShaft p { k with backs := r }))
    else s

end Sys2Proof.Machine
end

