-- ==== Sys2Proof/Machine/NearMem.lean ====
section
/-! DEFINITION. The near-memory units (08 R245 to R267): what a command is and which are malformed, chunks and their
schedule, element arithmetic, poison, completion, remote chunks. -/
namespace Sys2Proof.Machine

/-! ### Commands (08 R251 to R254) -/

/-- Operation codes (08 R252, R253). -/
def NmOp.ofCode : Nat → Option NmOp
  | 0x01 => some .add | 0x02 => some .mul | 0x03 => some .fma | 0x04 => some .axpby | 0x05 => some .scale
  | 0x06 => some .max | 0x07 => some .min | 0x08 => some .cmplt | 0x09 => some .cmpeq | 0x0A => some .xor
  | 0x0B => some .fill | 0x0C => some .copy | 0x0D => some .relu | 0x0E => some .gelu | 0x0F => some .silu
  | 0x10 => some .cvt | 0x11 => some .setlayout | 0x20 => some .plane | 0x21 => some .unplane | 0x22 => some .padd
  | 0x23 => some .psub | 0x24 => some .pcmplt | 0x25 => some .pcmplti | 0x26 => some .pand | 0x27 => some .por
  | 0x28 => some .pxor | 0x29 => some .pcount | _ => none

/-- A bit-plane operation (08 R253). -/
def NmOp.isPlane : NmOp → Bool
  | .plane => true | .unplane => true | .padd => true | .psub => true | .pcmplt => true | .pcmplti => true
  | .pand => true | .por => true | .pxor => true | .pcount => true | _ => false

/-- The sources an operation names: A, B, C. -/
def NmOp.uses : NmOp → Bool × Bool × Bool
  | .fma => (true, true, true)
  | .add => (true, true, false) | .mul => (true, true, false) | .axpby => (true, true, false)
  | .max => (true, true, false) | .min => (true, true, false) | .cmplt => (true, true, false)
  | .cmpeq => (true, true, false) | .xor => (true, true, false) | .padd => (true, true, false)
  | .psub => (true, true, false) | .pcmplt => (true, true, false) | .pand => (true, true, false)
  | .por => (true, true, false) | .pxor => (true, true, false)
  | .fill => (false, false, false) | .setlayout => (false, false, false)
  | _ => (true, false, false)

/-- The immediates an operation names. -/
def NmOp.imms : NmOp → Bool × Bool
  | .axpby => (true, true) | .pcmplti => (true, true)
  | .scale => (true, false) | .fill => (true, false) | .setlayout => (true, false) | .unplane => (true, false)
  | .pcmplt => (true, false) | _ => (false, false)

/-- An FP format of R252: FP32, FP16, BF16. -/
def nmFp (f : Nat) : Bool := decide (f ≤ 2)

/-- The formats an operation takes (08 R252); bit-plane operations name none. -/
def NmOp.fmtOk (o : NmOp) (f : Nat) : Bool :=
  match o with
  | .axpby => nmFp f | .relu => nmFp f | .gelu => nmFp f | .silu => nmFp f
  | .xor => decide (f = 8) || decide (f = 10) | .copy => decide (f = 8) || decide (f = 10)
  | .fill => decide (f = 10)
  | .cvt => decide (f ≤ 10)
  | .setlayout => decide (f = 0)
  | .add => nmFp f || decide (f = 8) || decide (f = 10) | .mul => nmFp f || decide (f = 8) || decide (f = 10)
  | .fma => nmFp f || decide (f = 8) || decide (f = 10) | .scale => nmFp f || decide (f = 8) || decide (f = 10)
  | .max => nmFp f || decide (f = 8) || decide (f = 10) | .min => nmFp f || decide (f = 8) || decide (f = 10)
  | .cmplt => nmFp f || decide (f = 8) || decide (f = 10) | .cmpeq => nmFp f || decide (f = 8) || decide (f = 10)
  | _ => decide (f = 0)

/-- RND (08 R252): stochastic only for CVT; toward zero for CVT and for the arithmetic operations on an FP format. -/
def NmOp.rndOk (o : NmOp) (f r : Nat) : Bool :=
  match r with
  | 0 => true
  | 1 => decide (o = .cvt)
  | 2 => decide (o = .cvt) || (nmFp f && (decide (o = .add) || decide (o = .mul) || decide (o = .fma)
      || decide (o = .axpby) || decide (o = .scale)))
  | _ => false

/-- A format code of a command (08 R251). -/
def nmFmt (f : Nat) : Fmt := if f = 10 then .int32 else (Fmt.ofCode f).getD .fp32

/-- An operand: address, whether it lies in bit-plane pages, its bits per item, and how many elements one item stands for
(256 in PCOUNT's results). -/
structure Opd where
  addr : Nat
  plane : Bool
  bits : Nat
  per : Nat
  deriving DecidableEq, Repr

/-- Width of a source or of the result (08 R249, R250, R252, R253). -/
def srcOpd (c : NmCmd) (a : Nat) : Opd :=
  match c.op with
  | .plane => ⟨a, false, 32, 1⟩
  | .pcount => ⟨a, true, 1, 1⟩
  | _ => if c.op.isPlane then ⟨a, true, c.w1 + 1, 1⟩ else ⟨a, false, (nmFmt c.fmt).bits, 1⟩

def dstOpd (c : NmCmd) : Opd :=
  match c.op with
  | .cmplt => ⟨c.dst, false, 1, 1⟩ | .cmpeq => ⟨c.dst, false, 1, 1⟩
  | .cvt => ⟨c.dst, false, (nmFmt c.fmt2).bits, 1⟩
  | .unplane => ⟨c.dst, false, 32, 1⟩
  | .pcmplt => ⟨c.dst, true, 1, 1⟩ | .pcmplti => ⟨c.dst, true, 1, 1⟩
  | .pcount => ⟨c.dst, false, 32, 256⟩
  | _ => if c.op.isPlane then ⟨c.dst, true, c.w1 + 1, 1⟩ else ⟨c.dst, false, (nmFmt c.fmt).bits, 1⟩

/-- The sources of a command in order. -/
def srcOpds (c : NmCmd) : List Opd :=
  match c.op.uses with
  | (a, b, d) => (if a then [srcOpd c c.srca] else []) ++ (if b then [srcOpd c c.srcb] else [])
      ++ (if d then [srcOpd c c.srcc] else [])

/-- The bytes (first, number) that elements [f, f + n) of an operand occupy. -/
def Opd.range (o : Opd) (f n : Nat) : Nat × Nat :=
  (o.addr + f * o.bits / (8 * o.per), ceilDiv (n * o.bits) (8 * o.per))

/-- Two byte ranges share a byte. -/
def meets (a b : Nat × Nat) : Bool := decide (a.1 < b.1 + b.2) && decide (b.1 < a.1 + a.2)

/-- The whole ranges of a command: its sources, its destination. SETLAYOUT names whole pages (08 R252). -/
def nmRanges (c : NmCmd) : List (Nat × Nat) × (Nat × Nat) :=
  if c.op = .setlayout then ([], (c.dst / 65536 * 65536, c.count * 65536))
  else ((srcOpds c).map (fun o => o.range 0 c.count), (dstOpd c).range 0 c.count)

/-- Bank column of an address (08 R245). -/
def bankCol (a : Nat) : Nat := a / 0x1000000 % 8

/-- A range of the DRAM window, granule aligned, in bank column u (08 R254). -/
def nmRangeOk (u : Nat) (r : Nat × Nat) : Bool :=
  decide (r.1 % 32 = 0) && decide (r.2 % 32 = 0) && decide (0 < r.2) && decide (r.1 + r.2 ≤ 0x8000000)
    && decide (bankCol r.1 = u) && decide (bankCol (r.1 + r.2 - 1) = u)

/-- Each range spans whole granules (08 R249, R254). -/
def wholeGranules (c : NmCmd) : Bool :=
  c.op = .setlayout || (dstOpd c :: srcOpds c).all (fun o => decide (c.count * o.bits % (256 * o.per) = 0))

/-- The command is malformed (08 R254; fields that an operation does not name must be 0, R251). -/
def nmBad (c : NmCmd) : Bool :=
  match c.op.uses with
  | (a, b, d) =>
    !c.op.fmtOk c.fmt || !c.op.rndOk c.fmt c.rnd
    || (if c.op = .cvt then decide (10 < c.fmt2) else decide (c.fmt2 ≠ 0))
    || (decide (c.w1 ≠ 0) && (!c.op.isPlane || decide (c.op = .pcount)))
    || (!a && decide (c.srca ≠ 0)) || (!b && decide (c.srcb ≠ 0)) || (!d && decide (c.srcc ≠ 0))
    || (!c.op.imms.1 && decide (c.imm0 ≠ 0)) || (!c.op.imms.2 && decide (c.imm1 ≠ 0))
    || decide (c.count = 0) || (c.op.isPlane && decide (c.count % 256 ≠ 0)) || !wholeGranules c
    || (match nmRanges c with
        | (ss, r) => !(r :: ss).all (nmRangeOk (bankCol r.1)) || ss.any (fun q => meets q r && decide (q ≠ r)))

/-- A command read from its tray line; none where OP or a reserved field is not as R251 has it. -/
def nmParse (l : Line) : Option NmCmd :=
  let n := l.toNat
  let w (i : Nat) : Nat := bitsAt n (32 * i) 32
  match NmOp.ofCode (bitsAt n 0 8) with
  | none => none
  | some op =>
    if bitsAt n 23 9 ≠ 0 || n >>> 256 ≠ 0 then none
    else
      let c : NmCmd := ⟨op, bitsAt n 8 4, bitsAt n 12 4, bitsAt n 16 2, bitsAt n 18 5, w 1, w 2, w 3, w 4, w 5, w 6, w 7⟩
      if nmBad c then none else some c

/-! ### Chunks (08 R259) -/

/-- Elements that 4 KiB of a word-layout operand or ⌊128 ÷ w⌋ groups hold, in whole groups of 256 (entry 20). -/
def Opd.limit (o : Opd) : Nat := if o.plane then 128 / o.bits * 256 else 32768 / o.bits * o.per / 256 * 256

/-- Elements, or pages of SETLAYOUT, in a chunk. -/
def chunkElems (c : NmCmd) : Nat :=
  if c.op = .setlayout then 1 else (srcOpds c).foldl (fun n o => min n o.limit) (dstOpd c).limit

/-- Elements of the chunk that starts at element f. -/
def chunkLen (c : NmCmd) (f : Nat) : Nat := min (chunkElems c) (c.count - f)

/-- Bytes of a range in layer L(3 + l). -/
def bytesIn (l : Nat) (r : Nat × Nat) : Nat :=
  let b := r.1 / 0x1000000 * 0x1000000 + l * 0x400000
  min (r.1 + r.2) (b + 0x400000) - max r.1 b

/-- Granules that a chunk reads and writes on a layer. -/
def chunkGranules (c : NmCmd) (f n l : Nat) : Nat :=
  if c.op = .setlayout then 0
  else ((dstOpd c :: srcOpds c).map (fun o => ceilDiv (bytesIn l (o.range f n)) 32)).sum

/-- Width factor of a layer's port (08 R247). -/
def portFactor (p l : Nat) (s : State) : Nat := if (rd R.SHF_PORT_HALF p s).testBit l then 2 else 1

/-- Layers touched, and the time in port cycles, of granules per layer. -/
def portLayers (g : Nat → Nat) : List Nat := (upFrom 0 4).filter (fun l => decide (0 < g l))
def portTime (p : Nat) (g : Nat → Nat) (s : State) : Nat :=
  17 + (upFrom 0 4).foldl (fun m l => max m (g l * portFactor p l s)) 0

def chunkTime (p : Nat) (c : NmCmd) (f : Nat) (s : State) : Nat := portTime p (chunkGranules c f (chunkLen c f)) s

/-- Summed time of a command's chunks from element f on (08 R261); `k` chunks at most. -/
def restTime (p : Nat) (c : NmCmd) (s : State) : Nat → Nat → Nat
  | 0, _ => 0
  | k + 1, f => if c.count ≤ f then 0 else chunkTime p c f s + restTime p c s k (f + chunkElems c)

def cmdTime (p : Nat) (c : NmCmd) (f : Nat) (s : State) : Nat := restTime p c s c.count f

/-! ### Queues -/

def Shaft.queue (k : Shaft) (u : Nat) : List NmWork := mgetD u [] k.queues
/-- All of a shaft's work: what is queued, and the commands that have not entered their queue. -/
def Shaft.works (k : Shaft) : List NmWork := k.queues.flatMap (fun q => q.2) ++ k.waits.map (fun w => w.2)

def NmWork.age : NmWork → Nat
  | .cmd a _ _ _ _ => a
  | .remote a _ _ => a

/-- A command, not a remote chunk. -/
def NmWork.isCmd : NmWork → Bool
  | .cmd _ _ _ _ _ => true
  | .remote _ _ _ => false

/-- A command of core c. -/
def NmWork.ofCore (c : Nat) : NmWork → Bool
  | .cmd _ _ b _ _ => decide (b.core = some c)
  | .remote _ _ _ => false

/-- Backlog of a shaft in port cycles (08 R261). -/
def backlog (p : Nat) (s : State) : Nat :=
  match coreOfPos p with
  | none => 0
  | some c =>
    ((s.shaft p).works.map (fun w => match w with
      | .cmd _ k b d false => if b.core = some c then cmdTime p k d s else 0
      | _ => 0)).sum

/-- Commands queued or running on a shaft (08 R269). -/
def backlogCmds (p : Nat) (s : State) : Nat :=
  ((s.shaft p).works.filter NmWork.isCmd).length

/-- Commands that a unit's queue holds, with those that will enter it (08 R258; entry 123). -/
def Shaft.cmdsOf (k : Shaft) (u : Nat) : Nat :=
  ((k.queue u).filter NmWork.isCmd).length + (k.waits.filter (fun w => decide (w.1 = u))).length

/-- Entries put into a unit's queue. -/
def enqueue (p u : Nat) (f : Nat → NmWork) (s : State) : State :=
  let k := s.shaft p
  s.setShaft p { k with queues := mput u (k.queue u ++ [f k.age]) k.queues, age := k.age + 1 }

/-- A command of the Darkroom (08 R245; 09, 13): no core, no bound. -/
def darkroom (p : Nat) (c : NmCmd) (s : State) : State :=
  enqueue p (bankCol c.dst) (fun a => .cmd a c ⟨none, 0, 0, 0, false, s.frame, 0, 0, 0, none⟩ 0 false) s

/-- The check of an NM request at issue (03 R103; 08 R254, R258, R261): its command, or its cause. -/
def nmCheck (c : Nat) (l : Line) (s : State) : Except Cause NmCmd :=
  let p := posOf c
  match nmParse l with
  | none => .error .nmCommand
  | some k =>
    let cfg := (s.core c).cfg
    if 16 ≤ (s.shaft p).cmdsOf (bankCol k.dst) || cfg.k * cfg.g < backlog p s + cmdTime p k 0 s then
      .error .nmBacklog
    else .ok k

/-- The commands whose core's earlier shaft requests have all been performed enter their units' queues, in issue order (08
R259). -/
def enterNow (c : Nat) (s : State) : State :=
  let p := posOf c
  let k := s.shaft p
  let open_ (w : Nat × NmWork) : Bool := match w.2 with
    | .cmd _ _ b _ _ => !(s.core c).shq.any (fun q => decide (q.id < b.after))
    | .remote _ _ _ => true
  let go := k.waits.takeWhile open_
  go.foldl (fun s w => enqueue p w.1 (fun a => match w.2 with
    | .cmd _ m b d x => .cmd a m b d x
    | .remote _ m gs => .remote a m gs) s) (s.setShaft p { k with waits := k.waits.dropWhile open_ })

/-- An accepted NM request waits for the requests issued before it, then enters its unit's queue (08 R257, R259). `core` is
the core before the bundle. -/
def nmEnter (c x : Nat) (k : NmCmd) (core : Core) (s : State) : State :=
  let grad := core.isGradient x && decide (k.op = .cvt)
  let b : NmIssuer := ⟨some c, core.slice, core.nmSlice, core.cfg.seed, grad || decide (k.rnd = 1), s.frame, core.cfg.k,
    core.nextId, core.nmIssued, none⟩
  let p := posOf c
  enterNow c (s.setShaft p { s.shaft p with waits := (s.shaft p).waits ++ [(bankCol k.dst, .cmd 0 k b 0 false)] })

/-- A store whose range meets a range of an incomplete command of the same core (08 R258, R264). -/
def nmHazard (c : Nat) (r : Nat × Nat) (s : State) : Bool :=
  let k := s.shaft (posOf c)
  (k.works ++ k.fin).any (fun w => w.ofCore c && (match w with
    | .cmd _ k _ _ _ => (match nmRanges k with
      | (ss, d) => (d :: ss).any (meets r))
    | _ => false))

/-- The queue entry of a chunk in progress. -/
def Shaft.running (k : Shaft) (u : Nat) (r : NmRun) : Option NmWork := (k.queue u).find? (fun w => decide (w.age = r.age))

/-- Destination ranges of the chunks in progress on a shaft (08 R264, R265). -/
def runningDests (k : Shaft) : List (Nat × Nat) :=
  k.runs.flatMap (fun u =>
    match k.running u.1 u.2 with
    | some (.cmd _ c _ _ _) => if c.op = .setlayout then [] else [(dstOpd c).range u.2.first u.2.n]
    | some (.remote _ _ gs) => gs.map (fun g => (g.addr, 32))
    | none => [])

/-- All ranges of the chunks in progress. -/
def runningRanges (k : Shaft) : List (Nat × Nat) :=
  k.runs.flatMap (fun u =>
    match k.running u.1 u.2 with
    | some (.cmd _ c _ _ _) =>
      if c.op = .setlayout then [] else (dstOpd c :: srcOpds c).map (fun o => o.range u.2.first u.2.n)
    | some (.remote _ _ gs) => gs.map (fun g => (g.addr, 32))
    | none => [])

/-! ### Element arithmetic (08 R252, R253, R255, R256) -/

/-- An FP format's value as FP32 bits (exact). -/
def asFp32 (v : Val) : Nat := (narrow .fp32 .rne v).bits

/-- A format that holds the input gets a result within 1 ulp of it (08 R256): `y` is the FP32 result. -/
def nmNear (f : Fmt) (v exact_ : Val) (y : Nat) : Bool :=
  !Val.eq (f.decode (narrow f .rne v).bits) v
    || nearVal f 1 (-200) (narrow f .rne exact_).bits (narrow f .rne (Fmt.decode .fp32 y)).bits exact_

/-- The unit's mapping on an input inside its table (08 R256): within 3 ulp or 2^−23 of the function's value, whichever is
larger, and its BF16 and FP16 results within 1 ulp; `curve` is 0 for GELU, 1 for SILU. -/
def nmCurve (curve : Nat) (v exact_ : Val) : Val :=
  let y := bounded32 3 (-23) (Config.nmCurve curve (asFp32 v)) exact_
  Fmt.decode .fp32 (if nmNear .bf16 v exact_ y && nmNear .fp16 v exact_ y then y else asFp32 exact_)

/-- GELU and SILU to FP32 (08 R256): special inputs, the ranges outside the table, and the unit's own mapping inside. -/
def nmAct (gelu : Bool) (v : Val) : Val :=
  match v with
  | .nan => .nan
  | .inf false => .inf false
  | .inf true => .fin (!gelu) 0 0
  | .fin s m e =>
    if gelu then
      if !Val.lt v (.fin false 8 0) then v
      else if Val.lt v (.fin true 8 0) then .fin false 0 0
      else nmCurve 0 v (geluVal s m e)
    else if !Val.lt v (.fin false 16 0) then v
    else if Val.lt v (.fin true 16 0) then
      Fmt.decode .fp32 (asFp32 (Val.mul v (Fmt.decode .fp32 (tone .exp (asFp32 v)))))
    else nmCurve 1 v (siluVal s m e)

/-- An integer result: INT8 saturates, INT32 wraps (08 R255). -/
def nmInt (f : Fmt) (i : Int) : Nat × Bool :=
  if f = .int8 then
    if 127 < i then (0x7F, true) else if i < -128 then (0x80, true) else (unsigned 8 i, false)
  else (unsigned 32 i, false)

/-- The value that a conversion rounds: the source's, or with MEAN the exact quotient by the roster count (12 R368). -/
def redValue (r : Option RedCvt) (v : Val) : Val :=
  match r.bind (fun r => r.mean), v with
  | some n, .fin g k e => .fin g ((k <<< 64) / max 1 n) (e - 64)
  | _, v => v

/-- The draw of element e of a reduction's conversion (12 R368; 03 R123). -/
def redDraw (seed : Nat) (r : Option RedCvt) (e : Nat) : Nat :=
  match r with
  | some r =>
    let h := mix ((mix ((seed ^^^ r.w0) % 2 ^ 64)) ^^^ (r.first + e))
    (h >>> 32) ^^^ (h % 2 ^ 32)
  | none => 0

/-- Element e of a command from its source items: the result, and whether it counts in SHF_NM_SAT. -/
def nmElem (c : NmCmd) (b : NmIssuer) (e x y z : Nat) : Nat × Bool :=
  let f := nmFmt c.fmt
  let w := c.w1 + 1
  let md : Rmode := if c.rnd = 2 then .rtz else .rne
  let fp (v : Val) : Nat × Bool := ((narrow f md v).bits, false)
  let vx := f.decode x
  let vy := f.decode y
  let vz := f.decode z
  let i0 := Fmt.decode .fp32 c.imm0
  let i1 := Fmt.decode .fp32 c.imm1
  let sx := signed f.bits x
  let sy := signed f.bits y
  let sz := signed f.bits z
  match c.op with
  | .add => if f.isInt then nmInt f (sx + sy) else fp (Val.add vx vy)
  | .mul => if f.isInt then nmInt f (sx * sy) else fp (Val.mul vx vy)
  | .fma => if f.isInt then nmInt f (sx * sy + sz) else fp (Val.add (Val.mul vx vy) vz)
  | .axpby => fp (Val.add (Val.mul i0 vx) (Val.mul i1 vy))
  | .scale => if f.isInt then nmInt f (signed 32 c.imm0 * sx) else fp (Val.mul i0 vx)
  | .max => if f.isInt then nmInt f (max sx sy) else fp (fmaxV vx vy)
  | .min => if f.isInt then nmInt f (min sx sy) else fp (fminV vx vy)
  | .cmplt => ((if f.isInt then decide (sx < sy) else Val.lt vx vy).toNat, false)
  | .cmpeq => ((if f.isInt then decide (sx = sy) else Val.eq vx vy).toNat, false)
  | .xor => (x ^^^ y, false)
  | .fill => (c.imm0, false)
  | .copy => (x, false)
  | .relu => fp (fmaxV vx (.fin false 0 0))
  | .gelu => ((narrow f .rne (nmAct true vx)).bits, false)
  | .silu => ((narrow f .rne (nmAct false vx)).bits, false)
  | .cvt =>
    let vx := redValue b.red vx
    let md : Rmode :=
      if b.red.isSome then .stoch (redDraw b.seed b.red e)
      else if b.stoch then
        .stoch (drawOf b.seed (2 ^ 63 + b.slice * 2 ^ 8 + b.q) (b.core.getD 0) 0 0 0 e)
      else md
    let r := narrow (nmFmt c.fmt2) md vx
    (r.bits, r.sat || r.nanLost)
  | .setlayout => (0, false)
  | .plane => (x % 2 ^ w, false)
  | .unplane => (if c.imm0.testBit 0 then unsigned 32 (signed w x) else x, false)
  | .padd => ((x + y) % 2 ^ w, false)
  | .psub => ((x + 2 ^ w - y) % 2 ^ w, false)
  | .pcmplt => ((if c.imm0.testBit 0 then decide (signed w x < signed w y) else decide (x < y)).toNat, false)
  | .pcmplti => ((if c.imm0.testBit 0 then decide (signed w x < signed 32 c.imm1) else decide (x < c.imm1)).toNat, false)
  | .pand => (x &&& y, false)
  | .por => (x ||| y, false)
  | .pxor => (x ^^^ y, false)
  | .pcount => (x, false)

/-! ### A chunk's work (08 R249, R250, R266) -/

/-- Element i of a chunk in an operand's bits `n` (08 R249, R250). -/
def Opd.item (o : Opd) (n i : Nat) : Nat :=
  if o.plane then
    packElems 1 ((upFrom 0 o.bits).map (fun j => bitsAt n ((i / 256 * o.bits + j) * 256 + i % 256) 1))
  else bitsAt n (i * o.bits) o.bits

/-- The bits of an operand whose items are given. -/
def Opd.pack (o : Opd) (items : List Nat) : Nat :=
  if o.plane then
    packElems 256 ((upFrom 0 (items.length / 256 * o.bits)).map (fun k =>
      packElems 1 (((items.drop (k / o.bits * 256)).take 256).map (fun v => bitsAt v (k % o.bits) 1))))
  else packElems o.bits items

/-- The elements of a chunk (first, number) that granule k of an operand holds. -/
def Opd.held (o : Opd) (k : Nat) : Nat × Nat :=
  if o.plane then (k / o.bits * 256, 256)
  else
    let a := k * 256 / o.bits
    (a * o.per, (ceilDiv ((k + 1) * 256) o.bits - a) * o.per)

/-- Two ranges of elements share one. -/
def sharesElem (a b : Nat × Nat) : Bool := decide (a.1 < b.1 + b.2) && decide (b.1 < a.1 + a.2)

/-- A source's items of a chunk, the elements in its poisoned granules, and the state after the checked reads. -/
def readOpd (p f n : Nat) (errs : List GErr) (o : Opd) (s : State) : (Nat × List (Nat × Nat)) × State :=
  match o.range f n with
  | (a, len) =>
    match checkUnits p .unit errs (unitsOf a len) s with
    | (bad, s) => ((leNat (readBytes p a len s), bad.map (fun g => o.held ((g - a) / 32))), s)

/-- All sources read in order. -/
def readOpds (p f n : Nat) (errs : List GErr) : List Opd → State → List (Nat × List (Nat × Nat)) × State
  | [], s => ([], s)
  | o :: r, s =>
    match readOpd p f n errs o s with
    | (x, s) => match readOpds p f n errs r s with
      | (l, s) => (x :: l, s)

/-- Granules of the result written, each clean or as poison: how many as poison. -/
def putGranules (p a bits : Nat) (poisoned : Nat → Bool) (ks : List Nat) (s : State) : State :=
  ks.foldl (fun s k => writeUnit p (a + 32 * k) (leBytes 32 (bits >>> (256 * k))) (poisoned k) s) s

/-- EVT_NM_POISON and SHF_NM_POISON for `n` granules (08 R266). -/
def nmPoison (p n : Nat) (s : State) : State :=
  if n = 0 then s else bump R.SHF_NM_POISON p n (raise .nmPoison .shf p s)

/-- Layout of a page (08 R248). -/
def layoutOf (p pg : Nat) (s : State) : Bool := (rd (R.SHF_NM_LAYOUT (pg / 32)) p s).testBit (pg % 32)

/-- A page's layout set (08 R248, R252). -/
def setLayout (p pg : Nat) (v : Bool) (s : State) : State :=
  let w := rd (R.SHF_NM_LAYOUT (pg / 32)) p s
  wr (R.SHF_NM_LAYOUT (pg / 32)) p (putBits w (pg % 32) 1 v.toNat) s

/-- Elements [f, f + n) of a command computed (08 R252 to R257, R266). -/
def runElems (p f n : Nat) (c : NmCmd) (b : NmIssuer) (errs : List GErr) (s : State) : State :=
  if c.op = .setlayout then setLayout p (c.dst / 65536 + f) (c.imm0.testBit 0) s
  else
    let os := srcOpds c
    match readOpds p f n errs os s with
    | (srcs, s) =>
      let item (k i : Nat) : Nat :=
        match os[k]?, srcs[k]? with
        | some o, some (v, _) => o.item v i
        | _, _ => 0
      let rs := (upFrom 0 n).map (fun i => nmElem c b (f + i) (item 0 i) (item 1 i) (item 2 i))
      let d := dstOpd c
      let items :=
        if d.per = 1 then rs.map (fun r => r.1)
        else (upFrom 0 (n / d.per)).map (fun g => (((rs.drop (g * d.per)).take d.per).map (fun r => r.1)).sum)
      let bad := srcs.flatMap (fun x => x.2)
      let poisoned (k : Nat) : Bool := bad.any (sharesElem (d.held k))
      match d.range f n with
      | (a, len) =>
        let ks := upFrom 0 (len / 32)
        let s := putGranules p a (d.pack items) poisoned ks s
        let s := nmPoison p (ks.filter poisoned).length s
        bump R.SHF_NM_SAT p (rs.filter (fun r => r.2)).length s

/-- Pages of a range. -/
def pagesOf (r : Nat × Nat) : List Nat := upFrom (r.1 / 65536) ((r.1 + r.2 - 1) / 65536 + 1 - r.1 / 65536)

/-- Every page that elements [f, f + n) touch has the layout that the operation takes (08 R262). -/
def layoutsOk (p f n : Nat) (c : NmCmd) (s : State) : Bool :=
  c.op = .setlayout
    || (dstOpd c :: srcOpds c).all (fun o => (pagesOf (o.range f n)).all (fun pg => layoutOf p pg s == o.plane))

/-- A layout mismatch: the rest of the command is skipped (08 R262). -/
def nmAbort (p : Nat) (s : State) : State := bump R.SHF_NM_ABORT p 1 (raise .nmLayout .shf p s)

/-- The chunks of a command from element f on, in ascending order, until one meets the wrong layout. -/
def runChunks (p : Nat) (c : NmCmd) (b : NmIssuer) (errs : List GErr) : Nat → Nat → State → State
  | 0, _, s => s
  | k + 1, f, s =>
    if c.count ≤ f then s
    else if !layoutsOk p f (chunkLen c f) c s then nmAbort p s
    else
      runChunks p c b errs k (f + chunkElems c)
        (bump R.SHF_NM_CHUNKS p 1 (runElems p f (chunkLen c f) c b errs s))

/-! ### The schedule (08 R260, R262, R263) -/

/-- Length of the current exposure in ns (01 R24: units of 10 ns). -/
def lenNs (s : State) : Nat := rd R.GLB_EXP_CUR_LEN 0 s * 10

/-- The entry of a unit's queue that runs next. -/
def nextWork (p u : Nat) (s : State) : Option NmWork := ((s.shaft p).queue u).head?

/-- Granules per layer of the next chunk of an entry. -/
def NmWork.granules (w : NmWork) (l : Nat) : Nat :=
  match w with
  | .cmd _ c _ d _ => chunkGranules c d (chunkLen c d) l
  | .remote _ k gs =>
    (gs.map (fun g => bytesIn l (g.addr, 32) / 32)).sum * (if k = .write then 1 else 2)

/-- Work that uses the remote allowance: remote chunks, and the Darkroom's commands (08 R267; 09 R292, R301). -/
def NmWork.isRemote : NmWork → Bool
  | .remote _ _ _ => true
  | .cmd _ _ b _ _ => b.core.isNone

/-- The record of the plate that holds a position's region; none without a plate (08 R260, R267). -/
def posRec (p : Nat) (s : State) : Option RegionRec :=
  match coreOfPos p with
  | some c => recOf (regionOf c) s
  | none => none

/-- The next chunk of a unit may start at time t (08 R260, R267). -/
def mayStart (p u t : Nat) (w : NmWork) (s : State) : Bool :=
  let k := s.shaft p
  let ports := portLayers w.granules
  let time := portTime p w.granules s
  let half := flag R.SHF_LANE_DRAM_HALF (pathOf p s) s
  let spare := ((posRec p s).map (fun q => q.bd)).getD 0 - k.moved
  let rate := if half then 24 else 48
  !mhas u k.runs
  && k.runs.all (fun r => r.2.layers.all (fun l => !ports.contains l))
  && decide (200 ≤ t) && (ports.all (fun l => !(refreshing p s).contains l) || decide (400 ≤ t))
  && decide (t + 100 ≤ lenNs s) && decide (t / 10 = sinceTick s)
  && decide ((rate * time + spare) * 10 ≤ (if half then 252 else 504) * (lenNs s - 100 - t))
  && (upFrom 0 8).all (fun v =>
      decide (v = u) || mhas v k.runs ||
        (match nextWork p v s with
         | some o => decide (w.age < o.age) || !(portLayers o.granules).any ports.contains
         | none => true))
  && (!w.isRemote || (posRec p s).all (fun q => decide (k.remoteUsed + time ≤ q.ar)))
  && (match w with
      | .remote _ _ _ => true
      | .cmd _ c _ d a => !a && decide (d < c.count))

/-- An entry of a unit's queue replaced or removed, by age. -/
def Shaft.setWork (k : Shaft) (u age : Nat) (f : NmWork → Option NmWork) : Shaft :=
  { k with queues := mput u ((k.queue u).filterMap (fun w => if w.age = age then f w else some w)) k.queues }

/-- What a command's completion reports (08 R262, R263): SHF_NM_DONE, its reported tick, late or not. -/
def nmReport (p : Nat) (w : NmWork) (s : State) : State :=
  match w with
  | .remote _ _ _ => s
  | .cmd _ _ b _ _ =>
    let s := s.setShaft p { s.shaft p with fin := (s.shaft p).fin ++ [w] }
    let s := match b.core with
      | some c => if (s.core c).cfg.since ≤ b.frame then s.setCore c { s.core c with nmDone := (s.core c).nmDone + 1 } else s
      | none => s
    let s := wr R.SHF_NM_LAST p (s.frame + 1) (bump R.SHF_NM_DONE p 1 s)
    if b.core.isSome && b.frame + b.k < s.frame + 1 then bump R.SHF_NM_LATE p 1 (raise .nmLate .shf p s) else s

/-- A command of a unit's queue completes (08 R262). -/
def nmComplete (p u : Nat) (w : NmWork) (s : State) : State :=
  match w with
  | .remote _ _ _ => s
  | .cmd age _ _ _ _ => nmReport p w (s.setShaft p ((s.shaft p).setWork u age (fun _ => none)))

/-- The next chunk of unit u starts at time t, if the rules allow; a layout mismatch ends its command. -/
def nmStart (p u t : Nat) (s : State) : State :=
  match nextWork p u s with
  | none => s
  | some w =>
    if !mayStart p u t w s then s
    else
      match w with
      | .remote _ _ gs =>
        let k := s.shaft p
        let time := portTime p w.granules s
        s.setShaft p { k with runs := mput u ⟨w.age, portLayers w.granules, 0, gs.length, true⟩ k.runs,
                              remoteUsed := k.remoteUsed + time }
      | .cmd age c b d _ =>
        let n := chunkLen c d
        if !layoutsOk p d n c s then nmComplete p u (.cmd age c b d true) (nmAbort p s)
        else
          let k := s.shaft p
          s.setShaft p { k with runs := mput u ⟨age, portLayers w.granules, d, n, w.isRemote⟩ k.runs,
                                remoteUsed := k.remoteUsed + (if w.isRemote then portTime p w.granules s else 0) }

/-! ### Remote chunks (08 R267) -/

/-- Eight FP32 values added, each rounded to nearest even. -/
def raccVal (t v : BitVec 256) : BitVec 256 :=
  BitVec.ofNat 256 (packElems 32 ((upFrom 0 8).map (fun i =>
    (narrow .fp32 .rne (Val.add (Fmt.decode .fp32 (elemAt 32 i t.toNat)) (Fmt.decode .fp32 (elemAt 32 i v.toNat)))).bits)))

/-- One arriving granule applied: stored whole, added, or XORed; whether it was written as poison. -/
def applyGran (p : Nat) (kind : RemKind) (errs : List GErr) (g : RGran) (s : State) : Bool × State :=
  match kind with
  | .write => (g.poison, writeUnit p g.addr (leBytes 32 g.data.toNat) g.poison s)
  | k =>
    match checkUnit p g.addr .unit errs s with
    | (bad, s) =>
      let t := BitVec.ofNat 256 (leNat (readBytes p g.addr 32 s))
      let v := if k = .racc then raccVal t g.data else t ^^^ g.data
      let q := bad || g.poison
      (q, bump R.SHF_NM_RACC p 1 (writeUnit p g.addr (leBytes 32 v.toNat) q s))

/-- The granules of a remote chunk in arrival order; how many were written as poison. -/
def applyGrans (p : Nat) (kind : RemKind) (errs : List GErr) : List RGran → Nat → State → Nat × State
  | [], n, s => (n, s)
  | g :: r, n, s =>
    match applyGran p kind errs g s with
    | (q, s) => applyGrans p kind errs r (n + q.toNat) s

/-- The work of a remote chunk. -/
def runRemote (p : Nat) (kind : RemKind) (errs : List GErr) (gs : List RGran) (s : State) : State :=
  match applyGrans p kind errs gs 0 s with
  | (n, s) => nmPoison p n s

/-- A granule joins the queue of its unit in arrival order: a chunk holds up to 128 granules of one kind and page. The
inbound buffer holds 2,048 granules. -/
def remoteArrive (p : Nat) (kind : RemKind) (g : RGran) (s : State) : State :=
  let u := bankCol g.addr
  let k := s.shaft p
  if 2048 ≤ k.inbox then s
  else
    let s := s.setShaft p { k with inbox := k.inbox + 1 }
    let k := s.shaft p
    match (k.queue u).getLast? with
    | some (.remote age kd gs) =>
      if kd = kind && gs.length < 128 && gs.all (fun h => decide (h.addr / 65536 = g.addr / 65536))
          && !(mhas u k.runs && decide ((k.queue u).length = 1)) then
        s.setShaft p (k.setWork u age (fun _ => some (.remote age kd (gs ++ [g]))))
      else enqueue p u (fun a => .remote a kind [g]) s
    | _ => enqueue p u (fun a => .remote a kind [g]) s

/-- The chunk in progress on unit u ends: its work is done and its ports are free (08 R259, R260). `kind`: only a remote
chunk of that kind ends. -/
def chunkEnd (p u : Nat) (kind : Option RemKind) (errs : List GErr) (s : State) : State :=
  let k := s.shaft p
  match mget u k.runs with
  | none => s
  | some run =>
    let free (s : State) : State := s.setShaft p { s.shaft p with runs := mdel u (s.shaft p).runs }
    match k.running u run with
    | some (.cmd age c b d a) =>
      if kind.isSome then s
      else
        let s := free (runElems p run.first run.n c b errs s)
        let s := bump R.SHF_NM_CHUNKS p 1 s
        s.setShaft p ((s.shaft p).setWork u age (fun _ => some (.cmd age c b (d + run.n) a)))
    | some (.remote age kd gs) =>
      if kind.isSome && kind ≠ some kd then s
      else
        let s := free (runRemote p kd errs gs s)
        let s := bump R.SHF_NM_CHUNKS p 1 s
        let k := (s.shaft p).setWork u age (fun _ => none)
        s.setShaft p { k with inbox := k.inbox - gs.length }
    | none => s

/-- The command at the head of a unit's queue, if its last chunk has ended. -/
def ripe (p u : Nat) (s : State) : Option NmWork :=
  match nextWork p u s with
  | some (.cmd age c b d a) => if c.count ≤ d && !mhas u (s.shaft p).runs then some (.cmd age c b d a) else none
  | _ => none

/-- Command complete (08 R262). -/
def nmDone (p u : Nat) (s : State) : State :=
  match ripe p u s with
  | some w => nmComplete p u w s
  | none => s

/-- A near-memory operation as a command of its own: the whole command at a memory position (08 R252 to R257), which completes
in the exposure (08 R262), so within any bound. A spare position has no core and no units of its own: nothing happens. -/
def nmRow (op : NmOp) (p : Nat) (a : NmArgs) (s : State) : State :=
  match coreOfPos p with
  | none => s
  | some c =>
    let o := s.core c
    let k : NmCmd := ⟨op, a.fmt.toNat, a.fmt2.toNat, a.rnd.toNat, a.w1.toNat, a.dst.toNat, a.srca.toNat, a.srcb.toNat,
      a.srcc.toNat, a.count.toNat, a.imm0.toNat, a.imm1.toNat⟩
    if nmBad k then plateFault c a.ctx a.bundle a.cyc.toNat .nmCommand s
    else
      let grad := o.isGradient a.ctx && decide (op = .cvt)
      let b : NmIssuer := ⟨some c, o.slice, a.q, o.cfg.seed, grad || decide (k.rnd = 1), s.frame, max 1 o.cfg.k, o.nextId,
        o.nmIssued, none⟩
      let s := s.setCore c { o with nmIssued := o.nmIssued + 1 }
      nmReport p (.cmd 0 k b k.count false) (runChunks p k b a.errs k.count 0 s)

end Sys2Proof.Machine
end

