-- ==== Sys2Proof/Machine/CoreSteps.lean ====
section
/-! DEFINITION. A core's steps on the whole state (03 R83 to R128, R557; 04 R164, R165; 05 R173 to R183): issuing a
bundle, what a completed operation reports, tile runs, shaft requests, fences, loose departures, the declared cycles'
end. -/
namespace Sys2Proof.Machine

/-! ### Reports (04 R164, R165; 05 R173, R174; 10 R309) -/

/-- `n` raises of an event with a job tag. -/
def raiseTagN (e : Ev) (pg : Pg) (i tag : Nat) : Nat → State → State
  | 0, s => s
  | n + 1, s => raiseTagN e pg i tag n (raiseTag e pg i tag s)

/-- The six flags of a region as bits. -/
def arithBits (r : Nat) (s : State) : Nat :=
  rd R.TWR_RGN_ARITH_NAN_IN r s + 2 * rd R.TWR_RGN_ARITH_INF_IN r s + 4 * rd R.TWR_RGN_ARITH_ACC_OVF r s
    + 8 * rd R.TWR_RGN_ARITH_SAT r s + 16 * rd R.TWR_RGN_ARITH_NAN_LOST r s + 32 * rd R.TWR_RGN_ARITH_INF_OUT r s

/-- Flags set; FIRST takes the first one set since all were clear (entry 16). -/
def setArith (r n : Nat) (s : State) : State :=
  let s := if arithBits r s = 0 && n ≠ 0 then wr R.TWR_RGN_ARITH_FIRST r (firstBit n) s else s
  let s := orIn R.TWR_RGN_ARITH_NAN_IN r (bitsAt n 0 1) s
  let s := orIn R.TWR_RGN_ARITH_INF_IN r (bitsAt n 1 1) s
  let s := orIn R.TWR_RGN_ARITH_ACC_OVF r (bitsAt n 2 1) s
  let s := orIn R.TWR_RGN_ARITH_SAT r (bitsAt n 3 1) s
  let s := orIn R.TWR_RGN_ARITH_NAN_LOST r (bitsAt n 4 1) s
  orIn R.TWR_RGN_ARITH_INF_OUT r (bitsAt n 5 1) s

/-- An event on a core's region page, with the tag of the core's job. -/
def coreEvent (e : Ev) (c : Nat) (s : State) : State := raiseTag e .rgn (regionOf c) (tagOf c s) s

/-- What an operation reports (04 R164, R165; 10 R309). `conv`: CVT or CONV. -/
def report (c : Nat) (conv : Bool) (f : Flg) (s : State) : State :=
  let r := regionOf c
  let s := setArith r f.bits s
  let s := bump R.TWR_RGN_SAT_CNT r f.satN s
  let s := bump R.TWR_RGN_NAN_CNT r f.nanN s
  let s := bump R.TWR_RGN_SCORE_NAN r f.scoreNan s
  let s := bump R.TWR_RGN_SCORE_INF r f.scoreInf s
  let s := if f.nanEvt then coreEvent .arithNan c s else s
  let s := if f.infEvt then coreEvent .arithInf c s else s
  let s := if f.nanLost && conv then coreEvent .convNanLost c s else s
  let s := raiseTagN .attnScoreNan .rgn r (tagOf c s) f.scoreNan s
  raiseTagN .attnScoreInf .rgn r (tagOf c s) f.scoreInf s

/-- ⌊rho × 2^32⌋ of an FP32 number; an infinity saturates every sum. -/
def rhoUnits (rho : Nat) : Nat :=
  match Fmt.decode .fp32 rho with
  | .fin _ m e => toUnits .rtz m e (-32)
  | _ => 2 ^ 64

/-- One lane of WUPD counted in a ratio-watch set (05 R173, R174). -/
def addRw (c : Nat) (u : RwUpd) (s : State) : State :=
  let r := regionOf c
  let i := u.set
  match u.rho with
  | none => s
  | some rho =>
    let sum := rd (R.TWR_RGN_RW_SUM i) r s + rhoUnits rho
    let s :=
      if 2 ^ 64 ≤ sum then
        let first := !flag (R.TWR_RGN_RW_SUM_SAT i) r s
        let s := wr (R.TWR_RGN_RW_SUM i) r (2 ^ 64 - 1) (wr (R.TWR_RGN_RW_SUM_SAT i) r 1 s)
        if first then coreEvent .rwSumSat c s else s
      else wr (R.TWR_RGN_RW_SUM i) r sum s
    let s := bump (R.TWR_RGN_RW_COUNT i) r 1 s
    let s := if Val.lt (Fmt.decode .fp32 (rd R.TWR_RGN_RW_THRESH r s)) (Fmt.decode .fp32 rho) then
        bump (R.TWR_RGN_RW_OVER i) r 1 s else s
    let s := wr (R.TWR_RGN_RW_MAX i) r (max (rd (R.TWR_RGN_RW_MAX i) r s) rho) s
    match u.expo with
    | none => s
    | some e =>
      let old := signed 8 (rd (R.TWR_RGN_RW_EMAX i) r s)
      wr (R.TWR_RGN_RW_EMAX i) r (unsigned 8 (max old (max e (-127)))) s

/-! ### Issue (03 R83 to R90, R97, R103, R116, R557) -/

/-- The core may issue in cycle `cyc` of this exposure. -/
def Core.mayIssue (o : Core) (cyc : Nat) : Bool :=
  o.on && !o.stopped && decide (o.cyc ≤ cyc) && decide (cyc < o.cfg.cycles)

/-- The context has a next bundle in cycle `cyc` (03 R557): it runs, and an LDS stall is over. -/
def Core.hasNext (o : Core) (x cyc : Nat) : Bool := decide ((o.ctx x).mode = .run) && decide ((o.ctx x).readyAt ≤ cyc)

/-- Nothing but readiness keeps the context's next bundle from issuing in cycle `cyc`: it waits on no fence, and no tray retry
delays it. -/
def Core.unheld (o : Core) (x cyc : Nat) : Bool := decide ((o.ctx x).wait = .none) && decide ((o.ctx x).delay ≤ cyc)

/-- The faults checked at issue (03 R109; 08 R254, R258, R261). -/
def issueCause (c x : Nat) (b : Bundle) (s : State) : Option Cause :=
  let o := s.core c
  if budgetBad o x b.sh then some .shaftBudget
  else
    match b.sh with
    | .nm sb =>
      (match nmCheck c (o.line (o.sv x sb)).data s with
       | .error e => some e
       | .ok _ => none)
    | .st sa _ n => if nmHazard c (o.sv x sa, (n.val + 1) * 128) s then some .nmHazard else none
    | _ => none

/-- Destination ranges of the core's commands that have not reached their reported tick (03 R112). -/
def incompleteDests (c : Nat) (s : State) : List (Nat × Nat) :=
  let k := s.shaft (posOf c)
  (k.works ++ k.fin).filterMap (fun w =>
    match w with
    | .cmd _ m b _ _ => if b.core = some c then some (nmRanges m).2 else none
    | _ => none)

/-- What the shaft slot does outside the core: a near-memory command enters its queue; FENCE.NM notes what it waits
for. -/
def shaftSide (c x : Nat) (b : Bundle) (o : Core) (s : State) : State :=
  match b.sh with
  | .nm sb =>
    (match nmParse (o.line (o.sv x sb)).data with
     | some k => nmEnter c x k o s
     | none => s)
  | .fenceNm _ _ =>
    let k := (s.core c).ctx x
    (match k.wait with
     | .nm u a l bu _ => s.setCore c ((s.core c).setCtx x { k with wait := .nm u a l bu (incompleteDests c s) })
     | _ => s)
  | _ => s

/-- A ready bundle issues whole (03 R83, R89). -/
def commit (c x cyc : Nat) (b : Bundle) (s : State) : State :=
  let o := s.core c
  let ptr := (o.ctx x).ptr
  match doSlots c x ptr cyc b o s.free with
  | (w, fr) =>
    let w := advance o x ptr cyc b w
    let w := { w with cyc := cyc + 1, doneCyc := max w.doneCyc cyc }
    let w := if o.isTimed x then { w with lastTimed := x } else { w with lastFree := x }
    shaftSide c x b o ({ s with free := fr }.setCore c w)

/-- The fault of context x's next bundle in one cycle: of those that it meets before it is ready and, where it would otherwise
issue (`goes`), the one checked at issue, that with the lowest code (03 R557). -/
def bundleCause (c x : Nat) (goes : Bool) (b : Bundle) (s : State) : Option Cause :=
  let early := earlyFaults (s.core c) x ((s.core c).ctx x).ptr b
  match early.head?, (if goes then issueCause c x b s else none) with
  | some e, some i => some (if i.code < e.code then i else e)
  | some e, none => some e
  | none, i => i

/-- Context x of core c has `b` as its next bundle in cycle `cyc`: it faults, waits, or issues (03 R88, R557). -/
def issueBundle (c x cyc : Nat) (b : Bundle) (s : State) : State :=
  let o := { s.core c with cyc := cyc }
  if inFix s || !(s.core c).mayIssue cyc || !o.hasNext x cyc then s
  else
    let goes := o.unheld x cyc && ready o x b
    match bundleCause c x goes b s with
    | some cause => plateFault c x (o.ctx x).ptr cyc cause s
    | none => if goes then commit c x cyc b s else s

/-- One slot of a bundle whose other slots are NOP, issued in the core's current cycle. -/
def issueSlot (c x : Nat) (b : Bundle) (s : State) : State := issueBundle c x (s.core c).cyc b s

def issueScalar (c x : Nat) (o : ScSlot) (s : State) : State := issueSlot c x { Bundle.nops with sc := o } s
def issueVector (c x : Nat) (o : VSlot) (s : State) : State := issueSlot c x { Bundle.nops with v := o } s

/-- The next bundle of a context; none where its encoding is reserved or its CODE line was poisoned (03 R97, 07 R232). -/
def fetch (o : Core) (x : Nat) : Option Bundle :=
  let w := mgetD (o.ctx x).ptr ⟨0, false⟩ o.store
  if w.poison then none else decodeBundle w.w

/-- The context runs past bundle 2,047: a fault in the cycle after that bundle issued, whatever it stalls for (03 R114). -/
def Core.past (o : Core) (x : Nat) : Bool := decide ((o.ctx x).mode = .run) && decide (2047 < (o.ctx x).ptr)

/-- The fault of a context in cycle `cyc` and the bundle recorded; `goes`: its next bundle would otherwise issue (03 R114,
R557). -/
def nextFault (c x cyc : Nat) (goes : Bool) (s : State) : Option (Cause × Nat) :=
  let o := s.core c
  if o.past x then some (.bundleRange, 2047)
  else if !o.hasNext x cyc then none
  else
    match fetch o x with
    | none => some (.illegalBundle, (o.ctx x).ptr)
    | some b => (bundleCause c x goes b s).map (fun e => (e, (o.ctx x).ptr))

/-- Contexts in round-robin order after `last` (03 R84). -/
def rrFrom (last : Nat) : List Nat := (upFrom (last + 1) 16).map (fun n => n % 16)

/-- The context whose next bundle issues in cycle `cyc` (03 R84). -/
def pickCtx (o : Core) (cyc : Nat) : Option (Nat × Bundle) :=
  let able (x : Nat) : Option (Nat × Bundle) :=
    if o.hasNext x cyc && o.unheld x cyc then
      match fetch o x with
      | some b => if ready o x b then some (x, b) else none
      | none => none
    else none
  match ((rrFrom o.lastTimed).filter o.isTimed).findSome? able with
  | some r => some r
  | none => ((rrFrom o.lastFree).filter (fun x => !o.isTimed x)).findSome? able

/-- The inbound slot's line that a move reads (03 R102). -/
def inRead (o : Core) : MSlot → List (Nat × Nat)
  | .take k _ => [(inLine k.val, 1)]
  | .takel k _ _ => [(inLine k.val, 1)]
  | .ltake _ _ _ => (o.held.take 1).map (fun h => (inLine h.1, 1))
  | _ => []

/-- The lines among `par` that the bundle reads and that are not poisoned already (03 R126). -/
def parityHits (o : Core) (x : Nat) (b : Bundle) (par : List TrayParity) : List TrayParity :=
  par.filter (fun p => ((b.names o x).lr ++ inRead o b.mv).any (fun r =>
      decide (r.1 ≤ p.line.val) && decide (p.line.val < r.1 + r.2))
    && !(o.line p.line.val).poison)

/-- A read that failed parity: counted, and poisoned with its event if the retry failed (03 R126). -/
def trayRetry (c : Nat) (p : TrayParity) (s : State) : State :=
  let s := bump R.TWR_RGN_TRAY_RETRY (regionOf c) 1 s
  if p.fails then
    let o := s.core c
    coreEvent .trayError c (s.setCore c (o.setLine p.line.val { o.line p.line.val with poison := true }))
  else s

/-- One cycle of a core's issue stage (03 R83, R84, R126, R557): a context whose next bundle breaks a rule faults, the
lowest first; else the first ready context in order issues, or is delayed by a tray retry. -/
def issueCycle (c cyc : Nat) (par : List TrayParity) (s : State) : State :=
  let o := { s.core c with cyc := cyc }
  if inFix s || !(s.core c).mayIssue cyc then s
  else
    let pick := pickCtx o cyc
    let hits := match pick with
      | some (x, b) => parityHits o x b par
      | none => []
    match (upFrom 0 16).findSome? (fun x =>
        (nextFault c x cyc (pick.any (fun r => decide (r.1 = x)) && hits.isEmpty) s).map (fun f => (x, f))) with
    | some (x, cause, ptr) => plateFault c x ptr cyc cause s
    | none =>
      match pick with
      | none => s.setCore c { o with cyc := cyc + 1 }
      | some (x, b) =>
        if hits.isEmpty then issueBundle c x cyc b s
        else
          let s := s.setCore c ({ o with cyc := cyc + 1 }.setCtx x { o.ctx x with delay := cyc + 4 })
          hits.foldl (fun s p => trayRetry c p s) s

/-! ### Completions (03 R89, R108 to R114; 04 R146, R147; 05 R180, R181) -/

/-- Lines of a cube operation written and its operation taken out of flight. -/
def landCube (c : Nat) (f : Flight) (o : CubeOut) (s : State) : State :=
  let k := landLines (dropFlight (s.core c) f.id) o.lines f.early f.poison
  s.setCore c { k with doneCyc := max k.doneCyc f.due }

/-- ts(i) of a TILE.Z takes the shift of its kept run (05 R180). -/
def setScale (c : Nat) (f : Flight) (j : CubeJob) (s : State) : State :=
  if j.op = .tileZ then
    let o := s.core c
    let k := o.ctx f.ctx
    s.setCore c (o.setCtx f.ctx { k with scales := mput j.td (runShift o f j) k.scales })
  else s

/-- A TILE, TILE.Z, MV or MV.Z run reaches its last drain (05 R180, R181, R184). -/
def runEnds (c : Nat) (f : Flight) (j : CubeJob) (s : State) : State :=
  let k := s.core c
  let o := runOut k f j
  match runEnd k j o.ovf with
  | .retake =>
    let n := j.desc.cycles j.op k.cfg.mirel
    let f' := { f with due := f.due + n, cube := some { j with runs := j.runs + 1 } }
    let s := s.setCore c { k with reserveLeft := k.reserveLeft - n,
                                  flights := k.flights.map (fun g => if g.id = f.id then f' else g) }
    let s := setArith (regionOf c) 4 s
    coreEvent .retake c (bump R.TWR_RGN_RETAKE_CNT (regionOf c) 1 s)
  | .saturated =>
    let s := report c false o.flg (landCube c f o (setScale c f j s))
    coreEvent .tileSaturated c (bump R.TWR_RGN_TILE_SAT_CNT (regionOf c) 1 s)
  | .noReserve =>
    coreEvent .accOverflow c (report c false o.flg (landCube c f o (setScale c f j s)))
  | .clean => report c false o.flg (landCube c f o (setScale c f j s))

/-- An operation in flight completes (03 R89). -/
def flightEnds (c : Nat) (f : Flight) (s : State) : State :=
  match f.cube with
  | some j =>
    if j.op = .conv then
      let o := convOut (s.core c) c f j
      report c true o.flg (landCube c f o s)
    else runEnds c f j s
  | none =>
    let k := landFlight (s.core c) f
    let s := s.setCore c { k with doneCyc := max k.doneCyc f.due }
    f.rw.foldl (fun s u => addRw c u s) (report c f.conv f.flg s)

/-! ### The read cache (03 R113) -/

/-- The set of a line. -/
def cacheSet (a : Nat) : Nat := a / 128 % 64

/-- A present line made the most recently used. -/
def cacheTouch (o : Core) (a : Nat) : Core :=
  { o with cache := mmod (cacheSet a) [] (fun ws =>
      (ws.filter (fun w => decide (w.1 = a))) ++ ws.filter (fun w => decide (w.1 ≠ a))) o.cache }

/-- A line allocated; the least recently used of eight ways is replaced. -/
def cachePut (o : Core) (a : Nat) (l : Line) (p : Bool) : Core :=
  { o with cache := mmod (cacheSet a) [] (fun ws => ((a, l, p) :: ws.filter (fun w => decide (w.1 ≠ a))).take 8) o.cache }

/-- The line held for address a. -/
def cacheHit (o : Core) (a : Nat) : Option (Line × Bool) :=
  ((mgetD (cacheSet a) [] o.cache).find? (fun w => decide (w.1 = a))).map (fun w => w.2)

/-- A present line updated by a store of line `l` at `a`: the bytes they share. -/
def cacheStore (o : Core) (a : Nat) (l : Line) (p : Bool) : Core :=
  { o with cache := mmap (fun _ ws => ws.map (fun w =>
      if w.1 = a then (w.1, l, p)
      else if meets (w.1, 128) (a, 128) then
        (w.1, BitVec.ofNat 1024 (leNat ((upFrom 0 128).map (fun i =>
          let x := w.1 + i
          if a ≤ x && x < a + 128 then BitVec.ofNat 8 (bitsAt l.toNat (8 * (x - a)) 8)
          else BitVec.ofNat 8 (bitsAt w.2.1.toNat (8 * i) 8)))), w.2.2 || p)
      else w)) o.cache }

/-- Bytes moved over the DRAM path counted (08 R260). -/
def pathMoved (p a n : Nat) (s : State) : State :=
  if isDram a then
    let k := s.shaft p
    s.setShaft p { k with moved := k.moved + n }
  else s

/-- The head request of a core's queue with one more line done; it leaves when all are. -/
def lineDone (o : Core) (q : ShReq) (n : Nat) : Core :=
  { o with shq := if q.done + n = q.count then o.shq.filter (fun r => decide (r.id ≠ q.id))
                  else o.shq.map (fun r => if r.id = q.id then { r with done := r.done + n } else r) }

/-- Plate reads move over a shaft: from 200 ns to the fix window, and in the host slot where it is the plate's (01 R32; 07
R224). -/
def readWindow (p : Nat) (s : State) : Bool := inWindow s || (inSlot s && (s.shaft p).lent)

/-- The line at `a` waits for a refreshing layer (07 R241). -/
def pathShut (p a : Nat) (s : State) : Bool := isDram a && layerShut p (layerOf a) s

/-- A line of a request waits for a refreshing layer. -/
def reqShut (p : Nat) (q : ShReq) (s : State) : Bool :=
  (upFrom q.done (q.count - q.done)).any (fun i => pathShut p (q.addr + 128 * i) s)

/-- The next line of the load at the head of the core's requests lands, EARLY (03 R108, R110, R113; 08 R264). -/
def loadLand (c : Nat) (errs : List GErr) (s : State) : State :=
  let o := s.core c
  match o.shq with
  | [] => s
  | q :: _ =>
    let p := posOf c
    let a := q.addr + 128 * q.done
    if q.kind ≠ .ld || !readWindow p s || (runningDests (s.shaft p)).any (meets (a, 128)) then s
    else
      let land (l : Line) (poison : Bool) (s : State) : State :=
        let o := s.core c
        enterNow c (s.setCore c (lineDone (o.setLine (q.line + q.done) ⟨l, .early, poison⟩) q 1))
      let useCache := isDram a && !q.bypass
      match (if useCache then cacheHit o a else none) with
      | some (l, poison) => land l poison (s.setCore c (cacheTouch o a))
      | none =>
        if pathShut p a s then s
        else
          match coreReadLine p a errs s with
          | (l, poison, s) =>
            let s := pathMoved p a 128 s
            let s := if useCache then s.setCore c (cachePut (s.core c) a l poison) else s
            land l poison s

/-- Address of the result line (14 R421). -/
def resultLine : Nat := 0x1017C000

/-- A store over [a, a + n) of core c has been performed: the first that covers the result line makes the job's slot
LATENT; later ones are counted (14 R421, R424). -/
def resultHook (c a n : Nat) (s : State) : State :=
  let k := s.plate (s.core c).cfg.plate
  match k.img, k.job with
  | some m, some j =>
    (match j.slot with
     | some q =>
       if m.resultCore = c && decide (a ≤ resultLine) && decide (resultLine + 128 ≤ a + n) then
         let r := s.rslot q
         if r.st = .empty then
           let p := posOf c
           s.setRslot q { r with st := .latent, poison := (unitsOf resultLine 128).any (fun u => storedPoison p u s),
                                 data := BitVec.ofNat 896 (leNat (readBytes p resultLine 112 s)) }
         else bump R.RING_LATE_RESULT 0 1 s
       else s
     | none => s)
  | _, _ => s

/-- A store performed: its lines are written through, and its sources unlocked (03 R86, R110, R113; 07 R233). -/
def storeDone (c : Nat) (q : ShReq) (s : State) : State :=
  let p := posOf c
  let s := (upFrom 0 q.count).foldl (fun s i =>
    let o := s.core c
    let l := o.line (q.line + i)
    let a := q.addr + 128 * i
    let s := coreWriteLine p a l.data l.poison s
    pathMoved p a 128 (s.setCore c (cacheStore (s.core c) a l.data l.poison))) s
  enterNow c (resultHook c q.addr (128 * q.count) (s.setCore c (lineDone (s.core c) q q.count)))

/-- The eight bundles of a code line. -/
def codeWords (first : Nat) (l : Line) (poison : Bool) : List (Nat × BWord) :=
  (upFrom 0 8).map (fun i => (first + i, ⟨BitVec.ofNat 128 (bitsAt l.toNat (128 * i) 128), poison⟩))

/-- A code load performed: its bundles are queued for the next tick (03 R111, R114). -/
def codeDone (c : Nat) (q : ShReq) (errs : List GErr) (s : State) : State :=
  let p := posOf c
  let s := (upFrom 0 q.count).foldl (fun s i =>
    let a := q.addr + 128 * i
    match coreReadLine p a errs s with
    | (l, poison, s) =>
      let o := s.core c
      pathMoved p a 128 (s.setCore c { o with codeq := o.codeq ++ codeWords (q.line + 8 * i) l poison })) s
  enterNow c (s.setCore c (lineDone (s.core c) q q.count))

/-- The operation numbered `id` of a core completes (03 R89), before the fix window: one in flight, or the store or code load
at the head of the core's requests, in the window of its kind (01 R25, R32; 07 R224, R241). -/
def operationComplete (c id : Nat) (errs : List GErr) (s : State) : State :=
  let o := s.core c
  if inFix s then s
  else
    match o.flights.find? (fun f => decide (f.id = id)) with
    | some f => flightEnds c f s
    | none =>
      match o.shq with
      | [] => s
      | q :: _ =>
        if q.id ≠ id || reqShut (posOf c) q s then s
        else
          match q.kind with
          | .ld => s
          | .st => if inWindow s then storeDone c q s else s
          | .code => if readWindow (posOf c) s then codeDone c q errs s else s

/-- A tile run's last drain, by the operation's number. -/
def cubeRunEnds (c id : Nat) (s : State) : State :=
  if inFix s then s
  else
  match (s.core c).flights.find? (fun f => decide (f.id = id)) with
  | some f =>
    (match f.cube with
     | some j => if j.op = .conv then s else runEnds c f j s
     | none => s)
  | none => s

/-- FENCE.SHAFT completes once every earlier request of its context has (03 R111). -/
def fenceShaftDone (c x : Nat) (s : State) : State :=
  if inFix s then s
  else
  let o := s.core c
  let k := o.ctx x
  match k.wait with
  | .shaft before _ =>
    if o.shq.any (fun q => decide (q.ctx = x) && decide (q.id < before)) then s
    else s.setCore c (o.setCtx x { k with wait := .none })
  | _ => s

/-- FENCE.NM completes and invalidates (03 R112; 08 R265). -/
def fenceNmDone (c x : Nat) (s : State) : State :=
  if inFix s then s
  else
  let o := s.core c
  let k := o.ctx x
  let sh := s.shaft (posOf c)
  match k.wait with
  | .nm upTo a len _ dests =>
    if (sh.works ++ sh.fin).any (fun w =>
        match w with
        | .cmd _ _ b _ _ => decide (b.core = some c) && decide (b.ord < upTo)
        | _ => false)
      || (runningRanges sh).any (meets (a, len)) then s
    else
      let o := o.setCtx x { k with wait := .none }
      s.setCore c (((a, len) :: dests).foldl (fun o r => dropCache o r.1 r.2) o)
  | _ => s

/-! ### The declared cycles' end (03 R117, R558) -/

/-- An operation of context x that has not completed: the bundle that issued it. Of several, one in flight comes before a shaft
request, and a request before a fence (DESIGN CHOICE, entry 135). -/
def openOp (o : Core) (x : Nat) : Option Nat :=
  match o.flights.find? (fun f => decide (f.ctx = x)) with
  | some f => some f.bundle
  | none =>
    match o.shq.find? (fun q => decide (q.ctx = x)) with
    | some q => some q.bundle
    | none =>
      match (o.ctx x).wait with
      | .shaft _ b => some b
      | .nm _ _ _ b _ => some b
      | .none => none

/-- What the core has left undone: the context and the bundle that R558 records. -/
def unfinished (o : Core) : Option (Nat × Nat) :=
  match (upFrom 0 16).find? (fun x => decide ((o.ctx x).mode = .run)) with
  | some x => some (x, (o.ctx x).ptr)
  | none => (upFrom 0 16).findSome? (fun x => (openOp o x).map (fun b => (x, b)))

/-- The fault of a core whose declared cycles are over (03 R117, R558): bundle 2,047 issued in the last of them leaves a pointer
past it, whose lower code is recorded (03 R114; entry 134). -/
def cyclesFault (o : Core) : Option (Cause × Nat × Nat) :=
  match (upFrom 0 16).find? o.past with
  | some x => some (.bundleRange, x, 2047)
  | none => (unfinished o).map (fun u => (.exposureOverrun, u))

/-- A region's cycle counter reaches cycles_r (03 R117, R129). -/
def cyclesEnd (r : Nat) (s : State) : State :=
  let on (c : Nat) : Bool := (s.core c).on
  let cs := (regionCores r).filter on
  if cs.isEmpty then s
  else
    let s := wr R.TWR_RGN_CYCLES_LAST_DONE r
      ((cs.filter (fun c => (unfinished (s.core c)).isNone)).foldl (fun m c => max m (s.core c).doneCyc) 0) s
    cs.foldl (fun s c =>
      let o := s.core c
      if o.stopped then s
      else
        match cyclesFault o with
        | some (e, x, b) => plateFault c x b o.cfg.cycles e s
        | none => s) s

end Sys2Proof.Machine
end

