-- ==== Sys2Proof/Machine/Fabric.lean ====
section
/-! DEFINITION. The package fabric (06 R189 to R216): departures and arrivals, mesh hops, the seam, the bridges with
their send and landing queues and ledgers, shadow slots, lost wires. Endpoints are in Routes.lean. -/
namespace Sys2Proof.Machine

/-! ### Slots of a core (03 R104, R105; 06 R193, R214, R215) -/

/-- The core sends poison and absorbs arrivals: it is fenced or a hole. -/
def deadCore (c : Nat) (s : State) : Bool := fenced c s || isHole c s

/-- A departure at a cycle: outbound slot `k` read (03 R104; 06 R214, R215). -/
def departFlit (c k cycle : Nat) (s : State) : Flit × State :=
  if deadCore c s then (Flit.bad, bump R.HALF_POISON_OUT (halfOf c) 1 s)
  else
    let o := s.core c
    let v := o.line (outLine k)
    if v.pres = .full then
      (⟨true, v.poison, 0, 0, v.data, none⟩, s.setCore c (o.setLine (outLine k) { v with pres := .empty, poison := false }))
    else (Flit.none, plateFault c 0 0 cycle .scheduleMiss s)

/-- A flit absorbed at a fenced core or a hole (06 R214, R215). -/
def absorb (c : Nat) (s : State) : State := bump R.HALF_FENCE_DROP (halfOf c) 1 s

/-- Inbound slot `k` written (03 R105; 06 R193); a fault clears the staging of exposure `n`. -/
def arriveAt (n c k cycle : Nat) (f : Flit) (s : State) : State :=
  if !f.valid then s
  else if deadCore c s then absorb c s
  else
    let o := s.core c
    if (o.line (inLine k)).pres = .empty then s.setCore c (o.setLine (inLine k) ⟨f.data, .full, f.poison⟩)
    else plateFaultAt n c 0 0 cycle .mailboxOverrun s

/-- An arrival at a cycle of the exposure. -/
def arriveFlit (c k cycle : Nat) (f : Flit) (s : State) : State := arriveAt (actFrame s) c k cycle f s

/-- A lagged flit written into its shadow slot (06 R195, R214). -/
def shadowFlit (c k : Nat) (f : Flit) (s : State) : State :=
  if !f.valid then s
  else if deadCore c s then absorb c s
  else
    let o := s.core c
    s.setCore c { o with shadow := mput k ⟨f.data, .full, f.poison⟩ o.shadow }

/-- Step 3 for one core: its shadow slots move into its inbound slots (06 R195; 03 R558). -/
def swapCore (c : Nat) (s : State) : State :=
  let o := s.core c
  o.shadow.foldl (fun s e =>
    let o := s.core c
    let s := s.setCore c { o with shadow := mdel e.1 o.shadow }
    arriveAt (s.frame + 2) c e.1 o.cfg.cycles ⟨true, e.2.poison, 0, 0, e.2.data, none⟩ s) s

/-! ### The mesh of a half (06 R189, R191) -/

/-- The router and input port that a flit driven on a mesh port reaches. -/
def meshNext (c out : Nat) : Option (Nat × Nat) :=
  let h := halfOf c
  match out with
  | 1 => if rowOf c = 0 then none else some (coreAt h (rowOf c - 1) (colOf c), 2)
  | 2 => if rowOf c = 31 then none else some (coreAt h (rowOf c + 1) (colOf c), 1)
  | 3 => if colOf c = 0 then none else some (coreAt h (rowOf c) (colOf c - 1), 4)
  | 4 => if colOf c = 15 then none else some (coreAt h (rowOf c) (colOf c + 1), 3)
  | _ => none

/-- Key of a router's input port in a cycle. -/
def wireKey (c inp cycle : Nat) : Nat := (c * 8 + inp) * 4096 + cycle

/-- A flit driven onto a mesh port in a cycle is present at the next router in the cycle after (06 R191). -/
def driveMesh (c out cycle : Nat) (f : Flit) (s : State) : State :=
  match meshNext c out with
  | some (d, p) => { s with fab := { s.fab with wires := mput (wireKey d p (cycle + 1)) f s.fab.wires } }
  | none => s

/-- The flit present at a mesh input in a cycle: every entry of that input and cycle takes it (06 R191). -/
def takeMesh (c inp cycle : Nat) (s : State) : Flit × State := (mgetD (wireKey c inp cycle) Flit.none s.fab.wires, s)

/-! ### Loose messages on their way (06 R213) -/

/-- A crossing of a loose message has landed: the message waits in the loose shelf with what the flit carries. -/
def looseLanded (id : Nat) (f : Flit) (s : State) : State :=
  { s with fab := { s.fab with loose := s.fab.loose.map (fun x =>
      if x.2.id = id then (x.1, { x.2 with fly := false, poison := f.poison, data := f.data }) else x) } }

/-- A lagged flit lands: a loose message in the shelf, any other in its shadow slot (06 R195, R213). -/
def laggedIn (c k : Nat) (f : Flit) (s : State) : State :=
  match f.loose with
  | some id => looseLanded id f s
  | none => shadowFlit c k f s

/-- The poison flit that lands in place of a flit (06 R200, R207). -/
def Flit.spoilt (f : Flit) : Flit := { Flit.bad with dslot := f.dslot, dcol := f.dcol, loose := f.loose }

/-! ### The seam (06 R197 to R200) -/

/-- Key of a tower's seam link of a row; direction 0 is West to East. -/
def seamKey (t row d : Nat) : Nat := t * 64 + row * 2 + d

/-- A seam link is in service (06 R218). -/
def seamUp (t row d : Nat) (s : State) : Bool :=
  (if d = 0 then rd R.SEAM_LINK_W2E t s else rd R.SEAM_LINK_E2W t s).testBit row

/-- A flit injected into the seam link of a row, out of a half. -/
def seamInject (h row : Nat) (f : Flit) (s : State) : State :=
  let t := h / 2
  let d := h % 2
  let k := seamKey t row d
  if !f.valid || !seamUp t row d s then s
  else
    let s := bump (if d = 0 then R.SEAM_FLITS_W2E else R.SEAM_FLITS_E2W) t 1 s
    { s with fab := { s.fab with seams := mmod k [] (fun q => q ++ [f]) s.fab.seams,
                                 crossings := mmod k 0 (fun n => n + 1) s.fab.crossings } }

/-- The oldest flit in a seam crossing queue lands; a parity error makes it a poison flit (06 R198, R200). -/
def seamLand (t row d : Nat) (parity : Bool) (s : State) : State :=
  let k := seamKey t row d
  match mgetD k [] s.fab.seams with
  | [] => s
  | f :: r =>
    let s := { s with fab := { s.fab with seams := mput k r s.fab.seams } }
    let dst := coreAt (t * 2 + (1 - d)) row f.dcol
    if parity then
      laggedIn dst f.dslot f.spoilt
        (bump R.SEAM_PARITY t 1 (raise .seamParity .seam t s))
    else laggedIn dst f.dslot f s

/-! ### The bridges (06 R202 to R208) -/

/-- Half and first row of the landing set at a bridge's lower and higher tower (06 R203). -/
def bridgeEnds : Nat → (Nat × Nat) × (Nat × Nat)
  | 0 => ((1, 0), (2, 0))
  | 1 => ((5, 16), (6, 16))
  | 2 => ((0, 16), (4, 0))
  | 3 => ((3, 16), (7, 0))
  | 4 => ((1, 16), (6, 0))
  | _ => ((2, 16), (5, 0))

/-- The end that direction d sends from, and the one it lands at: D0 runs from the lower tower. -/
def brgFrom (b d : Nat) : Nat × Nat := if d = 0 then (bridgeEnds b).1 else (bridgeEnds b).2
def brgTo (b d : Nat) : Nat × Nat := if d = 0 then (bridgeEnds b).2 else (bridgeEnds b).1

/-- The bridge, direction and tap at a router of logical column 15. -/
def tapOf (c : Nat) : Option (Nat × Nat × Nat) :=
  ((upFrom 0 12).findSome? (fun k =>
    let b := k / 2
    let d := k % 2
    let e := brgFrom b d
    if e.1 = halfOf c && e.2 ≤ rowOf c && rowOf c < e.2 + 16 then some (b, d, rowOf c - e.2) else none))

def brgKey (b d : Nat) : Nat := b * 2 + d
def State.brg (s : State) (b d : Nat) : BrgDir := mgetD (brgKey b d) BrgDir.init s.fab.brgs
def State.setBrg (s : State) (b d : Nat) (v : BrgDir) : State :=
  { s with fab := { s.fab with brgs := mput (brgKey b d) v s.fab.brgs } }

/-- Width of a bridge direction: 0 down, 1 narrow, 2 full (06 R219). -/
def brgWidth (b d : Nat) (s : State) : Nat := rd (if d = 0 then R.BRG_STAT_WIDTH_D0 else R.BRG_STAT_WIDTH_D1) b s

/-- A flit injected into a bridge direction: a credit is taken (06 R206). Empty flits are not injected (entry 21); a flit
that finds the 1,024 places of the send queue taken waits before it without a credit (entry 138). -/
def brgInject (b d tap : Nat) (f : Flit) (s : State) : State :=
  if !f.valid || brgWidth b d s = 0 then s
  else
    let q := s.brg b d
    let full := decide (1024 ≤ q.sendq.length)
    let s := s.setBrg b d { q with sendq := q.sendq ++ [⟨q.next, tap, f⟩], next := (q.next + 1) % 2048 }
    if full then s else bump (R.BRG_CRD_OUT d) b 1 (drop (R.BRG_CRD_AVAIL d) b 1 s)

/-- A flit injected at the bridge tap of a router. -/
def tapInject (c : Nat) (f : Flit) (s : State) : State :=
  match tapOf c with
  | some (b, d, tap) => brgInject b d tap f s
  | none => s

/-- A flit arrives at the landing end (06 R206): in order and good, it joins the landing queue; else it is discarded and
will be replayed, unless it was retired. A good flit for which the landing queue has no place stays in the send queue (entry
138). -/
def brgArrive (b d seq : Nat) (crcOk : Bool) (s : State) : State :=
  let q := s.brg b d
  match (q.sendq.take 1024).find? (fun f => decide (f.seq = seq)) with
  | none => s
  | some f =>
    if q.landq.any (fun g => decide (g.seq = seq)) then s
    else if crcOk && seq = q.expect then
      if 64 ≤ q.landq.length || 4 ≤ (q.landq.filter (fun g => decide (g.tap = f.tap))).length then s
      else
      let s := s.setBrg b d { q with landq := q.landq ++ [f], expect := (seq + 1) % 2048 }
      bump (R.BRG_BUF_OCC d) b 1 (drop (R.BRG_BUF_FREE d) b 1 s)
    else raise .bridgeReplay .brg b (bump (R.BRG_REPLAY d) b 1 s)

/-- The core and slot that a bridge flit is addressed to. -/
def brgDest (b d : Nat) (f : BrgFlit) : Nat := coreAt (brgTo b d).1 ((brgTo b d).2 + f.tap) f.flit.dcol

/-- The sender retires a flit: its credit returns, or passes to the oldest flit that waits without one. -/
def brgRetire (b d seq : Nat) (s : State) : State :=
  let q := s.brg b d
  let s := s.setBrg b d { q with sendq := q.sendq.eraseP (fun f => decide (f.seq = seq)) }
  if 1024 < q.sendq.length then s else bump (R.BRG_CRD_AVAIL d) b 1 (drop (R.BRG_CRD_OUT d) b 1 s)

/-- The oldest flit of a landing queue is written into its shadow slot and acknowledged (06 R206). -/
def brgLand (b d : Nat) (s : State) : State :=
  let q := s.brg b d
  match q.landq with
  | [] => s
  | f :: r =>
    let s := s.setBrg b d { q with landq := r }
    let s := bump (R.BRG_BUF_FREE d) b 1 (drop (R.BRG_BUF_OCC d) b 1 s)
    laggedIn (brgDest b d f) f.flit.dslot f.flit (brgRetire b d f.seq s)

/-- Step 3 of a direction: flits not yet in a shadow slot are late (06 R207). A flit still in the landing queue frees its
place (entry 21). -/
def brgLate (b d : Nat) (s : State) : State :=
  let q := s.brg b d
  let s := q.sendq.foldl (fun s f =>
    let s := laggedIn (brgDest b d f) f.flit.dslot f.flit.spoilt (brgRetire b d f.seq s)
    raise .bridgeLate .brg b (bump (R.BRG_LATE d) b 1 s)) s
  let s := q.landq.foldl (fun s _ => bump (R.BRG_BUF_FREE d) b 1 (drop (R.BRG_BUF_OCC d) b 1 s)) s
  s.setBrg b d { s.brg b d with landq := [], sendq := [], expect := (s.brg b d).next }

/-- The flits left in a seam crossing queue land: none is still on its way at step 3 (06 R196). -/
def drainSeam (k n : Nat) (s : State) : State :=
  (upFrom 0 n).foldl (fun s _ => seamLand (k / 64) (k % 64 / 2) (k % 2) false s) s

/-- Every late bridge flit retired, then every shadow slot moved (01 R25 step 3). -/
def swapShadows (s : State) : State :=
  let s := s.fab.seams.foldl (fun s e => drainSeam e.1 e.2.length s) s
  let s := (upFrom 0 12).foldl (fun s k => brgLate (k / 2) (k % 2) s) s
  s.cores.foldl (fun s e => if e.2.shadow.isEmpty then s else swapCore e.1 s) s

/-- A lagged flit lands (06 R198, R206). -/
def laggedLand (l : LagLane) (parity : Bool) (s : State) : State :=
  match l with
  | .seam t row d => seamLand t.val row.val d.val parity s
  | .bridge b d => brgLand b.val d.val s

/-! ### Loose departures (03 R119 to R122; 06 R213, R214) -/

/-- The lagged crossings from one core to another: out of half h over its seam as h, over bridge b in direction d as
8 + (b × 2 + d); none within a half (06 R213). -/
def loosePath (c d : Nat) : List Nat :=
  if halfOf c = halfOf d then []
  else if towerOf c = towerOf d then [halfOf c]
  else
    match (upFrom 0 12).find? (fun k => decide ((brgFrom (k / 2) (k % 2)).1 / 2 = towerOf c)
        && decide ((brgTo (k / 2) (k % 2)).1 / 2 = towerOf d)) with
    | some k =>
      let a := (brgFrom (k / 2) (k % 2)).1
      let z := (brgTo (k / 2) (k % 2)).1
      (if a = halfOf c then [] else [halfOf c]) ++ [8 + k] ++ (if z = halfOf d then [] else [z])
    | none => []

/-- The link of a crossing carries flits. -/
def crossUp (h row : Nat) (s : State) : Bool :=
  if h < 8 then seamUp (h / 2) row (h % 2) s else decide (brgWidth ((h - 8) / 2) ((h - 8) % 2) s ≠ 0)

/-- The half-row that a crossing starting in half-row `row` ends in: its own over a seam, that of the tap of its number modulo 16
over a bridge (entry 139). -/
def crossRow (h row : Nat) : Nat :=
  if h < 8 then row else (brgTo ((h - 8) / 2) ((h - 8) % 2)).2 + row % 16

/-- A loose message for core `d` on the crossing `h`, with those in `r` still to follow. -/
def LooseMsg.onto (m : LooseMsg) (h : Nat) (r : List Nat) : LooseMsg :=
  { m with path := r, row := crossRow h m.row, fly := true }

/-- The flit of a loose message for core `d` starts the crossing `h`. -/
def looseFly (d h : Nat) (m : LooseMsg) (s : State) : State :=
  let f : Flit := ⟨true, m.poison, 0, colOf d, m.data, some m.id⟩
  if h < 8 then seamInject h m.row f s else brgInject ((h - 8) / 2) ((h - 8) % 2) (m.row % 16) f s

/-- A loose message that waits at a core starts its next crossing; a link out of service carries nothing (entry 139). -/
def looseCross (d : Nat) (m : LooseMsg) (s : State) : State :=
  match m.path with
  | [] => s
  | h :: r =>
    if crossUp h m.row s then
      looseFly d h m { s with fab := { s.fab with loose := s.fab.loose.map (fun x =>
        if x.2.id = m.id then (x.1, x.2.onto h r) else x) } }
    else { s with fab := { s.fab with loose := s.fab.loose.filter (fun x => decide (x.2.id ≠ m.id)) } }

/-- A loose message departs from core c for core `d`: within a half it waits for its tick; else it starts its first crossing,
which a link out of service does not carry (entry 139). -/
def looseSend (c d k : Nat) (m : LooseMsg) (s : State) : State :=
  let m := { m with k := k, due := s.frame + 3, id := s.fab.looseNext, path := loosePath c d, row := rowOf c, fly := false }
  let s := { s with fab := { s.fab with looseNext := m.id + 1 } }
  let add (m : LooseMsg) (s : State) : State := { s with fab := { s.fab with loose := s.fab.loose ++ [(d, m)] } }
  match m.path with
  | [] => add m s
  | h :: r => if crossUp h m.row s then looseFly d h m (add (m.onto h r) s) else s

/-- Loose slot k of core c departs. -/
def looseDepart (c k : Nat) (s : State) : State :=
  let o := s.core c
  let n := 2 ^ o.cfg.looseM
  let off := (8 * o.slice + k) % n
  if !o.on || !o.cfg.loose || off = 0 || isHole c s then s
  else
    let dst := o.cfg.rel ^^^ off
    let d := c - o.cfg.rel + dst
    if fenced c s then
      looseSend c d k ⟨0, o.cfg.rel, dst, 0, 0, 0, 0, true, 0, [], 0, false⟩ (bump R.HALF_POISON_OUT (halfOf c) 1 s)
    else
      match o.posted.find? (fun m => decide (m.dst = dst) && (o.line (outLine m.slot)).pres.present) with
      | none => s
      | some m =>
        let sl := o.line (outLine m.slot)
        let o := { o with posted := o.posted.filter (fun q => decide (q.ord ≠ m.ord)) }
        let s := s.setCore c (o.setLine (outLine m.slot) { sl with pres := .empty, poison := false })
        if isHole d s then coreEvent .looseHole c (bump R.TWR_RGN_LOOSE_DROP (regionOf c) 1 s)
        else looseSend c d k m s

end Sys2Proof.Machine
end

