-- ==== Sys2Proof/Machine/Kv.lean ====
section
/-! DEFINITION. The KV page ledger's engine (09 R271 to R304). Commands received in exposure n wait in receipt order and change
the engine's books at tick n + 1, in step 1 of its fix window (R286, R299). -/
namespace Sys2Proof.Machine

/-! ### Pools, frames and books (09 R271 to R274, R299, R303, R304) -/

/-- Frame number of a core's page (09 R271). -/
def kvFrameNo (c pg : Nat) : Nat := c * 2048 + pg

/-- A signed change of a counter. -/
def addFld (f : Fld) (i : Nat) (n : Int) (s : State) : State := wr f i (unsigned f.w ((rd f i s : Int) + n)) s

/-- Token shift and depth of a pool (09 R276). -/
def kvShift (p : Nat) (s : State) : Nat := rd (R.KVL_POOL_CFG1_TOK_SHIFT p) 0 s
def kvDepth (p : Nat) (s : State) : Nat := rd (R.KVL_POOL_CFG1_DEPTH p) 0 s + 1

/-- A pool holds a page of a core's tower (09 R271). -/
def inPool (p c pg : Nat) (s : State) : Bool :=
  flag (R.KVL_POOL_CFG0_EN p) 0 s && (rd (R.KVL_POOL_CFG0_TOWERS p) 0 s).testBit (towerOf c)
    && decide (rd (R.KVL_POOL_CFG0_PAGE_LO p) 0 s ≤ pg) && decide (pg ≤ rd (R.KVL_POOL_CFG0_PAGE_HI p) 0 s)

/-- Pages of a pool on each core. -/
def poolPages (p : Nat) (s : State) : Nat :=
  rd (R.KVL_POOL_CFG0_PAGE_HI p) 0 s + 1 - rd (R.KVL_POOL_CFG0_PAGE_LO p) 0 s

/-- The core is usable (09 R273). -/
def kvUsable (c : Nat) (s : State) : Bool := !deadCore c s && !s.kv.retired.contains c

/-- A pool uses a core's tower. -/
def poolOnCore (p c : Nat) (s : State) : Bool :=
  flag (R.KVL_POOL_CFG0_EN p) 0 s && (rd (R.KVL_POOL_CFG0_TOWERS p) 0 s).testBit (towerOf c)

/-- FREE pages of a pool on a core, ascending, less those reserved and those that became FREE at this tick (09 R298). -/
def freePages (p c : Nat) (s : State) : List Nat :=
  if !poolOnCore p c s || !kvUsable c s then []
  else (upFrom (rd (R.KVL_POOL_CFG0_PAGE_LO p) 0 s) (poolPages p s)).filter (fun pg =>
    !mhas (kvFrameNo c pg) s.kv.frames && !s.kv.resv.contains (kvFrameNo c pg) && !s.kv.moved.contains (kvFrameNo c pg))

/-- The pool register and the sum of a class; FREE is none (09 R302, R303). -/
def clsFld (p : Nat) : Option KvCls → Fld × Fld
  | none => (R.KVL_POOL_FREE p, R.KVL_POOL_FREE_SUM)
  | some .live => (R.KVL_POOL_LIVE p, R.KVL_POOL_LIVE_SUM)
  | some .latent => (R.KVL_POOL_LATENT p, R.KVL_POOL_LATENT_SUM)
  | some .faded => (R.KVL_POOL_FADED p, R.KVL_POOL_FADED_SUM)

/-- A class counter and its sum changed. -/
def kvCount (p : Nat) (c : Option KvCls) (n : Int) (s : State) : State :=
  addFld (clsFld p c).2 0 n (addFld (clsFld p c).1 0 n s)

/-- `n` frames of a pool moved from one class to another (09 R299). -/
def kvBook (p : Nat) (a b : Option KvCls) (n : Nat) (s : State) : State := kvCount p b n (kvCount p a (-(n : Int)) s)

/-- TOTAL changed (09 R299). -/
def kvTotal (p : Nat) (n : Int) (s : State) : State :=
  addFld R.KVL_POOL_TOTAL_SUM 0 n (addFld (R.KVL_POOL_TOTAL p) 0 n s)

/-- Frames charged to a holder changed (09 R274, R297). -/
def kvUse (h : Nat) (n : Int) (s : State) : State :=
  let s := addFld (R.KVL_HOLDER_USE_USED h) 0 n s
  wr (R.KVL_HOLDER_USE_OVER h) 0
    (if rd (R.KVL_HOLDER_CFG_QUOTA h) 0 s < rd (R.KVL_HOLDER_USE_USED h) 0 s then 1 else 0) s

/-- The reference ledger changed (09 R290, R299). -/
def kvRefs (n : Int) (s : State) : State := addFld R.KVL_REF_ENTRIES 0 n (addFld R.KVL_REF_SUM 0 n s)

def State.kvSeq (s : State) (i : Nat) : Option KvSeq := mget i s.kv.seqs
def setSeq (i : Nat) (q : KvSeq) (s : State) : State := { s with kv := { s.kv with seqs := mput i q s.kv.seqs } }
def setFrame (f : Nat) (v : KvFrame) (s : State) : State := { s with kv := { s.kv with frames := mput f v s.kv.frames } }
/-- A frame is FREE. -/
def freeFrame (f : Nat) (s : State) : State := { s with kv := { s.kv with frames := mdel f s.kv.frames } }
/-- A frame changes class at the tick under way (09 R298). -/
def kvMoved (f : Nat) (s : State) : State := { s with kv := { s.kv with moved := f :: s.kv.moved } }

/-- Pool of a sequence. -/
def seqPool (q : KvSeq) (s : State) : Nat := rd (R.KVL_HOLDER_CFG_POOL q.holder) 0 s

/-! ### Table writes (09 R278, R279, R286) -/

/-- A write of the engine to a core's memory, to be served in a host slot after the next tick. -/
def kvWrite (c a : Nat) (data : List Byte) (s : State) : State :=
  { s with kv := { s.kv with writes := s.kv.writes ++ [⟨s.kv.nextWrite, c, a, data⟩], nextWrite := s.kv.nextWrite + 1 } }

/-- Every write numbered below `n` has been served. -/
def kvServed (n : Nat) (s : State) : Bool :=
  s.kv.writes.all (fun w => decide (n ≤ w.num)) && s.kv.unserved.all (fun w => decide (n ≤ w))

/-- The directory entry's address (09 R278). -/
def dirAddr (i : Nat) : Nat := 0x07E00000 + i * 8

/-- Key of a table node. -/
def nodeKey (level i : Nat) : Nat := level * 2 ^ 40 + i

/-- Blocks of a sequence with entries in its table on core c (09 R279). -/
def tabBlocks (k : KvSeq) (c : Nat) : List (Nat × KvBlk) := k.blks.filter (fun b => b.2.inTab && decide (b.2.core = c))

/-- COUNT of a sequence's table on core c, for blocks of d frames. -/
def tabCount (k : KvSeq) (d c : Nat) : Nat := (tabBlocks k c).length * d

/-- The place of a block among its core's, in ascending block order (09 R279). -/
def blkPlace (k : KvSeq) (c b : Nat) : Nat := ((tabBlocks k c).filter (fun x => decide (x.1 < b))).length

/-- The directory entry of a sequence on a core. -/
def dirEntry (q : KvSeq) (t : KvTab) (count : Nat) : Nat :=
  mgetD (nodeKey (t.levels - 1) 0) 0 t.nodes + (t.levels - 1) * 2 ^ 11 + 2 ^ 13 + q.gen * 2 ^ 14 + count * 2 ^ 26

def writeDir (i c : Nat) (s : State) : State :=
  match s.kvSeq i with
  | some q => (match mget c q.tabs with
    | some t => kvWrite c (dirAddr i) (leBytes 8 (dirEntry q t (tabCount q (kvDepth (seqPool q s) s) c))) s
    | none => kvWrite c (dirAddr i) (leBytes 8 0) s)
  | none => kvWrite c (dirAddr i) (leBytes 8 0) s

/-- STATE of a block's entries: LIVE 1, LATENT 2, FADED 3, SHARED 4 (09 R279, R290). -/
def blkState (b : KvBlk) (s : State) : Nat :=
  match b.cls with
  | .faded => 3
  | .latent => 2
  | .live =>
    if b.pages.any (fun pg => match mget (kvFrameNo b.core pg) s.kv.frames with
        | some f => decide (2 ≤ f.refs)
        | none => false) then 4 else 1

/-- The leaf entries of a block written, if it has any (09 R279). -/
def writeLeaves (i b : Nat) (s : State) : State :=
  match s.kvSeq i with
  | none => s
  | some q =>
    match mget b q.blks with
    | none => s
    | some k =>
      let d := kvDepth (seqPool q s) s
      let st := blkState k s
      if !k.inTab then s
      else (upFrom 0 d).foldl (fun s j =>
        let e := blkPlace q k.core b * d + j
        match mget k.core q.tabs with
        | none => s
        | some t =>
          let node := mgetD (nodeKey 0 (e / 8192)) 0 t.nodes
          let pg := if st = 3 then 0x7FF else k.pages.getD j 0
          kvWrite k.core (node * 65536 + e % 8192 * 8) (leBytes 8 (pg + st * 2 ^ 11 + b * 2 ^ 16)) s) s

/-- Levels that a table of `n` entries has (09 R279). -/
def levelsFor (n : Nat) : Nat := if n ≤ 8192 then 1 else if n ≤ 2 ^ 26 then 2 else 3

/-- Keys of the nodes that a table of `n` entries and that many levels has. -/
def nodesFor (levels n : Nat) : List Nat :=
  (upFrom 0 (max 1 (ceilDiv n 8192))).map (nodeKey 0)
    ++ (if 2 ≤ levels then (upFrom 0 (max 1 (ceilDiv n (2 ^ 26)))).map (nodeKey 1) else [])
    ++ (if 3 ≤ levels then [nodeKey 2 0] else [])

/-- Node keys that a table lacks for `n` entries. -/
def missingNodes (t : Option KvTab) (n : Nat) : List Nat :=
  match t with
  | none => nodesFor (levelsFor n) n
  | some t => (nodesFor (max t.levels (levelsFor n)) n).filter (fun k => !mhas k t.nodes)

/-- Interior entries written for the nodes of a table that are new or whose parent is (09 R279). -/
def writeNodes (c : Nat) (t : KvTab) (new : List Nat) (s : State) : State :=
  t.nodes.foldl (fun s nd =>
    let l := nd.1 / 2 ^ 40
    let i := nd.1 % 2 ^ 40
    let parent := nodeKey (l + 1) (i / 8192)
    match mget parent t.nodes with
    | none => s
    | some pp =>
      if new.contains nd.1 || new.contains parent then
        kvWrite c (pp * 65536 + i % 8192 * 8) (leBytes 8 (nd.2 + 2 ^ 11)) s
      else s) s

/-! ### References and releases (09 R288, R290) -/

/-- The entries of the one sequence left with a frame become LIVE (09 R290). -/
def rewriteOwner (c pg : Nat) (s : State) : State :=
  match s.kv.seqs.findSome? (fun q =>
      (q.2.blks.find? (fun b => decide (b.2.core = c) && b.2.pages.contains pg)).map (fun b => (q.1, b.1))) with
  | some (i, b) => writeLeaves i b s
  | none => s

/-- A frame is releasing: it leaves its table, and is FREE once the writes made so far are served (09 R288). -/
def kvRelease (f : Nat) (v : KvFrame) (s : State) : State :=
  let s := if v.cls = .latent then kvMoved f (kvBook v.pool (some .latent) (some .live) 1 s) else s
  let cls : KvCls := if v.cls = .latent then .live else v.cls
  let s := kvUse v.holder (-1) s
  let s := addFld (R.KVL_POOL_RELEASING v.pool) 0 1 s
  setFrame f { v with cls := cls, refs := 0, rel := some s.kv.nextWrite } s

/-- One entry fewer points at a frame. The sequence's own block has been changed before. -/
def kvUnref (c pg : Nat) (s : State) : State :=
  let f := kvFrameNo c pg
  match mget f s.kv.frames with
  | none => s
  | some v =>
    if 2 ≤ v.refs then
      let s := setFrame f { v with refs := v.refs - 1 } (kvRefs (-1) s)
      if v.refs = 2 then rewriteOwner c pg (kvRefs (-1) s) else s
    else kvRelease f v s

/-- Releasing frames whose writes are served become FREE, but for those that pass to a command waiting for them (09 R288). -/
def kvReleases (s : State) : State :=
  s.kv.frames.foldl (fun s e =>
    match e.2.rel with
    | some n =>
      if kvServed n s && !s.kv.resv.contains e.1 then
        freeFrame e.1 (kvMoved e.1 (addFld (R.KVL_POOL_RELEASING e.2.pool) 0 (-1) (kvBook e.2.pool (some e.2.cls) none 1 s)))
      else s
    | none => s) s

/-! ### Fading (09 R294, R295) -/

/-- Lists of numbers in dictionary order. -/
def lexLt : List Nat → List Nat → Bool
  | [], [] => false
  | [], _ => true
  | _, [] => false
  | a :: l, b :: r => decide (a < b) || (decide (a = b) && lexLt l r)

/-- A key put into its place. -/
def lexInsert (k : List Nat) : List (List Nat) → List (List Nat)
  | [] => [k]
  | a :: r => if lexLt k a then k :: a :: r else a :: lexInsert k r

/-- Keys in order. -/
def lexSort (l : List (List Nat)) : List (List Nat) := l.foldl (fun acc k => lexInsert k acc) []

/-- A new range joined with the records of the same handle that it touches. -/
def addFade (i start len : Nat) (l : List KvFade) : List KvFade :=
  let near (r : KvFade) : Bool := decide (r.idx = i) && decide (r.start ≤ start + len) && decide (start ≤ r.start + r.len)
  let a := (l.filter near).foldl (fun m r => min m r.start) start
  let e := (l.filter near).foldl (fun m r => max m (r.start + r.len)) (start + len)
  l.filter (fun r => !near r) ++ [⟨i, a, e - a⟩]

/-- A range taken out of a handle's records (09 R295). -/
def cutFade (i start len : Nat) (l : List KvFade) : List KvFade :=
  l.flatMap (fun r =>
    if r.idx = i && decide (r.start < start + len) && decide (start < r.start + r.len) then
      (if r.start < start then [⟨i, r.start, start - r.start⟩] else [])
        ++ (if start + len < r.start + r.len then [⟨i, start + len, r.start + r.len - (start + len)⟩] else [])
    else [r])

def setFades (l : List KvFade) (s : State) : State := wr R.KVL_FADELIST 0 l.length { s with kv := { s.kv with fades := l } }

/-- Records that the fade list holds (09 R295). -/
def fadeMax : Nat := 1048576

/-- The list after the blocks chosen fade, in blocks of 2^t positions. -/
def fadesWith (t : Nat) (bs : List (Nat × Nat)) (l : List KvFade) : List KvFade :=
  bs.foldl (fun l x => addFade x.1 (x.2 * 2 ^ t) (2 ^ t) l) l

/-- A range recorded; a full list takes no new record (09 R295; entry 128). -/
def recordFade (i start len : Nat) (s : State) : State :=
  let l := addFade i start len s.kv.fades
  if fadeMax < l.length then s else setFades l s

/-- The frames of a block that changed class at this tick. -/
def blkMoved (b : KvBlk) (s : State) : Bool := b.pages.any (fun pg => s.kv.moved.contains (kvFrameNo b.core pg))

/-- Blocks on core c that may be faded for a requester, in the engine's order: handle index and block (09 R294). With
`room`, those only for which the fade list has room beside the blocks chosen already (09 R295). -/
def fadeCands (c pool req : Nat) (room : Bool) (chosen : List (Nat × Nat)) (s : State) : List (Nat × Nat) :=
  let t := kvShift pool s
  let l := fadesWith t chosen s.kv.fades
  let keys := s.kv.seqs.flatMap (fun q =>
    if q.1 = req || q.2.closing || seqPool q.2 s ≠ pool then []
    else
      q.2.blks.filterMap (fun b =>
        if b.2.core = c && b.2.cls = .live && blkState b.2 s = 1 && !blkMoved b.2 s && !chosen.contains (q.1, b.1)
            && decide (b.1 ≠ (q.2.lat - 1) / 2 ^ t)
            && (!room || decide ((addFade q.1 (b.1 * 2 ^ t) (2 ^ t) l).length ≤ fadeMax)) then
          let used := rd (R.KVL_HOLDER_USE_USED q.2.holder) 0 s
          let quota := rd (R.KVL_HOLDER_CFG_QUOTA q.2.holder) 0 s
          some (if quota < used then [0, 2 ^ 30 - (used - quota), q.2.last, b.1, q.1] else [1, 0, q.2.last, b.1, q.1])
        else none))
  (lexSort keys).map (fun k => (k.getD 4 0, k.getD 3 0))

/-- A block fades (09 R295). -/
def fadeBlock (i b : Nat) (s : State) : State :=
  match s.kvSeq i with
  | none => s
  | some q =>
    match mget b q.blks with
    | none => s
    | some k =>
      let p := seqPool q s
      let t := kvShift p s
      let s := setSeq i { q with blks := mput b { k with pages := [], cls := .faded } q.blks } s
      let s := writeLeaves i b s
      let s := recordFade i (b * 2 ^ t) (2 ^ t) s
      let s := k.pages.foldl (fun s pg =>
        let f := kvFrameNo k.core pg
        match mget f s.kv.frames with
        | some v => kvRelease f { v with cls := .faded } (kvMoved f (kvBook p (some .live) (some .faded) 1 s))
        | none => s) s
      raise .kvFade .kvl 0 s

/-! ### Grants (09 R277, R287) -/

/-- The core that block b of a sequence is placed on (09 R277). -/
def kvPlace (q : KvSeq) (b : Nat) (s : State) : Option Nat :=
  let w := 2 ^ q.w
  ((upFrom 0 w).map (fun k => q.base + (b + k) % w)).find? (fun c => kvUsable c s)

/-- Bank column of a page (07 R222). -/
def pageBank (pg : Nat) : Nat := pg / 256

/-- A page for each need: FREE pages first, lowest first, then the extra ones; else the core that is short. -/
def kvAssign (pool : Nat) (extra : List Nat) (s : State) : List KvNeed → List Nat → List (KvNeed × Nat) →
    Except Nat (List (KvNeed × Nat))
  | [], _, acc => .ok acc.reverse
  | n :: r, taken, acc =>
    let pages := freePages pool n.core s
      ++ (extra.filter (fun f => decide (f / 2048 = n.core))).map (fun f => f % 2048)
    match pages.find? (fun pg => !taken.contains (kvFrameNo n.core pg)
        && (match n.bank with
            | some u => decide (pageBank pg = u)
            | none => true)) with
    | some pg => kvAssign pool extra s r (kvFrameNo n.core pg :: taken) ((n, pg) :: acc)
    | none => .error n.core

/-- What the engine decides on a command that needs frames (09 R287): refused with a status, granted, or granted after
blocks fade. -/
inductive KvGrant where
  | refuse (status : Nat)
  | now (got : List (KvNeed × Nat))
  | fade (blocks : List (Nat × Nat)) (got : List (KvNeed × Nat))

/-- Frames of blocks chosen to fade. -/
def blockFrames (bs : List (Nat × Nat)) (s : State) : List Nat :=
  bs.flatMap (fun x =>
    match s.kvSeq x.1 with
    | some q => (match mget x.2 q.blks with
      | some k => k.pages.map (kvFrameNo k.core)
      | none => [])
    | none => [])

/-- Blocks are chosen on each short core until every need has a page; `k` blocks at most. -/
def kvChoose (pool req : Nat) (needs : List KvNeed) (s : State) : Nat → List (Nat × Nat) → KvGrant
  | 0, _ => .refuse 0x13
  | k + 1, bs =>
    match kvAssign pool (blockFrames bs s) s needs [] [] with
    | .ok got => .fade bs got
    | .error c =>
      match fadeCands c pool req true bs s with
      | x :: _ => kvChoose pool req needs s k (bs ++ [x])
      | [] => .refuse (if (fadeCands c pool req false bs s).isEmpty then 0x13 else 0x17)

/-- Granted whole or refused whole (09 R287). -/
def kvGrant (pool holder req : Nat) (needs : List KvNeed) (s : State) : KvGrant :=
  if rd (R.KVL_HOLDER_CFG_QUOTA holder) 0 s < rd (R.KVL_HOLDER_USE_USED holder) 0 s + needs.length && !needs.isEmpty then
    .refuse 0x12
  else
    match kvAssign pool [] s needs [] [] with
    | .ok got => .now got
    | .error _ => kvChoose pool req needs s (needs.length * 4096 + 1) []

/-! ### Responses (09 R283, R285) -/

/-- OP codes (09 R284). -/
def KvOp.code : KvOp → Nat
  | .open_ => 1 | .append => 2 | .fix => 3 | .clear => 4 | .fork => 5 | .free => 6 | .fadeq => 7 | .refill => 8
  | .fadehit => 9 | .quota => 10 | .stat => 11

def KvOp.ofCode : Nat → Option KvOp
  | 1 => some .open_ | 2 => some .append | 3 => some .fix | 4 => some .clear | 5 => some .fork | 6 => some .free
  | 7 => some .fadeq | 8 => some .refill | 9 => some .fadehit | 10 => some .quota | 11 => some .stat | _ => none

/-- The operation of a request; none where its OP is reserved. -/
def kvOp (q : KvReq) : Option KvOp := KvOp.ofCode (q.w0.toNat % 256)

/-- A request of an operation. -/
def kvWithOp (q : KvReq) (op : KvOp) : KvReq := { q with w0 := BitVec.ofNat 32 (q.w0.toNat / 256 * 256 + op.code) }

/-- A response that waits until the writes made so far are served. -/
def kvRespond (q : KvReq) (status word1 res0 res1 tk : Nat) (s : State) : State :=
  { s with kv := { s.kv with resps := s.kv.resps ++
      [⟨q.src, q.w0.toNat % 256, status, bitsAt q.w0.toNat 16 16, word1, res0, res1, tk, s.kv.nextWrite⟩] } }

/-- The sequence that a handle names (09 R275). -/
def kvHandle (w : Nat) (s : State) : Option (Nat × KvSeq) :=
  let i := w % 2 ^ 18
  match s.kvSeq i with
  | some k => if !k.closing && k.gen = bitsAt w 18 12 && bitsAt w 30 2 = 0 then some (i, k) else none
  | none => none

/-- The handle of a sequence. -/
def handleWord (i : Nat) (k : KvSeq) : Nat := i + k.gen * 2 ^ 18

/-- The operations that return the two lengths (09 R284). -/
def KvOp.lengths : KvOp → Bool
  | .append => true | .fix => true | .clear => true | .fork => true | .stat => true
  | _ => false

/-- A response with a status: the lengths of the sequence named, from the operations that return them, else no results. -/
def kvAnswer (q : KvReq) (status tk : Nat) (s : State) : State :=
  match kvHandle q.w1.toNat s with
  | some (_, k) =>
    if ((kvOp q).map KvOp.lengths).getD false then kvRespond q status q.w1.toNat k.fixed k.lat tk s
    else kvRespond q status q.w1.toNat 0 0 tk s
  | none => kvRespond q status q.w1.toNat 0 0 tk s

/-- An allocation refused (09 R287). -/
def kvRefuse (q : KvReq) (status tk : Nat) (s : State) : State := kvAnswer q status tk (raise .kvRefused .kvl 0 s)

/-! ### Commands (09 R284, R289, R291, R292) -/

/-- The lowest index with no sequence (entry 22). -/
def freeIndex (s : State) : Option Nat := (upFrom 0 262144).find? (fun i => !mhas i s.kv.seqs)

/-- Handles open. -/
def openCount (s : State) : Nat := (s.kv.seqs.filter (fun q => !q.2.closing)).length

/-- A fresh sequence entered. -/
def newSeq (i holder base w fixed tk : Nat) (s : State) : State :=
  let s := setSeq i ⟨mgetD i 0 s.kv.gens, holder, base, w, fixed, fixed, tk, [], [], false⟩ s
  wr R.KVL_STAT 0 (openCount s) s

/-- The aligned group of W tower-local cores with the most free frames, the lowest on a tie (09 R277). -/
def stripeBase (p t w : Nat) (s : State) : Nat :=
  let size := 2 ^ w
  let free (g : Nat) : Nat := ((upFrom (t * 1024 + g * size) size).map (fun c => (freePages p c s).length)).sum
  let best := (upFrom 0 (1024 / size)).foldl (fun (m : Nat × Nat) g => if m.2 < free g then (g, free g) else m) (0, free 0)
  t * 1024 + best.1 * size

/-- OPEN. -/
def kvOpen (q : KvReq) (tk : Nat) (s : State) : State :=
  let h := q.w1.toNat
  let a := q.arg1.toNat
  let t := bitsAt a 0 2
  let w := bitsAt a 4 4
  let p := rd (R.KVL_HOLDER_CFG_POOL h) 0 s
  if 256 ≤ h || bitsAt a 2 2 ≠ 0 || 256 ≤ a || 10 < w || !flag (R.KVL_HOLDER_CFG_EN h) 0 s
      || !flag (R.KVL_POOL_CFG0_EN p) 0 s || !(rd (R.KVL_POOL_CFG0_TOWERS p) 0 s).testBit t then
    kvAnswer q 0x18 tk s
  else
    match freeIndex s with
    | none => kvAnswer q 0x11 tk s
    | some i =>
      let s := newSeq i h (stripeBase p t w s) w 0 tk s
      match s.kvSeq i with
      | some k => kvRespond q 0 (handleWord i k) 0 0 tk s
      | none => s

/-- Blocks placed on their cores (09 R277); none if no core is usable. -/
def placeBlocks (k : KvSeq) (s : State) : List Nat → Option (List (Nat × Nat))
  | [] => some []
  | b :: r =>
    match kvPlace k b s, placeBlocks k s r with
    | some c, some l => some ((b, c) :: l)
    | _, _ => none

/-- The cores of placed blocks. -/
def blkCores (bs : List (Nat × Nat)) : List Nat := (bs.map (fun x => x.2)).eraseDups

/-- Entries of a table on core c once the blocks have entered it. -/
def countWith (k : KvSeq) (d c : Nat) (bs : List (Nat × Nat)) : Nat :=
  tabCount k d c + (bs.filter (fun x => decide (x.2 = c))).length * d

/-- The frames that blocks need on their cores: data frames, and table nodes once for each core. -/
def blockNeeds (k : KvSeq) (d : Nat) (bs : List (Nat × Nat)) : List KvNeed :=
  (blkCores bs).flatMap (fun c =>
    (bs.filter (fun x => decide (x.2 = c))).flatMap (fun x => (upFrom 0 d).map (fun j => ⟨c, none, .data x.1 j⟩))
      ++ (missingNodes (mget c k.tabs) (countWith k d c bs)).map (fun n => ⟨c, none, .node n⟩))

/-- A table would pass COUNT's limit (09 R279). -/
def countOver (k : KvSeq) (d : Nat) (bs : List (Nat × Nat)) : Bool :=
  (blkCores bs).any (fun c => decide (2 ^ 38 - 1 < countWith k d c bs))

/-- The block of an append's first position if it is SHARED (09 R292). -/
def sharedTail (k : KvSeq) (t : Nat) (s : State) : Option (Nat × KvBlk) :=
  if k.lat % 2 ^ t = 0 then none
  else
    match mget (k.lat / 2 ^ t) k.blks with
    | some b => if blkState b s = 4 then some (k.lat / 2 ^ t, b) else none
    | none => none

/-- What a need's frame becomes: its class, whether it is a table frame, its reference count. -/
def KvUse.frame (cls : KvCls) : KvUse → KvCls × Bool × Nat
  | .data _ _ => (cls, false, 1)
  | .node _ => (.live, true, 1)
  | .copy _ _ => (.live, false, 0)

/-- A frame taken for a need: from FREE, or from the faded frames that pass to its command (09 R288, R299). A frame that enters
a table is charged (09 R274). -/
def kvEnter (pool holder : Nat) (cls : KvCls) (n : KvNeed) (pg : Nat) (s : State) : State :=
  let f := kvFrameNo n.core pg
  match n.use.frame cls with
  | (cls, table, refs) =>
    let was := mget f s.kv.frames
    let s := if was.isSome then addFld (R.KVL_POOL_RELEASING pool) 0 (-1) s else s
    let s := kvMoved f (kvBook pool (was.map (fun v => v.cls)) (some cls) 1 s)
    let s := if refs = 0 then s else kvUse holder 1 s
    setFrame f ⟨pool, holder, cls, table, refs, none⟩ { s with kv := { s.kv with resv := s.kv.resv.filter (fun x => decide (x ≠ f)) } }

/-- The pages got for frames of block b, in order. -/
def gotData (got : List (KvNeed × Nat)) (b : Nat) : List Nat :=
  got.filterMap (fun x => match x.1.use with
    | .data b' _ => if b' = b then some x.2 else none
    | _ => none)

/-- The blocks that pages were got for, with their cores. -/
def gotBlocks (got : List (KvNeed × Nat)) : List (Nat × Nat) :=
  got.filterMap (fun x => match x.1.use with
    | .data b 0 => some (b, x.1.core)
    | _ => none)

/-- Copies got for block b. -/
def gotCopies (got : List (KvNeed × Nat)) (b : Nat) : List Nat :=
  got.filterMap (fun x => match x.1.use with
    | .copy b' _ => if b' = b then some x.2 else none
    | _ => none)

/-- Nodes got on core c. -/
def gotNodes (got : List (KvNeed × Nat)) (c : Nat) : List (Nat × Nat) :=
  got.filterMap (fun x => match x.1.use with
    | .node k => if x.1.core = c then some (k, x.2) else none
    | _ => none)

/-- A need for the copy of a shared frame. -/
def KvNeed.isCopy (n : KvNeed) : Bool := match n.use with
  | .copy _ _ => true
  | _ => false

/-- A core's table extended to the blocks that the sequence has there, with new nodes; its interior entries and directory
entry written. -/
def extendTab (i c : Nat) (nodes : List (Nat × Nat)) (s : State) : State :=
  match s.kvSeq i with
  | none => s
  | some k =>
    let t := mgetD c ⟨1, []⟩ k.tabs
    let t : KvTab := { levels := max t.levels (levelsFor (tabCount k (kvDepth (seqPool k s) s) c)),
                       nodes := nodes.foldl (fun m n => mput n.1 n.2 m) t.nodes }
    let s := setSeq i { k with tabs := mput c t k.tabs } s
    writeDir i c (writeNodes c t (nodes.map (fun n => n.1)) s)

/-- Blocks entered in a sequence with the pages got for them: their frames taken, the tables extended, and the entries written
of these blocks and of those whose place they move (09 R279, R289). -/
def enterBlocks (i : Nat) (cls : KvCls) (got : List (KvNeed × Nat)) (s : State) : State :=
  match s.kvSeq i with
  | none => s
  | some k =>
    let p := seqPool k s
    let bs := gotBlocks got
    let s := (got.filter (fun x => !x.1.isCopy)).foldl (fun s x => kvEnter p k.holder cls x.1 x.2 s) s
    let s := setSeq i { k with blks := bs.foldl (fun m x => mput x.1 ⟨x.2, gotData got x.1, true, cls⟩ m) k.blks } s
    (blkCores bs).foldl (fun s c =>
      let s := extendTab i c (gotNodes got c) s
      let first := ((bs.filter (fun x => decide (x.2 = c))).map (fun x => x.1)).foldl min (2 ^ 48)
      match s.kvSeq i with
      | some k => ((tabBlocks k c).filter (fun b => decide (first ≤ b.1))).foldl (fun s b => writeLeaves i b.1 s) s
      | none => s) s

/-- Length of an append: ARG0. -/
def appendLen (q : KvReq) : Nat := q.arg0.toNat
def isLatent (q : KvReq) : Bool := q.w0.getLsbD 8

/-- The new blocks of an append, if their cores are usable. -/
def appendBlocks (k : KvSeq) (q : KvReq) (s : State) : Option (List (Nat × Nat)) :=
  let t := kvShift (seqPool k s) s
  let a := ceilDiv k.lat (2 ^ t)
  let b := ceilDiv (k.lat + appendLen q) (2 ^ t)
  placeBlocks k s (upFrom a (b - a))

/-- An append takes effect: its blocks enter, and the lengths grow. -/
def appendApply (i : Nat) (q : KvReq) (status tk : Nat) (got : List (KvNeed × Nat)) (s : State) : State :=
  let s := enterBlocks i (if isLatent q then .latent else .live) got s
  match s.kvSeq i with
  | none => s
  | some k =>
    let lat := k.lat + appendLen q
    kvAnswer q status tk (setSeq i { k with lat := lat, fixed := if isLatent q then k.fixed else lat, last := tk } s)

/-- Pages reserved for a waiting command, faded ones among them (09 R287). -/
def kvReserve (got : List (KvNeed × Nat)) (s : State) : State :=
  { s with kv := { s.kv with resv := s.kv.resv ++ got.map (fun x => kvFrameNo x.1.core x.2) } }

/-- Pages no longer reserved. -/
def kvUnreserve (got : List (KvNeed × Nat)) (s : State) : State :=
  let fs := got.map (fun x => kvFrameNo x.1.core x.2)
  { s with kv := { s.kv with resv := s.kv.resv.filter (fun f => !fs.contains f) } }

def kvAddWait (w : KvWait) (s : State) : State := { s with kv := { s.kv with waits := s.kv.waits ++ [w] } }

/-- An append's copies begin: the copy frames are allocated LIVE, the rest stays reserved (09 R292). -/
def copyBegin (i : Nat) (q : KvReq) (faded : Bool) (got : List (KvNeed × Nat)) (s : State) : State :=
  match s.kvSeq i with
  | none => s
  | some k =>
    let s := (got.filter (fun x => x.1.isCopy)).foldl (fun s x => kvEnter (seqPool k s) k.holder .live x.1 x.2 s) s
    kvAddWait ⟨q, .copying faded false false, got⟩ s

/-- The region's remote allowance admits a copy: no plate holds the region, or A_r ≥ 273 (09 R292; entry 129). -/
def copyWindow (c : Nat) (s : State) : Bool := (recOf (regionOf c) s).all (fun q => decide (273 ≤ q.ar))

/-- A granted command takes effect at once, or waits for the blocks chosen to fade (09 R287). -/
def kvGranted (q : KvReq) (tk : Nat) (g : KvGrant) (now : List (KvNeed × Nat) → State → State) (s : State) : State :=
  match g with
  | .refuse st => kvRefuse q st tk s
  | .now got => now got (kvReserve got s)
  | .fade vs got =>
    let s := vs.foldl (fun s x => fadeBlock x.1 x.2 s) s
    kvAddWait ⟨q, .fading s.kv.nextWrite, got⟩ (kvReserve got s)

/-- An append that has its frames: the copies begin, or it takes effect. -/
def appendGo (i : Nat) (q : KvReq) (faded : Bool) (tk : Nat) (got : List (KvNeed × Nat)) (s : State) : State :=
  if got.any (fun x => x.1.isCopy) then copyBegin i q faded got s
  else appendApply i q faded.toNat tk got s

/-- APPEND. -/
def kvAppend (q : KvReq) (tk : Nat) (s : State) : State :=
  match kvHandle q.w1.toNat s with
  | none => kvAnswer q 0x10 tk s
  | some (i, k) =>
    let n := appendLen q
    let p := seqPool k s
    let t := kvShift p s
    let d := kvDepth p s
    if n = 0 || 2 ^ 32 < n || q.arg1 ≠ 0 then kvAnswer q 0x18 tk s
    else if !isLatent q && k.fixed < k.lat then kvAnswer q 0x14 tk s
    else if 2 ^ 48 < k.lat + n then kvAnswer q 0x15 tk s
    else
      match appendBlocks k q s with
      | none => kvRefuse q 0x13 tk s
      | some bs =>
        let shared := sharedTail k t s
        let copies : List KvNeed := match shared with
          | some (b, blk) => (upFrom 0 d).map (fun j => ⟨blk.core, some (pageBank (blk.pages.getD j 0)), .copy b j⟩)
          | none => []
        if countOver k d bs then kvAnswer q 0x15 tk s
        else if shared.any (fun x => !copyWindow x.2.core s) then kvAnswer q 0x16 tk s
        else kvGranted q tk (kvGrant p k.holder i (copies ++ blockNeeds k d bs) s) (appendGo i q false tk) s

/-- LATENT blocks that hold a fixed position become LIVE (09 R289). -/
def fixBlocks (i : Nat) (s : State) : State :=
  match s.kvSeq i with
  | none => s
  | some k =>
    let p := seqPool k s
    let t := kvShift p s
    k.blks.foldl (fun s b =>
      if b.2.cls = .latent && b.1 * 2 ^ t < k.fixed then
        let s := b.2.pages.foldl (fun s pg =>
          let f := kvFrameNo b.2.core pg
          match mget f s.kv.frames with
          | some v => setFrame f { v with cls := .live } (kvMoved f (kvBook p (some .latent) (some .live) 1 s))
          | none => s) s
        match s.kvSeq i with
        | some k => writeLeaves i b.1 (setSeq i { k with blks := mput b.1 { b.2 with cls := .live } k.blks } s)
        | none => s
      else s) s

/-- FIX. -/
def kvFix (q : KvReq) (tk : Nat) (s : State) : State :=
  match kvHandle q.w1.toNat s with
  | none => kvAnswer q 0x10 tk s
  | some (i, k) =>
    if q.arg1 ≠ 0 then kvAnswer q 0x18 tk s
    else if k.lat = k.fixed then kvAnswer q 0x02 tk (setSeq i { k with last := tk } s)
    else
      let n := min q.arg0.toNat (k.lat - k.fixed)
      let s := fixBlocks i (setSeq i { k with fixed := k.fixed + n, last := tk } s)
      kvAnswer q (if n < q.arg0.toNat then 0x03 else 0) tk s

/-- A range taken out of a handle's fade records. -/
def cutFades (i start len : Nat) (s : State) : State := setFades (cutFade i start len s.kv.fades) s

/-- The blocks beyond the fixed length go: LATENT frames return to FREE at once, and their entries leave COUNT (09 R288,
R289). -/
def clearBlocks (i : Nat) (s : State) : State :=
  match s.kvSeq i with
  | none => s
  | some k =>
    let p := seqPool k s
    let t := kvShift p s
    let dead := k.blks.filter (fun b => decide (k.fixed ≤ b.1 * 2 ^ t))
    let s := dead.foldl (fun s b =>
      b.2.pages.foldl (fun s pg =>
        let f := kvFrameNo b.2.core pg
        freeFrame f (kvMoved f (kvUse k.holder (-1) (kvBook p (some .latent) none 1 s)))) s) s
    let s := setSeq i { k with blks := k.blks.filter (fun b => decide (b.1 * 2 ^ t < k.fixed)) } s
    let s := (dead.filter (fun b => decide (b.2.cls = .faded))).foldl (fun s b => cutFades i (b.1 * 2 ^ t) (2 ^ t) s) s
    (dead.map (fun b => b.2.core)).eraseDups.foldl (fun s c => writeDir i c s) s

/-- CLEAR. -/
def kvClear (q : KvReq) (tk : Nat) (s : State) : State :=
  match kvHandle q.w1.toNat s with
  | none => kvAnswer q 0x10 tk s
  | some (i, k) =>
    if q.arg0 ≠ 0 || q.arg1 ≠ 0 then kvAnswer q 0x18 tk s
    else kvAnswer q 0 tk (clearBlocks i (setSeq i { k with lat := k.fixed, last := tk } s))

/-- The source's blocks that a FORK of `nb` blocks shares. -/
def forkBlocks (k : KvSeq) (nb : Nat) : SMap KvBlk := k.blks.filter (fun b => decide (b.1 < nb))

/-- Table frames that a FORK's new tables need: on the cores where the source's blocks have entries (09 R291). -/
def forkNeeds (k : KvSeq) (nb d : Nat) : List KvNeed :=
  let bs := (forkBlocks k nb).filter (fun b => b.2.inTab)
  ((bs.map (fun b => b.2.core)).eraseDups).flatMap (fun c =>
    (missingNodes none ((bs.filter (fun b => decide (b.2.core = c))).length * d)).map (fun n => ⟨c, none, .node n⟩))

/-- The fade list after a FORK to index j records the source's faded blocks for the new sequence (09 R291). -/
def forkFades (k : KvSeq) (j nb t : Nat) (l : List KvFade) : List KvFade :=
  fadesWith t (((forkBlocks k nb).filter (fun b => decide (b.2.cls = .faded))).map (fun b => (j, b.1))) l

/-- A shared block's frames gain a reference, and the entries that point at them are written. -/
def shareBlock (i j : Nat) (b : Nat × KvBlk) (s : State) : State :=
  let first := decide (blkState b.2 s = 1)
  let s := b.2.pages.foldl (fun s pg =>
    let f := kvFrameNo b.2.core pg
    match mget f s.kv.frames with
    | some v => setFrame f { v with refs := v.refs + 1 } (kvRefs (if v.refs = 1 then 2 else 1) s)
    | none => s) s
  let s := writeLeaves j b.1 s
  if first then writeLeaves i b.1 s else s

/-- A FORK takes effect (09 R291). -/
def forkApply (i : Nat) (q : KvReq) (status tk : Nat) (got : List (KvNeed × Nat)) (s : State) : State :=
  match s.kvSeq i, freeIndex s with
  | some k, some j =>
    let h := q.arg1.toNat
    let p := seqPool k s
    let t := kvShift p s
    let len := q.arg0.toNat
    let nb := ceilDiv len (2 ^ t)
    let bs := forkBlocks k nb
    let s := newSeq j h k.base k.w len tk s
    let s := got.foldl (fun s x => kvEnter p h .live x.1 x.2 s) s
    let s := match s.kvSeq j with
      | some n => setSeq j { n with blks := bs } s
      | none => s
    let s := (((bs.filter (fun b => b.2.inTab)).map (fun b => b.2.core)).eraseDups).foldl (fun s c =>
      extendTab j c (gotNodes got c) s) s
    let s := bs.foldl (fun s b => shareBlock i j b s) (setFades (forkFades k j nb t s.kv.fades) s)
    let s := setSeq i { k with last := tk } s
    (match s.kvSeq j with
     | some n => kvRespond q status (handleWord j n) len len tk s
     | none => s)
  | _, _ => kvAnswer q 0x11 tk (kvUnreserve got s)

/-- FORK. -/
def kvFork (q : KvReq) (tk : Nat) (s : State) : State :=
  match kvHandle q.w1.toNat s with
  | none => kvAnswer q 0x10 tk s
  | some (i, k) =>
    let h := q.arg1.toNat
    let p := seqPool k s
    let t := kvShift p s
    let len := q.arg0.toNat
    let nb := ceilDiv len (2 ^ t)
    if 256 ≤ h || !flag (R.KVL_HOLDER_CFG_EN h) 0 s || rd (R.KVL_HOLDER_CFG_POOL h) 0 s ≠ p then kvAnswer q 0x18 tk s
    else if k.fixed < k.lat then kvAnswer q 0x14 tk s
    else if len = 0 || k.fixed < len then kvAnswer q 0x15 tk s
    else
      match freeIndex s with
      | none => kvAnswer q 0x11 tk s
      | some j =>
        if fadeMax < (forkFades k j nb t s.kv.fades).length then kvRefuse q 0x17 tk s
        else kvGranted q tk (kvGrant p h i (forkNeeds k nb (kvDepth p s)) s) (forkApply i q 0 tk) s

/-- FREE (09 R284, R288, R295). -/
def kvFree (q : KvReq) (tk : Nat) (s : State) : State :=
  match kvHandle q.w1.toNat s with
  | none => kvAnswer q 0x10 tk s
  | some (i, k) =>
    if q.arg0 ≠ 0 || q.arg1 ≠ 0 then kvAnswer q 0x18 tk s
    else
      let s := setSeq i { k with blks := [], tabs := [], closing := true } s
      let s := k.tabs.foldl (fun s t => kvWrite t.1 (dirAddr i) (leBytes 8 0) s) s
      let s := k.blks.foldl (fun s b => b.2.pages.foldl (fun s pg => kvUnref b.2.core pg s) s) s
      let s := k.tabs.foldl (fun s t => t.2.nodes.foldl (fun s n =>
        match mget (kvFrameNo t.1 n.2) s.kv.frames with
        | some v => kvRelease (kvFrameNo t.1 n.2) v s
        | none => s) s) s
      let s := setFades (s.kv.fades.filter (fun r => decide (r.idx ≠ i))) s
      kvAnswer q 0 tk (wr R.KVL_STAT 0 (openCount s) s)

/-- FADEQ: the first faded range that ends after the position. -/
def kvFadeq (q : KvReq) (tk : Nat) (s : State) : State :=
  match kvHandle q.w1.toNat s with
  | none => kvAnswer q 0x10 tk s
  | some (i, k) =>
    if q.arg1 ≠ 0 then kvAnswer q 0x18 tk s
    else
      let s := setSeq i { k with last := tk } s
      let rs := s.kv.fades.filter (fun r => decide (r.idx = i) && decide (q.arg0.toNat < r.start + r.len))
      match rs with
      | [] => kvAnswer q 0x04 tk s
      | r :: l =>
        let f := l.foldl (fun m x => if x.start < m.start then x else m) r
        kvRespond q 0 q.w1.toNat f.start f.len tk s

/-- A refilled block's pages hold undefined records until the plate rewrites them (09 R295). -/
def unfilled (got : List (KvNeed × Nat)) (s : State) : State :=
  got.foldl (fun s x => match x.1.use with
    | .data _ _ => forgetRange (posOf x.1.core) (x.2 * 65536) 65536 s
    | _ => s) s

/-- A REFILL takes effect: the block is LIVE, and its fade record shrinks. -/
def refillApply (i : Nat) (q : KvReq) (status tk : Nat) (got : List (KvNeed × Nat)) (s : State) : State :=
  let s := enterBlocks i .live got (unfilled got s)
  match s.kvSeq i with
  | none => s
  | some k =>
    let t := kvShift (seqPool k s) s
    kvAnswer q status tk (cutFades i (q.arg0.toNat / 2 ^ t * 2 ^ t) (2 ^ t) (setSeq i { k with last := tk } s))

/-- What a REFILL needs for block b: frames on the core of its entries, or, where a fence took them, on a core of the group, as
a new block does (09 R273, R277); none if no core is usable. -/
def refillNeeds (k : KvSeq) (d b : Nat) (blk : KvBlk) (s : State) : Option (List KvNeed) :=
  if blk.inTab then some ((upFrom 0 d).map (fun j => ⟨blk.core, none, .data b j⟩))
  else (kvPlace k b s).map (fun c => blockNeeds k d [(b, c)])

/-- REFILL. -/
def kvRefill (q : KvReq) (tk : Nat) (s : State) : State :=
  match kvHandle q.w1.toNat s with
  | none => kvAnswer q 0x10 tk s
  | some (i, k) =>
    let p := seqPool k s
    let b := q.arg0.toNat / 2 ^ kvShift p s
    match mget b k.blks with
    | none => kvAnswer q 0x18 tk s
    | some blk =>
      if blk.cls ≠ .faded || q.arg1 ≠ 0 then kvAnswer q 0x18 tk s
      else
        match refillNeeds k (kvDepth p s) b blk s with
        | none => kvRefuse q 0x13 tk s
        | some ns => kvGranted q tk (kvGrant p k.holder i ns s) (refillApply i q 0 tk) s

/-- FADEHIT (09 R296). -/
def kvFadehit (q : KvReq) (tk : Nat) (s : State) : State :=
  match kvHandle q.w1.toNat s with
  | none => kvAnswer q 0x10 tk s
  | some (i, k) =>
    if q.arg1 ≠ 0 then kvAnswer q 0x18 tk s
    else kvAnswer q 0 tk (raise .kvFadedRead .kvl 0 (setSeq i { k with last := tk } s))

/-- A holder's quota set; the event's record carries the holder number in its tag (09 R297; entry 127). -/
def setQuota (h n : Nat) (s : State) : State :=
  let s := kvUse h 0 (wr (R.KVL_HOLDER_CFG_QUOTA h) 0 n s)
  if flag (R.KVL_HOLDER_USE_OVER h) 0 s then raiseTag .kvQuotaCut .kvl 0 h (wr (R.KVL_HOLDER_USE_CUT h) 0 1 s) else s

/-- QUOTA: host only. -/
def kvQuota (q : KvReq) (tk : Nat) (s : State) : State :=
  match q.src with
  | .window _ _ => kvAnswer q 0x19 tk s
  | .host =>
    if 256 ≤ q.w1.toNat || 2 ^ 24 ≤ q.arg0.toNat || q.arg1 ≠ 0 || !flag (R.KVL_HOLDER_CFG_EN q.w1.toNat) 0 s then
      kvAnswer q 0x18 tk s
    else kvAnswer q 0 tk (setQuota q.w1.toNat q.arg0.toNat s)

/-- STAT. -/
def kvStat (q : KvReq) (tk : Nat) (s : State) : State :=
  match kvHandle q.w1.toNat s with
  | none => kvAnswer q 0x10 tk s
  | some (i, k) =>
    if q.arg0 ≠ 0 || q.arg1 ≠ 0 then kvAnswer q 0x18 tk s
    else kvAnswer q 0 tk (setSeq i { k with last := tk } s)

/-- Reserved fields of a request are 0 (09 R283). -/
def kvReservedOk (op : KvOp) (q : KvReq) : Bool :=
  decide (bitsAt q.w0.toNat 9 7 = 0) && decide (q.w6 = 0) && decide (q.w7 = 0)
    && (decide (op = .append) || !isLatent q)

/-- A command takes effect at tick `tk`, in its turn; a reserved OP or field is BAD_COMMAND (09 R285). -/
def kvApply (q : KvReq) (tk : Nat) (s : State) : State :=
  match kvOp q with
  | none => kvAnswer q 0x18 tk s
  | some op =>
    if !kvReservedOk op q then kvAnswer q 0x18 tk s
    else
      match op with
      | .open_ => kvOpen q tk s
      | .append => kvAppend q tk s
      | .fix => kvFix q tk s
      | .clear => kvClear q tk s
      | .fork => kvFork q tk s
      | .free => kvFree q tk s
      | .fadeq => kvFadeq q tk s
      | .refill => kvRefill q tk s
      | .fadehit => kvFadehit q tk s
      | .quota => kvQuota q tk s
      | .stat => kvStat q tk s

/-- The index that a command names, unless its first word is a holder. -/
def kvNames (q : KvReq) : Option Nat :=
  match kvOp q with
  | some .open_ => none
  | some .quota => none
  | _ => some (q.w1.toNat % 2 ^ 18)

/-- A waiting command holds this one behind it (09 R286). -/
def kvBlocked (q : KvReq) (ws : List KvWait) : Bool :=
  match kvNames q with
  | none => false
  | some i => ws.any (fun w => decide (kvNames w.req = some i))

/-- A command in its turn: it waits behind one that names its handle, or takes effect. -/
def kvTurn (q : KvReq) (tk : Nat) (s : State) : State :=
  if kvBlocked q s.kv.waits then kvAddWait ⟨q, .held, []⟩ s else kvApply q tk s

/-! ### Receipt (09 R282, R286) -/

/-- Rank of a source among the requests of one timebase tick: host first, then windows in ascending core order. -/
def srcRank : KvSrc → Nat
  | .host => 0
  | .window c _ => 1 + c.val

/-- A request takes its place in receipt order. -/
def insertIn (x : KvIn) : List KvIn → List KvIn
  | [] => [x]
  | a :: l =>
    if !a.late && a.time = x.time && x.rank < a.rank then x :: a :: l else a :: insertIn x l

/-- A command received (09 R286); the host's sets BUSY. -/
def kvReceive (q : KvReq) (s : State) : State :=
  let s := match q.src with
    | .host => wr R.KVL_CMD_STAT_BUSY 0 1 s
    | .window _ _ => s
  { s with kv := { s.kv with ins := insertIn ⟨s.timebase, srcRank q.src, false, q⟩ s.kv.ins } }

/-- The ledger is enabled and its engine's clock runs (09 R302; 18 R499). -/
def kvServes (s : State) : Bool := inService s && flag R.KVL_CTRL 0 s

/-- A request, by its row or from the host's registers. -/
def kvRow (q : KvReq) (s : State) : State := if kvServes s then kvReceive q s else s

/-- A word of a core's memory. -/
def readWord (c a : Nat) (s : State) : Nat := leNat (readBytes (posOf c) a 4 s)

def ledgerBase : Nat := 0x1017F000

/-- A core is a ledger core of an active plate (09 R282). -/
def isLedgerCore (c : Nat) (s : State) : Bool :=
  match plateOfRegion (regionOf c) s with
  | some (_, k) => k.active.isSome && (match k.img with
    | some m => m.ledger.contains c
    | none => false)
  | none => false

/-- Request i of a window whose first 2 KiB are `d`. -/
def windowReq (c i : Nat) (d : List Byte) : KvReq :=
  let w (k : Nat) : Nat := leNat ((d.drop (32 * (1 + i % 63) + 4 * k)).take 4)
  ⟨.window (Fin.ofNat 4096 c) (BitVec.ofNat 32 i), BitVec.ofNat 32 (w 0), BitVec.ofNat 32 (w 1),
    BitVec.ofNat 64 (w 2 + 2 ^ 32 * w 3), BitVec.ofNat 64 (w 4 + 2 ^ 32 * w 5), BitVec.ofNat 32 (w 6), BitVec.ofNat 32 (w 7)⟩

/-- The engine's read of a ledger window has been served: the pending requests are received, or the window overran (09
R282). -/
def windowTake (c : Nat) (d : List Byte) (s : State) : State :=
  if !isLedgerCore c s || !kvServes s then s
  else
    let head := leNat (d.take 4)
    let tail := mgetD c 0 s.kv.tails
    let n := (head + 2 ^ 32 - tail) % 2 ^ 32
    let s := { s with kv := { s.kv with tails := mput c head s.kv.tails } }
    if 63 < n then kvWrite c (ledgerBase + 0x800) (leBytes 4 head) (raise .kvWindowOverrun .kvl 0 s)
    else (upFrom 0 n).foldl (fun s i => kvReceive (windowReq c ((tail + i) % 2 ^ 32) d) s) s

/-- A response delivered: to the host's registers, or queued for the window. -/
def kvDeliver (r : KvResp) (s : State) : State :=
  let ws := [r.op + r.status * 256 + r.tag * 65536, r.word1, r.res0 % 2 ^ 32, r.res0 / 2 ^ 32, r.res1 % 2 ^ 32,
    r.res1 / 2 ^ 32, r.applied % 2 ^ 32]
  match r.src with
  | .host =>
    let s := (upFrom 0 8).foldl (fun s i => wr (R.KVL_CMD_RSP i) 0 (ws.getD i 0) s) s
    wr R.KVL_CMD_STAT_BUSY 0 0 (wr R.KVL_CMD_STAT_STATUS 0 r.status (wr R.KVL_CMD_STAT_TAG 0 r.tag s))
  | .window c i =>
    let a := ledgerBase + 0x800 + 32 * (1 + i.toNat % 63)
    let s := kvWrite c.val a ((ws ++ [i.toNat]).flatMap (leBytes 4)) s
    kvWrite c.val (ledgerBase + 0x800) (leBytes 4 (mgetD c.val 0 s.kv.tails)) s

/-! ### Copies (09 R292) -/

/-- COPY commands of an append's copies enter the Darkroom's queue. -/
def copyIssue (w : KvWait) (s : State) : State :=
  match (kvNames w.req).bind (fun i => s.kvSeq i) with
  | none => s
  | some k =>
    w.got.foldl (fun s x =>
      match x.1.use with
      | .copy b j =>
        (match mget b k.blks with
         | some blk =>
           darkroom (posOf blk.core) ⟨.copy, 10, 0, 0, 0, x.2 * 65536, blk.pages.getD j 0 * 65536, 0, 0, 16384, 0, 0⟩ s
         | none => s)
      | _ => s) s

/-- Every waiting copy-on-write that has not done so issues its commands. -/
def copyIssues (s : State) : State :=
  let s' := s.kv.waits.foldl (fun s w => match w.stage with
    | .copying _ false _ => copyIssue w s
    | _ => s) s
  { s' with kv := { s'.kv with waits := s'.kv.waits.map (fun w => match w.stage with
    | .copying f _ r => { w with stage := .copying f true r }
    | _ => w) } }

/-- Every copy of a waiting append has been made. -/
def copiesDone (w : KvWait) (s : State) : Bool :=
  w.got.all (fun x => !x.1.isCopy || !(s.shaft (posOf x.1.core)).works.any (fun k =>
    match k with
    | .cmd _ c b _ _ => decide (b.core = none) && decide (c.dst = x.2 * 65536)
    | .remote _ _ _ => false))

/-- A waiting copy-on-write whose copies have ended is ready to switch at the tick that closes the exposure. -/
def copyReady (s : State) (w : KvWait) : KvWait :=
  match w.stage with
  | .copying f true r => { w with stage := .copying f true (r || copiesDone w s) }
  | _ => w

/-- COPY_ON_WRITE_SWITCH: the last copy chunk of waiting command n has ended. -/
def kvSwitch (n : Nat) (s : State) : State := { s with kv := { s.kv with waits := s.kv.waits.modify n (copyReady s) } }

/-- The appender's entries move to the copies, each source loses a reference, and the append takes effect. -/
def copySwitch (i : Nat) (w : KvWait) (faded : Bool) (tk : Nat) (s : State) : State :=
  match s.kvSeq i with
  | none => s
  | some k =>
    let b := k.lat / 2 ^ kvShift (seqPool k s) s
    match mget b k.blks with
    | none => s
    | some blk =>
      let pgs := gotCopies w.got b
      let s := pgs.foldl (fun s pg =>
        let f := kvFrameNo blk.core pg
        match mget f s.kv.frames with
        | some v => setFrame f { v with refs := 1 } (kvUse v.holder 1 s)
        | none => s) s
      let s := writeLeaves i b (setSeq i { k with blks := mput b { blk with pages := pgs, cls := .live } k.blks } s)
      let s := blk.pages.foldl (fun s pg => kvUnref blk.core pg s) s
      appendApply i w.req faded.toNat tk w.got s

/-! ### The tick (09 R273, R286 to R288) -/

/-- What a waiting command holds is given back: its reservations, and the copies that no entry points at. -/
def kvGiveBack (w : KvWait) (s : State) : State :=
  (w.got.filter (fun x => x.1.isCopy)).foldl (fun s x =>
    let f := kvFrameNo x.1.core x.2
    match mget f s.kv.frames with
    | some v => if v.refs = 0 && v.rel.isNone then freeFrame f (kvMoved f (kvBook v.pool (some v.cls) none 1 s)) else s
    | none => s) (kvUnreserve w.got s)

/-- A fence has taken a core of a waiting command. -/
def kvLost (w : KvWait) (s : State) : Bool := w.got.any (fun x => !kvUsable x.1.core s)

/-- An append waits for copies that no longer have a shared source: no copy follows (09 R290, R293). -/
def copyMoot (i : Nat) (w : KvWait) (s : State) : Bool :=
  w.got.any (fun x => x.1.isCopy) && (match s.kvSeq i with
    | some k => (sharedTail k (kvShift (seqPool k s) s) s).isNone
    | none => true)

/-- A waiting command whose turn comes at a tick. One that a fence took a core from is decided anew. -/
def kvWake (w : KvWait) (tk : Nat) (s : State) : State :=
  match w.stage, kvNames w.req with
  | .held, _ => kvTurn w.req tk s
  | _, none => s
  | .copying f _ ready, some i =>
    if kvLost w s then kvApply w.req tk (kvGiveBack w s)
    else if ready then copySwitch i w f tk s
    else kvAddWait w s
  | .fading after, some i =>
    if kvLost w s then kvApply w.req tk (kvGiveBack w s)
    else if !kvServed after s then kvAddWait w s
    else
      match kvOp w.req with
      | some .append =>
        if copyMoot i w s then
          appendApply i w.req 1 tk w.got (kvUnreserve (w.got.filter (fun x => x.1.isCopy)) s)
        else appendGo i w.req true tk w.got s
      | some .fork => forkApply i w.req 1 tk w.got s
      | some .refill => refillApply i w.req 1 tk w.got s
      | _ => s

/-- Writes made before the tick join the host queues of their shafts. -/
def kvPush (s : State) : State :=
  s.kv.writes.foldl (fun s w =>
    let p := posOf w.core
    let k := s.shaft p
    let s := s.setShaft p { k with hostq := k.hostq ++ [⟨.engine w.num, 0, true, w.core, w.addr, w.data.length, w.data, true⟩] }
    { s with kv := { s.kv with unserved := s.kv.unserved ++ [w.num] } })
    { s with kv := { s.kv with writes := [] } }

/-- The ledger windows of active plates, in ascending core order. -/
def ledgerCores (s : State) : List Nat :=
  (upFrom 0 4096).filter (fun c => s.plates.any (fun e => e.2.active.isSome && (match e.2.img with
    | some m => m.ledger.contains c
    | none => false)))

/-- One read of the first 2 KiB of a window of each listed core joins its shaft's host queue (09 R282). -/
def queueReads (k : WinKind) (base : Nat) (cs : List Nat) (s : State) : State :=
  cs.foldl (fun s c =>
    let p := posOf c
    let o := s.shaft p
    s.setShaft p { o with hostq := o.hostq ++ [⟨.window k, 0, false, c, base, 2048, [], true⟩] }) s

/-- A sequence's blocks on core c are FADED and its table there is lost (09 R273, R295). -/
def kvRetireSeq (c i : Nat) (q : KvSeq) (s : State) : State :=
  let t := kvShift (seqPool q s) s
  let hit := q.blks.filter (fun b => decide (b.2.core = c) && decide (b.2.cls ≠ .faded))
  let s := setSeq i { q with
    blks := mmap (fun _ b => if b.core = c then { b with pages := [], inTab := false, cls := .faded } else b) q.blks,
    tabs := mdel c q.tabs } s
  let s := hit.foldl (fun s b => recordFade i (b.1 * 2 ^ t) (2 ^ t) s) s
  if hit.isEmpty then s else raise .kvFade .kvl 0 s

/-- Frames of a core leave their pools at the tick of its fence (09 R273, R299). -/
def kvRetire (c : Nat) (s : State) : State :=
  if s.kv.retired.contains c then s
  else
    let lost := s.kv.frames.filter (fun e => decide (e.1 / 2048 = c))
    let s := (upFrom 0 16).foldl (fun s p =>
      if !poolOnCore p c s then s
      else
        let mine := lost.filter (fun e => decide (e.2.pool = p))
        let n := poolPages p s
        let s := mine.foldl (fun s e => kvCount p (some e.2.cls) (-1) s) s
        let s := kvCount p none (-((n - mine.length : Nat) : Int)) s
        bump (R.KVL_POOL_RETIRED p) 0 n (kvTotal p (-(n : Int)) s)) s
    let s := lost.foldl (fun s e =>
      let s := if e.2.rel.isSome then addFld (R.KVL_POOL_RELEASING e.2.pool) 0 (-1) s
        else if e.2.refs = 0 then s else kvUse e.2.holder (-1) s
      if 2 ≤ e.2.refs then kvRefs (-(e.2.refs : Int)) s else s) s
    let s := { s with kv := { s.kv with frames := s.kv.frames.filter (fun e => decide (e.1 / 2048 ≠ c)),
                                        resv := s.kv.resv.filter (fun f => decide (f / 2048 ≠ c)),
                                        retired := s.kv.retired ++ [c] } }
    s.kv.seqs.foldl (fun s q => kvRetireSeq c q.1 q.2 s) s

/-- The cores whose fence is complete at a tick: fenced before it, at it, or with their half (09 R273; 19 R512). -/
def fencedBy : TickAct → List Nat
  | .fence c _ => [c]
  | .halfLost h _ _ => (upFrom 0 512).map (fun i => h * 512 + i)
  | _ => []

/-- The frames of every core that a tick fences retire in its step 1, before the copies (09 R273, R299). -/
def kvFences (todo : List TickAct) (s : State) : State := (todo.flatMap fencedBy).foldl (fun s c => kvRetire c s) s

/-- A re-seated core's frames: its directory is rewritten with VALID = 0 first (09 R273). -/
def kvReseat (c : Nat) (s : State) : State :=
  if rd R.KVL_CTRL 0 s = 0 then { s with kv := { s.kv with backs := s.kv.backs ++ [(c, s.kv.nextWrite)] } }
  else
    let s := (upFrom 0 512).foldl (fun s k => kvWrite c (0x07E00000 + 4096 * k) (List.replicate 4096 0) s) s
    { s with kv := { s.kv with backs := s.kv.backs ++ [(c, s.kv.nextWrite)] } }

/-- A core's frames return to their pools as FREE (09 R273, R299). -/
def kvReturn (c : Nat) (s : State) : State :=
  let s := { s with kv := { s.kv with retired := s.kv.retired.filter (fun x => decide (x ≠ c)) } }
  (upFrom 0 16).foldl (fun s p =>
    if !poolOnCore p c s then s
    else
      let n := poolPages p s
      drop (R.KVL_POOL_RETIRED p) 0 n (kvTotal p n (kvCount p none n s))) s

/-- Cores whose directory writes are served return. -/
def kvBacks (s : State) : State :=
  let bs := s.kv.backs
  bs.foldl (fun s b => if kvServed b.2 s then
      kvReturn b.1 { s with kv := { s.kv with backs := s.kv.backs.filter (fun x => decide (x ≠ b)) } } else s) s

/-- Indexes closed at an earlier tick may be reused, with the next generation (09 R275). -/
def kvClosings (s : State) : State :=
  { s with kv := { s.kv with
    gens := s.kv.seqs.foldl (fun m q => if q.2.closing then mput q.1 ((q.2.gen + 1) % 4096) m else m) s.kv.gens,
    seqs := s.kv.seqs.filter (fun q => !q.2.closing) } }

/-- The first 4,096 requests of the exposure take effect; the rest is deferred, and each counted once (09 R286). -/
def kvTakes (tk : Nat) (s : State) : State :=
  let now := s.kv.ins.take 4096
  let rest := s.kv.ins.drop 4096
  let s := { s with kv := { s.kv with ins := rest.map (fun x => { x with late := true }) } }
  now.foldl (fun s x => kvTurn x.req tk s) (bump R.KVL_DEFER 0 (rest.filter (fun x => !x.late)).length s)

/-- Responses whose writes are served are delivered (09 R286). -/
def kvResponses (s : State) : State :=
  let ready := s.kv.resps.filter (fun r => kvServed r.after s)
  ready.foldl (fun s r => kvDeliver r s) { s with kv := { s.kv with resps := s.kv.resps.filter (fun r => !kvServed r.after s) } }

/-- The engine's work in step 1 of the fix window of the tick numbered `tk`. -/
def kvTick (tk : Nat) (s : State) : State :=
  let s := kvReleases (kvBacks (kvClosings s))
  let ws := s.kv.waits.map (copyReady s)
  let s := ws.foldl (fun s w => kvWake w tk s) { s with kv := { s.kv with waits := [] } }
  let s := copyIssues (kvPush (kvResponses (kvPush (kvTakes tk s))))
  { s with kv := { s.kv with moved := [] } }

/-! ### Configuration (09 R272, R297, R303, R304) -/

/-- Two page ranges share a page. -/
def pagesMeet (a b c d : Nat) : Bool := decide (a ≤ d) && decide (c ≤ b)

/-- The configuration names a reserved page: of the directory, or of the sorter's area (09 R272). -/
def poolReserved (lo hi tw : Nat) (s : State) : Bool :=
  let a := rd R.KVL_BUCKET_CTRL_BC 0 s * 256
  flag R.KVL_CTRL 0 s && (decide (2016 ≤ hi)
    || (tw.testBit (rd R.KVL_BUCKET_CTRL_CORE 0 s / 1024) && pagesMeet lo hi a (a + 63)))

/-- It overlaps another pool in a tower that both use. -/
def poolOverlaps (p lo hi tw : Nat) (s : State) : Bool :=
  (upFrom 0 16).any (fun q => decide (q ≠ p) && flag (R.KVL_POOL_CFG0_EN q) 0 s
    && decide (rd (R.KVL_POOL_CFG0_TOWERS q) 0 s &&& tw ≠ 0)
    && pagesMeet lo hi (rd (R.KVL_POOL_CFG0_PAGE_LO q) 0 s) (rd (R.KVL_POOL_CFG0_PAGE_HI q) 0 s))

/-- A pool's configuration words evaluated: ignored if busy or rejected, else in effect. -/
def poolConfig (p cfg0 cfg1 : Nat) (s : State) : State :=
  let lo := bitsAt cfg0 5 11
  let hi := bitsAt cfg0 16 11
  let tw := bitsAt cfg0 1 4
  if rd (R.KVL_POOL_LIVE p) 0 s + rd (R.KVL_POOL_LATENT p) 0 s + rd (R.KVL_POOL_FADED p) 0 s ≠ 0 then
    raise .kvPoolBusy .kvl 0 s
  else if poolReserved lo hi tw s || poolOverlaps p lo hi tw s || decide (hi < lo) then raise .kvPoolConfig .kvl 0 s
  else
    let s := kvTotal p (-(rd (R.KVL_POOL_TOTAL p) 0 s : Int)) (kvCount p none (-(rd (R.KVL_POOL_FREE p) 0 s : Int)) s)
    let s := wr (R.KVL_POOL_CFG0_EN p) 0 (bitsAt cfg0 0 1) (wr (R.KVL_POOL_CFG0_TOWERS p) 0 tw
      (wr (R.KVL_POOL_CFG0_PAGE_LO p) 0 lo (wr (R.KVL_POOL_CFG0_PAGE_HI p) 0 hi s)))
    let s := wr (R.KVL_POOL_CFG1_TOK_SHIFT p) 0 (bitsAt cfg1 0 4) (wr (R.KVL_POOL_CFG1_DEPTH p) 0 (bitsAt cfg1 4 6)
      (wr (R.KVL_POOL_CFG1_TOK_BYTES p) 0 (bitsAt cfg1 12 12) s))
    let s := wr (R.KVL_POOL_RETIRED p) 0 0 s
    let n := ((upFrom 0 4096).filter (fun c => poolOnCore p c s && kvUsable c s)).length * poolPages p s
    kvTotal p n (kvCount p none n s)

/-- The books that a pool's configuration sets. -/
def poolBooks (p : Nat) : List Fld :=
  [R.KVL_POOL_FREE p, R.KVL_POOL_FREE_SUM, R.KVL_POOL_TOTAL p, R.KVL_POOL_TOTAL_SUM, R.KVL_POOL_RETIRED p]

/-- A holder's configuration word in effect: POOL stays while USED ≠ 0. -/
def holderConfig (h cfg : Nat) (s : State) : State :=
  let s := if rd (R.KVL_HOLDER_USE_USED h) 0 s = 0 then wr (R.KVL_HOLDER_CFG_POOL h) 0 (bitsAt cfg 0 4) s else s
  setQuota h (bitsAt cfg 8 24) (wr (R.KVL_HOLDER_CFG_EN h) 0 (bitsAt cfg 4 1) s)

/-! ### The length bucket sorter (09 R300, R301) -/

/-- The sorter's area: its core and first page. -/
def sorterCore (s : State) : Nat := rd R.KVL_BUCKET_CTRL_CORE 0 s
def sorterPage (s : State) : Nat := rd R.KVL_BUCKET_CTRL_BC 0 s * 256

/-- Handles sampled, as the tick fixed them: index, length clamped, handle word (09 R300). -/
def sampleLens (s : State) : List (Nat × Nat × Nat) :=
  s.kv.seqs.filterMap (fun q =>
    if !q.2.closing && (rd R.KVL_BUCKET_MASK 0 s).testBit (seqPool q.2 s) then
      some (q.1, min q.2.fixed (2 ^ 32 - 1), handleWord q.1 q.2)
    else none)

/-- Addresses in the area of the mask and of the counts of threshold j (09 R301). -/
def maskAddr (area j : Nat) : Nat := (area + 32) * 65536 + j * 32768
def countAddr (area j : Nat) : Nat := (area + 57) * 65536 + j * 4096

/-- The Darkroom commands of a round, in order: the plane and mask pages take bit-plane layout, PLANE, and a PCMPLTI and a
PCOUNT for each threshold. -/
def sorterCmds (r : KvRound) (s : State) : List NmCmd :=
  let a := r.area * 65536
  let n := 262144
  [⟨.setlayout, 0, 0, 0, 0, a + 16 * 65536, 0, 0, 0, 24, 1, 0⟩,
   ⟨.plane, 0, 0, 0, 31, a + 16 * 65536, a, 0, 0, n, 0, 0⟩]
  ++ (upFrom 0 (r.buckets - 1)).map (fun j =>
      ⟨.pcmplti, 0, 0, 0, 31, maskAddr r.area j, a + 16 * 65536, 0, 0, n, 0, rd (R.KVL_BUCKET_THR j) 0 s⟩)
  ++ (upFrom 0 (r.buckets - 1)).map (fun j =>
      ⟨.pcount, 0, 0, 0, 0, countAddr r.area j, maskAddr r.area j, 0, 0, n, 0, 0⟩)

/-- BUCKET_SAMPLE: sampling at a tick whose frame number is a multiple of N; a round still open is late and the sample is
skipped (09 R300, R301). Step 1: the lengths are written. -/
def bucketSample (s : State) : State :=
  let n := rd R.KVL_BUCKET_N 0 s
  if !flag R.KVL_BUCKET_CTRL_EN 0 s || n = 0 || s.frame % n ≠ 0 || (s.kv.round.map (fun r => r.gen)) = some s.frame then s
  else if s.kv.round.isSome then raise .kvBucketLate .kvl 0 s
  else
    let c := sorterCore s
    let ls := sampleLens s
    let words := (upFrom 0 262144).map (fun i => match ls.find? (fun l => decide (l.1 = i)) with
      | some l => l.2.1
      | none => 0)
    let s := (upFrom 0 256).foldl (fun s k =>
      kvWrite c (sorterPage s * 65536 + 4096 * k) (((words.drop (1024 * k)).take 1024).flatMap (leBytes 4)) s) s
    let hs := (ls.filter (fun l => decide (0 < l.2.1))).map (fun l => (l.1, l.2.2))
    { s with kv := { s.kv with
        round := some ⟨s.frame, sorterPage s, c, rd R.KVL_BUCKET_CTRL_NB 0 s + 1, hs, .lengths s.kv.nextWrite⟩ } }

/-- Bit `e` of the mask of threshold j, as the area holds it: the length lies below the threshold. -/
def maskBit (r : KvRound) (j e : Nat) (s : State) : Bool :=
  (readByte (posOf r.core) (maskAddr r.area j + e / 8) s).getLsbD (e % 8)

/-- The handles counted below threshold j: PCOUNT's sum over the groups, less the entries of length 0. -/
def belowCount (r : KvRound) (j : Nat) (s : State) : Nat :=
  ((upFrom 0 1024).map (fun g => leNat (readBytes (posOf r.core) (countAddr r.area j + 4 * g) 4 s))).sum
    - (262144 - r.handles.length)

/-- COUNT of bucket j. -/
def bucketCount (r : KvRound) (j : Nat) (s : State) : Nat :=
  (if j + 1 < r.buckets then belowCount r j s else r.handles.length) - (if j = 0 then 0 else belowCount r (j - 1) s)

/-- The handles of bucket j, in ascending index. -/
def bucketHandles (r : KvRound) (j : Nat) (s : State) : List Nat :=
  (r.handles.filter (fun h => (decide (r.buckets ≤ j + 1) || maskBit r j h.1 s)
    && (decide (j = 0) || !maskBit r (j - 1) h.1 s))).map (fun h => h.2)

/-- The bucket table of a round (09 R301). -/
def bucketTable (r : KvRound) (s : State) : List Nat :=
  [r.gen % 2 ^ 32, r.buckets] ++ (upFrom 0 16).map (fun j => if j < r.buckets then bucketCount r j s else 0)
    ++ List.replicate 14 0 ++ (upFrom 0 r.buckets).flatMap (fun j => bucketHandles r j s)

/-- A round's next step at a tick: the Darkroom commands once the lengths are written, the table once they are done, its GEN
once the table is written (09 R301). -/
def bucketStep (s : State) : State :=
  match s.kv.round with
  | none => s
  | some r =>
    let go (k : KvSort) (s : State) : State := { s with kv := { s.kv with round := some { r with stage := k } } }
    match r.stage with
    | .lengths n =>
      if kvServed n s then go .sorting ((sorterCmds r s).foldl (fun s m => darkroom (posOf r.core) m s) s) else s
    | .sorting =>
      if (s.shaft (posOf r.core)).works.any (fun w => match w with
          | .cmd _ _ b _ _ => decide (b.core = none)
          | .remote _ _ _ => false) then s
      else
        let bytes := (bucketTable r s).flatMap (leBytes 4)
        let s := (upFrom 0 (ceilDiv bytes.length 4096)).foldl (fun s k =>
          kvWrite r.core ((r.area + 40) * 65536 + 4096 * k) ((bytes.drop (4096 * k)).take 4096) s) s
        go (.table s.kv.nextWrite) s
    | .table n =>
      if kvServed n s then wr R.KVL_BUCKET_GEN 0 r.gen { s with kv := { s.kv with round := none } } else s

end Sys2Proof.Machine
end

