-- ==== Sys2Proof/Machine/RayFlit.lean ====
section
/-! DEFINITION. The Ray flit as bits (11 R325, R326; 12 R367): the header's fields, the CRC, and the words built for a flit that
is sent. -/
namespace Sys2Proof

/-! ### Fields of a flit that arrives (11 R325) -/

def RayWords.bits (w : RayWords) (lo n : Nat) : Nat := Machine.bitsAt w.head.toNat lo n
def RayWords.type (w : RayWords) : Nat := w.bits 0 4
def RayWords.cls (w : RayWords) : Nat := w.bits 4 2
def RayWords.poison (w : RayWords) : Bool := decide (w.bits 6 1 = 1)
def RayWords.seq (w : RayWords) : Nat := w.bits 8 12
def RayWords.ack (w : RayWords) : Nat := w.bits 20 12
def RayWords.stream (w : RayWords) : Nat := w.bits 32 5
def RayWords.tag (w : RayWords) : Nat := w.bits 37 4
def RayWords.crd (w : RayWords) : Nat := w.bits 41 7

end Sys2Proof

namespace Sys2Proof.Machine

/-- The class of a CLASS field. -/
def clsOf (n : Nat) : RCls := if n = 0 then .slot else if n = 1 then .red else if n = 2 then .array else .ctrl

/-! ### The CRC -/

/-- `n` bit steps of CRC-16 with polynomial 0x1021. -/
def crc16Bits : Nat → Nat → Nat
  | 0, c => c
  | n + 1, c => crc16Bits n (if 32768 ≤ c then (2 * c) % 65536 ^^^ 0x1021 else 2 * c)

/-- CRC-16 with initial value 0xFFFF over bytes, each from its most significant bit (entry 143). -/
def crc16 (b : List Nat) : Nat := b.foldl (fun c x => crc16Bits 8 (c ^^^ (256 * x))) 0xFFFF

/-- The `n` low bytes of a number, the lowest first. -/
def bytesOf (n v : Nat) : List Nat := (upFrom 0 n).map (fun i => bitsAt v (8 * i) 8)

/-- The CRC over bits [47:0] of a header and the payload (11 R325). -/
def rayCrc (head pay : Nat) : Nat := crc16 (bytesOf 6 head ++ bytesOf 128 pay)

/-- A header with its CRC. -/
def withCrc (head pay : Nat) : RayWords :=
  ⟨BitVec.ofNat 64 (head % 2 ^ 48 + rayCrc head (pay % 2 ^ 1024) * 2 ^ 48), BitVec.ofNat 1024 pay⟩

/-- The flit's CRC is good. -/
def crcGood (w : RayWords) : Bool := decide (w.bits 48 16 = rayCrc w.head.toNat w.pay.toNat)

/-! ### Types (11 R326) -/

/-- The types whose flits are numbered, and those that occupy the receive buffer. -/
def typeSeq (t : Nat) : Bool := decide (t ≤ 6)
def typeData (t : Nat) : Bool := decide (t ≤ 4)

/-- The classes of a type. -/
def typeCls (t c : Nat) : Bool := if t ≤ 1 then decide (c ≤ 1) else if t ≤ 4 then decide (c = 2) else decide (c = 3)

/-- The type of what a flit carries. -/
def RBody.type : RBody → Nat
  | .mesh f => if f.valid then 0 else 1
  | .segHdr _ _ _ _ _ _ => 0
  | .desc _ => 2
  | .arr _ _ => 3
  | .mark _ _ => 4
  | .credit => 5
  | .mgmt _ => 6
  | .ackOnly => 7
  | .nak _ _ => 8
  | .replayReq _ => 9
  | .beacon _ => 10

/-- A management message as numbers; its layout is not given. -/
def Mgmt.nums : Mgmt → List Nat
  | .ident d p r => [0, d, p, r]
  | .sealMsg c r s w => [1, c, r, s, w]
  | .roster c m => [2, c, m.seq.toNat, m.ranks.toNat, m.dropped.toNat, m.mismatch.toNat]
  | .pull c m => [3, c, m.rank.val, m.seq.toNat, m.seg.toNat, m.tag.toNat]
  | .check c r s ok => [4, c, r, s, ok.toNat]
  | .verdict c s v => [5, c, s, match v with
    | .pass => 0
    | .rereduce => 1
    | .fence => 2]
  | .lost c s r => [6, c, s, r]
  | .capNotice c r k f => [7, c, r, k, f]
  | .cleared g r n => [8, g, r, n]
  | .done g r n => [9, g, r, n]
  | .commit g n => [10, g, n]
  | .rebuild g n => [11, g, n]
  | .parPull g r u s => [12, g, r, u, s]

/-- The payload of a flit; where its layout is not given, or not whole, a free value (entry 23). -/
def RBody.payload : RBody → Nat
  | .mesh f => if f.valid then f.data.toNat else 0
  | .segHdr first rank kind tag seq seg =>
    first % 256 + (rank % 64 + kind % 4 * 64) * 2 ^ 8 + tag % 2 ^ 16 * 2 ^ 16 + seq % 2 ^ 32 * 2 ^ 32 + seg % 2 ^ 32 * 2 ^ 64
  | .desc d => Config.rayPayload [2, d.dev.toNat, d.core, d.addr, d.granules, d.op, d.epoch.toNat] % 2 ^ 1024
  | .arr l _ => l.toNat
  | .mark src e => Config.rayPayload [4, src, e] % 2 ^ 1024
  | .credit => 0
  | .mgmt m => Config.rayPayload (6 :: m.nums) % 2 ^ 1024
  | .ackOnly => 0
  | .nak code seq => code % 2 ^ 8 + seq % 2 ^ 12 * 2 ^ 8
  | .replayReq first => first % 2 ^ 12
  | .beacon m => m.frame.toNat + m.len.toNat * 2 ^ 64 + m.delay.toNat * 2 ^ 80
      + Config.rayPayload [10, m.proposal.toNat, m.k.toNat, m.test.toNat] % 2 ^ 912 * 2 ^ 112

/-- POISON of what a flit carries. -/
def RBody.poison : RBody → Bool
  | .mesh f => f.valid && f.poison
  | .arr _ p => p
  | _ => false

/-! ### The words of a flit that is sent -/

/-- Header and payload; an unsequenced flit's SEQ is 0 (entry 143). -/
def rayWords (seq : Option Nat) (ack crd : Nat) (f : RFlit) : RayWords :=
  let pay := f.body.payload
  withCrc (f.body.type + f.cls.code * 2 ^ 4 + f.body.poison.toNat * 2 ^ 6 + seq.getD 0 % 4096 * 2 ^ 8 + ack % 4096 * 2 ^ 20
    + f.stream % 32 * 2 ^ 32 + f.tag.getD 0 % 16 * 2 ^ 37 + crd % 128 * 2 ^ 41) pay

/-- A flit on the wires. -/
def raySent (seq : Option Nat) (ack crd : Nat) (f : RFlit) : RSent := ⟨seq, ack, crd, f, rayWords seq ack crd f⟩

end Sys2Proof.Machine
end

