-- ==== Sys2Proof/Machine/Ray.lean ====
section
/-! DEFINITION. The Ray ports (11 R323 to R352): the link protocol with its credit ledger, release and transit, array
transfers and epochs, training, retraining and fencing. -/
namespace Sys2Proof.Machine

def State.port (s : State) (p : Nat) : RayPort := mgetD p RayPort.init s.ray
def State.setPort (s : State) (p : Nat) (k : RayPort) : State := { s with ray := mput p k s.ray }

/-- STATE of RAY_STAT (11 R353). -/
def rayState (p : Nat) (s : State) : Nat := rd R.RAY_STAT_STATE p s
def rayUp (p : Nat) (s : State) : Bool := decide (rayState p s = 2)
def rayRole (p : Nat) (s : State) : Nat := rd R.RAY_CTRL_ROLE p s
/-- The z roles (11 R329). -/
def rayZ (p : Nat) (s : State) : Bool := decide (rayRole p s = 6) || decide (rayRole p s = 7)

/-- A class whose sequenced flits a port's role carries (11 R328, R329, R331): SLOT on board and cell roles, ARRAY on z roles,
RED and CTRL on both; a SPARE port carries nothing. -/
def roleCarries (p : Nat) (c : RCls) (s : State) : Bool :=
  let r := rayRole p s
  match c with
  | .slot => decide (1 ≤ r) && decide (r ≤ 5)
  | .red => decide (1 ≤ r) && decide (r ≤ 7)
  | .array => rayZ p s
  | .ctrl => decide (1 ≤ r) && decide (r ≤ 7)

/-- The group frame (11 R341). -/
def groupFrame (s : State) : Nat := rd R.GLB_GROUP_FRAME 0 s

/-- The group frame of a LAG_TAG: the latest that it fits (11 R325). -/
def tagFrame (tag : Nat) (s : State) : Nat :=
  let g := groupFrame s
  g - (g + 16 - tag % 16) % 16

/-! ### Plates that use a port (11 R337, R342) -/

/-- The plate's job is under way. -/
def jobUnderWay (k : Plate) : Bool := k.job.isSome

/-- Lanes of a width code: 0 none, 1, 2, 4. -/
def lanesOf (code : Nat) : Nat := if code = 3 then 4 else code

/-- Every plate under way that meets `f` is stopped at the next tick: what is staged for it is cleared (01 R44; 06 R209). -/
def stopPlates (f : Image → Bool) (s : State) : State :=
  s.plates.foldl (fun s e =>
    match e.2.img with
    | some m => if jobUnderWay e.2 && f m then later (.stopPlate e.1 2 0) (invalidatePlate (actFrame s) m s) else s
    | none => s) s

/-- The plate uses a port with a need of at least one lane. -/
def usesPort (p : Nat) (m : Image) : Bool := decide (0 < mgetD p 0 m.rayNeed)

/-! ### The link protocol (11 R327, R328, R350) -/

/-- An unsequenced flit waits to be sent. -/
def rayCtl (p : Nat) (b : RBody) (s : State) : State :=
  let k := s.port p
  s.setPort p { k with ctl := k.ctl ++ [⟨.ctrl, 0, none, b⟩] }

/-- A flit that departs now for the first time carries this group frame in its LAG_TAG (11 R325). -/
def RFlit.stamp (f : RFlit) (s : State) : RFlit := { f with tag := some (f.tag.getD (groupFrame s % 16)) }

/-- A NAK sent: counted, raised, a violation (11 R350, R351). -/
def rayNak (p code seq : Nat) (s : State) : State :=
  let s := rayCtl p (.nak code seq) s
  let k := s.port p
  let s := s.setPort p { k with viol := k.viol + 1 }
  raise .rayNak .ray p (bump R.RAY_NAK_TX p 1 s)

/-- The partner has received everything up to `ack`: those flits leave the replay buffer. -/
def rayAck (p ack : Nat) (s : State) : State :=
  let k := s.port p
  if k.replay.any (fun f => decide (f.1 = ack)) then
    let r := (k.replay.dropWhile (fun f => decide (f.1 ≠ ack))).drop 1
    s.setPort p { k with replay := r, resend := min k.resend r.length }
  else s

/-- Credits arrive: those beyond what is outstanding are clipped (11 R328). -/
def rayCredits (p n : Nat) (s : State) : State :=
  let k := min n (rd R.RAY_CRD_OUT p s)
  let s := bump R.RAY_CRD_AVAIL p k (drop R.RAY_CRD_OUT p k s)
  let s := if k = 0 then s else s.setPort p { s.port p with starved := false }
  if k < n then raise .rayCreditClip .ray p (bump R.RAY_CRD_CLIP p (n - k) s) else s

/-- Flits leave the receive buffer: their credits are queued for return (11 R328). -/
def rayRelease (p : Nat) (red : Bool) (n : Nat) (s : State) : State :=
  let k := s.port p
  let s := s.setPort p { k with owed := k.owed + n, occMain := if red then k.occMain else k.occMain - n,
                                occRed := if red then k.occRed - n else k.occRed }
  bump R.RAY_BUF_FREE p n (drop R.RAY_BUF_OCC p n s)

/-- The flits of a class that its buffer holds are as many as it has room for (11 R328). -/
def classFull (p : Nat) (red : Bool) (s : State) : Bool :=
  let k := s.port p
  if red then decide (4096 ≤ k.occRed) else decide (12288 ≤ k.occMain)

/-- The protocol's part of the arrival of a flit of type `t`: what a port that is UP does with it, and whether it is accepted
(11 R326 to R328, R350). -/
def rayRx (p t : Nat) (w : RayWords) (s : State) : Bool × State :=
  let red := decide (w.cls = 1)
  if !rayUp p s then (false, s)
  else if !crcGood w then (false, rayNak p 1 w.seq s)
  else if decide (w.type ≠ t) || decide (w.bits 7 1 ≠ 0) || !typeCls t w.cls
      || (if typeSeq t then !roleCarries p (clsOf w.cls) s else decide (w.crd ≠ 0)) then
    (false, rayNak p 2 w.seq s)
  else
    let s := rayAck p w.ack s
    if !typeSeq t then (true, s)
    else
      let k := s.port p
      let d := (w.seq + 4096 - k.rxSeq) % 4096
      if d ≠ 0 then (false, if d < 2048 then rayCtl p (.replayReq k.rxSeq) s else s)
      else if typeData t && classFull p red s then (false, rayNak p 5 w.seq s)
      else
        let s := s.setPort p { k with rxSeq := (k.rxSeq + 1) % 4096,
                                      occMain := if typeData t && !red then k.occMain + 1 else k.occMain,
                                      occRed := if typeData t && red then k.occRed + 1 else k.occRed }
        let s := if typeData t then bump R.RAY_BUF_OCC p 1 (drop R.RAY_BUF_FREE p 1 s) else s
        (true, rayCredits p w.crd s)

/-- A management message arrives in an MGMT flit: accepted in order, it has its effect (11 R326, R327). -/
def mgmtRx (p : Nat) (w : RayWords) (f : State → State) (s : State) : State :=
  match rayRx p 6 w s with
  | (true, s) => f s
  | (false, s) => s

/-- The same, of a message that acts while ticks run. -/
def mgmtIn (x : MgmtRx) (f : State → State) (s : State) : State := mgmtRx x.port.val x.words (served f) s

/-- A sequenced flit goes onto the wires for the first time (11 R327, R328). -/
def rayFirst (p : Nat) (f : RFlit) (s : State) : State :=
  let k := s.port p
  let c := min k.owed 127
  let f := f.stamp s
  let s := s.setPort p { k with txSeq := (k.txSeq + 1) % 4096, replay := k.replay ++ [(k.txSeq, c, f)], owed := k.owed - c,
                                wire := some (raySent (some k.txSeq) ((k.rxSeq + 4095) % 4096) c f) }
  if f.cls = .ctrl then s else bump R.RAY_CRD_OUT p 1 (drop R.RAY_CRD_AVAIL p 1 s)

/-- A flit of a class may be sent: the port's role carries it, the replay buffer has room, and the class needs no credit or one
is available. -/
def mayFirst (p : Nat) (c : RCls) (s : State) : Bool :=
  roleCarries p c s && decide ((s.port p).replay.length < 2047) && (decide (c = .ctrl) || decide (0 < rd R.RAY_CRD_AVAIL p s))

/-- A resend starts: the newest `n` flits of the replay buffer go again, in order (11 R327). -/
def rayReplay (p n : Nat) (s : State) : State :=
  let k := s.port p
  if n = 0 then s else raise .rayReplay .ray p (s.setPort p { k with resend := n })

/-- A NAK arrives: resend from the first unacknowledged flit. -/
def rayNakRx (p : Nat) (w : RayWords) (s : State) : State :=
  match rayRx p 8 w s with
  | (true, s) => rayReplay p (s.port p).replay.length s
  | (false, s) => s

/-- A REPLAY_REQ arrives: resend from the flit it names in bits [11:0] of its payload. -/
def rayReplayRx (p : Nat) (w : RayWords) (s : State) : State :=
  match rayRx p 9 w s with
  | (true, s) => rayReplay p ((s.port p).replay.dropWhile (fun f => decide (f.1 ≠ bitsAt w.pay.toNat 0 12))).length s
  | (false, s) => s

/-- An ACK_ONLY arrives. -/
def rayAckRx (p : Nat) (w : RayWords) (s : State) : State := (rayRx p 7 w s).2

/-- A CREDIT arrives: sequenced, it occupies no buffer. -/
def rayCreditRx (p : Nat) (w : RayWords) (s : State) : State := (rayRx p 5 w s).2

/-! ### Streams (11 R333, R338) -/

/-- The route set in which a flit that first departed in frame n travels: the old one for flits from before the last
swap (11 R338). -/
def setAt (n : Nat) (k : Plate) (s : State) : Nat :=
  match s.sync.swapped with
  | some f => if n < f then k.oldSet else k.set
  | none => k.set

/-- The stream-table entry of a stream of a port for flits of frame n, and its hops: of a plate that releases it or passes it
on, else of one whose tables hold it with MODE 0; none if no plate loaded it. -/
def streamOf (p st n : Nat) (s : State) : Option (Nat × Nat) :=
  let used := s.plates.findSome? (fun e =>
    match e.2.img with
    | none => none
    | some m =>
      let key := setAt n e.2 s * 576 + p * 32 + st
      match mget key m.streams with
      | some w => some (w, mgetD key 1 m.hops)
      | none => none)
  match used with
  | some x => some x
  | none =>
    if s.plates.any (fun e => match e.2.img with
        | some m => m.tables.contains (setAt n e.2 s)
        | none => false) then some (0, 1)
    else none

/-! ### Board and cell traffic (11 R332 to R336) -/

/-- A late flit counted (11 R336). -/
def countLate (p : Nat) (s : State) : State := raise .rayLate .ray p (bump R.RAY_LATE p 1 s)

/-- A late flit: discarded, its credit returned, counted (11 R336). -/
def rayLate (p : Nat) (red : Bool) (s : State) : State := countLate p (rayRelease p red 1 s)

/-- A mesh flit arrives (DATA, or EMPTY): held for release, or handed to its transit port (11 R333 to R336). RED flits of
the channels are held for them (12 R366). -/
def rayMeshRx (p t : Nat) (w : RayWords) (s : State) : State :=
  match rayRx p t w s with
  | (false, s) => s
  | (true, s) =>
    let red := decide (w.cls = 1)
    let f : Flit := if t = 0 then ⟨true, w.poison, 0, 0, w.pay, none⟩ else Flit.none
    let n := tagFrame w.tag s
    match streamOf p w.stream n s with
    | none => rayNak p 3 w.seq (rayRelease p red 1 s)
    | some (x, hops) =>
      if bitsAt x 0 1 = 1 then
        let q := bitsAt x 1 5
        let o := s.port q
        s.setPort q { o with transit := o.transit ++
          [⟨p, n + hops, ⟨if red then .red else .slot, bitsAt x 6 5, some w.tag, .mesh f⟩⟩] }
      else
        let k := s.port p
        if red then s.setPort p { k with redHeld := k.redHeld + 1, redq := k.redq ++ [(w.stream, f)] }
        else
          let due := n + 1 + hops
          if k.missed.contains (w.stream, due) then
            rayRelease p false 1 (s.setPort p { k with missed := k.missed.erase (w.stream, due) })
          else if due < groupFrame s then rayLate p false s
          else s.setPort p { k with rx := k.rx ++ [⟨false, w.stream, due, f⟩] }

/-- The channels take `n` RED flits that the port holds (12 R366). -/
def takeRed (p n : Nat) (s : State) : State :=
  let k := s.port p
  let m := min n k.redHeld
  rayRelease p true m (s.setPort p { k with redHeld := k.redHeld - m })

/-- A release entry takes the oldest flit of its stream due in this exposure; else the flit is late: counted now, and discarded
when it arrives (11 R334, R336). -/
def rayTake (p st : Nat) (s : State) : Flit × State :=
  let k := s.port p
  let g := groupFrame s
  match k.rx.find? (fun f => decide (f.stream = st) && decide (f.due = g)) with
  | some f => (f.flit, rayRelease p false 1 (s.setPort p { k with rx := k.rx.erase f }))
  | none => (Flit.bad, countLate p (s.setPort p { k with missed := k.missed ++ [(st, g)] }))

/-- The oldest transit flit due at a port, if its time has come (11 R335). -/
def dueTransit (p : Nat) (s : State) : Option TxTransit :=
  if sinceTick s < 60 then none else (s.port p).transit.find? (fun t => decide (t.due ≤ groupFrame s))

/-- A transit flit leaves. -/
def sendTransit (p : Nat) (t : TxTransit) (s : State) : State :=
  let k := s.port p
  let s := s.setPort p { k with transit := k.transit.erase t }
  rayRelease t.inPort (decide (t.flit.cls = .red)) 1 (rayFirst p t.flit s)

/-- A transit flit is late: it has not left by L − 100 ns (11 R336). -/
def lateTransit (p : Nat) (t : TxTransit) (s : State) : State :=
  let k := s.port p
  let s := s.setPort p { k with transit := k.transit.erase t }
  rayLate t.inPort (decide (t.flit.cls = .red)) s

/-- A due transit flit leaves, if it may, or is late: it has not left by L − 100 ns (11 R335, R336). -/
def passTransit (p : Nat) (t : TxTransit) (s : State) : State :=
  if inFix s || decide (t.due < groupFrame s) then lateTransit p t s
  else if rayUp p s && mayFirst p t.flit.cls s then sendTransit p t s
  else s

/-- TRANSIT_FORWARD: the oldest due transit flit leaves, or is late. -/
def transitForward (p : Nat) (s : State) : State :=
  match dueTransit p s with
  | none => s
  | some t => passTransit p t s

/-- At a tick: transit flits that did not leave in their exposure are late, and flits that no entry released are
discarded (entry 24). -/
def rayTick (s : State) : State :=
  let g := groupFrame s
  s.ray.foldl (fun s e =>
    let s := (s.port e.1).transit.foldl (fun s t => if t.due ≤ g then lateTransit e.1 t s else s) s
    let k := s.port e.1
    let old := k.rx.filter (fun f => decide (f.due ≤ g))
    let s := s.setPort e.1 { k with rx := k.rx.filter (fun f => decide (g < f.due)),
                                    missed := k.missed.filter (fun m => decide (g < m.2 + 16)) }
    rayRelease e.1 false old.length s) s

/-! ### Array traffic (11 R344 to R346) -/

/-- This device's identity (11 R330). -/
def devId (s : State) : Nat := s.img.devId

/-- A descriptor within the limits of 11 R344. -/
def descOk (d : ArrDesc) (s : State) : Bool :=
  decide (d.dev.toNat % 512 = devId s % 512) && decide (d.core < 4096) && decide (d.addr % 32 = 0)
    && decide (1 ≤ d.granules) && decide (d.granules ≤ 128) && decide (d.op ≤ 2)
    && decide (d.addr + 32 * d.granules ≤ 0x8000000)

/-- The remote chunk kind of an operation (11 R344). -/
def arrKind (op : Nat) : RemKind := if op = 0 then .write else if op = 1 then .racc else .xacc

/-- The port through which array flits that arrived at a port go on: one of the opposite z role (11 R344). -/
def onward (p : Nat) (s : State) : Option Nat :=
  let want := if rayRole p s = 6 then 7 else 6
  (upFrom 0 18).find? (fun q => decide (rayRole q s = want))

/-- A queue of array flits takes one more (11 R345). -/
def arrRoom (q : Nat) (s : State) : Bool := decide ((s.port q).arrq.length < 4096)
def arrPush (q : Nat) (f : RFlit) (s : State) : State :=
  let k := s.port q
  s.setPort q { k with arrq := k.arrq ++ [f] }

/-- Four granules of a flit that arrives for a shaft join its inbound buffer (08 R267). -/
def arrLand (p no : Nat) (d : ArrDesc) (at_ : Nat) (l : Line) (poison : Bool) (s : State) : State :=
  (upFrom 0 (min 4 (d.granules - at_))).foldl (fun s i =>
    remoteArrive (posOf d.core) (arrKind d.op)
      ⟨d.addr + 32 * (at_ + i), BitVec.ofNat 256 (l.toNat >>> (256 * i)), poison, some (p, no)⟩ s) s

/-- The head array flit of a port's receive buffer moves on, if there is room: to a shaft, to the next cell, or away with
its bad transfer; false if it cannot. -/
def arrStep (p : Nat) (s : State) : Bool × State :=
  let k := s.port p
  match k.rxArr with
  | [] => (false, s)
  | f :: r =>
    let gone (k : RayPort) (s : State) : State := rayRelease p false 1 (s.setPort p { k with rxArr := r })
    let pass (k : RayPort) (s : State) : Bool × State :=
      match onward p s with
      | some q => if arrRoom q s then (true, arrPush q f (gone k s)) else (false, s)
      | none => (true, gone k s)
    match f.body with
    | .desc d =>
      let flits := ceilDiv d.granules 4
      if d.dev.toNat ≠ devId s then pass { k with cur := some ⟨some d, flits, 0⟩ } s
      else (true, gone { k with cur := some ⟨some d, flits, 0⟩ } s)
    | .arr l poison =>
      (match k.cur with
       | some ⟨some d, left, at_⟩ =>
         let nxt := if left ≤ 1 then none else some ⟨some d, left - 1, at_ + 4⟩
         if d.dev.toNat ≠ devId s then pass { k with cur := nxt } s
         else if 2048 < (s.shaft (posOf d.core)).inbox + 4 then (false, s)
         else (true, arrLand p s.sync.xfer d at_ l poison (gone { k with cur := nxt } s))
       | some ⟨none, left, _⟩ => (true, gone { k with cur := if left ≤ 1 then none else some ⟨none, left - 1, 0⟩ } s)
       | none => (true, gone k s))
    | .mark src e =>
      if src = devId s then (true, gone k s)
      else
        let s := { s with sync := { s.sync with xfer := s.sync.xfer + 1 } }
        let k := s.port p
        pass { k with marks := k.marks ++ [(src / 512, e, s.sync.xfer)] } s
    | _ => (true, gone k s)

/-- Array flits move on in order while they can. -/
def arrPump (p : Nat) : Nat → State → State
  | 0, s => s
  | n + 1, s =>
    match arrStep p s with
    | (true, s) => arrPump p n s
    | (false, s) => s

/-- An array flit joins the receive buffer in order. -/
def arrRx (p : Nat) (w : RayWords) (b : RBody) (s : State) : State :=
  match rayRx p b.type w s with
  | (false, s) => s
  | (true, s) =>
    let k := s.port p
    let s := s.setPort p { k with rxArr := k.rxArr ++ [⟨.array, w.stream, some w.tag, b⟩] }
    arrPump p (s.port p).rxArr.length s

/-- The descriptor in a payload (11 R344; entry 23). -/
def arrDescOf (l : Line) : ArrDesc :=
  let n := Config.arrDesc l.toNat
  ⟨BitVec.ofNat 16 n, bitsAt n 16 12, bitsAt n 28 32, bitsAt n 60 8, bitsAt n 68 4, BitVec.ofNat 32 (n >>> 72)⟩

/-- ARR_DESC of descriptor `d`: one that breaks the limits is answered with NAK DESC and its transfer discarded (11 R344, R350). -/
def arrDescRx (p : Nat) (w : RayWords) (d : ArrDesc) (s : State) : State :=
  if descOk d s then arrRx p w (.desc d) s
  else
    match rayRx p 2 w s with
    | (false, s) => s
    | (true, s) =>
      let s := rayNak p 4 w.seq (rayRelease p false 1 s)
      let k := s.port p
      s.setPort p { k with cur := some ⟨none, ceilDiv d.granules 4, 0⟩ }

/-- Some granule of a transfer numbered below `n` of a key has not completed its chunk. -/
def xferOpen (key n : Nat) (s : State) : Bool :=
  s.shafts.any (fun e => e.2.works.any (fun w =>
    match w with
    | .remote _ _ gs => gs.any (fun g => match g.tag with
      | some (k, m) => decide (k = key) && decide (m < n)
      | none => false)
    | _ => false))

/-- At a tick: RAY_EPOCH_DONE of the marks before which every transfer that arrived on the port has completed (11 R346;
entry 26). -/
def epochTick (s : State) : State :=
  s.ray.foldl (fun s e =>
    (s.port e.1).marks.foldl (fun s m =>
      if xferOpen e.1 m.2.2 s then s
      else
        let k := s.port e.1
        wr (R.RAY_EPOCH_DONE m.1) e.1 m.2.1 (s.setPort e.1 { k with marks := k.marks.erase m })) s) s

/-- RAY_EPOCH_CLOSE (11 R346). -/
def epochClose (p e : Nat) (s : State) : State :=
  let k := s.port p
  if !rayZ p s then s
  else if e ≤ k.epoch then raise .epochOrder .ray p s
  else arrPush p ⟨.array, 0, none, .mark (devId s) e⟩ (s.setPort p { k with epoch := e })

/-- A plate's flit reaches the endpoint of a z port: a descriptor, then its data (11 R345). -/
def arrFeed (c p cycle : Nat) (f : Flit) (s : State) : State :=
  if !f.valid then s
  else if !arrRoom p s then plateFault c 0 0 cycle .arrayFull s
  else
    let k := s.port p
    if k.feed = 0 then
      let d := arrDescOf f.data
      arrPush p ⟨.array, 0, some (groupFrame s % 16), .desc d⟩ (s.setPort p { k with feed := ceilDiv d.granules 4 })
    else arrPush p ⟨.array, 0, some (groupFrame s % 16), .arr f.data f.poison⟩ (s.setPort p { k with feed := k.feed - 1 })

/-- A plate's flit reaches the endpoint of a port (11 R332, R345). -/
def rayDeliver (c p ext cycle : Nat) (f : Flit) (s : State) : State :=
  if rayZ p s then arrFeed c p cycle f s
  else
    let k := s.port p
    s.setPort p { k with sendq := k.sendq ++ [⟨.slot, ext, some (groupFrame s % 16), .mesh f⟩] }

/-- A channel's or the Darkroom's flits are queued. -/
def rayQueue (p : Nat) (fs : List RFlit) (s : State) : State :=
  let k := s.port p
  s.setPort p { k with sendq := k.sendq ++ fs }

/-- RAY_SEND: the port's next flit goes onto its wires: unsequenced ones, resends, due transit flits, source flits in
order, array flits, credits alone (11 R327, R328, R335). -/
def raySend (p : Nat) (s : State) : State :=
  let k := s.port p
  if !rayUp p s then s
  else
    match k.ctl with
    | f :: r => s.setPort p { k with ctl := r, wire := some (raySent none ((k.rxSeq + 4095) % 4096) 0 (f.stamp s)) }
    | [] =>
      if 0 < k.resend then
        match k.replay.drop (k.replay.length - k.resend) with
        | (n, c, f) :: _ =>
          bump R.RAY_REPLAY p 1
            (s.setPort p { k with resend := k.resend - 1, wire := some (raySent (some n) ((k.rxSeq + 4095) % 4096) c f) })
        | [] => s.setPort p { k with resend := 0 }
      else
        match dueTransit p s with
        | some t => passTransit p t s
        | none =>
          match k.sendq with
          | f :: r => if mayFirst p f.cls s then rayFirst p f (s.setPort p { k with sendq := r }) else s
          | [] =>
            match k.arrq with
            | f :: r =>
              if mayFirst p .array s then
                let s := rayFirst p f (s.setPort p { k with arrq := r })
                (upFrom 0 18).foldl (fun s q => arrPump q (s.port q).rxArr.length s) s
              else s
            | [] =>
              if 0 < k.owed && mayFirst p .ctrl s then rayFirst p ⟨.ctrl, 0, none, .credit⟩ s else s

/-! ### Training (11 R347 to R353) -/

/-- The port carries nothing: it goes to a state without a width. -/
def rayDark (p st cause : Nat) (s : State) : State :=
  wr R.RAY_STAT_STATE p st (wr R.RAY_STAT_WIDTH p 0 (wr R.RAY_STAT_LAST_CAUSE p cause s))

/-- The port is fenced (11 R351). -/
def rayFence (p cause : Nat) (s : State) : State :=
  stopPlates (usesPort p) (raise .rayFenced .ray p (rayDark p 4 cause s))

/-- A training attempt fails (11 R348). -/
def rayTrainFail (p cause : Nat) (s : State) : State :=
  stopPlates (usesPort p) (raise .rayTrainFail .ray p (rayDark p 0 cause s))

/-- The port starts a training attempt (11 R347). -/
def rayTrainStart (p : Nat) (s : State) : State :=
  let st := rd R.BOOT_STAT_STATE 0 s
  if rayRole p s = 0 || flag R.RAY_CTRL_DISABLE p s || decide (st < 4) || decide (st = 9) then s
  else wr R.RAY_STAT_STATE p 1 s

/-- A retrain starts, or the port is fenced if it would be one too many within 10 s (11 R349, R351). -/
def rayRetrain (p : Nat) (s : State) : State :=
  if !rayUp p s then s
  else
    let k := s.port p
    let recent := k.retrains.filter (fun t => decide (s.timebase < t + 1000000000))
    if rd R.RAY_THRESH_RETRAINS p s ≤ recent.length then rayFence p 4 (s.setPort p { k with retrains := recent })
    else
      let s := s.setPort p { k with retrains := recent ++ [s.timebase] }
      stopPlates (usesPort p) (raise .rayRetrain .ray p (wr R.RAY_STAT_STATE p 3 s))

/-- A full training initialises sequence numbers, buffers and credits (11 R328, R347): what the receive buffer held is gone,
transit flits with it (entry 25). -/
def rayInit (p : Nat) (s : State) : State :=
  let s := s.ray.foldl (fun s e => s.setPort e.1 { s.port e.1 with
    transit := (s.port e.1).transit.filter (fun t => decide (t.inPort ≠ p)) }) s
  let k := s.port p
  let s := s.setPort p { RayPort.init with sendq := k.sendq, arrq := k.arrq, transit := k.transit, retrains := k.retrains,
                                           epoch := k.epoch, marks := k.marks, feed := k.feed, viol := k.viol, wire := k.wire,
                                           prole := k.prole }
  let s := wr R.RAY_CRD_AVAIL p 16384 (wr R.RAY_CRD_OUT p 0 (wr R.RAY_CRD_ADV p 16384 s))
  wr R.RAY_BUF_FREE p 16384 (wr R.RAY_BUF_OCC p 0 s)

/-- The SHEET_PARTNER entry of a port (18 R495). -/
def sheetOf (p : Nat) (s : State) : Nat := mgetD p 0 s.img.partners

/-- A port's expected width code of RAY_STAT. -/
def rayExpect (p : Nat) (s : State) : Nat := rd R.RAY_CTRL_EXP_WIDTH p s + 1

/-- The partner is not the one expected: it differs from the contact sheet, or from what it was before a retrain (11 R349,
R350). -/
def wrongPartner (p : Nat) (t : TrainRes) (s : State) : Bool :=
  let e := sheetOf p s
  (rayState p s = 3 && (decide (rd R.RAY_STAT_PARTNER_ID p s ≠ t.partner.toNat)
      || decide (rd R.RAY_STAT_PARTNER_PORT p s ≠ t.pport.toNat) || decide ((s.port p).prole ≠ t.role.toNat)))
    || (e.testBit 31 && (decide (bitsAt e 0 16 ≠ t.partner.toNat) || decide (bitsAt e 16 5 ≠ t.pport.toNat)))

/-- IDENT: identity, port and role go to the partner in an MGMT flit, before CREDIT_INIT starts the numbering (11 R330, R347;
entry 143). -/
def sendIdent (p : Nat) (s : State) : State :=
  let f : RFlit := ⟨.ctrl, 0, none, .mgmt (.ident (devId s) p (rayRole p s))⟩
  s.setPort p { s.port p with wire := some (raySent none (((s.port p).rxSeq + 4095) % 4096) 0 (f.stamp s)) }

/-- A training attempt or a retrain ends (11 R347 to R350). -/
def rayTrained (p : Nat) (t : TrainRes) (s : State) : State :=
  let st := rayState p s
  if st ≠ 1 && st ≠ 3 then s
  else if t.width = 0 then rayTrainFail p 1 s
  else
    let s := wr R.RAY_LAT p t.latency.toNat (sendIdent p s)
    if 1500 < t.latency.toNat && decide (rayRole p s ≤ 5) then rayTrainFail p 2 s
    else if wrongPartner p t s then
      rayFence p 3 (wr R.RAY_STAT_PARTNER_ID p t.partner.toNat (wr R.RAY_STAT_PARTNER_PORT p t.pport.toNat s))
    else
      let s := wr R.RAY_STAT_PARTNER_ID p t.partner.toNat (wr R.RAY_STAT_PARTNER_PORT p t.pport.toNat s)
      let s := if st = 1 then rayInit p s else s
      let narrow := decide (t.width.toNat < rayExpect p s)
      let s := if narrow then raise .rayNarrow .ray p s else s
      let s := wr R.RAY_STAT_DEGRADED p narrow.toNat s
      if narrow && flag R.RAY_CTRL_STRICT p s && s.released then rayFence p 4 s
      else
        let s := wr R.RAY_STAT_STATE p 2 (wr R.RAY_STAT_WIDTH p t.width.toNat s)
        let s := stopPlates (fun m => decide (lanesOf t.width.toNat < mgetD p 0 m.rayNeed)) s
        let k := s.port p
        s.setPort p { k with known := true, resend := k.replay.length, prole := t.role.toNat }

/-- RAY_TRAIN_LIMIT expires (01 R54; 11 R348). -/
def rayTrainLimit (p : Nat) (s : State) : State :=
  if rayState p s = 1 || rayState p s = 3 then rayTrainFail p 1 s else s

/-- One second after a failure a new attempt starts (11 R348). -/
def rayTrainRetry (p : Nat) (s : State) : State := if rayState p s = 0 then rayTrainStart p s else s

/-- RAY_CTRL.UNFENCE (11 R351). -/
def rayUnfence (p : Nat) (s : State) : State := if rayState p s = 4 then rayTrainStart p s else s

/-- RAY_CTRL.DISABLE (11 R353): the port is held DOWN; a fenced one stays fenced. -/
def rayDisable (p : Nat) (on : Bool) (s : State) : State :=
  let s := wr R.RAY_CTRL_DISABLE p on.toNat s
  if on && decide (rayState p s ≠ 4) then stopPlates (usesPort p) (rayDark p 0 (rd R.RAY_STAT_LAST_CAUSE p s) s) else s

/-- A 1 ms violation window ends (11 R350, R351). -/
def rayWindow (p : Nat) (s : State) : State :=
  let k := s.port p
  let starving := !k.arrq.isEmpty && decide (rd R.RAY_CRD_AVAIL p s = 0)
  let n := k.viol + (k.starved && starving).toNat
  let s := s.setPort p { k with viol := 0, starved := starving }
  if rd R.RAY_THRESH_VIOL p s < n then rayRetrain p s else s

end Sys2Proof.Machine
end

