-- ==== Sys2Proof/Machine/Red.lean ====
section
/-! DEFINITION. Reduction channels (12 R356 to R376): seals, rosters and the tally, pulls and contributions in rank order,
the mirror check, verdicts, conversion and distribution, completion, drops, holds. -/
namespace Sys2Proof.Machine

def State.chan (s : State) (c : Nat) : RedChan := mgetD c RedChan.init s.red.chans
def State.setChan (s : State) (c : Nat) (k : RedChan) : State :=
  { s with red := { s.red with chans := mput c k s.red.chans } }
def State.bkt (s : State) (c seq : Nat) : Option RedBkt := (s.chan c).bkts.find? (fun b => decide (b.seq = seq))
def State.setBkt (s : State) (c : Nat) (b : RedBkt) : State :=
  s.setChan c { s.chan c with bkts := (s.chan c).bkts.map (fun x => if x.seq = b.seq then b else x) }

/-- Ranks of a mask, ascending. -/
def ranksOf (mask : Nat) : List Nat := (upFrom 0 64).filter (fun r => mask.testBit r)
/-- A rank put into or out of a mask. -/
def withRank (mask r : Nat) : Nat := mask ||| 2 ^ r
def without (mask r : Nat) : Nat := if mask.testBit r then mask - 2 ^ r else mask

def redRank (c : Nat) (s : State) : Nat := rd R.RED_CTRL_RANK c s
def redMembers (c : Nat) (s : State) : Nat := rd R.RED_MEMBERS c s
def redSpan (c : Nat) (s : State) : Nat := 2 ^ rd R.RED_SPAN_K c s
def redBase (c : Nat) (s : State) : Nat := rd R.RED_SPAN_CORE_BASE c s
/-- Channel open: enabled and not fenced (12 R356). -/
def redOpen (c : Nat) (s : State) : Bool := decide (rd R.RED_STAT_STATE c s = 1)

/-- The leader: the lowest present rank (12 R363). -/
def redLeader (c : Nat) (s : State) : Nat := (ranksOf (redMembers c s)).headD 0
def setLeader (c : Nat) (s : State) : State := wr R.RED_STAT_LEADER c (redLeader c s) s

/-- Control messages travel as MGMT flits on the route of a rank (12 R363); LOCAL sends nothing. -/
def redSend (c r : Nat) (m : Mgmt) (s : State) : State :=
  let p := rd (R.RED_ROUTE_PORT r) c s
  if 18 ≤ p then s else rayQueue p [⟨.ctrl, rd (R.RED_ROUTE_STREAM r) c s, none, .mgmt m⟩] s

/-! ### The geometry of a bucket (12 R358) -/

def RedBkt.z (b : RedBkt) : Nat := bitsAt b.w0 11 3
def RedBkt.segs (b : RedBkt) : Nat := 2 ^ (b.z + 8)
def RedBkt.srcFmt (b : RedBkt) : Nat := bitsAt b.w0 6 2
def RedBkt.outFmt (b : RedBkt) : Nat := bitsAt b.w0 8 2
def RedBkt.mean (b : RedBkt) : Bool := b.w0.testBit 10

/-- Formats of a seal. -/
def redFmt : Nat → Fmt
  | 1 => .bf16 | 2 => .fp16 | _ => .fp32
def redBits (f : Nat) : Nat := if f = 0 then 32 else 16
/-- The near-memory code of a seal's format (08 R253). -/
def nmCode (f : Nat) : Nat := if f = 0 then 0 else 3 - f

/-- The owner of share j: the j-th rank of the first roster, or the next rank after it in the roster in force. -/
def RedBkt.owner (b : RedBkt) (j : Nat) : Nat :=
  let ro := b.roster.getD 0
  let o := (ranksOf b.first).getD j 0
  if ro.testBit o then o
  else
    match (ranksOf ro).find? (fun r => decide (o < r)) with
    | some r => r
    | none => (ranksOf ro).headD 0

/-- Shares of the bucket. -/
def RedBkt.shares (b : RedBkt) : Nat := (ranksOf b.first).length
def RedBkt.share (b : RedBkt) (k seg : Nat) : Nat := seg / k % max 1 b.shares
/-- Shares and segments owned by a rank. -/
def RedBkt.myShares (b : RedBkt) (r : Nat) : List Nat := (upFrom 0 b.shares).filter (fun j => decide (b.owner j = r))
def RedBkt.mySegs (b : RedBkt) (k r : Nat) : List Nat :=
  (upFrom 0 b.segs).filter (fun g => decide (b.owner (b.share k g) = r))

/-- The core of a segment and its place in the core's ranges. -/
def segCore (c seg : Nat) (s : State) : Nat := redBase c s + seg % redSpan c s
def segOff (c seg : Nat) (s : State) : Nat := seg / redSpan c s

/-! ### Sealing (12 R359 to R361) -/

def sealBase : Nat := 0x1017E000

/-- A window's response: its record, then TAIL (09 R282). -/
def windowRespond (core base i tail : Nat) (ws : List Nat) (s : State) : State :=
  kvWrite core (base + 0x800) (leBytes 4 tail)
    (kvWrite core (base + 0x800 + 32 * (1 + i % 63)) (ws.flatMap (leBytes 4)) s)

/-- A completion record in the seal's response slot (12 R369). -/
def redRecord (core i status count seq digest dropped : Nat) (s : State) : State :=
  windowRespond core sealBase i (mgetD core 0 s.red.sealTails)
    [status + count * 256, seq, digest % 2 ^ 32, digest / 2 ^ 32, dropped % 2 ^ 32, dropped / 2 ^ 32,
     (s.frame + 1) % 2 ^ 32, i] s

/-- A seal refused (12 R361). -/
def sealRefuse (c core i status : Nat) (s : State) : State :=
  redRecord core i status 0 0 0 0 (raise .redSealRefused .red c s)

/-- The record breaks 12 R360, or a core holds less than 4 KiB of the bucket. -/
def sealBad (c : Nat) (w : List Nat) (s : State) : Bool :=
  let w0 := w.getD 0 0
  let z := bitsAt w0 11 3
  let per := 2 ^ (z + 20) / redSpan c s
  let sl := per * redBits (bitsAt w0 6 2) / 32
  let rl := per * redBits (bitsAt w0 8 2) / 32
  let a := w.getD 1 0
  let b := w.getD 2 0
  let r := w.getD 3 0
  decide (bitsAt w0 14 18 ≠ 0) || decide (bitsAt w0 6 2 = 3) || decide (bitsAt w0 8 2 = 3) || decide (z = 7)
    || (w.drop 4).any (fun x => decide (x ≠ 0)) || decide (per < 4096)
    || [a, b, r].any (fun x => decide (x % 4096 ≠ 0))
    || !(nmRangeOk (bankCol b) (a, sl) && nmRangeOk (bankCol b) (b, per) && nmRangeOk (bankCol b) (r, rl))
    || meets (a, sl) (b, per) || meets (a, sl) (r, rl) || meets (b, per) (r, rl)

/-- SEAL reaches the leader (12 R364). -/
def sealHeard (c rank seq w0 : Nat) (s : State) : State :=
  let k := s.chan c
  let l := mgetD seq [] k.heard
  if k.fixed.contains seq || l.any (fun e => decide (e.1 = rank)) then s
  else s.setChan c { k with heard := mput seq (l ++ [(rank, w0)]) k.heard }

/-- SEAL sent to the leader, or taken by it (12 R363). -/
def sendSeal (c seq w0 : Nat) (s : State) : State :=
  if redLeader c s = redRank c s then sealHeard c (redRank c s) seq w0 s
  else redSend c (redLeader c s) (.sealMsg c (redRank c s) seq w0) s

/-- The words of request i of a window whose first 2 KiB are `d` (09 R282). -/
def windowWords (i : Nat) (d : List Byte) : List Nat :=
  (upFrom 0 8).map (fun k => leNat ((d.drop (32 * (1 + i % 63) + 4 * k)).take 4))

/-- A seal's request (12 R360, R361). -/
def sealTake (core i : Nat) (d : List Byte) (s : State) : State :=
  let w := windowWords i d
  let w0 := w.getD 0 0
  let c := w0 % 64
  if !redOpen c s then sealRefuse c core i 0x12 s
  else if 8 ≤ (s.chan c).bkts.length then sealRefuse c core i 0x10 s
  else if sealBad c w s || decide (redBase c s ≠ core) then sealRefuse c core i 0x11 s
  else
    let seq := rd R.RED_SEQ_NEXT c s
    let b : RedBkt :=
      { seq := seq, idx := i, core := core, w0 := w0, src := w.getD 1 0, acc := w.getD 2 0, res := w.getD 3 0,
        phase := .sealed, roster := none, first := 0, dropped := 0, misses := 0, passed := [], pulls := [], held := [],
        checked := [], miss := false, sent := false, mirror := [], got := [], poison := false, gone := 0, resHeld := [], conv := [], tag := 0 }
    let s := wr R.RED_SEQ_NEXT c (seq + 1) (bump R.RED_STAT_OPEN c 1 s)
    let s := s.setChan c { s.chan c with bkts := (s.chan c).bkts ++ [b] }
    sendSeal c seq w0 s

/-- Cores whose seal window an enabled channel reads, one entry for each. -/
def sealCores (s : State) : List Nat :=
  (((upFrom 0 64).filter (fun c => flag R.RED_CTRL_EN c s)).map (fun c => redBase c s)).eraseDups

/-- The engine's read of a seal window has been served (12 R359): its new requests are taken, or the window overran. -/
def sealWindow (core : Nat) (d : List Byte) (s : State) : State :=
  if !(sealCores s).contains core then s
  else
    let head := leNat (d.take 4)
    let tail := mgetD core 0 s.red.sealTails
    let n := (head + 2 ^ 32 - tail) % 2 ^ 32
    let s := { s with red := { s.red with sealTails := mput core head s.red.sealTails } }
    if 63 < n then
      let c := ((upFrom 0 64).find? (fun c => flag R.RED_CTRL_EN c s && decide (redBase c s = core))).getD 0
      kvWrite core (sealBase + 0x800) (leBytes 4 head) (raise .redWindowOverrun .red c s)
    else (upFrom 0 n).foldl (fun s i => sealTake core ((tail + i) % 2 ^ 32) d s) s

/-! ### Rosters and the tally (12 R364, R365, R370) -/

/-- The digest of a roster (12 R365). -/
def redDigest (c seq mask : Nat) (s : State) : Nat :=
  (ranksOf mask).foldl (fun d r => d ^^^ mix ((rd R.RED_SEED c s ^^^ (2 ^ 60 + seq * 64 + r)) % 2 ^ 64)) 0

/-- The leader fixes the roster of a bucket with the ranks it has heard, and sends it to every present rank; it is applied
at the next tick. -/
def fixRoster (c seq : Nat) (s : State) : State :=
  let k := s.chan c
  let l := mgetD seq [] k.heard
  let mem := redMembers c s
  let ranks := l.foldl (fun m e => if mem.testBit e.1 then withRank m e.1 else m) 0
  let bad := l.any (fun e => decide (e.2 ≠ (l.headD (0, 0)).2))
  let m : RosterMsg := ⟨BitVec.ofNat 32 seq, BitVec.ofNat 64 ranks, BitVec.ofNat 64 (mem - ranks), bad⟩
  let s := s.setChan c { k with heard := mdel seq k.heard, fixed := k.fixed ++ [seq], rosters := k.rosters ++ [m] }
  (ranksOf mem).foldl (fun s r => if r = redRank c s then s else redSend c r (.roster c m) s) s

/-- The buckets whose seals have all arrived. -/
def fullHeard (c : Nat) (s : State) : List Nat :=
  ((s.chan c).heard.filter (fun e =>
    (ranksOf (redMembers c s)).all (fun r => e.2.any (fun x => decide (x.1 = r))))).map (fun e => e.1)

/-- ROSTER_FIX: the leader fixes every roster for which all present ranks have sealed. -/
def rosterFix (c : Nat) (s : State) : State :=
  if redLeader c s ≠ redRank c s then s else (fullHeard c s).foldl (fun s q => fixRoster c q s) s

/-- ROSTER arrives: applied at the next tick. -/
def rosterRx (c : Nat) (m : RosterMsg) (s : State) : State :=
  s.setChan c { s.chan c with rosters := (s.chan c).rosters ++ [m] }

/-- The tally's registers of a bucket's slot. -/
def tallySlot (seq : Nat) : Nat := seq % 8

/-- The tally of a bucket: DROP and EXP moved, RCV as given, OUT the rest (12 R370). -/
def tally (c seq exp drop_ rcv : Nat) (s : State) : State :=
  let t := tallySlot seq
  let e := rd (R.RED_TALLY_EXP t) c s + exp
  let d := rd (R.RED_TALLY_DROP t) c s + drop_
  wr (R.RED_TALLY_EXP t) c e (wr (R.RED_TALLY_DROP t) c d (wr (R.RED_TALLY_RCV t) c rcv
    (wr (R.RED_TALLY_OUT t) c (e - d - rcv) s)))

/-- The ledger slot of a bucket is freed. -/
def tallyFree (c seq : Nat) (s : State) : State :=
  let t := tallySlot seq
  let s := if rd (R.RED_TALLY_OUT t) c s ≠ 0 then
      ledgerFail 6 (c * 8 + t) (rd (R.RED_TALLY_EXP t) c s) (rd (R.RED_TALLY_RCV t) c s + rd (R.RED_TALLY_DROP t) c s) s
    else s
  wr (R.RED_TALLY_EXP t) c 0 (wr (R.RED_TALLY_DROP t) c 0 (wr (R.RED_TALLY_RCV t) c 0 (wr (R.RED_TALLY_OUT t) c 0 s)))

/-- Segments held in a port's buffer for a bucket are given up: their credits return (12 R366; 11 R328). -/
def redGiveUp (c : Nat) (b : RedBkt) (s : State) : State :=
  let s := b.held.foldl (fun s m => takeRed (rd (R.RED_ROUTE_PORT m.rank.val) c s) 33 s) s
  b.resHeld.foldl (fun s m => takeRed (rd (R.RED_ROUTE_PORT m.rank.val) c s) (1 + redBits b.outFmt) s) s

/-- A bucket completes at this member (12 R369). -/
def redComplete (c : Nat) (b : RedBkt) (status : Nat) (s : State) : State :=
  let s := redGiveUp c b s
  let s := s.setChan c { s.chan c with bkts := (s.chan c).bkts.filter (fun x => decide (x.seq ≠ b.seq)) }
  let s := drop R.RED_STAT_OPEN c 1 (wr R.RED_DONE_SEQ c b.seq (wr R.RED_DROP_LOG c b.dropped (bump R.RED_BUCKETS c 1 s)))
  let ro := b.roster.getD 0
  redRecord b.core b.idx status (ranksOf ro).length b.seq (redDigest c b.seq ro s) b.dropped s

/-- Ranks leave the members of a channel (12 R364): counted and raised one by one. -/
def dropRanks (c mask : Nat) (s : State) : State :=
  (ranksOf mask).foldl (fun s r =>
    if (redMembers c s).testBit r then
      raise .redDrop .red c (bump R.RED_DROPS c 1 (setLeader c (wr R.RED_MEMBERS c (without (redMembers c s) r) s)))
    else s) s

/-- A first roster applied to a bucket. -/
def firstRoster (c : Nat) (b : RedBkt) (m : RosterMsg) (s : State) : State :=
  let ro := m.ranks.toNat
  let b := { b with roster := some ro, first := ro, dropped := b.dropped ||| m.dropped.toNat }
  let n := (b.myShares (redRank c s)).length
  let p := (ranksOf (ro ||| m.dropped.toNat)).length
  let t := tallySlot b.seq
  let s := wr (R.RED_ROSTER_CNT_COUNT t) c (ranksOf ro).length (wr (R.RED_ROSTER_CNT_SEQ t) c b.seq
    (wr (R.RED_ROSTER_DIGEST t) c (redDigest c b.seq ro s) s))
  let s := tally c b.seq (p * n) ((ranksOf m.dropped.toNat).length * n) 0 s
  s.setBkt c b

/-- A revised roster applied: every owner restarts Apply, and the next rank takes over a lost owner's shares (12 R371). -/
def reviseRoster (c : Nat) (b : RedBkt) (m : RosterMsg) (s : State) : State :=
  let me := redRank c s
  let ro := m.ranks.toNat
  let old := (b.myShares me).length
  let lost := (ranksOf (b.roster.getD 0)).filter (fun r => !ro.testBit r)
  let s := redGiveUp c b s
  let b := { b with roster := some ro, dropped := b.dropped ||| m.dropped.toNat, passed := [], pulls := [], held := [],
                    checked := [], miss := false, sent := false, mirror := [], phase := .sealed }
  let new := (b.myShares me).length - old
  let t := tallySlot b.seq
  let s := wr (R.RED_ROSTER_CNT_COUNT t) c (ranksOf ro).length (wr (R.RED_ROSTER_DIGEST t) c (redDigest c b.seq ro s) s)
  let s := tally c b.seq (new * (ranksOf ro).length) (lost.length * old + new) 0 s
  s.setBkt c b

/-- A roster takes effect at a tick (12 R364). -/
def applyRoster (c : Nat) (m : RosterMsg) (s : State) : State :=
  let s := dropRanks c m.dropped.toNat s
  let s := if m.dropped = 0 then s else raise .redTimeout .red c s
  match s.bkt c m.seq.toNat with
  | none => s
  | some b =>
    if m.mismatch then redComplete c { b with roster := some m.ranks.toNat, dropped := b.dropped ||| m.dropped.toNat } 0x13 s
    else if b.roster.isNone then firstRoster c b m s
    else if b.phase = .spread then s
    else reviseRoster c b m s

/-! ### Pulling and adding (12 R366, R367) -/

/-- Key of a channel's reductions among the tagged granules of the shafts; ports use the numbers below 32. -/
def redKey (c seq : Nat) : Nat := 64 + c * 8 + seq % 8

/-- Number of a contribution among a bucket's tagged granules. -/
def redNo (seg n : Nat) : Nat := seg * 64 + n

/-- Tagged numbers of a key whose chunks have not ended. -/
def openTags (key : Nat) (s : State) : List Nat :=
  s.shafts.flatMap (fun e => e.2.works.flatMap (fun w =>
    match w with
    | .remote _ _ gs => gs.filterMap (fun g => match g.tag with
      | some (k, m) => if k = key then some m else none
      | none => none)
    | _ => []))

/-- The 1,024 wire values of a segment of this member's SRC, widened exactly, and which of its 32 lines are poisoned. -/
def readSrc (c : Nat) (b : RedBkt) (seg : Nat) (s : State) : BitVec 32768 × BitVec 32 × State :=
  let w := redBits b.srcFmt
  let p := posOf (segCore c seg s)
  let a := b.src + segOff c seg s * 128 * w
  match checkUnits p .unit [] (unitsOf a (128 * w)) s with
  | (bad, s) =>
    let n := leNat (readBytes p a (128 * w) s)
    let vals := (upFrom 0 1024).map (fun i => asFp32 ((redFmt b.srcFmt).decode (elemAt w i n)))
    let bads := (upFrom 0 32).foldl (fun m l =>
      if bad.any (fun u => decide (a + l * 4 * w ≤ u) && decide (u < a + (l + 1) * 4 * w)) then m + 2 ^ l else m) 0
    (BitVec.ofNat 32768 (packElems 32 vals), BitVec.ofNat 32 bads, s)

/-- A sampled element (12 R372). -/
def isSample (c seq e : Nat) (s : State) : Bool :=
  flag (R.RED_MIRROR_EN) c s
    && decide (mix ((rd R.RED_SEED c s ^^^ (2 ^ 59 + seq * 2 ^ 26 + e)) % 2 ^ 64) % 2 ^ rd R.RED_MIRROR_RATE c s = 0)

/-- A sample takes one contribution (12 R372, R373). -/
def addSample (m : Mirror) (v : Nat) (poison : Bool) : Mirror :=
  match Fmt.decode .fp32 v with
  | .fin neg k e =>
    let n := k <<< (e + 149).toNat
    if poison then { m with skip := true }
    else { m with sum := m.sum + (if neg then -(n : Int) else n), mags := m.mags + n }
  | _ => { m with skip := true }

/-- The samples of a contribution's segment. -/
def sampleSeg (c : Nat) (b : RedBkt) (seg : Nat) (data : BitVec 32768) (poison : BitVec 32) (s : State) : SMap Mirror :=
  (upFrom 0 1024).foldl (fun m i =>
    let e := seg * 1024 + i
    if isSample c b.seq e s then
      mmod e ⟨0, 0, false⟩ (fun x => addSample x (elemAt 32 i data.toNat) (poison.getLsbD (i / 32))) m
    else m) b.mirror

/-- The granules of a contribution enter the target shaft's inbound buffer: the first rank's are written, later ones
added. -/
def passSeg (c : Nat) (b : RedBkt) (seg n : Nat) (data : BitVec 32768) (poison : BitVec 32) (s : State) : State :=
  let p := posOf (segCore c seg s)
  let a := b.acc + segOff c seg s * 4096
  let s := (upFrom 0 128).foldl (fun s i =>
    remoteArrive p (if n = 0 then .write else .racc)
      ⟨a + 32 * i, BitVec.ofNat 256 (data.toNat >>> (256 * i)), poison.getLsbD (i / 4), some (redKey c b.seq, redNo seg n)⟩
      s) s
  s.setBkt c { b with passed := mput seg (n + 1) b.passed, mirror := sampleSeg c b seg data poison s }

/-- The shaft of a segment has room for its granules (08 R267). -/
def segRoom (c seg : Nat) (s : State) : Bool := decide ((s.shaft (posOf (segCore c seg s))).inbox + 128 ≤ 2048)

/-- Contributions of one segment pass in rank order while they are there. -/
def advanceSeg (c seq seg : Nat) : Nat → State → State
  | 0, s => s
  | fuel + 1, s =>
    match s.bkt c seq with
    | none => s
    | some b =>
      let n := mgetD seg 0 b.passed
      match (ranksOf (b.roster.getD 0))[n]? with
      | none => s
      | some r =>
        if !segRoom c seg s then s
        else if r = redRank c s then
          match readSrc c b seg s with
          | (d, q, s) => advanceSeg c seq seg fuel (passSeg c b seg n d q s)
        else
          match b.held.find? (fun m => decide (m.rank.val = r) && decide (m.seg.toNat = seg)) with
          | none => s
          | some m =>
            let s := takeRed (rd (R.RED_ROUTE_PORT r) c s) 33 s
            advanceSeg c seq seg fuel (passSeg c { b with held := b.held.erase m } seg n m.data m.poison s)

/-- Pulls that wait for data on a port, over all channels and groups: each reserves 33 flits of its RED buffer (12 R366; 13
R385). -/
def pullsOn (p : Nat) (s : State) : Nat :=
  (s.red.chans.map (fun e => (e.2.bkts.map (fun b =>
    (b.pulls.filter (fun q => decide (rd (R.RED_ROUTE_PORT q.1) e.1 s = p))).length)).sum)).sum
  + (s.red.groups.map (fun e => (e.2.pulls.filter (fun q => decide (rd (R.PAR_ROUTE_PORT e.1 q.1) 0 s = p))).length)).sum

/-- A pull may be issued to a rank (12 R366). -/
def mayPull (c r : Nat) (b : RedBkt) (s : State) : Bool :=
  let p := rd (R.RED_ROUTE_PORT r) c s
  decide (p < 18) && decide ((b.pulls.filter (fun q => decide (q.1 = r))).length < 32)
    && decide ((s.port p).occRed + 33 * (pullsOn p s + 1) ≤ 4096)

/-- PULLs of a bucket go out, by segment and rank, while they may (12 R366). -/
def issuePulls (c seq : Nat) (s : State) : State :=
  match s.bkt c seq with
  | none => s
  | some b0 =>
    let me := redRank c s
    let ranks := ranksOf (b0.roster.getD 0)
    (b0.mySegs (redSpan c s) me).foldl (fun s seg =>
      (upFrom 0 ranks.length).foldl (fun s n =>
        match s.bkt c seq with
        | none => s
        | some b =>
          let r := ranks.getD n 0
          if r = me || n < mgetD seg 0 b.passed || b.pulls.contains (r, seg)
              || b.held.any (fun m => decide (m.rank.val = r) && decide (m.seg.toNat = seg)) || !mayPull c r b s then s
          else
            let s := s.setBkt c { b with pulls := b.pulls ++ [(r, seg)], tag := (b.tag + 1) % 2 ^ 16 }
            redSend c r (.pull c ⟨Fin.ofNat 64 me, BitVec.ofNat 32 seq, BitVec.ofNat 32 seg, BitVec.ofNat 16 b.tag⟩) s) s) s

/-- The bucket whose Apply, conversion or distribution runs: the first, with a roster, that has not passed Distribute at this
owner. -/
def redActive (c : Nat) (s : State) : Option RedBkt :=
  match (s.chan c).bkts.find? (fun b => decide (b.phase ≠ .spread) || !b.conv.isEmpty) with
  | some b => if b.roster.isSome then some b else none
  | none => none

/-- The owner's work of a channel goes on. -/
def redPump (c : Nat) (s : State) : State :=
  match redActive c s with
  | none => s
  | some b =>
    let b := if b.phase = .sealed then { b with phase := .apply } else b
    let s := s.setBkt c b
    if b.phase ≠ .apply then s
    else
      let s := (b.mySegs (redSpan c s) (redRank c s)).foldl (fun s g => advanceSeg c b.seq g 64 s) s
      issuePulls c b.seq s

/-- The header and data flits of a segment (12 R367): `w` bits a value. -/
def segFlits (stream first rank kind tag seq seg w : Nat) (data : BitVec 32768) (poison : BitVec 32) : List RFlit :=
  ⟨.red, stream, none, .segHdr first rank kind tag seq seg⟩ ::
    (upFrom 0 w).map (fun i =>
      ⟨.red, stream, none, .mesh ⟨true, poison.getLsbD i, 0, 0, BitVec.ofNat 1024 (data.toNat >>> (1024 * i)), none⟩⟩)

/-- Entries of stream `st` taken off a list of held flits, `n` of them. -/
def dropHeld (st : Nat) : List (Nat × Flit) → Nat → List (Nat × Flit)
  | l, 0 => l
  | [], _ => []
  | x :: r, n + 1 => if x.1 = st then dropHeld st r n else x :: dropHeld st r (n + 1)

/-- The mesh flits in which a segment arrives. -/
def segWant (first kind w : Nat) (m : SegMsg) : List Flit :=
  (segFlits 0 first m.rank.val kind m.tag.toNat m.seq.toNat m.seg.toNat w m.data m.poison).map (fun f =>
    match f.body with
    | .mesh g => g
    | b => ⟨true, false, 0, 0, BitVec.ofNat 1024 b.payload, none⟩)

/-- The flits of a segment, if they are the next that some stream of the port brought (12 R366, R367; 13 R379); they stay in
the buffer until the segment is passed on. -/
def segTaken (p first kind w : Nat) (m : SegMsg) (s : State) : Option State :=
  let q := (s.port p).redq
  let want := segWant first kind w m
  match (upFrom 0 32).find? (fun st => decide (((q.filter (fun x => decide (x.1 = st))).take want.length).map (fun x => x.2) = want)) with
  | some st => some (s.setPort p { s.port p with redq := dropHeld st q want.length })
  | none => none

/-- A segment sent to a rank. -/
def sendSeg (c r kind tag seq seg w : Nat) (data : BitVec 32768) (poison : BitVec 32) (s : State) : State :=
  let p := rd (R.RED_ROUTE_PORT r) c s
  if 18 ≤ p then s
  else rayQueue p (segFlits (rd (R.RED_ROUTE_STREAM r) c s) c (redRank c s) kind tag seq seg w data poison) s

/-- PULL arrives at a contributor, which sends its segment (12 R366, R367). -/
def pullRx (c : Nat) (m : PullMsg) (s : State) : State :=
  match s.bkt c m.seq.toNat with
  | none => s
  | some b =>
    match readSrc c b m.seg.toNat s with
    | (d, q, s) => sendSeg c m.rank.val 0 m.tag.toNat b.seq m.seg.toNat 32 d q s

/-- CONTRIBUTION: a segment's flits have come on its rank's port (12 R366, R371). One that is awaited is held until its turn in
rank order; another is given up. -/
def contribution (c : Nat) (m : SegMsg) (s : State) : State :=
  let p := rd (R.RED_ROUTE_PORT m.rank.val) c s
  match segTaken p c 0 32 m s, s.bkt c m.seq.toNat with
  | none, _ => s
  | some s, none => takeRed p 33 s
  | some s, some b =>
    if !b.pulls.contains (m.rank.val, m.seg.toNat) then takeRed p 33 s
    else
      let s := if m.poison = 0 then s else raise .redPoison .red c s
      redPump c (s.setBkt c { b with pulls := b.pulls.erase (m.rank.val, m.seg.toNat), held := b.held ++ [m] })

/-! ### The mirror check and the verdict (12 R372 to R374) -/

/-- A sample passes (12 R373): x the ACC element, `n` ranks in the roster. -/
def samplePasses (x n : Nat) (m : Mirror) : Bool :=
  match Fmt.decode .fp32 x with
  | .fin neg k e =>
    let v : Int := (k <<< (e + 149).toNat : Nat)
    let d := ((if neg then -v else v) - m.sum).natAbs
    decide (d * 2 ^ 24 ≤ (n - 1) * (m.mags + 2 ^ 23))
  | _ => false

/-- A sample is skipped (12 R373). -/
def sampleSkips (m : Mirror) : Bool := m.skip || decide (2 ^ 276 ≤ m.mags)

/-- Ranks whose contribution to a segment has been applied. -/
def appliedOf (b : RedBkt) (tags : List Nat) (seg : Nat) : Nat :=
  (tags.filter (fun t => decide (t / 64 = seg))).foldl (fun m t => min m (t % 64)) (mgetD seg 0 b.passed)

/-- Every contribution to a share has been applied. -/
def shareApplied (c : Nat) (b : RedBkt) (j : Nat) (s : State) : Bool :=
  let n := (ranksOf (b.roster.getD 0)).length
  let tags := openTags (redKey c b.seq) s
  (upFrom 0 b.segs).all (fun g => decide (b.share (redSpan c s) g ≠ j) || decide (appliedOf b tags g = n))

/-- The ACC element at a wire element. -/
def accElem (c : Nat) (b : RedBkt) (e : Nat) (s : State) : Nat :=
  leNat (readBytes (posOf (segCore c (e / 1024) s)) (b.acc + segOff c (e / 1024) s * 4096 + e % 1024 * 4) 4 s)

/-- CHECK reaches the leader, which rules once it has every owner's (12 R374). -/
def checkHeard (c rank seq : Nat) (pass : Bool) (s : State) : State :=
  let k := s.chan c
  let l := (mgetD seq [] k.checks).filter (fun e => decide (e.1 ≠ rank))
  s.setChan c { k with checks := mput seq (l ++ [(rank, pass)]) k.checks }

/-- Key of a channel's results among the tagged granules of the shafts. -/
def resKey (c seq : Nat) : Nat := 1024 + c * 8 + seq % 8

/-- Address in RES of a segment, and its core's shaft. -/
def resAddr (c : Nat) (b : RedBkt) (seg : Nat) (s : State) : Nat := b.res + segOff c seg s * 128 * redBits b.outFmt

/-- Word 0 of a bucket's draws (12 R368). -/
def redWord (c seq : Nat) : Nat := 2 ^ 62 + c * 2 ^ 40 + seq

/-- The conversion of a segment (12 R368): a near-memory CVT of the Darkroom from ACC into RES, which rounds by the draws of
the bucket's wire elements. -/
def convertSeg (c : Nat) (b : RedBkt) (seg : Nat) (s : State) : State :=
  let n := (ranksOf (b.roster.getD 0)).length
  let dst := resAddr c b seg s
  let k : NmCmd := ⟨.cvt, 0, nmCode b.outFmt, 0, 0, dst, b.acc + segOff c seg s * 4096, 0, 0, 1024, 0, 0⟩
  enqueue (posOf (segCore c seg s)) (bankCol dst) (fun a => .cmd a k ⟨none, 0, 0, rd R.RED_SEED c s, true, s.frame, 0, 0, 0,
    some ⟨redWord c b.seq, seg * 1024, if b.mean then some n else none⟩⟩ 0 false) s

/-- A segment's conversion is not complete. -/
def converting (c seq seg : Nat) (s : State) : Bool :=
  (s.shaft (posOf (segCore c seg s))).works.any (fun w =>
    match w with
    | .cmd _ _ b _ _ => b.red.any (fun r => decide (r.w0 = redWord c seq) && decide (r.first = seg * 1024))
    | _ => false)

/-- A VERDICT of pass: every segment of this owner is converted (12 R368). -/
def spread (c seq : Nat) (s : State) : State :=
  match s.bkt c seq with
  | none => s
  | some b =>
    let gs := b.mySegs (redSpan c s) (redRank c s)
    let s := gs.foldl (fun s g => convertSeg c b g s) s
    redPump c (s.setBkt c { b with phase := .spread, conv := gs })

/-- A converted segment as it stands in RES: its data, its poisoned lines. -/
def resData (c : Nat) (b : RedBkt) (seg : Nat) (s : State) : BitVec 32768 × BitVec 32 :=
  let p := posOf (segCore c seg s)
  let a := resAddr c b seg s
  let w := redBits b.outFmt
  (BitVec.ofNat 32768 (leNat (readBytes p a (128 * w) s)),
    BitVec.ofNat 32 ((upFrom 0 w).foldl (fun m l =>
      if (upFrom 0 4).any (fun i => storedPoison p (a + 128 * l + 32 * i) s) then m + 2 ^ l else m) 0))

/-- A segment whose conversion is complete goes to every other rank of the roster (12 R369). -/
def distribute (c seq seg : Nat) (s : State) : State :=
  match s.bkt c seq with
  | none => s
  | some b =>
    if converting c seq seg s then s
    else
      match resData c b seg s with
      | (d, q) =>
        let s := s.setBkt c { b with conv := b.conv.erase seg, got := b.got ++ [seg], poison := b.poison || decide (q ≠ 0) }
        (ranksOf (b.roster.getD 0)).foldl (fun s r =>
          if r = redRank c s || b.gone.testBit r then s else sendSeg c r 1 0 seq seg (redBits b.outFmt) d q s) s

/-- The channel is fenced after a second mismatch (12 R374): open buckets complete, and their RES is undefined. -/
def redFence (c : Nat) (s : State) : State :=
  let bs := (s.chan c).bkts
  let s := bs.foldl (fun s b =>
    let s := (upFrom 0 (redSpan c s)).foldl (fun s i =>
      forgetRange (posOf (redBase c s + i)) b.res (2 ^ (b.z + 20) / redSpan c s * redBits b.outFmt / 32) s) s
    let t := tallySlot b.seq
    let s := wr (R.RED_TALLY_OUT t) c 0 (wr (R.RED_TALLY_EXP t) c (rd (R.RED_TALLY_RCV t) c s + rd (R.RED_TALLY_DROP t) c s) s)
    tallyFree c b.seq (redComplete c b 0x12 s)) s
  raise .redMirrorFence .red c (wr R.RED_STAT_STATE c 2 s)

/-- A verdict takes effect at an owner (12 R374). -/
def verdictRx (c seq : Nat) (v : RedVerdict) (s : State) : State :=
  match s.bkt c seq with
  | none => s
  | some b =>
    if b.phase = .spread then s
    else
      match v with
      | .pass => spread c seq s
      | .rereduce =>
        let s := raise .redRereduce .red c (bump R.RED_REREDUCE c 1 s)
        let s := redGiveUp c b (tally c seq 0 0 0 s)
        redPump c (s.setBkt c { b with misses := b.misses + 1, passed := [], held := [], pulls := [], checked := [],
                                       miss := false, sent := false, mirror := [], phase := .apply })
      | .fence => redFence c s

/-- The leader's verdict, once every owner has checked (12 R374). -/
def rule (c seq : Nat) (s : State) : State :=
  match s.bkt c seq with
  | none => s
  | some b =>
    let l := mgetD seq [] (s.chan c).checks
    let ranks := ranksOf (b.roster.getD 0)
    if redLeader c s ≠ redRank c s || !ranks.all (fun r => l.any (fun e => decide (e.1 = r))) then s
    else
      let v : RedVerdict := if l.all (fun e => e.2) then .pass else if b.misses = 0 then .rereduce else .fence
      let s := s.setChan c { s.chan c with checks := mdel seq (s.chan c).checks }
      let s := (ranksOf (redMembers c s)).foldl (fun s r => if r = redRank c s then s else redSend c r (.verdict c seq v) s) s
      verdictRx c seq v s

/-- CHECK arrives at the leader. -/
def checkRx (c rank seq : Nat) (pass : Bool) (s : State) : State := rule c seq (checkHeard c rank seq pass s)

/-- This owner's CHECK goes to the leader (12 R363). -/
def sendCheck (c : Nat) (b : RedBkt) (s : State) : State :=
  if redLeader c s = redRank c s then checkRx c (redRank c s) b.seq (!b.miss) s
  else redSend c (redLeader c s) (.check c (redRank c s) b.seq (!b.miss)) s

/-- MIRROR_CHECK of a share whose last apply chunk has ended (12 R373). The last share's check sends CHECK. -/
def mirrorCheck (c j : Nat) (s : State) : State :=
  match redActive c s with
  | none => s
  | some b =>
    let me := redRank c s
    if b.phase ≠ .apply || !(b.myShares me).contains j || b.checked.contains j || !shareApplied c b j s then s
    else
      let n := (ranksOf (b.roster.getD 0)).length
      let ms := b.mirror.filter (fun e => decide (b.share (redSpan c s) (e.1 / 1024) = j))
      let run := ms.filter (fun e => !sampleSkips e.2)
      let bad := run.any (fun e => !samplePasses (accElem c b e.1 s) n e.2)
      let s := bump R.RED_MIRROR_SAMPLES c run.length (bump R.RED_MIRROR_SKIP c (ms.length - run.length) s)
      let b := { b with checked := b.checked ++ [j], miss := b.miss || bad }
      if (b.myShares me).all (fun i => b.checked.contains i) then
        sendCheck c { b with phase := .check, sent := true } (s.setBkt c { b with phase := .check, sent := true })
      else s.setBkt c b

/-! ### Results and completion (12 R369, R370) -/

/-- Result segments pass to their shafts in arrival order while there is room, to be written into RES as whole granules (12
R369). -/
def resPump (c seq : Nat) : Nat → State → State
  | 0, s => s
  | n + 1, s =>
    match s.bkt c seq with
    | none => s
    | some b =>
      match b.resHeld with
      | [] => s
      | m :: r =>
        let w := redBits b.outFmt
        let seg := m.seg.toNat
        let p := posOf (segCore c seg s)
        if 2048 < (s.shaft p).inbox + 4 * w then s
        else
          let s := takeRed (rd (R.RED_ROUTE_PORT m.rank.val) c s) (1 + w) s
          let s := (upFrom 0 (4 * w)).foldl (fun s i =>
            remoteArrive p .write ⟨resAddr c b seg s + 32 * i, BitVec.ofNat 256 (m.data.toNat >>> (256 * i)),
              m.poison.getLsbD (i / 4), some (resKey c seq, seg)⟩ s) s
          resPump c seq n (s.setBkt c { b with resHeld := r, got := b.got ++ [seg], poison := b.poison || decide (m.poison ≠ 0) })

/-- RESULT_SEGMENT: a segment's flits have come on its owner's port (12 R369); one that is not awaited is given up. -/
def resultSeg (c : Nat) (m : SegMsg) (s : State) : State :=
  let p := rd (R.RED_ROUTE_PORT m.rank.val) c s
  match s.bkt c m.seq.toNat with
  | none =>
    (match segTaken p c 1 32 m s, segTaken p c 1 16 m s with
     | some s, _ => takeRed p 33 s
     | _, some s => takeRed p 17 s
     | _, _ => s)
  | some b =>
    let w := redBits b.outFmt
    match segTaken p c 1 w m s with
    | none => s
    | some s =>
      if b.got.contains m.seg.toNat || b.resHeld.any (fun x => decide (x.seg = m.seg)) || decide (b.segs ≤ m.seg.toNat) then
        takeRed p (1 + w) s
      else resPump c b.seq (b.resHeld.length + 1) (s.setBkt c { b with resHeld := b.resHeld ++ [m] })

/-- Every result segment of a bucket has been written (12 R369). -/
def resDone (c : Nat) (b : RedBkt) (s : State) : Bool :=
  b.roster.isSome && decide (b.segs ≤ b.got.length) && (openTags (resKey c b.seq) s).isEmpty

/-- BUCKET_COMPLETE: every result segment has been written (12 R369). -/
def bucketComplete (c seq : Nat) (s : State) : State :=
  match s.bkt c seq with
  | none => s
  | some b =>
    if !resDone c b s then s
    else
      let t := tallySlot seq
      let s := tally c seq 0 0 (rd (R.RED_TALLY_EXP t) c s - rd (R.RED_TALLY_DROP t) c s) s
      tallyFree c seq (redComplete c b (if b.poison then 2 else if b.dropped = 0 then 0 else 1) s)

/-- RCV of every open bucket from the contributions applied (12 R370). -/
def tallyTick (c : Nat) (s : State) : State :=
  (s.chan c).bkts.foldl (fun s b =>
    if b.roster.isNone || b.phase = .spread then s
    else
      let tags := openTags (redKey c b.seq) s
      let segs := b.mySegs (redSpan c s) (redRank c s)
      let n := ((b.myShares (redRank c s)).map (fun j =>
        (segs.filter (fun g => decide (b.share (redSpan c s) g = j))).foldl (fun m g => min m (appliedOf b tags g)) 64)).sum
      let t := tallySlot b.seq
      tally c b.seq 0 0 (min n (rd (R.RED_TALLY_EXP t) c s - rd (R.RED_TALLY_DROP t) c s)) s) s

/-! ### Failures, holds (12 R371, R375, R376) -/

/-- The leader revises a bucket's roster without a rank (12 R371). -/
def reviseFor (c seq rank : Nat) (s : State) : State :=
  match s.bkt c seq with
  | none => s
  | some b =>
    let ro := b.roster.getD 0
    if !ro.testBit rank || b.phase = .spread then s
    else
      let m : RosterMsg := ⟨BitVec.ofNat 32 seq, BitVec.ofNat 64 (without ro rank), BitVec.ofNat 64 (2 ^ rank), false⟩
      let s := (ranksOf (redMembers c s)).foldl (fun s r => if r = redRank c s then s else redSend c r (.roster c m) s) s
      rosterRx c m s

/-- RED_TIMEOUT expires (12 R364, R371). -/
def redTimeout (c : Nat) (w : RedWait) (s : State) : State :=
  let lead := decide (redLeader c s = redRank c s)
  match w with
  | .seals q =>
    if lead && mhas q.toNat (s.chan c).heard then fixRoster c q.toNat s else s
  | .pull q r =>
    (match s.bkt c q.toNat with
     | some b =>
       if !b.pulls.any (fun x => decide (x.1 = r.val)) then s
       else if lead then reviseFor c q.toNat r.val s
       else redSend c (redLeader c s) (.lost c q.toNat r.val) (raise .redTimeout .red c s)
     | none => s)
  | .check q r =>
    if lead && !(mgetD q.toNat [] (s.chan c).checks).any (fun e => decide (e.1 = r.val)) then reviseFor c q.toNat r.val s else s
  | .send q r =>
    (match s.bkt c q.toNat with
     | some b => raise .redTimeout .red c (s.setBkt c { b with gone := withRank b.gone r.val })
     | none => s)
  | .report _ q r => if lead then reviseFor c q.toNat r.val s else s

/-- LEADER_LOST (12 R371): the next lowest rank leads, and the member's SEALs and CHECKs go to it. -/
def leaderLost (c : Nat) (s : State) : State :=
  let l := redLeader c s
  if l = redRank c s || redMembers c s = 0 then s
  else
    let s := raise .redLeader .red c (dropRanks c (2 ^ l) s)
    (s.chan c).bkts.foldl (fun s b =>
      if b.roster.isNone then sendSeal c b.seq b.w0 s else if b.sent && decide (b.phase = .check) then sendCheck c b s else s) s

/-- CAP_NOTICE arrives (12 R376). -/
def capNotice (c rank frame : Nat) (s : State) : State :=
  raise .redCapNotice .red c (wr R.RED_CAP_NOTE_RANK c rank (wr R.RED_CAP_NOTE_FRAME_LO c frame s))

/-- Buckets sealed and not complete. -/
def openBuckets (s : State) : List (Nat × Nat) :=
  s.red.chans.flatMap (fun e => e.2.bkts.map (fun b => (e.1, b.seq)))

/-- A collective hold starts (12 R375, R376). -/
def holdStart (cap : Nat) (s : State) : State :=
  let bs := openBuckets s
  let s := raise .redCapHold .red 0 (wr R.APT_STAT_HOLD 0 1 { s with red := { s.red with hold := some bs } })
  s.red.chans.foldl (fun s e =>
    if e.2.bkts.isEmpty then s
    else (ranksOf (redMembers e.1 s)).foldl (fun s r =>
      if r = redRank e.1 s then s
      else redSend e.1 r (.capNotice e.1 (redRank e.1 s) cap (groupFrame s % 2 ^ 24)) s) s) s

/-- The hold is over: every bucket open at the cap change has completed (12 R375). -/
def holdOver (s : State) : Bool :=
  match s.red.hold with
  | none => false
  | some bs => bs.all (fun b => (s.bkt b.1 b.2).isNone)

/-- RED_CTRL.UNFENCE (12 R374). -/
def redUnfence (c : Nat) (s : State) : State := later (.redUnfence c) s

/-- The channel leaves the fenced state at a tick. -/
def redUnfenced (c : Nat) (s : State) : State :=
  if rd R.RED_STAT_STATE c s = 2 then wr R.RED_STAT_STATE c (rd R.RED_CTRL_EN c s) s else s

/-- RED_CTRL.EN takes effect (12 R356, R361, R377): counters count from channel open; a closed channel has no bucket. -/
def redEnable (c : Nat) (s : State) : State :=
  let on := flag R.RED_CTRL_EN c s
  if on && decide (rd R.RED_STAT_STATE c s = 0) then
    let z (f : Fld) (s : State) : State := wr f c 0 s
    let s := z R.RED_BUCKETS (z R.RED_MIRROR_SAMPLES (z R.RED_MIRROR_SKIP (z R.RED_REREDUCE (z R.RED_DROPS s))))
    setLeader c (z R.RED_SEQ_NEXT (z R.RED_STAT_OPEN (wr R.RED_STAT_STATE c 1 (s.setChan c RedChan.init))))
  else if !on then
    let s := (s.chan c).bkts.foldl (fun s b =>
      let t := tallySlot b.seq
      let s := redGiveUp c b s
      wr (R.RED_TALLY_EXP t) c 0 (wr (R.RED_TALLY_DROP t) c 0 (wr (R.RED_TALLY_RCV t) c 0 (wr (R.RED_TALLY_OUT t) c 0 s)))) s
    wr R.RED_STAT_STATE c 0 (wr R.RED_STAT_OPEN c 0 (s.setChan c RedChan.init))
  else setLeader c s

/-- A bucket's results go on: converted segments are sent, held ones are passed, and it completes once all are written. -/
def resultTick (c seq : Nat) (s : State) : State :=
  match s.bkt c seq with
  | none => s
  | some b =>
    let s := b.conv.foldl (fun s g => distribute c seq g s) s
    bucketComplete c seq (resPump c seq b.resHeld.length s)

/-- A channel's part of a tick: rosters take effect, the tallies move, results and owners go on. -/
def chanTick (c : Nat) (s : State) : State :=
  let ms := (s.chan c).rosters
  let s := s.setChan c { s.chan c with rosters := [] }
  let s := ms.foldl (fun s m => applyRoster c m s) s
  let s := tallyTick c s
  redPump c ((s.chan c).bkts.foldl (fun s b => resultTick c b.seq s) s)

/-- The channels' part of a tick. -/
def redTick (s : State) : State := s.red.chans.foldl (fun s e => chanTick e.1 s) s

end Sys2Proof.Machine
end

