-- ==== Sys2Proof/Machine/Par.lean ====
section
/-! DEFINITION. Parity groups (13 R379 to R386): clearing, seals, contributions, commits, losses and rebuilds. -/
namespace Sys2Proof.Machine

def State.grp (s : State) (g : Nat) : ParGrp := mgetD g ParGrp.init s.red.groups
def State.setGrp (s : State) (g : Nat) (k : ParGrp) : State :=
  { s with red := { s.red with groups := mput g k s.red.groups } }

def parG (g : Nat) (s : State) : Nat := rd (R.PAR_CFG_GM1 g) 0 s + 1
def parRank (g : Nat) (s : State) : Nat := rd (R.PAR_CFG_RANK g) 0 s
def parSpan (g : Nat) (s : State) : Nat := 2 ^ rd (R.PAR_SPAN_K g) 0 s
def parBase (g : Nat) (s : State) : Nat := rd (R.PAR_SPAN_CORE_BASE g) 0 s
def parState (g : Nat) (s : State) : Nat := rd (R.PAR_STAT_STATE g) 0 s
/-- Segments of 4 KiB in a unit of a core, and in a unit of the span. -/
def parUnitSegs (g : Nat) (s : State) : Nat := 2 ^ rd (R.PAR_CFG_U g) 0 s
def parSegs (g : Nat) (s : State) : Nat := parUnitSegs g s * parSpan g s
/-- Address of a segment of a unit in the buffer of a generation (13 R380): segment s lies in span core s mod 2^K. -/
def parAddr (g gen unit seg : Nat) (s : State) : Nat :=
  rd (if gen % 2 = 0 then R.PAR_BUF0 g else R.PAR_BUF1 g) 0 s + unit * parUnitSegs g s * 4096 + seg / parSpan g s * 4096
def parCore (g seg : Nat) (s : State) : Nat := parBase g s + seg % parSpan g s

/-- The leader: the lowest present rank. -/
def parLeader (g : Nat) (s : State) : Nat := (ranksOf (s.grp g).present).headD 0
def setParLeader (g : Nat) (s : State) : State := wr (R.PAR_STAT_LEADER g) 0 (parLeader g s) s

/-- The routes of a group (13 R379). -/
def parPort (g r : Nat) (s : State) : Nat := rd (R.PAR_ROUTE_PORT g r) 0 s
def parStream (g r : Nat) (s : State) : Nat := rd (R.PAR_ROUTE_STREAM g r) 0 s
def parSend (g r : Nat) (m : Mgmt) (s : State) : State :=
  if 18 ≤ parPort g r s then s else rayQueue (parPort g r s) [⟨.ctrl, parStream g r s, none, .mgmt m⟩] s
/-- A message to every other present rank. -/
def parTell (g : Nat) (m : Mgmt) (s : State) : State :=
  (ranksOf (s.grp g).present).foldl (fun s r => if r = parRank g s then s else parSend g r m s) s

/-- A segment of a unit sent to a rank. -/
def parSendSeg (g r kind tag gen unit seg : Nat) (s : State) : State :=
  let p := posOf (parCore g seg s)
  let a := parAddr g gen unit seg s
  match checkUnits p .unit [] (unitsOf a 4096) s with
  | (bad, s) =>
    let d := BitVec.ofNat 32768 (leNat (readBytes p a 4096 s))
    let q := (upFrom 0 32).foldl (fun m l =>
      if bad.any (fun u => decide (a + l * 128 ≤ u) && decide (u < a + (l + 1) * 128)) then m + 2 ^ l else m) 0
    if 18 ≤ parPort g r s then s
    else rayQueue (parPort g r s)
      (segFlits (parStream g r s) (64 + g) (parRank g s) kind tag gen seg 32 d (BitVec.ofNat 32 q)) s

/-! ### Clear (13 R383) -/

/-- Bytes of a unit of one core. -/
def unitBytes (g : Nat) (s : State) : Nat := parUnitSegs g s * 4096

/-- Darkroom FILLs of zero over units [u, u + n) of a generation's buffer on every span core. -/
def parFill (g gen u n : Nat) (s : State) : State :=
  (upFrom 0 (parSpan g s)).foldl (fun s i =>
    darkroom (posOf (parBase g s + i)) ⟨.fill, 10, 0, 0, 0, parAddr g gen u 0 s, 0, 0, 0, n * unitBytes g s / 4, 0, 0⟩ s) s

/-- A Darkroom FILL of the group's buffer of a generation is not complete. -/
def parFilling (g gen : Nat) (s : State) : Bool :=
  let b := parAddr g gen 0 0 s
  let e := b + parG g s * unitBytes g s
  (upFrom 0 (parSpan g s)).any (fun i => (s.shaft (posOf (parBase g s + i))).works.any (fun w =>
    match w with
    | .cmd _ c b' _ _ => decide (b'.core = none) && decide (c.op = .fill) && decide (b ≤ c.dst) && decide (c.dst < e)
    | _ => false))

/-- Contributions held in ports' buffers are given up: their credits return (11 R328). -/
def parGiveUp (g : Nat) (ms : List SegMsg) (s : State) : State :=
  ms.foldl (fun s m => takeRed (parPort g m.rank.val s) 33 s) s

/-- Forming generation n starts anew: nothing of it is cleared, sent, applied or done (13 R383). -/
def parForm (g gen : Nat) (s : State) : State :=
  let s := parGiveUp g (s.grp g).held s
  s.setGrp g { s.grp g with gen := gen, cleared := [], clearing := false, said := false, sentTo := [], got := [],
                            held := [], doneSaid := false, dones := [] }

/-- The parity unit is filled with 0 (13 R383). -/
def parFillOwn (g gen : Nat) (s : State) : State :=
  parFill g gen (parRank g s) 1 (s.setGrp g { s.grp g with clearing := true })

/-- Clear of generation n, with no seal of it yet (13 R383). -/
def parClear (g gen : Nat) (s : State) : State :=
  let s := parForm g gen s
  parFillOwn g gen (s.setGrp g { s.grp g with posted := none })

/-- After its seal, a member sends each data unit to its parity owner once that rank has cleared (13 R383). -/
def parSendUnits (g : Nat) (s : State) : State :=
  let k := s.grp g
  if k.posted.isNone then s
  else (upFrom 0 (parG g s)).foldl (fun s r =>
    let k := s.grp g
    if r = parRank g s || !k.cleared.contains r || k.sentTo.contains r then s
    else
      let s := (upFrom 0 (parSegs g s)).foldl (fun s seg => parSendSeg g r 2 0 k.gen r seg s) s
      s.setGrp g { s.grp g with sentTo := (s.grp g).sentTo ++ [r] }) s

/-- CLEARED arrives (13 R383). The replacement's, for the generation after the committed one, ends a survivor's rebuild at
the next tick (13 R385; entry 27). -/
def clearedRx (g rank gen : Nat) (s : State) : State :=
  let k := s.grp g
  let ends := decide (parState g s = 3) && !k.mine && decide (gen = (rd (R.PAR_COMMIT g) 0 s + 1) % 2 ^ 32)
    && decide (rank = k.newcomer.getD (rd (R.PAR_STAT_LOST g) 0 s))
  let s := s.setGrp g { k with back := k.back || ends }
  let k := s.grp g
  if gen ≠ k.gen || k.cleared.contains rank then s
  else parSendUnits g (s.setGrp g { k with cleared := k.cleared ++ [rank] })

/-! ### Seals (13 R382) -/

def parityBase : Nat := 0x1017D000

def parRespond (core i status frame : Nat) (s : State) : State :=
  windowRespond core parityBase i (mgetD core 0 s.red.parTails) [status, 0, 0, 0, 0, 0, frame % 2 ^ 32, i] s

def parRefuse (core i status : Nat) (s : State) : State := parRespond core i status 0 (raise .parSealRefused .par 0 s)

/-- A parity seal's request. -/
def parTake (core i : Nat) (d : List Byte) (s : State) : State :=
  let w := windowWords i d
  let g := w.getD 0 0 % 4
  if 4 ≤ w.getD 0 0 || (w.drop 2).any (fun x => decide (x ≠ 0)) || !flag (R.PAR_CFG_EN g) 0 s || decide (parBase g s ≠ core) then
    parRefuse core i 0x11 s
  else if parState g s ≠ 1 then parRefuse core i 0x12 s
  else if w.getD 1 0 ≠ (rd (R.PAR_COMMIT g) 0 s + 1) % 2 ^ 32 || (s.grp g).posted.isSome then parRefuse core i 0x10 s
  else parSendUnits g (s.setGrp g { s.grp g with posted := some (core, i) })

/-- Cores whose parity window an enabled group reads, one entry for each. -/
def parCores (s : State) : List Nat :=
  (((upFrom 0 4).filter (fun g => flag (R.PAR_CFG_EN g) 0 s)).map (fun g => parBase g s)).eraseDups

/-- The engine's read of a parity window has been served (13 R382). -/
def parWindow (core : Nat) (d : List Byte) (s : State) : State :=
  if !(parCores s).contains core then s
  else
    let head := leNat (d.take 4)
    let tail := mgetD core 0 s.red.parTails
    let n := (head + 2 ^ 32 - tail) % 2 ^ 32
    let s := { s with red := { s.red with parTails := mput core head s.red.parTails } }
    if 63 < n then kvWrite core (parityBase + 0x800) (leBytes 4 head) (raise .parWindowOverrun .par 0 s)
    else (upFrom 0 n).foldl (fun s i => parTake core ((tail + i) % 2 ^ 32) d s) s

/-- The engines' reads of an exposure's windows: the ledger's, the channels' and the groups' (09 R282; 12 R359; 13 R382). -/
def windowReads (s : State) : State :=
  let s := if kvServes s then queueReads .ledger ledgerBase (ledgerCores s) s else s
  queueReads .parity parityBase (parCores s) (queueReads .seal sealBase (sealCores s) s)

/-! ### Apply and commit (13 R383) -/

/-- Key of a group's segments among tagged granules. -/
def parKey (g : Nat) : Nat := 64 + 512 + g

/-- A segment is applied by XACC into a unit of a generation's buffer. -/
def parApply (g gen unit : Nat) (m : SegMsg) (s : State) : State :=
  let seg := m.seg.toNat
  let p := posOf (parCore g seg s)
  let s := takeRed (parPort g m.rank.val s) 33 s
  (upFrom 0 128).foldl (fun s i =>
    remoteArrive p .xacc
      ⟨parAddr g gen unit seg s + 32 * i, BitVec.ofNat 256 (m.data.toNat >>> (256 * i)), m.poison.getLsbD (i / 4),
        some (parKey g, gen)⟩ s) s

def parRoom (g : Nat) (m : SegMsg) (s : State) : Bool :=
  decide ((s.shaft (posOf (parCore g m.seg.toNat s))).inbox + 128 ≤ 2048)

/-- Held contributions pass to their shafts in arrival order while there is room. -/
def parPump (g : Nat) : Nat → State → State
  | 0, s => s
  | n + 1, s =>
    match (s.grp g).held with
    | [] => s
    | m :: r =>
      if parRoom g m s then parPump g n (parApply g (s.grp g).gen (parRank g s) m (s.setGrp g { s.grp g with held := r })) else s

/-- PARITY_CONTRIBUTION: a segment's flits have come on its rank's port; one that is not awaited is given up. -/
def parContribution (g : Nat) (m : SegMsg) (s : State) : State :=
  let p := parPort g m.rank.val s
  match segTaken p (64 + g) 2 32 m s with
  | none => s
  | some s =>
    let k := s.grp g
    if m.seq.toNat ≠ k.gen || parState g s ≠ 1 || parSegs g s ≤ m.seg.toNat || k.got.contains (m.rank.val, m.seg.toNat) then
      takeRed p 33 s
    else parPump g (k.held.length + 1)
      (s.setGrp g { k with got := k.got ++ [(m.rank.val, m.seg.toNat)], held := k.held ++ [m] })

/-- COMMIT: PAR_COMMIT takes the generation at the next tick. -/
def parCommitRx (g gen : Nat) (s : State) : State :=
  if gen = (s.grp g).gen && parState g s = 1 then s.setGrp g { s.grp g with commit := some gen } else s

/-- DONE reaches the leader; after every rank's, COMMIT goes out (13 R383). -/
def parDoneRx (g rank gen : Nat) (s : State) : State :=
  let k := s.grp g
  if gen ≠ k.gen || parLeader g s ≠ parRank g s || k.dones.contains rank then s
  else
    let s := s.setGrp g { k with dones := k.dones ++ [rank] }
    if (ranksOf k.present).all (fun r => (s.grp g).dones.contains r) then
      parCommitRx g gen (parTell g (.commit g gen) s)
    else s

/-- Every contribution has been applied. -/
def parApplied (g : Nat) (s : State) : Bool :=
  let k := s.grp g
  k.held.isEmpty && decide (k.got.length = (parG g s - 1) * parSegs g s) && (openTags (parKey g) s).isEmpty

/-! ### Loss and rebuild (13 R384 to R386) -/

/-- PARITY_LOSS: a rank silent for RED_TIMEOUT. -/
def parLoss (g rank : Nat) (s : State) : State :=
  let k := s.grp g
  if !k.present.testBit rank then s
  else
    let s := parGiveUp g k.held (setParLeader g (s.setGrp g { k with present := without k.present rank, commit := none, held := [] }))
    if parState g s = 1 then
      raise .parLoss .par 0 (wr (R.PAR_STAT_STATE g) 0 2 (wr (R.PAR_STAT_LOST g) 0 rank s))
    else if parState g s = 2 || parState g s = 3 then
      let s := parGiveUp g k.rebHeld s
      let s := s.setGrp g { s.grp g with pulls := [], todo := [], rebHeld := [], rebuild := none, rebuildAt := none, mine := false }
      raise .parUnrecoverable .par 0 (wr (R.PAR_STAT_STATE g) 0 4 s)
    else s

/-- PAR_REBUILD on the replacement (13 R385): REBUILD goes to every other rank. -/
def parRebuild (g gen : Nat) (s : State) : State :=
  if !flag (R.PAR_CFG_EN g) 0 s || parState g s = 4 then s
  else
    let k := s.grp g
    let s := s.setGrp g { k with present := 2 ^ parG g s - 1, rebuildAt := some gen, mine := true }
    parTell g (.rebuild g gen) s

/-- REBUILD arrives: the member is REBUILDING from the next tick, unless its group is off or unrecoverable. -/
def rebuildRx (g gen : Nat) (s : State) : State :=
  if 1 ≤ parState g s && decide (parState g s ≤ 3) then s.setGrp g { s.grp g with rebuildAt := some gen } else s

/-- Pulls of a rebuild go out, at most 32 to each rank. -/
def parPulls (g : Nat) : Nat → State → State
  | 0, s => s
  | n + 1, s =>
    let k := s.grp g
    match k.todo.find? (fun t => decide ((k.pulls.filter (fun q => decide (q.1 = t.1))).length < 32)
        && decide (parPort g t.1 s < 18) && decide ((s.port (parPort g t.1 s)).occRed + 33 * (pullsOn (parPort g t.1 s) s + 1) ≤ 4096)) with
    | none => s
    | some t =>
      let s := s.setGrp g { k with todo := k.todo.erase t, pulls := k.pulls ++ [t] }
      parPulls g n (parSend g t.1 (.parPull g (parRank g s) t.2.1 t.2.2) s)

/-- A survivor serves a rebuild's pull from its committed buffer (13 R385). -/
def parPullRx (g : Nat) (m : PullMsg) (s : State) : State :=
  if parState g s = 3 && decide (m.seq.toNat = rd (R.PAR_COMMIT g) 0 s) then
    parSendSeg g m.rank.val 3 m.tag.toNat m.seq.toNat m.tag.toNat m.seg.toNat
      (s.setGrp g { s.grp g with newcomer := some m.rank.val })
  else s

/-- REBUILD_SEGMENT (13 R385, R386): a unit's segment, whose flits have come on its rank's port, is applied at the replacement
by XACC; one that was not pulled is given up. -/
def rebuildSeg (g : Nat) (m : SegMsg) (s : State) : State :=
  let p := parPort g m.rank.val s
  let t := (m.rank.val, m.tag.toNat, m.seg.toNat)
  match segTaken p (64 + g) 3 32 m s, (s.grp g).rebuild with
  | none, _ => s
  | some s, none => takeRed p 33 s
  | some s, some gen =>
    let k := s.grp g
    if !k.mine || !k.pulls.contains t then takeRed p 33 s
    else
      let n := (upFrom 0 32).foldl (fun n i => n + (if m.poison.getLsbD i then 4 else 0)) 0
      let s := if n = 0 then s
        else raise .parRebuildPoison .par 0 (bump (R.PAR_POISON g) 0 n (wr (R.PAR_STAT_POISON g) 0 1 s))
      let s := s.setGrp g { k with pulls := k.pulls.erase t, rebHeld := k.rebHeld ++ [m] }
      go gen (k.rebHeld.length + 1) s
where
  /-- Held segments pass to their shafts while there is room. -/
  go (gen : Nat) : Nat → State → State
    | 0, s => s
    | n + 1, s =>
      match (s.grp g).rebHeld with
      | [] => s
      | m :: r =>
        if parRoom g m s then
          go gen n (parApply g gen m.tag.toNat m (s.setGrp g { s.grp g with rebHeld := r }))
        else s

/-! ### The tick -/

/-- A rebuild ends on the replacement (13 R385, R386). -/
def parRebuilt (g gen : Nat) (s : State) : State :=
  let k := s.grp g
  let s := s.setGrp g { k with rebuild := none, mine := false }
  let s := bump (R.PAR_REBUILDS g) 0 1 (wr (R.PAR_COMMIT g) 0 gen (wr (R.PAR_STAT_STATE g) 0 1 s))
  parFillOwn g (gen + 1) (raise .parRebuilt .par 0 s)

/-- A rebuild ends at a survivor: generation c + 1 is formed anew from its Clear, with the seal already made for it, and with
what others have cleared since the rebuild began (13 R385). -/
def parBack (g : Nat) (s : State) : State :=
  let k := s.grp g
  if !k.back then s
  else
    let s := s.setGrp g { k with back := false, rebuild := none, newcomer := none }
    if parState g s ≠ 3 then s
    else parFillOwn g k.gen (raise .parRebuilt .par 0 (bump (R.PAR_REBUILDS g) 0 1 (wr (R.PAR_STAT_STATE g) 0 1 s)))

/-- A group's part of a tick. -/
def parTick1 (g : Nat) (s : State) : State :=
  let me := parRank g s
  -- a commit
  let s := match (s.grp g).commit with
    | some n =>
      let k := s.grp g
      let s := bump (R.PAR_GENS g) 0 1 (wr (R.PAR_COMMIT g) 0 n (s.setGrp g { k with commit := none }))
      let s := match k.posted with
        | some (c, i) => parRespond c i 0 (s.frame + 1) s
        | none => s
      parClear g (n + 1) s
    | none => s
  -- a rebuild starts
  let s := match (s.grp g).rebuildAt with
    | some n =>
      let s := parGiveUp g (s.grp g).rebHeld (parForm g ((n + 1) % 2 ^ 32) s)
      let k := s.grp g
      let s := s.setGrp g { k with rebuildAt := none, rebuild := some n, present := 2 ^ parG g s - 1, newcomer := none, back := false,
                                   rebHeld := [] }
      let s := setParLeader g (wr (R.PAR_STAT_STATE g) 0 3 s)
      if k.mine then
        let todo := (upFrom 0 (parG g s)).flatMap (fun r =>
          if r = me then [] else (upFrom 0 (parG g s)).flatMap (fun u =>
            (upFrom 0 (parSegs g s)).map (fun q => (r, u, q))))
        parFill g n 0 (parG g s) (wr (R.PAR_STAT_POISON g) 0 0 (s.setGrp g { s.grp g with todo := todo, pulls := [], rebHeld := [] }))
      else s
    | none => s
  let s := parBack g s
  -- the parity unit is cleared
  let k := s.grp g
  let s := if k.clearing && !parFilling g k.gen s then
      let s := s.setGrp g { k with clearing := false, said := true, cleared := if k.cleared.contains me then k.cleared else k.cleared ++ [me] }
      parSendUnits g (parTell g (.cleared g me k.gen) s)
    else s
  -- contributions and DONE
  let s := parPump g (s.grp g).held.length s
  let k := s.grp g
  let s := if k.said && !k.doneSaid && decide (parState g s = 1) && parApplied g s then
      let s := s.setGrp g { k with doneSaid := true }
      if parLeader g s = me then parDoneRx g me k.gen s else parSend g (parLeader g s) (.done g me k.gen) s
    else s
  -- the replacement's rebuild
  match (s.grp g).rebuild with
  | some n =>
    if !(s.grp g).mine || parFilling g n s then s
    else
      let s := rebuildSeg.go g n (s.grp g).rebHeld.length s
      let s := parPulls g (s.grp g).todo.length s
      let k := s.grp g
      if k.todo.isEmpty && k.pulls.isEmpty && k.rebHeld.isEmpty && (openTags (parKey g) s).isEmpty then parRebuilt g n s else s
  | none => s

/-- The groups' part of a tick. -/
def parTick (s : State) : State :=
  (upFrom 0 4).foldl (fun s g => if flag (R.PAR_CFG_EN g) 0 s then parTick1 g s else s) s

/-- PAR_CFG takes effect (13 R383, R386): an enabled group starts generation 0, unless it is a replacement to be rebuilt;
disabling it leaves every state. -/
def parEnable (g : Nat) (s : State) : State :=
  if flag (R.PAR_CFG_EN g) 0 s then
    if parState g s = 0 then
      let s := s.setGrp g { ParGrp.init with present := 2 ^ parG g s - 1 }
      parClear g 0 (setParLeader g (wr (R.PAR_STAT_STATE g) 0 1 (wr (R.PAR_COMMIT g) 0 0xFFFFFFFF s)))
    else s
  else wr (R.PAR_STAT_STATE g) 0 0 (s.setGrp g ParGrp.init)

end Sys2Proof.Machine
end

