-- ==== Sys2Proof/Machine/AbaFlit.lean ====
section
/-! DEFINITION. The Abaes flit as bits (15 R432 to R434): the header's fields, the descriptor of a packet, and the flits of a
packet that is sent. -/
namespace Sys2Proof

/-! ### The header of a flit that arrives (15 R432) -/

def RayWords.abaType (w : RayWords) : Nat := w.bits 0 5
def RayWords.abaPoison (w : RayWords) : Bool := decide (w.bits 5 1 = 1)
def RayWords.abaFirst (w : RayWords) : Bool := decide (w.bits 6 1 = 1)
def RayWords.abaSeq (w : RayWords) : Nat := w.bits 8 12
def RayWords.abaAck (w : RayWords) : Nat := w.bits 20 12
def RayWords.abaCrd (w : RayWords) : Nat := w.bits 32 7

end Sys2Proof

namespace Sys2Proof.Machine

/-- Unsequenced types (15 R433). -/
def abaBare (t : Nat) : Bool := decide (11 ≤ t)

/-- A flit is malformed as the first, or a further, flit of a packet of type `t` (15 R432, R442): another TYPE, a reserved
bit, FIRST wrong, or credits on an unsequenced one. -/
def abaMalformed (t : Nat) (first : Bool) (w : RayWords) : Bool :=
  decide (w.abaType ≠ t) || decide (w.bits 7 1 ≠ 0) || decide (w.bits 39 9 ≠ 0) || (w.abaFirst != first)
    || (abaBare t && decide (w.abaCrd ≠ 0))

/-! ### Descriptors (15 R434) -/

/-- A field of a descriptor: `n` bits from bit `lo` of the payload. -/
def descField (w : RayWords) (lo n : Nat) : Nat := bitsAt w.pay.toNat lo n
def descTag (w : RayWords) : Nat := descField w 0 16
def descStatus (w : RayWords) : Nat := descField w 16 8
def descWords (w : RayWords) : Nat := descField w 24 3 + 1
def descAddr (w : RayWords) : Nat := descField w 32 32
def descCore (w : RayWords) : Nat := descField w 64 16
def descLen (w : RayWords) : Nat := descField w 96 32

/-- Bits of a request's payload that its type does not use: (lowest, number). -/
def descUnused : Nat → List (Nat × Nat)
  | 0 => [(16, 8), (27, 5), (58, 6), (64, 960)]
  | 1 => [(16, 8), (27, 5), (58, 6), (64, 192), (512, 512)]
  | 3 => [(16, 16), (80, 16), (128, 896)]
  | 4 => [(16, 16), (80, 16), (128, 896)]
  | _ => []

/-- A request's descriptor has a reserved field that is not 0 (15 R442). -/
def descBad (t : Nat) (w : RayWords) : Bool := (descUnused t).any (fun x => decide (descField w x.1 x.2 ≠ 0))

/-- The first `n` bytes that a packet's data flits carry. -/
def packetBytes (more : List RayWords) (n : Nat) : List Byte :=
  (more.flatMap (fun w => lineBytes w.pay)).take n

/-! ### Packets that are sent (15 R432 to R434, R440) -/

def AbaPkt.type : AbaPkt → Nat
  | .regCpl _ _ _ => 2
  | .memCpl _ _ _ _ => 5
  | .dmaRd _ _ _ => 6
  | .dmaWr _ _ => 7
  | .signal _ _ _ => 9
  | .credit => 10
  | .ackOnly => 11
  | .nak _ _ => 12
  | .replayReq _ => 13

/-- The data of a packet. -/
def AbaPkt.data : AbaPkt → List Byte
  | .memCpl _ _ _ d => d
  | .dmaWr _ d => d
  | _ => []

/-- Flits of a packet (15 R433). -/
def AbaPkt.flits (k : AbaPkt) : Nat := 1 + ceilDiv k.data.length 128

/-- Unsequenced packets. -/
def AbaPkt.bare (k : AbaPkt) : Bool := abaBare k.type

/-- The payload of a packet's first flit. -/
def AbaPkt.desc : AbaPkt → Nat
  | .regCpl tag st ws => tag % 2 ^ 16 + st % 2 ^ 8 * 2 ^ 16 + (ws.length - 1) % 8 * 2 ^ 24 + packElems 32 ws * 2 ^ 256
  | .memCpl tag st fr d => tag % 2 ^ 16 + st % 2 ^ 8 * 2 ^ 16 + d.length * 2 ^ 96 + fr % 2 ^ 32 * 2 ^ 192
  | .dmaRd tag a n => tag % 2 ^ 16 + n * 2 ^ 96 + a % 2 ^ 64 * 2 ^ 128
  | .dmaWr a d => d.length * 2 ^ 96 + a % 2 ^ 64 * 2 ^ 128
  | .signal n c fr => n % 2 ^ 8 + c % 2 ^ 32 * 2 ^ 32 + fr % 2 ^ 32 * 2 ^ 64
  | .credit => 0
  | .ackOnly => 0
  | .nak code seq => code % 2 ^ 8 + seq % 2 ^ 12 * 2 ^ 8
  | .replayReq seq => seq % 2 ^ 12

/-- A flit's header and payload. -/
def abaWords (t : Nat) (first : Bool) (seq ack crd pay : Nat) : RayWords :=
  withCrc (t + first.toNat * 2 ^ 6 + seq % 4096 * 2 ^ 8 + ack % 4096 * 2 ^ 20 + crd % 128 * 2 ^ 32) pay

/-- A packet on the wires: its first flit, with the credits that it returns, and its data flits in order. -/
def abaSent (seq : Option Nat) (ack crd : Nat) (k : AbaPkt) : AbaSent :=
  let n := seq.getD 0
  ⟨seq, crd, k, abaWords k.type true n ack crd k.desc ::
    (upFrom 0 (k.flits - 1)).map (fun i =>
      abaWords k.type false (if seq.isSome then n + 1 + i else 0) ack 0 (leNat ((k.data.drop (128 * i)).take 128)))⟩

end Sys2Proof.Machine
end

