-- ==== Sys2Proof/Machine/Abaes.lean ====
section
/-! DEFINITION. The Abaes link (15 R428 to R442): packets, credits and replay, DMA, signals, the host stream, training. -/
namespace Sys2Proof.Machine

def setAba (f : Aba → Aba) (s : State) : State := { s with aba := f s.aba }
def abaState (s : State) : Nat := rd R.ABA_STAT_STATE 0 s
def abaUp (s : State) : Bool := decide (abaState s = 2)

/-- A packet as it leaves: a SIGNAL names the exposure in which it does (15 R440). -/
def AbaPkt.leaving (k : AbaPkt) (s : State) : AbaPkt :=
  match k with
  | .signal n c _ => .signal n c s.frame
  | k => k

/-- A packet goes onto the wires. -/
def abaOut (seq : Option Nat) (crd : Nat) (k : AbaPkt) (s : State) : State :=
  setAba (fun a => { a with out := a.out ++ [abaSent seq ((a.rxSeq + 4095) % 4096) crd k], acked := a.rxSeq }) s

/-- Waiting packets leave in order while the link is UP, credits last and the replay buffer has room (15 R434). -/
def abaDrain : Nat → State → State
  | 0, s => s
  | n + 1, s =>
    match s.aba.txq with
    | [] => s
    | k :: r =>
      let f := k.flits
      let k := k.leaving s
      if !abaUp s then s
      else if k.bare then abaDrain n (abaOut none 0 k (setAba (fun a => { a with txq := r }) s))
      else if rd R.ABA_CRD_AVAIL 0 s < f || 2047 < (s.aba.replay.map (fun q => q.n)).sum + f then s
      else
        let c := min s.aba.owed 127
        let s := abaOut (some s.aba.txSeq) c k s
        let s := setAba (fun a => { a with txq := r, replay := a.replay ++ [⟨a.txSeq, f, c, k⟩],
                                           txSeq := (a.txSeq + f) % 4096, owed := a.owed - c }) s
        abaDrain n (bump R.ABA_CRD_OUT 0 f (drop R.ABA_CRD_AVAIL 0 f s))

/-- A packet sent, behind those before it: nothing passes an earlier DMA_WR (15 R437). -/
def abaSend (k : AbaPkt) (s : State) : State :=
  let s := setAba (fun a => { a with txq := if k.bare then k :: a.txq else a.txq ++ [k] }) s
  abaDrain s.aba.txq.length s

/-- A NAK sent: counted, raised, a violation (15 R442). -/
def abaNak (code seq : Nat) (s : State) : State :=
  let s := setAba (fun a => { a with viol := a.viol + 1 }) (abaSend (.nak code seq) s)
  raise .abaNak .aba 0 (bump R.ABA_VIOL 0 1 (bump R.ABA_NAK_TX 0 1 s))

/-- Everything up to `ack` has arrived. -/
def abaAck (ack : Nat) (s : State) : State :=
  let hit (q : AbaKept) : Bool := decide ((ack + 4096 - q.seq) % 4096 < q.n)
  if s.aba.replay.any hit then
    let r := s.aba.replay.dropWhile (fun q => !hit q)
    let r := match r with
      | q :: t => if (q.seq + q.n + 4095) % 4096 = ack then t else r
      | [] => []
    let s := setAba (fun a => { a with replay := r }) s
    abaDrain s.aba.txq.length s
  else s

/-- Credits arrive; the excess is clipped (15 R442). -/
def abaCredits (n : Nat) (s : State) : State :=
  let k := min n (rd R.ABA_CRD_OUT 0 s)
  let s := bump R.ABA_CRD_AVAIL 0 k (drop R.ABA_CRD_OUT 0 k s)
  let s := if k < n then raise .abaCreditClip .aba 0 (bump R.ABA_CRD_CLIP 0 (n - k) s) else s
  abaDrain s.aba.txq.length s

/-- The protocol's part of the arrival of a packet of type `t`: its first flit and its data flits (15 R432 to R434, R442), and
whether it is accepted. A packet is taken whole, or asked for again from its first flit. Its flits leave the buffer when it has
been taken, and their credits are queued for return (entry 28). -/
def abaRx (t : Nat) (w : RayWords) (more : List RayWords) (s : State) : Bool × State :=
  let fs := w :: more
  let n := fs.length
  if !abaUp s then (false, s)
  else
    match fs.find? (fun x => !crcGood x), fs.zipIdx.find? (fun x => abaMalformed t (decide (x.2 = 0)) x.1) with
    | some x, _ => (false, abaNak 1 x.abaSeq s)
    | none, some x => (false, abaNak 2 x.1.abaSeq s)
    | none, none =>
      let s := fs.foldl (fun s x => abaAck x.abaAck s) s
      if abaBare t then (true, s)
      else
        match fs.zipIdx.find? (fun x => decide (x.1.abaSeq ≠ (s.aba.rxSeq + x.2) % 4096)) with
        | some x =>
          (false, if (x.1.abaSeq + 4096 - s.aba.rxSeq) % 4096 < 2048 then abaSend (.replayReq s.aba.rxSeq) s else s)
        | none =>
          if rd R.ABA_BUF_FREE 0 s < n then (false, abaNak 5 w.abaSeq s)
          else
            let s := setAba (fun a => { a with rxSeq := (a.rxSeq + n) % 4096, owed := a.owed + n }) s
            (true, abaCredits (fs.map (fun x => x.abaCrd)).sum s)

/-- Packets sent again, in order (15 R430, R431, R434): each flit counts in ABA_REPLAY. -/
def abaResend (l : List AbaKept) (s : State) : State :=
  let s := bump R.ABA_REPLAY 0 (l.map (fun q => q.n)).sum s
  l.foldl (fun s q => abaOut (some q.seq) q.crd q.pkt s) s

/-- A NAK, a REPLAY_REQ, an ACK_ONLY, a CREDIT arrive. -/
def abaNakRx (w : RayWords) (s : State) : State :=
  match abaRx 12 w [] s with
  | (true, s) => abaResend s.aba.replay s
  | (false, s) => s

def abaReplayRx (w : RayWords) (first : Nat) (s : State) : State :=
  match abaRx 13 w [] s with
  | (true, s) => abaResend (s.aba.replay.dropWhile (fun q => !decide ((first + 4096 - q.seq) % 4096 < q.n))) s
  | (false, s) => s

def abaAckRx (w : RayWords) (s : State) : State := (abaRx 11 w [] s).2
def abaCreditRx (w : RayWords) (s : State) : State := (abaRx 10 w [] s).2

/-- ABA_ACK_LIMIT expires (15 R431). -/
def abaAckLimit (s : State) : State := if abaUp s then abaResend s.aba.replay s else s

/-! ### DMA (15 R438, R439) -/

/-- A DMA's range lies in one enabled window with the permission, is at most 4 KiB and crosses no 4 KiB boundary. In the
recovery state only window 0 is reached (15 R443). -/
def dmaOk (write : Bool) (a n : Nat) (s : State) : Bool :=
  decide (0 < n) && decide (a % 4096 + n ≤ 4096)
    && (upFrom 0 (if flag R.ABA_STAT_RECOVERY 0 s then 1 else 16)).any (fun w =>
      flag (R.ABA_WIN_CTRL_EN w) 0 s && (if write then flag (R.ABA_WIN_CTRL_WRITE w) 0 s else flag (R.ABA_WIN_CTRL_READ w) 0 s)
        && decide (rd (R.ABA_WIN_BASE w) 0 s ≤ a) && decide (a + n ≤ rd (R.ABA_WIN_BASE w) 0 s + rd (R.ABA_WIN_SIZE w) 0 s))

/-- A DMA fails: counted and raised. -/
def dmaFail (s : State) : State := raise .abaDmaError .aba 0 (bump R.ABA_DMA_ERR 0 1 s)

/-- A write to host memory, and whether it was made. -/
def dmaWrite (a : Nat) (d : List Byte) (s : State) : Bool × State :=
  if dmaOk true a d.length s then (true, abaSend (.dmaWr a d) s) else (false, dmaFail s)

/-- A tag that no outstanding DMA read has. -/
def freeTag (s : State) : Nat :=
  ((upFrom 0 65536).find? (fun i => !s.aba.dmas.any (fun d => decide (d.tag = (s.aba.dmaTag + i) % 65536)))).getD 0

/-- A read of host memory goes out, and whether it could. -/
def dmaRead (a n : Nat) (f : DmaFor) (s : State) : Bool × State :=
  if dmaOk false a n s then
    let t := (s.aba.dmaTag + freeTag s) % 65536
    let s := setAba (fun k => { k with dmas := k.dmas ++ [⟨t, a, n, f⟩], dmaTag := (t + 1) % 65536 }) s
    (true, abaSend (.dmaRd t a n) s)
  else (false, dmaFail s)

/-- Slot i of a ring that starts at a window's base (15 R438): its bytes written, if the slot lies in the window. -/
def windowWrite (w i size : Nat) (d : List Byte) (s : State) : Bool × State :=
  let base := rd (R.ABA_WIN_BASE w) 0 s
  if rd (R.ABA_WIN_SIZE w) 0 s < (i + 1) * size || !flag (R.ABA_WIN_CTRL_EN w) 0 s || !flag (R.ABA_WIN_CTRL_WRITE w) 0 s then
    (false, dmaFail s)
  else (true, abaSend (.dmaWr (base + i * size) d) s)

/-! ### Signals (15 R440) -/

/-- A SIGNAL leaves with its count. -/
def signalOut (n count : Nat) (s : State) : State :=
  abaSend (.signal n count s.frame) (setAba (fun a => { a with sent := n :: a.sent }) s)

/-- A signal sent: at once if it is its number's first in the exposure and the link is UP, else held. -/
def signal (n : Nat) (s : State) : State :=
  if abaUp s && !s.aba.sent.contains n && !mhas n s.aba.sigHeld then signalOut n 1 s
  else bump R.ABA_SIG_COALESCED 0 1 (setAba (fun a => { a with sigHeld := mmod n 0 (fun k => k + 1) a.sigHeld }) s)

/-- Held signals leave, one for each number that has sent none in this exposure. -/
def signalsOut (s : State) : State :=
  if !abaUp s then s
  else
    let go := s.aba.sigHeld.filter (fun e => !s.aba.sent.contains e.1)
    let s := setAba (fun a => { a with sigHeld := a.sigHeld.filter (fun e => a.sent.contains e.1) }) s
    go.foldl (fun s e => signalOut e.1 e.2 s) s

/-- What the adapter has not been told goes out: credits in a CREDIT, or what has been received in an ACK_ONLY (15 R434). -/
def abaTell (s : State) : State :=
  if !abaUp s || !s.aba.txq.isEmpty then s
  else if 0 < s.aba.owed then abaSend .credit s
  else if s.aba.acked ≠ s.aba.rxSeq then abaSend .ackOnly s
  else s

/-- A new exposure: packets that left are forgotten, held signals leave, and what is left to return does. -/
def abaTick (s : State) : State := abaTell (signalsOut (setAba (fun a => { a with out := [], sent := [] }) s))

/-! ### The host stream (15 R441) -/

def streamDrop (s : State) : State := raise .abaStreamDrop .aba 0 (bump R.ABA_STREAM_DROP 0 1 s)

/-- A flit reaches the Abaes endpoint. -/
def streamDeliver (f : Flit) (s : State) : State :=
  if !f.valid then s
  else
    let prod := rd R.ABA_STREAM_PROD 0 s
    let size := 2 ^ rd R.ABA_STREAM_SIZE 0 s
    if f.poison || !flag R.ABA_STREAM_EN 0 s || decide ((prod + 2 ^ 64 - rd R.ABA_STREAM_CONS 0 s) % 2 ^ 64 = size) then streamDrop s
    else
      match windowWrite (rd R.ABA_STREAM_WINDOW 0 s) (prod % size) 128 (lineBytes f.data) s with
      | (true, s) => wr R.ABA_STREAM_PROD 0 (prod + 1) s
      | (false, s) => streamDrop s

/-! ### Training (15 R429 to R431, R442) -/

/-- A training attempt of the widest width starts. -/
def abaTrainStart (s : State) : State := wr R.ABA_STAT_STATE 0 1 (setAba (fun a => { a with width := 4 }) s)

/-- The link is DOWN. -/
def abaDown (s : State) : State :=
  raise .abaDown .aba 0 (wr R.ABA_STAT_STATE 0 0 (wr R.ABA_STAT_WIDTH 0 0 s))

/-- CREDIT_INIT of a full training (entry 25). -/
def abaInit (s : State) : State :=
  let s := setAba (fun a => { a with txSeq := 0, rxSeq := 0, acked := 0, replay := [], owed := 0 }) s
  wr R.ABA_CRD_AVAIL 0 4096 (wr R.ABA_CRD_OUT 0 0 (wr R.ABA_BUF_FREE 0 4096 (wr R.ABA_BUF_OCC 0 0 s)))

/-- A width trains (15 R429): 0 none of them, else the code of ABA_STAT. -/
def abaTrained (w : Nat) (s : State) : State :=
  let st := abaState s
  if st ≠ 1 && st ≠ 3 then s
  else if w = 0 then abaDown s
  else
    let narrow := decide (w < rd R.ABA_CTRL_EXP_WIDTH 0 s + 1)
    let s := if st = 1 then abaInit s else abaResend s.aba.replay s
    let s := wr R.ABA_STAT_STATE 0 2 (wr R.ABA_STAT_WIDTH 0 w (wr R.ABA_STAT_DEGRADED 0 narrow.toNat s))
    let s := if narrow then raise .abaNarrow .aba 0 s else s
    signalsOut (abaDrain s.aba.txq.length s)

/-- ABA_TRAIN_LIMIT expires: the next narrower width is tried; after 1 lane the link is DOWN (15 R431). -/
def abaTrainLimit (s : State) : State :=
  if abaState s ≠ 1 && abaState s ≠ 3 then s
  else if s.aba.width ≤ 1 then abaDown s
  else setAba (fun a => { a with width := a.width - 1 }) s

/-- One second after a failure (15 R429). -/
def abaTrainRetry (s : State) : State := if abaState s = 0 && decide (3 ≤ rd R.BOOT_STAT_STATE 0 s) then abaTrainStart s else s

/-- A retrain starts (15 R430). -/
def abaRetrainGo (s : State) : State :=
  let r := s.aba.retrains.filter (fun t => decide (s.timebase < t + 1000000000)) ++ [s.timebase]
  let s := setAba (fun a => { a with width := 4, deferred := false, retrains := r }) s
  raise .abaRetrain .aba 0 (wr R.ABA_STAT_STATE 0 3 s)

/-- A write of ABA_CTRL.RETRAIN, or training patterns from the adapter (15 R430). -/
def abaRetrain (s : State) : State := if abaUp s then abaRetrainGo s else s

/-- A violation window's retrain: after ABA_THRESH.RETRAINS within 10 s it starts no sooner than 1 s after the last
(15 R442). -/
def abaRetrainDue (s : State) : State :=
  if !abaUp s then s
  else
    let recent := s.aba.retrains.filter (fun t => decide (s.timebase < t + 1000000000))
    if rd R.ABA_THRESH_RETRAINS 0 s ≤ recent.length && recent.any (fun t => decide (s.timebase < t + 100000000)) then
      setAba (fun a => { a with deferred := true }) s
    else abaRetrainGo s

/-- A deferred retrain's second is over. -/
def abaRetrainDeferred (s : State) : State := if s.aba.deferred && abaUp s then abaRetrainGo s else s

/-- A 1 ms violation window ends (15 R442). -/
def abaWindow (s : State) : State :=
  let n := s.aba.viol
  let s := setAba (fun a => { a with viol := 0 }) s
  if rd R.ABA_THRESH_VIOL 0 s < n then abaRetrainDue s else s

/-- A codeword that the FEC cannot correct discards its flits (11 R324; 15 R428); replay recovers them. -/
def fecLost (p : Option PortId) (s : State) : State :=
  match p with
  | some q => bump R.RAY_FEC_UNCORR q.val 1 s
  | none => bump R.ABA_FEC_UNCORR 0 1 s

end Sys2Proof.Machine
end

