-- ==== Sys2Proof/Machine/SnapOps.lean ====
section
/-! DEFINITION. Snapshots (13 R387 to R392): arming, the shutter tick, first-write and background copies, draining. -/
namespace Sys2Proof.Machine

/-- The valid descriptors. -/
def snapDescs (s : State) : List SnapDesc :=
  (upFrom 0 8).filterMap (fun d =>
    if flag (R.SNAP_DESC_VALID d) 0 s then
      some ⟨rd (R.SNAP_DESC_CORE_BASE d) 0 s, 2 ^ rd (R.SNAP_DESC_K d) 0 s, rd (R.SNAP_DESC_BASE d) 0 s / 65536,
        rd (R.SNAP_DESC_PAGES d) 0 s⟩
    else none)

/-- The set breaks 13 R387. -/
def snapBadSet (s : State) : Bool :=
  let ds := snapDescs s
  let st := rd R.SNAP_STAGE_PAGE 0 s
  let n := rd R.SNAP_STAGE_COUNT 0 s
  let stage := upFrom st n
  ds.isEmpty || decide (n < 4) || decide (64 < n) || decide (2048 < st + n)
    || stage.any (fun p => decide (pageLayer p ≠ pageLayer st))
    || (upFrom 0 8).any (fun d => flag (R.SNAP_DESC_VALID d) 0 s && decide (rd (R.SNAP_DESC_BASE d) 0 s % 65536 ≠ 0))
    || ds.any (fun d => decide (d.pages = 0) || decide (2048 < d.page + d.pages) || decide (4096 < d.base + d.cores))
    || ds.any (fun d => (upFrom 0 4).any (fun l =>
        stage.any (fun p => decide (pageLayer p = l)) && (upFrom d.page d.pages).any (fun p => decide (pageLayer p = l))))

/-- A core of a span runs a plate with P_s = 0. -/
def snapNoReserve (s : State) : Bool :=
  s.plates.any (fun e =>
    match e.2.img with
    | some m => jobUnderWay e.2 && decide (m.snapReserve = 0)
        && (snapDescs s).any (fun d => m.recs.any (fun r => (regionCores r.region).any (fun c => decide (d.base ≤ c) && decide (c < d.base + d.cores))))
    | none => false)

/-- The start is refused (13 R389). -/
def snapRefuse (cause : Nat) (s : State) : State :=
  raise .snapRefused .snap 0 (wr R.SNAP_STAT_STATE 0 5 (wr R.SNAP_STAT_CAUSE 0 cause
    { s with snap := { s.snap with armed := none } }))

/-- The start's checks (13 R389): 2 BAD_SET, 3 PLATE_RESERVE. -/
def snapCause (s : State) : Option Nat := if snapBadSet s then some 2 else if snapNoReserve s then some 3 else none

/-- SNAPSHOT_ARM: a write of SNAP_AT (13 R389). While a snapshot is copying no other one starts. -/
def snapArm (frame : Nat) (s : State) : State :=
  let s := wr R.SNAP_AT 0 frame s
  if s.snap.on then s
  else
    match snapCause s with
    | some c => snapRefuse c s
    | none => wr R.SNAP_STAT_STATE 0 1 (wr R.SNAP_STAT_CAUSE 0 0 { s with snap := { s.snap with armed := some frame } })

/-- The shutter tick (13 R389): every page of the set is protected. -/
def snapShutter (s : State) : State :=
  if s.snap.armed ≠ some (groupFrame s % 2 ^ 32) then s
  else
    match snapCause s with
    | some c => snapRefuse c s
    | none =>
      let ds := snapDescs s
      let s := { s with snap := ⟨none, true, ds, rd R.SNAP_STAGE_PAGE 0 s, rd R.SNAP_STAGE_COUNT 0 s, [], []⟩ }
      let s := wr R.SNAP_STAT_STATE 0 2 (wr R.SNAP_SHUTTER 0 s.frame s)
      wr R.SNAP_PAGES 0 ((ds.map (fun d => d.cores * d.pages)).sum) (wr R.SNAP_COPIED 0 0
        (wr R.SNAP_TOUCHED 0 0 (wr R.SNAP_DRAINED 0 0 s)))

/-- FIRST_WRITE_COPY (13 R390): a write meets a protected page of a core. -/
def firstWriteCopy (c pg : Nat) (s : State) : State := snapHook (posOf c) (pg * 65536) s

/-- The page that the background copier takes: one that a host write waits for, else the lowest that is protected. -/
def copierPage (c : Nat) (s : State) : Option Nat :=
  match (s.shaft (posOf c)).hostq with
  | q :: _ =>
    if q.write && protectedPage c (q.addr / 65536) s && isDram q.addr then some (q.addr / 65536) else low
  | [] => low
where
  low : Option Nat := (upFrom 0 2048).find? (fun pg => protectedPage c pg s)

/-- BACKGROUND_COPY (13 R391): a 4 KiB piece of the copier's page; three stage slots stay free for first writes. -/
def backgroundCopy (c : Nat) (errs : List GErr) (s : State) : State :=
  if !s.snap.on then s
  else
    match copierPage c s with
    | none => s
    | some pg =>
      let cur := mget (snapKey c pg) s.snap.pages
      let slot := match cur with
        | some q => some q.slot
        | none => if s.snap.count < (slotsUsed c s).length + 4 then none else freeStage c s
      match slot with
      | none => s
      | some k =>
        if !portIdle (posOf c) (pageLayer pg) s || !portIdle (posOf c) (pageLayer (s.snap.stage + k)) s then s
        else
        let n := match cur with
          | some q => q.pieces
          | none => 0
        let s := copyGranules (posOf c) (pg * 65536) ((s.snap.stage + k) * 65536) errs (upFrom (128 * n) 128) s
        let s := { s with snap := { s.snap with pages := mput (snapKey c pg) ⟨k, n + 1, false⟩ s.snap.pages } }
        if n + 1 = 16 then bump R.SNAP_COPIED 0 1 s else s

/-- Offset of a core's page in the image, and among the pages of its core (13 R392). -/
def imageOffset (c pg : Nat) : List SnapDesc → Nat → Nat → Nat × Nat
  | [], n, k => (n * 65536, k * 65536)
  | d :: r, n, k =>
    if d.base ≤ c && decide (c < d.base + d.cores) && decide (d.page ≤ pg) && decide (pg < d.page + d.pages) then
      ((n + (c - d.base) * d.pages + (pg - d.page)) * 65536, (k + (pg - d.page)) * 65536)
    else imageOffset c pg r (n + d.cores * d.pages) (k + d.pages)

/-- The 4 KiB of a stage page's piece i. -/
@[irreducible] def stagePiece (c slot i : Nat) (s : State) : List Byte :=
  readBytes (posOf c) ((s.snap.stage + slot) * 65536 + 4096 * i) 4096 s

/-- A stage page drains to the host (13 R392): 16 DMA writes; a failure cancels the snapshot (15 R439). -/
def drainHost (c slot off : Nat) : Nat → Nat → State → Bool × State
  | 0, _, s => (true, s)
  | n + 1, i, s =>
    match dmaWrite (rd R.SNAP_DEST 0 s + off + 4096 * i) (stagePiece c slot i s) s with
    | (true, s) => drainHost c slot off n (i + 1) s
    | (false, s) => (false, s)

/-- The z port toward the adjacent cell of a peer (13 R392). -/
def peerPort (peer : Nat) (s : State) : Option Nat :=
  let up := decide ((peer / 512 + 128 - devId s / 512) % 128 = 1)
  (upFrom 0 18).find? (fun q => decide (rayRole q s = if up then 6 else 7))

/-- A stage page drains to the peer: 16 array WRITE transfers of 128 granules (13 R392; entry 29). -/
def drainPeer (c slot off q : Nat) (s : State) : State :=
  (upFrom 0 16).foldl (fun s i =>
    let a := (s.snap.stage + slot) * 65536 + 4096 * i
    let p := posOf c
    let s := arrPush q ⟨.array, 0, none, .desc ⟨BitVec.ofNat 16 (rd R.SNAP_PEER 0 s), c, rd R.SNAP_DEST 0 s + off + 4096 * i, 128, 0, 0⟩⟩ s
    (upFrom 0 32).foldl (fun s k =>
      arrPush q ⟨.array, 0, none, .arr (readLine p (a + 128 * k) s)
        ((upFrom 0 4).any (fun g => storedPoison p (a + 128 * k + 32 * g) s))⟩ s) s) s

/-- SNAPSHOT_DRAIN (13 R392): the lowest page of a core that is copied drains, and its slot is freed. -/
def snapDrain (c : Nat) (s : State) : State :=
  if !s.snap.on then s
  else
    match s.snap.pages.find? (fun e => decide (e.1 / 2048 = c) && decide (e.2.pieces = 16) && !e.2.drained) with
    | none => s
    | some (k, q) =>
      let off := imageOffset c (k % 2048) s.snap.descs 0 0
      let done (s : State) : State :=
        bump R.SNAP_DRAINED 0 1 { s with snap := { s.snap with pages := mput k { q with drained := true } s.snap.pages } }
      if flag R.SNAP_CTRL_DEST 0 s then
        match peerPort (rd R.SNAP_PEER 0 s) s with
        | none => s
        | some z => if (s.port z).arrq.length + 16 * 33 ≤ 4096 then done (drainPeer c q.slot off.2 z s) else s
      else
        match drainHost c q.slot off.1 16 0 s with
        | (true, s) => done s
        | (false, s) => snapCancel 4 s

/-- SNAPSHOT_CANCEL (13 R392). -/
def snapCancelHost (s : State) : State := if s.snap.on || s.snap.armed.isSome then snapCancel 4 s else s

/-- At a tick: the snapshot whose last page has drained is complete; the first-write reserves start anew. -/
def snapTick (s : State) : State :=
  let s := { s with snap := { s.snap with firsts := [] } }
  if s.snap.on && decide (rd R.SNAP_DRAINED 0 s = rd R.SNAP_PAGES 0 s) then
    raise .snapDone .snap 0 (wr R.SNAP_STAT_STATE 0 3 { s with snap := { s.snap with on := false, pages := [] } })
  else s

end Sys2Proof.Machine
end

