-- ==== Sys2Proof/Machine/Routes.lean ====
section
/-! DEFINITION. Route-schedule entries (06 R190, R191, R214, R215; 11 R332 to R336; 15 R441) and the endpoints' nodes
(02 R78). -/
namespace Sys2Proof.Machine

/-- What is attached to a node: a Ray port, or the Abaes endpoint. -/
inductive Endp where
  | ray (p : Nat)
  | abaes
  deriving DecidableEq, Repr

/-- The nodes of the endpoints: half, row, column (02 R78). -/
def endpNodes : List (Nat × Nat × Nat × Endp) :=
  [(0, 4, 3, .ray 0), (0, 20, 12, .ray 1), (1, 12, 3, .ray 2), (1, 28, 12, .ray 3), (0, 12, 8, .ray 4),
   (2, 4, 12, .ray 5), (2, 20, 3, .ray 6), (3, 12, 12, .ray 7), (3, 28, 3, .ray 8), (3, 4, 8, .ray 9)]
  ++ [(4, 12, 3, .ray 10), (4, 28, 12, .ray 11), (5, 4, 12, .ray 12), (5, 20, 3, .ray 13), (6, 12, 12, .ray 14),
   (6, 28, 3, .ray 15), (7, 4, 3, .ray 16), (7, 20, 12, .ray 17), (1, 20, 8, .abaes)]

/-- The endpoint of a node. -/
def endpAt (c : Nat) : Option Endp :=
  endpNodes.findSome? (fun e => if coreAt e.1 e.2.1 e.2.2.1 = c then some e.2.2.2 else none)

/-- EXT of an entry (06 R190). -/
def RouteEntry.ext (e : RouteEntry) : Nat := e.ext4 * 16 + e.dcol

/-- The half of a node is lost: its endpoint carries no release or send entries (11 R352). -/
def halfLost (c : Nat) (s : State) : Bool := flag R.HALF_FABRIC_LOST (halfOf c) s

/-- The flit at an entry's input (06 R191). -/
def entryIn (c : Nat) (e : RouteEntry) (s : State) : Flit × State :=
  match e.inp with
  | 0 => departFlit c e.slot e.cycle s
  | 6 =>
    (match endpAt c with
     | some (.ray p) => if halfLost c s then (Flit.bad, s) else rayTake p e.slot s
     | _ => (Flit.none, s))
  | i => takeMesh c i e.cycle s

/-- The flit driven onto an entry's output (06 R191, R197, R203). -/
def entryOut (c : Nat) (e : RouteEntry) (f : Flit) (s : State) : State :=
  match e.out with
  | 0 => arriveFlit c (if e.inp = 6 then e.ext else e.slot) e.cycle f s
  | 5 =>
    let f := { f with dslot := e.slot, dcol := e.dcol }
    if colOf c = 0 then seamInject (halfOf c) (rowOf c) f s else tapInject c f s
  | 6 =>
    (match endpAt c with
     | some (.ray p) => if halfLost c s then s else rayDeliver c p e.ext e.cycle f s
     | some .abaes => if halfLost c s then s else streamDeliver f s
     | none => s)
  | o => driveMesh c o e.cycle f s

/-- The entries of a router with their route sets: those of the set in force, then the releases of the set before the
last swap (11 R338). -/
def entriesOf (c : Nat) (s : State) : List (Nat × RouteEntry) :=
  let k := s.plate (s.core c).cfg.plate
  match k.img with
  | some m =>
    (mgetD (k.set * 4096 + c) [] m.routes).map (fun e => (k.set, e))
      ++ (if k.oldSet = k.set then [] else
            ((mgetD (k.oldSet * 4096 + c) [] m.routes).filter (fun e => decide (e.inp = 6))).map (fun e => (k.oldSet, e)))
  | none => []

/-- A release belongs to the set that governs the flits due in this exposure (11 R334, R338). -/
def governs (c set : Nat) (e : RouteEntry) (k : Plate) (m : Image) (s : State) : Bool :=
  if e.inp ≠ 6 then true
  else
    match endpAt c with
    | some (.ray p) => decide (setAt (groupFrame s - 1 - mgetD (set * 576 + p * 32 + e.slot) 1 m.hops) k s = set)
    | _ => true

/-- ROUTE_ENTRY: entry `idx` of a core's router applies, in a lit slice of its phase (06 R190, R191). A stopped core's
router runs on (06 R214). -/
def routeEntry (c idx : Nat) (s : State) : State :=
  let o := s.core c
  let k := s.plate o.cfg.plate
  match k.img, (entriesOf c s)[idx]? with
  | some m, some (set, e) =>
    if !o.on || !(k.job.isSome) || o.slice % max 1 m.period ≠ e.phase || !governs c set e k m s then s
    else
      match entryIn c e s with
      | (f, s) => entryOut c e f s
  | _, _ => s

end Sys2Proof.Machine
end

