-- ==== Sys2Proof/Machine/Image.lean ====
section
/-! DEFINITION. The plate loader (14 R397 to R401): reading an image, its format rules, and the checks of every chapter in
the order of R401. -/
namespace Sys2Proof.Machine

/-! ### Bytes -/

/-- A little-endian field of `n` bytes at offset `o`. -/
def field (b : List Byte) (o n : Nat) : Nat := leNat ((b.drop o).take n)

/-- Bytes [o, o + n) are 0. -/
def zeros (b : List Byte) (o n : Nat) : Bool := ((b.drop o).take n).all (fun x => decide (x = 0))

/-- One bit step of CRC-32 (IEEE 802.3, reflected). -/
def crcBit : Nat → Nat → Nat
  | 0, c => c
  | n + 1, c => crcBit n (if c % 2 = 1 then c / 2 ^^^ 0xEDB88320 else c / 2)

/-- CRC-32 of IEEE 802.3 over a list of bytes. -/
def crc32 (b : List Byte) : Nat := b.foldl (fun c x => crcBit 8 (c ^^^ x.toNat)) 0xFFFFFFFF ^^^ 0xFFFFFFFF

/-- Bytes [o, o + n) taken as 0. -/
def blank (b : List Byte) (o n : Nat) : List Byte := b.take o ++ List.replicate n 0 ++ b.drop (o + n)

/-! ### Sections (14 R400) -/

/-- A section record. -/
structure Sect where
  type : Nat
  set : Nat
  off : Nat
  len : Nat
  deriving DecidableEq, Repr

/-- The section table. -/
def sections (b : List Byte) : List Sect :=
  (upFrom 0 (field b 0x30 2)).map (fun i =>
    let o := 0x900 + 16 * i
    ⟨field b o 1, field b (o + 1) 1, field b (o + 4) 4, field b (o + 8) 4⟩)

/-- The section of a type and set. -/
def sectOf (b : List Byte) (type set : Nat) : Option Sect :=
  (sections b).find? (fun q => decide (q.type = type) && decide (q.set = set))

/-- A section's bytes; none where it is absent. -/
def sectBytes (b : List Byte) (type set : Nat) : List Byte :=
  match sectOf b type set with
  | some q => (b.drop q.off).take q.len
  | none => []

/-- The types that are per core. -/
def perCore (type : Nat) : Bool := [1, 2, 3, 5].contains type

/-- The bytes of the i-th core of a per-core section. -/
def coreBytes (sec : List Byte) (i : Nat) : List Byte := (sec.drop (field sec (8 * i) 4)).take (field sec (8 * i + 4) 4)

/-- The logical cores of regions, ascending. -/
def coresOf (regions : Nat) : List Nat := (regionList regions).flatMap regionCores

/-! ### Routes and streams (06 R190; 11 R333) -/

/-- A route-schedule entry from its word. -/
def routeOf (w : Nat) : RouteEntry :=
  ⟨bitsAt w 0 12, bitsAt w 12 3, bitsAt w 15 3, bitsAt w 18 5, bitsAt w 23 4, bitsAt w 27 4, bitsAt w 31 1⟩

/-- A mesh port that is present at a router. -/
def meshPort (c p : Nat) : Bool := (meshNext c p).isSome

/-- A release entry that leaves through a TAP or endpoint port: refused as an orphan (06 R190). -/
def RouteEntry.crosses (e : RouteEntry) : Bool := decide (e.inp = 6) && (decide (e.out = 5) || decide (e.out = 6))

/-- An entry is well-formed at router c; IN = 6 with OUT = 5 or 6 is left to the orphan check (06 R190). -/
def entryOk (c : Nat) (e : RouteEntry) : Bool :=
  let inOk := decide (e.inp = 0) || meshPort c e.inp || (decide (e.inp = 6) && (endpAt c).isSome)
  let outOk := decide (e.out = 0) || meshPort c e.out
    || (decide (e.out = 5) && (decide (colOf c = 0) || decide (colOf c = 15)))
    || (decide (e.out = 6) && (endpAt c).isSome)
  let slotUsed := decide (e.inp = 0) || decide (e.out = 0) || decide (e.out = 5) || decide (e.inp = 6)
  let extUsed := decide (e.inp = 6) || decide (e.out = 6)
  e.crosses || inOk && outOk
    && (slotUsed || decide (e.slot = 0))
    && (extUsed || decide (e.out = 5) || decide (e.dcol = 0))
    && (extUsed || decide (e.ext4 = 0))
    && !(decide (e.inp = 6) && meshPort c e.out && decide (e.ext ≠ 0))
    && !(decide (e.out = 6) && decide (endpAt c = some .abaes) && decide (e.ext ≠ 0))

/-! ### Format (14 R397 to R400) -/

/-- The header's rules (14 R397, R398). -/
def headerOk (b : List Byte) : Bool :=
  let f := field b
  let loose := bitAt (f 6 2) 0
  let m := f 0x1F 1
  let base := f 0x20 2
  let regions := f 0x10 8
  decide (4096 ≤ b.length) && decide (b.length ≤ 67108864)
    && decide (f 0 4 = 0x54414C50) && decide (f 4 2 = 1) && decide (f 6 2 < 16) && decide (f 8 4 = b.length)
    && decide (f 0xC 4 = crc32 (blank b 0xC 4))
    && decide (regions ≠ 0) && decide (f 0x18 1 ≤ 8) && [1, 2, 4, 8, 16].contains (f 0x19 1)
    && decide (f 0x1A 1 ≤ 15) && (decide (f 0x1A 1 ≠ 0) || decide (f 0x1C 2 = 0)) && decide (f 0x1B 1 ≤ 3)
    && decide (f 0x1C 2 ≤ 3318) && decide (1 ≤ f 0x1E 1) && decide (f 0x1E 1 ≤ 4)
    && (if loose then
          decide (6 ≤ m) && decide (m ≤ 12) && decide (base % 2 ^ m = 0) && decide (base + 2 ^ m ≤ 4096)
            && decide (coresOf regions = upFrom base (2 ^ m))
        else decide (m = 0) && decide (base = 0))
    && (coresOf regions).contains (f 0x22 2)
    && decide (1 ≤ f 0x24 2) && decide (f 0x24 2 ≤ 2048) && decide (1 ≤ f 0x26 2) && decide (f 0x26 2 ≤ 1984)
    && decide (f 0x28 2 < f 0x26 2) && decide (1 ≤ f 0x2A 2) && decide (f 0x2A 2 ≤ 16) && decide (f 0x2C 4 % 4096 = 0)
    && decide (1 ≤ f 0x30 2) && decide (f 0x30 2 ≤ 32) && zeros b 0x32 (0x100 - 0x32)

/-- The region records' rules, but for the ranges that have statuses of their own (14 R399). -/
def recordsOk (b : List Byte) : Bool :=
  ((regionList (field b 0x10 8)).zipIdx).all (fun p =>
    let o := 0x100 + 32 * p.2
    decide (field b o 1 = p.1) && decide (1 ≤ field b (o + 12) 1) && decide (field b (o + 14) 2 ≤ 4095)
      && zeros b (o + 1) 1 && zeros b (o + 13) 1 && zeros b (o + 18) 14)

/-- One core's part of a per-core section. -/
def corePartOk (b : List Byte) (type c : Nat) (d : List Byte) : Bool :=
  match type with
  | 1 => decide (d.length % 16 = 0) && decide (d.length ≤ field b 0x24 2 * 16)
  | 2 => d.isEmpty || decide (d.length = field b 0x26 2 * 128)
  | 3 => d.isEmpty || (decide (d.length = 8) && decide (field d 0 8 < 2 ^ 33) && (!bitAt (field b 6 2) 0 || decide (field d 0 2 = 0)))
  | _ => decide (d.length % 4 = 0) && decide (d.length ≤ 16384)
      && (upFrom 0 (d.length / 4)).all (fun i => entryOk c (routeOf (field d (4 * i) 4)))

/-- A section's content. -/
def sectOk (b : List Byte) (q : Sect) : Bool :=
  let d := (b.drop q.off).take q.len
  if perCore q.type then
    let cs := coresOf (field b 0x10 8)
    decide (8 * cs.length ≤ q.len)
      && (cs.zipIdx).all (fun p => decide (field d (8 * p.2) 4 + field d (8 * p.2 + 4) 4 ≤ q.len)
        && corePartOk b q.type p.1 (coreBytes d p.2))
  else
    match q.type with
    | 4 => decide (q.len = field b 0x2A 2 * 32)
    | 6 => decide (q.len = 2304)
        && (upFrom 0 576).all (fun i => decide (field d (4 * i) 4 < 2048) && decide (bitsAt (field d (4 * i) 4) 1 5 ≤ 17))
    | 7 => decide (q.len = 536)
    | 8 => true
    | _ => decide (q.len % 2 = 0)

/-- The section table's rules (14 R400). -/
def tableOk (b : List Byte) : Bool :=
  let f := field b
  let qs := sections b
  let loose := bitAt (f 6 2) 0
  let has (t : Nat) : Bool := qs.any (fun q => decide (q.type = t))
  decide (0x900 + 16 * f 0x30 2 ≤ b.length)
    && (upFrom 0 (f 0x30 2)).all (fun i => zeros b (0x902 + 16 * i) 2 && zeros b (0x90C + 16 * i) 4)
    && qs.all (fun q => decide (1 ≤ q.type) && decide (q.type ≤ 10) && decide (q.off % 16 = 0) && decide (4096 ≤ q.off)
        && decide (q.off + q.len ≤ b.length)
        && (if [5, 6].contains q.type then decide (q.set < f 0x1E 1) else decide (q.set = 0)))
    && (qs.map (fun q => (q.type, q.set))).Nodup
    && has 1 && has 3 && has 4
    && (if loose then !has 5 && !has 6 && !has 7 else (sectOf b 5 0).isSome)
    && decide (has 8 = bitAt (f 6 2) 1)
    && qs.all (sectOk b)

/-- The image breaks no format rule: 0x02 BAD_FORMAT otherwise (14 R401). -/
def formatOk (b : List Byte) : Bool := headerOk b && recordsOk b && tableOk b

/-! ### Reading the image -/

/-- Route schedules by set × 4,096 + core. -/
def readRoutes (b : List Byte) : SMap (List RouteEntry) :=
  (upFrom 0 (field b 0x1E 1)).flatMap (fun set =>
    let d := sectBytes b 5 set
    if d.isEmpty then []
    else
      (coresOf (field b 0x10 8)).zipIdx.filterMap (fun p =>
        let x := coreBytes d p.2
        if x.isEmpty then none
        else some (set * 4096 + p.1, (upFrom 0 (x.length / 4)).map (fun i => routeOf (field x (4 * i) 4)))))

/-- The node of a Ray port. -/
def portNode (p : Nat) : Nat :=
  (endpNodes.findSome? (fun e => if e.2.2.2 = .ray p then some (coreAt e.1 e.2.1 e.2.2.1) else none)).getD 0

/-- The streams of a set that a port's node releases. -/
def releases (routes : SMap (List RouteEntry)) (set p st : Nat) : Bool :=
  (mgetD (set * 4096 + portNode p) [] routes).any (fun e => decide (e.inp = 6) && decide (e.slot = st))

/-- Stream-table entries in use: transits, and streams that the node releases (11 R333). -/
def readStreams (b : List Byte) (routes : SMap (List RouteEntry)) : SMap Nat :=
  (upFrom 0 (field b 0x1E 1)).flatMap (fun set =>
    let d := sectBytes b 6 set
    if d.isEmpty then []
    else
      (upFrom 0 576).filterMap (fun i =>
        let w := field d (4 * i) 4
        if w % 2 = 1 || releases routes set (i / 32) (i % 32) then some (set * 576 + i, w) else none))

/-- Two-byte numbers of a section. -/
def halves (d : List Byte) : List Nat := (upFrom 0 (d.length / 2)).map (fun i => field d (2 * i) 2)

/-- Region records (14 R399). -/
def readRecs (b : List Byte) : List RegionRec :=
  (regionList (field b 0x10 8)).zipIdx.map (fun p =>
    let o := 0x100 + 32 * p.2
    ⟨p.1, field b (o + 2) 2, field b (o + 4) 4, field b (o + 8) 4, field b (o + 12) 1, field b (o + 14) 2, field b (o + 16) 2⟩)

/-- A per-core section by core; cores of length 0 are left out. -/
def readPer {β : Type} (b : List Byte) (type : Nat) (f : List Byte → β) : SMap β :=
  let d := sectBytes b type 0
  if d.isEmpty then []
  else (coresOf (field b 0x10 8)).zipIdx.filterMap (fun p =>
    let x := coreBytes d p.2
    if x.isEmpty then none else some (p.1, f x))

/-- The image's fields, before the needs of its links are known. -/
def readImage (b : List Byte) : Image :=
  let f := field b
  let routes := readRoutes b
  let streams := readStreams b routes
  let budgets := halves (sectBytes b 7 0)
  { loose := bitAt (f 6 2) 0, training := bitAt (f 6 2) 1, mirel := bitAt (f 6 2) 2, hostSlot := bitAt (f 6 2) 3,
    regions := f 0x10 8, floor := f 0x18 1, period := f 0x19 1, retakeStep := f 0x1A 1, snapReserve := f 0x1B 1,
    retakeReserve := f 0x1C 2, routeSets := f 0x1E 1, looseM := f 0x1F 1, looseBase := f 0x20 2, resultCore := f 0x22 2,
    bundles := f 0x24 2, constLines := f 0x26 2, argLine := f 0x28 2, entries := f 0x2A 2, shelf := f 0x2C 4,
    recs := readRecs b, cores := coresOf (f 0x10 8),
    code := readPer b 1 (fun x => (upFrom 0 (x.length / 16)).map (fun i => BitVec.ofNat 128 (field x (16 * i) 16))),
    consts := readPer b 2 (fun x => (upFrom 0 (x.length / 128)).map (fun i => BitVec.ofNat 1024 (field x (128 * i) 128))),
    maps := readPer b 3 (fun x => field x 0 8),
    starts := (upFrom 0 (f 0x2A 2)).map (fun e => halves (((sectBytes b 4 0).drop (32 * e)).take 32)),
    routes := routes, streams := streams,
    tables := (upFrom 0 (f 0x1E 1)).filter (fun set => (sectOf b 6 set).isSome), seamBudget := budgets.take 256, brgBudget := budgets.drop 256,
    layers := sectBytes b 8 0, holes := halves (sectBytes b 9 0), ledger := halves (sectBytes b 10 0),
    hops := streams.map (fun e => (e.1, Config.rayHops b e.1)), brgNeed := [], brgUse := [], rayNeed := [] }

/-! ### Stops and shaft ceilings (07 R225, R226; 08 R261; 16 R447, R449) -/

/-- Frequency of a stop in MHz (16 R447). -/
def stopMHz (n : Nat) : Nat := 420 + 105 * n

/-- Region cycles ÷ frequency + 100 ns, rounded up to 10 ns, at least 1,000 ns (01 R14, R15; 07 R225). -/
def wishNs (cycles stop : Nat) : Nat := max 1000 (10 * ceilDiv (cycles * 1000 + 100 * stopMHz stop) (10 * stopMHz stop))

/-- Physical core of a logical core (02 R70, R75); none for a hole. -/
def physOf (c : Nat) (s : State) : Option Nat :=
  if isHole c s then none else some (pathOf (posOf c) s)

/-- A region's fused ceiling (16 R449). -/
def fusedCeil (r : Nat) (s : State) : Nat :=
  (regionCores r).foldl (fun n c =>
    match physOf c s with
    | some p => min n (mgetD p 8 s.boot.stops)
    | none => n) 8

/-- The DRAM and SRAM budgets of a region hold at a stop, with a snapshot reserve of `ps` pages (07 R225; 13 R388). -/
def dramFits (q : RegionRec) (ps stop : Nat) : Bool :=
  decide (q.bd * 10 ≤ 504 * (wishNs q.cycles stop - 500 - ps * 1967))
def sramFits (q : RegionRec) : Bool := decide (q.bs ≤ 128 * (q.cycles - 252))

/-- A region's shaft ceiling: the highest stop up to its fused ceiling at which the budgets hold (07 R226). -/
def shaftCeil (q : RegionRec) (ps : Nat) (s : State) : Nat :=
  ((upFrom 0 (fusedCeil q.region s + 1)).filter (dramFits q ps)).foldl max 0

/-- Guaranteed chunk time per exposure at length `l`, with `per` DRAM-path bytes in a port cycle (08 R261; 19 R516). -/
def guaranteed (q : RegionRec) (ps l per : Nat) : Nat :=
  (Int.fdiv ((105 * ((l : Int) - 500)) * (per : Int) - 100 * (q.bd : Int) - 100 * (per : Int) * ((ps * 2065 : Nat) : Int))
    (100 * (per : Int)) - 529 - (q.ar : Int)).toNat

/-- g of a region (08 R261). -/
def regionG (q : RegionRec) (ps : Nat) (s : State) : Nat := guaranteed q ps (wishNs q.cycles (shaftCeil q ps s)) 48

/-! ### Route checks (06 R192, R205, R215) -/

/-- The record of a core's region. -/
def Image.recOf (m : Image) (c : Nat) : Option RegionRec := m.recs.find? (fun q => decide (q.region = regionOf c))

/-- cycles_r of a core's region; 0 outside the plate. -/
def Image.cyclesOf (m : Image) (c : Nat) : Nat :=
  match m.recOf c with
  | some q => q.cycles
  | none => 0

/-- All entries as (set, core, entry). -/
def Image.entriesAll (m : Image) : List (Nat × Nat × RouteEntry) :=
  m.routes.flatMap (fun p => p.2.map (fun e => (p.1 / 4096, p.1 % 4096, e)))

/-- Entries of a core in a set. -/
def Image.at (m : Image) (set c : Nat) : List RouteEntry := mgetD (set * 4096 + c) [] m.routes

/-- Two entries of one list meet `f`. -/
def anyPair (f : RouteEntry → RouteEntry → Bool) : List RouteEntry → Bool
  | [] => false
  | e :: r => r.any (f e) || anyPair f r

def routeConflict (m : Image) : Bool :=
  m.routes.any (fun p => anyPair (fun a b => decide (a.out = b.out) && decide (a.cycle = b.cycle) && decide (a.phase = b.phase)) p.2)

def routeOrphan (m : Image) : Bool :=
  m.entriesAll.any (fun x =>
    let set := x.1
    let c := x.2.1
    let e := x.2.2
    e.crosses
      || (meshPort c e.inp && !((upFrom 1 4).any (fun o =>
            (upFrom 1 4).any (fun i =>
              match meshNext c i with
              | some (d, _) => decide (meshNext d o = some (c, e.inp))
                  && (m.at set d).any (fun u => decide (u.out = o) && decide (u.cycle + 1 = e.cycle) && decide (u.phase = e.phase))
              | none => false))))
      || (match meshNext c e.out with
          | some (d, i) => !(m.at set d).any (fun u => decide (u.inp = i) && decide (u.cycle = e.cycle + 1) && decide (u.phase = e.phase))
          | none => false))

def routeLate (m : Image) : Bool :=
  m.entriesAll.any (fun x =>
    let n := m.cyclesOf x.2.1
    decide (n ≤ x.2.2.cycle) || (decide (x.2.2.out = 5) && decide (n < x.2.2.cycle + 64)))

/-- The core that a lagged entry's flit lands at (06 R197, R203). -/
def lagDest (c : Nat) (e : RouteEntry) : Option Nat :=
  if e.out ≠ 5 then none
  else if colOf c = 0 then some (coreAt (towerOf c * 2 + (1 - halfOf c % 2)) (rowOf c) e.dcol)
  else (tapOf c).map (fun t => coreAt (brgTo t.1 t.2.1).1 ((brgTo t.1 t.2.1).2 + t.2.2) e.dcol)

/-- Outside the plate, or addressed to a hole; a tap without a bridge reaches no core. -/
def routeForeign (m : Image) (s : State) : Bool :=
  m.entriesAll.any (fun x =>
    let c := x.2.1
    let e := x.2.2
    !m.cores.contains c || (decide (e.out = 0) && isHole c s)
      || (decide (e.out = 5) && (match lagDest c e with
          | some d => !m.cores.contains d || isHole d s
          | none => true)))

def routeTapRate (m : Image) : Bool :=
  m.routes.any (fun p => decide (colOf (p.1 % 4096) = 15)
    && anyPair (fun a b => decide (a.out = 5) && decide (b.out = 5) && decide (a.phase = b.phase)
        && decide (a.cycle ≤ b.cycle + 1) && decide (b.cycle ≤ a.cycle + 1)) p.2)

/-- The lagged flits' destinations as (set, phase, core, slot). -/
def Image.lagged (m : Image) : List (Nat × Nat × Nat × Nat) :=
  m.entriesAll.filterMap (fun x => (lagDest x.2.1 x.2.2).map (fun d => (x.1, x.2.2.phase, d, x.2.2.slot)))

def lagDouble (m : Image) : Bool := !decide m.lagged.Nodup

def routePhase (m : Image) : Bool := m.entriesAll.any (fun x => decide (m.period ≤ x.2.2.phase))

/-- Injections of a router at its tap or seam link in a set and phase. -/
def injections (m : Image) (set phase c : Nat) : Nat :=
  ((m.at set c).filter (fun e => decide (e.out = 5) && decide (e.phase = phase))).length

/-- A declared budget. -/
def budgetAt (l : List Nat) (i : Nat) : Nat := (l[i]?).getD 0

/-- The routers that feed a bridge direction. -/
def tapsOf (b d : Nat) : List Nat :=
  (upFrom 0 16).map (fun i => coreAt (brgFrom b d).1 ((brgFrom b d).2 + i) 15)

/-- Budgets exceeded, or above their bounds (06 R192, R201, R210). -/
def linkBudget (m : Image) : Bool :=
  let sets := upFrom 0 m.routeSets
  let phases := upFrom 0 m.period
  (upFrom 0 256).any (fun i =>
      let c := coreAt (i / 64 * 2 + i % 2) (i % 64 / 2) 0
      let n := budgetAt m.seamBudget i
      decide (m.cyclesOf c - 64 < n) || sets.any (fun st => phases.any (fun p => decide (n < injections m st p c))))
    || (upFrom 0 12).any (fun i =>
      let taps := tapsOf (i / 2) (i % 2)
      let n := budgetAt m.brgBudget i
      let bound := ((taps.filter (fun c => m.cores.contains c)).map (fun c => 16 * ((m.cyclesOf c - 63) / 2))).min?.getD 0
      decide (bound < n)
        || sets.any (fun st => phases.any (fun p => decide (n < (taps.map (injections m st p)).sum))))

/-- No 64-cycle window of the cycles holds more than 20. -/
def sparse20 (l : List Nat) : Bool := l.all (fun c => decide ((l.filter (fun d => decide (c ≤ d) && decide (d < c + 64))).length ≤ 20))

/-- The cycles of the injections into a bridge direction, by set, phase and tap. -/
def tapCycles (m : Image) (b d : Nat) : List (List Nat) :=
  (upFrom 0 m.routeSets).flatMap (fun st => (upFrom 0 m.period).flatMap (fun p => (tapsOf b d).map (fun c =>
    ((m.at st c).filter (fun e => decide (e.out = 5) && decide (e.phase = p))).map (fun e => e.cycle))))

/-- The plate uses a bridge direction; a loose plate does where both landing sets lie in it (06 R205, R213). -/
def usesBridge (m : Image) (b d : Nat) : Bool :=
  if m.loose then (tapsOf b 0 ++ tapsOf b 1).all (fun c => m.cores.contains c)
  else (tapCycles m b d).any (fun l => !l.isEmpty)

/-- The width need of a bridge, on every tap and phase of both ends: 0 unused, 1 HALF, 2 FULL (06 R205). -/
def needOfBridge (m : Image) (b : Nat) : Nat :=
  if !usesBridge m b 0 && !usesBridge m b 1 then 0
  else if (tapCycles m b 0 ++ tapCycles m b 1).all sparse20 then 1 else 2

/-! ### Ray checks (11 R337) -/

/-- Cycles at which a set and phase deliver to a port. -/
def deliveries (m : Image) (set phase p : Nat) : List Nat :=
  (((m.at set (portNode p)).filter (fun e => decide (e.out = 6) && decide (e.phase = phase))).map (fun e => e.cycle)).mergeSort

/-- Transit flits of a port in an exposure: none where no stream-table entry leaves by it (11 R333); else their number, which no
part of the image says (entry 30). -/
def transits (b : List Byte) (m : Image) (set p : Nat) : Nat :=
  if m.streams.any (fun e => decide (e.1 / 576 = set) && decide (e.2 % 2 = 1) && decide (bitsAt e.2 1 5 = p)) then
    Config.rayTransit b (set * 18 + p)
  else 0

/-- When the last of the flits delivered at `cs` departs, in ps, at `mhz` and a flit time of `per` ps. -/
def lastDeparture (mhz per : Nat) (cs : List Nat) (start : Nat) : Nat :=
  cs.foldl (fun t c => max t (ceilDiv (c * 1000000) mhz) + per) start

/-- Flit time in ps at 1, 2 or 4 lanes (11 R324). -/
def flitPs (lanes : Nat) : Nat := 5440 / lanes

/-- The smallest width at which the send deadline of a port holds; none if it fails at 4 lanes (11 R337). 0: not used. -/
def needOfPort (b : List Byte) (m : Image) (p : Nat) (s : State) : Option Nat :=
  let node := portNode p
  let sets := upFrom 0 m.routeSets
  let used := sets.any (fun st => (m.at st node).any (fun e => decide (e.inp = 6) || decide (e.out = 6)))
    || m.streams.any (fun e => decide (e.2 % 2 = 1) && (decide (bitsAt e.2 1 5 = p) || decide (e.1 % 576 / 32 = p)))
  if !used then some 0
  else
    match m.recOf node with
    | none => some 1
    | some q =>
      let f := shaftCeil q m.snapReserve s
      let limit := (wishNs q.cycles f - 100) * 1000
      [1, 2, 4].find? (fun w => sets.all (fun st => (upFrom 0 m.period).all (fun ph =>
        let k := transits b m st p
        decide (lastDeparture (stopMHz f) (flitPs w) (deliveries m st ph p) (if k = 0 then 0 else 600000 + k * flitPs w) ≤ limit))))

def rayBudget (b : List Byte) (m : Image) : Bool :=
  (upFrom 0 m.routeSets).any (fun st => (upFrom 0 18).any (fun p => (upFrom 0 m.period).any (fun ph =>
    decide (4096 < (deliveries m st ph p).length + transits b m st p))))

/-- A path of no hop or more than 9, or a release in a phase other than that of group frame n + 1 + h (11 R334, R337). -/
def rayLag (b : List Byte) (m : Image) : Bool :=
  m.hops.any (fun e => decide (e.2 = 0) || decide (9 < e.2)
    || (m.at (e.1 / 576) (portNode (e.1 % 576 / 32))).any (fun u => decide (u.inp = 6) && decide (u.slot = e.1 % 32)
        && decide ((Config.rayPhase b e.1 + 1 + e.2) % max 1 m.period ≠ u.phase)))

/-- A stream or entry names a port whose role does not carry its class (11 R329, R337). -/
def rayRoleBad (b : List Byte) (m : Image) (s : State) : Bool :=
  m.streams.any (fun e => decide (e.2 % 2 = 1)
      && !roleCarries (bitsAt e.2 1 5) (if Config.streamRed b e.1 then .red else .slot) s)
    || m.entriesAll.any (fun x =>
      match endpAt x.2.1 with
      | some (.ray p) => (decide (x.2.2.inp = 6) && !roleCarries p .slot s)
          || (decide (x.2.2.out = 6) && !(roleCarries p .slot s || (rayZ p s && decide (x.2.2.ext = 0))))
      | _ => false)

/-! ### The loader's decision (14 R401) -/

/-- The checks after the format, in the order of R401: code and condition. -/
def loadChecks (b : List Byte) (m : Image) (p : Nat) (s : State) : List (Nat × Bool) :=
  let ps := m.snapReserve
  let grade := rd R.GLB_ID_GRADE_STOP 0 s
  [(0x03, m.recs.any (fun q => decide (3318 < q.cycles))),
   (0x04, m.recs.any (fun q => decide (q.cycles < if m.loose then 576 else 256))),
   (0x05, s.plates.any (fun e => e.2.holds && (match e.2.img with
      | some o => decide (o.regions &&& m.regions ≠ 0)
      | none => false))),
   (0x06, m.recs.any (fun q => decide (min grade (fusedCeil q.region s) < m.floor))),
   (0x07, decide (m.shelf < 0x10000000) || decide (resultLine < m.shelf + 128 * (ceilDiv m.bundles 8 + m.constLines))),
   (0x08, m.training && decide (m.retakeReserve = 0)),
   (0x09, m.training && m.recs.any (fun q => decide (q.cycles < m.retakeReserve))),
   (0x0A, decide (m.retakeReserve ≠ 0) && m.maps.any (fun e => !bitAt e.2 32)),
   (0x0B, routeConflict m), (0x0C, routeOrphan m), (0x0D, routeLate m), (0x0E, routeForeign m s), (0x0F, routeTapRate m),
   (0x10, lagDouble m), (0x11, routePhase m), (0x12, linkBudget m)]
  ++ [(0x13, m.recs.any (fun q => !dramFits q ps m.floor)), (0x14, m.recs.any (fun q => !sramFits q)),
   (0x15, m.recs.any (fun q => decide (64 < q.requests))),
   (0x16, m.recs.any (fun q => decide (1 ≤ q.k) && decide (regionG q ps s < 529))),
   (0x17, decide (256 < m.ledger.length + (s.plates.map (fun e => match e.2.img with
      | some o => o.ledger.length
      | none => 0)).sum)),
   (0x18, rayBudget b m), (0x19, (upFrom 0 18).any (fun q => decide (needOfPort b m q s = none))), (0x1A, rayLag b m),
   (0x1B, rayRoleBad b m s), (0x1C, decide ((s.plate p).st ≠ .free))]

/-- The load status of an image for plate number p, or the image with its needs. -/
def loadImage (b : List Byte) (p : Nat) (s : State) : Nat ⊕ Image :=
  if !formatOk b then .inl 0x02
  else
    let m := readImage b
    match (loadChecks b m p s).find? (fun c => c.2) with
    | some c => .inl c.1
    | none => .inr
        { m with brgNeed := (upFrom 0 6).map (fun b => (b, needOfBridge m b)),
                 brgUse := (upFrom 0 12).filter (fun i => usesBridge m (i / 2) (i % 2)),
                 rayNeed := (upFrom 0 18).map (fun q => (q, (needOfPort b m q s).getD 0)) }

end Sys2Proof.Machine
end

