-- ==== Sys2Proof/Machine/Fence.lean ====
section
/-! DEFINITION. Fencing (19 R511 to R515; 02 R75): what stops at the fence and what the fence tick makes of it. -/
namespace Sys2Proof.Machine

/-- The job of a region's plate stops at the next tick (14 R408; 19 R512). -/
def stopRegion (r : Nat) (s : State) : State :=
  match plateOfRegion r s with
  | some (p, k) => if k.job.isSome then later (.stopPlate p 2 0) s else s
  | none => s

/-- TWR_RGN_FENCE_LOG, if no record is held (19 R513). -/
def fenceLog (c cause : Nat) (s : State) : State :=
  let r := regionOf c
  if flag R.TWR_RGN_FENCE_LOG_VALID r s then s
  else
    wr R.TWR_RGN_FENCE_LOG_VALID r 1 (wr R.TWR_RGN_FENCE_LOG_CORE r (coreInRegion c)
      (wr R.TWR_RGN_FENCE_LOG_CAUSE r cause (wr R.TWR_RGN_FENCE_LOG_FRAME_LO r s.frame s)))

/-- The cause of a core's fence, while it is fenced. -/
def fenceCause (c : Nat) (s : State) : Nat := mgetD c 0 s.fences

/-- A core is fenced (19 R512): issue stops, operations in flight are abandoned, staging is invalidated and the job stops
at the next tick; the rest is made at that tick. -/
def fenceCore (c cause : Nat) (s : State) : State :=
  if fenced c s then s
  else
    let r := regionOf c
    let o := s.core c
    let s := enterNow c (s.setCore c { o with stopped := true, flights := [], shq := [] })
    let s := fenceLog c cause (orIn R.TWR_RGN_FENCED r (2 ^ coreInRegion c) { s with fences := mput c cause s.fences })
    later (.fence c 0) (stopRegion r (invalidate (actFrame s) r s))

/-- The fence tick (19 R515; 02 R75): where the half-row has no free spare, the core becomes its hole if it has none. -/
def fenceTick (c : Nat) (s : State) : State :=
  let i := shiftIdx c
  let t := towerOf c
  if flag (R.TWR_SHIFT_SPARE_FREE i) t s || flag (R.TWR_SHIFT_HOLE i) t s then s
  else wr (R.TWR_SHIFT_HOLE i) t 1 (wr (R.TWR_SHIFT_HOLE_COL i) t (colOf c) s)

/-- A core leaves the fenced state (19 R512, R514). -/
def unfenceCore (c : Nat) (s : State) : State :=
  let r := regionOf c
  let n := rd R.TWR_RGN_FENCED r s
  wr R.TWR_RGN_FENCED r (n - (if n.testBit (coreInRegion c) then 2 ^ coreInRegion c else 0))
    { s with fences := mdel c s.fences }

/-- CORE_CHECK_FAIL (19 R510, R511). -/
def coreCheckFail (c : Nat) (s : State) : State :=
  if fenced c s then s else fenceCore c 1 (raiseTag .coreFail .rgn (regionOf c) (tagOf c s) s)

/-- The bridges whose landing set lies in a half. -/
def bridgesOf (h : Nat) : List Nat :=
  (upFrom 0 6).filter (fun b => decide ((bridgeEnds b).1.1 = h) || decide ((bridgeEnds b).2.1 = h))

/-- The plate has a region in a half, or uses a bridge that goes down with it (06 R209, R216). -/
def needsHalf (h : Nat) (m : Image) : Bool :=
  (regionList m.regions).any (fun r => decide (r / 8 = h)) || m.brgUse.any (fun k => (bridgesOf h).contains (k / 2))

/-- ROUTER_LOST (06 R216): the half goes out of service at the next tick, and the plates that need it stop then. -/
def routerLost (h row col : Nat) (s : State) : State :=
  if flag R.HALF_FABRIC_LOST h s then s
  else raise .routerLost .half h (later (.halfLost h row col) (stopPlates (needsHalf h) s))

/-- Width of a bridge direction set. -/
def setWidth (b d n : Nat) (s : State) : State := wr (if d = 0 then R.BRG_STAT_WIDTH_D0 else R.BRG_STAT_WIDTH_D1) b n s

/-- A bridge direction carries nothing (06 R208, R216, R220). -/
def bridgeOff (b d : Nat) (s : State) : State :=
  if brgWidth b d s = 0 then s else raise .bridgeDown .brg b (setWidth b d 0 s)

/-- A half out of service at the tick (06 R216; 11 R352): its plates stop, its cores are fenced, its seam links and
bridges carry nothing, its endpoints' releases and sends are dead. -/
def loseHalf (h row col : Nat) (s : State) : State :=
  let s := wr R.HALF_FABRIC_LOST h 1 (wr R.HALF_FABRIC_ROW h row (wr R.HALF_FABRIC_COL h col s))
  let s := (upFrom 0 512).foldl (fun s i => fenceCore (h * 512 + i) 7 s) s
  let s := wr R.SEAM_LINK_W2E (h / 2) 0 (wr R.SEAM_LINK_E2W (h / 2) 0 s)
  (bridgesOf h).foldl (fun s b => bridgeOff b 1 (bridgeOff b 0 s)) s

/-- FENCE_REQUEST (19 R512, R513): a core fenced at the next tick, with cause HOST. -/
def fenceRequest (r core : Nat) (s : State) : State := later (.fence (regionCore r core) 8) s

end Sys2Proof.Machine
end

