-- ==== Sys2Proof/Machine/HostMem.lean ====
section
/-! DEFINITION. Host accesses to shaft memory (01 R29 to R33; 07 R228 to R233; 09 R281; 15 R436; 19 R512), the scrubber's
reads and write-backs (07 R234, R239, R240), the checker test strip in service (07 R237, R238). -/
namespace Sys2Proof.Machine

/-! ### What the host may see of a KV frame (09 R281) -/

/-- A block whose frame the host reads: its number, the fixed length, the token shift, bytes of a record. -/
structure KvMask where
  b : Nat
  fixed : Nat
  t : Nat
  tok : Nat
  deriving DecidableEq, Repr

/-- Byte `o` of the page is shown. -/
def KvMask.shows (k : KvMask) (o : Nat) : Bool :=
  let i := o / k.tok
  if i < 2 ^ k.t then decide (k.b * 2 ^ k.t + i < k.fixed) else decide ((k.b + 1) * 2 ^ k.t ≤ k.fixed)

/-- What stands in the way of an access to a page (as the last tick left it): a status that ends it, or a mask. -/
inductive KvView where
  | stored
  | stop (status : Nat)
  | mask (k : KvMask)
  deriving DecidableEq, Repr

/-- The blocks, as the last tick left them, that hold a core's page, with their fixed lengths. -/
def kvHolders (c pg : Nat) (s : State) : List (Nat × Nat) :=
  s.kv.seqs.flatMap (fun q =>
    (q.2.blks.filter (fun b => decide (b.2.core = c) && b.2.pages.contains pg && decide (b.2.cls ≠ .faded))).map
      (fun b => (b.1, q.2.fixed)))

def kvView (c a : Nat) (write : Bool) (s : State) : KvView :=
  let pg := a / 65536
  match (if isDram a then mget (kvFrameNo c pg) s.kv.frames else none) with
  | some f =>
    if f.table then .stored
    else if f.rel.isSome || decide (f.cls = .faded) then .stop (if write then 0x14 else 0x13)
    else if f.cls = .latent then .stop (if write then 0x14 else 0x11)
    else if write then .stored
    else
      let hs := kvHolders c pg s
      .mask ⟨(hs.map (fun h => h.1)).foldl max 0, (hs.map (fun h => h.2)).foldl max 0, kvShift f.pool s,
        rd (R.KVL_POOL_CFG1_TOK_BYTES f.pool) 0 s * 32⟩
  | none =>
    if isDram a && kvUsable c s && (upFrom 0 16).any (fun p => inPool p c pg s) then .stop (if write then 0x14 else 0x13)
    else .stored

/-! ### One access (01 R29; 07 R228, R229) -/

/-- Units that a range covers only in part. -/
def partials (a n : Nat) : List Nat :=
  (unitsOf a n).filter (fun u => decide (u < a) || decide (a + n < u + unitSize a))

/-- Host-slot time in units of 1/252 ns (07 R229). -/
def hostTime (q : HReq) : Nat :=
  5 * q.len + (if q.write then (partials q.addr q.len).length * (if isDram q.addr then 24 else 8) * 252 else 0)

/-- The status of an access that moves no data (07 R229): HOLE, UNREACHABLE, or what the ledger says. The ledger's own
accesses meet only the first two. -/
def hostStop (p : Nat) (q : HReq) (s : State) : Option Nat :=
  if isHole q.core s then some 0x12
  else if (s.shaft (pathOf p s)).lost then some 0x17
  else if q.src ≠ .host then none
  else match kvView q.core q.addr q.write s with
    | .stop k => some k
    | _ => none

/-- A write meets a page that a snapshot protects: it waits (13 R390). -/
def hostWaits (p : Nat) (q : HReq) (s : State) : Bool :=
  q.write && isDram q.addr && (match coreOfPos p with
    | some c => protectedPage c (q.addr / 65536) s
    | none => false)

/-- The bytes of unit `u` after the write. -/
def mergeUnit (p : Nat) (q : HReq) (u : Nat) (s : State) : List Byte :=
  (upFrom u (unitSize u)).map (fun x =>
    if q.addr ≤ x && decide (x < q.addr + q.data.length) then q.data.getD (x - q.addr) 0 else readByte p x s)

/-- What the tick that opened this exposure fixed in a unit is kept, before the first host write to it (01 R30). -/
def keepUnit (p u : Nat) (s : State) : State :=
  let k := s.shaft p
  if mhas u k.undo then s
  else s.setShaft p { k with undo := mput u (readBytes p u (unitSize u) s, storedPoison p u s || unwrittenBad p u s) k.undo }

/-- One unit written (07 R228, R233): whole, or read, corrected and merged; a poisoned unit keeps its poison. The result
says whether it did. -/
def hostWriteUnit (p : Nat) (q : HReq) (errs : List GErr) (u : Nat) (s : State) : Bool × State :=
  let s := keepUnit p u s
  if !(partials q.addr q.len).contains u then (false, storeUnit p u (mergeUnit p q u s) false s)
  else
    let s := bump R.SHF_RMW p 1 s
    if storedPoison p u s then (true, s)
    else if (s.shaft p).untrusted then (false, storeUnit p u (mergeUnit p q u s) false s)
    else
      match checkUnit p u .host errs s with
      | (true, s) => (true, s)
      | (false, s) => (false, storeUnit p u (mergeUnit p q u s) false s)

/-- All units of a write in ascending order, and whether one kept its poison. -/
def hostWriteUnits (p : Nat) (q : HReq) (errs : List GErr) : List Nat → State → Bool × State
  | [], s => (false, s)
  | u :: r, s =>
    match hostWriteUnit p q errs u s with
    | (b, s) =>
      match hostWriteUnits p q errs r s with
      | (b', s) => (b || b', s)

/-- A write performed: its status. The core's cached lines are dropped (03 R113). -/
def hostWrite (p : Nat) (q : HReq) (errs : List GErr) (s : State) : Nat × State :=
  match hostWriteUnits p q errs (unitsOf q.addr q.len) s with
  | (bad, s) => (if bad then 0x10 else 0, s.setCore q.core (dropCache (s.core q.core) q.addr q.len))

/-- A unit read by the host: as it stands, or as the tick fixed it where a host write of this exposure has replaced it (01
R30). -/
def checkFixed (p : Nat) (errs : List GErr) (u : Nat) (s : State) : Bool × State :=
  match mget u (s.shaft p).undo with
  | none => checkUnit p u .host errs s
  | some (_, bad) => if bad || (s.shaft p).untrusted then (true, poisonSeen p u .host s) else (false, s)

/-- Units read in address order: the poisoned ones among them, and the state. -/
def checkFixeds (p : Nat) (errs : List GErr) : List Nat → State → List Nat × State
  | [], s => ([], s)
  | u :: r, s =>
    match checkFixed p errs u s with
    | (b, s) =>
      match checkFixeds p errs r s with
      | (l, s) => (if b then u :: l else l, s)

/-- A byte as the tick that opened this exposure fixed it (01 R30). -/
def fixedByte (p x : Nat) (s : State) : Byte :=
  match mget (unitOf x) (s.shaft p).undo with
  | none => readByte p x s
  | some (l, _) => l.getD (x - unitOf x) 0

/-- A read performed: its status and bytes. Poisoned units and masked bytes read 0; units with no byte shown are not
read. -/
def hostRead (p : Nat) (q : HReq) (errs : List GErr) (s : State) : (Nat × List Byte) × State :=
  let shows (x : Nat) : Bool := match kvView q.core q.addr false s with
    | .mask k => k.shows (x % 65536) || decide (q.src ≠ .host)
    | _ => true
  let us := (unitsOf q.addr q.len).filter (fun u => (upFrom u (unitSize u)).any shows)
  match checkFixeds p errs us s with
  | (bad, s) =>
    let d := (upFrom q.addr q.len).map (fun x =>
      if shows x && !bad.contains (unitOf x) then fixedByte p x s else 0)
    ((if bad.isEmpty then 0 else 0x10, d), s)

/-! ### Completion (15 R435 to R437) -/

/-- A request's tag is free again. -/
def freeReq (tag : Nat) (s : State) : State :=
  setAba (fun a => { a with reqs := a.reqs.filter (fun r => decide (r.1 ≠ tag)),
                            held := a.held.map (fun b => { b with waits := b.waits.filter (fun t => decide (t ≠ tag)) }) }) s

/-- An access ends: the ledger's write counts as served, its window has been read, the host's completion leaves. -/
def hostDone (q : HReq) (status : Nat) (d : List Byte) (s : State) : State :=
  match q.src with
  | .engine n => { s with kv := { s.kv with unserved := s.kv.unserved.filter (fun x => decide (x ≠ n)) } }
  | .window k =>
    if status ≠ 0 && status ≠ 0x10 then s
    else
      match k with
      | .ledger => windowTake q.core d s
      | .seal => sealWindow q.core d s
      | .parity => parWindow q.core d s
  | .host =>
    let s := abaSend (.memCpl q.tag status (s.frame % 2 ^ 32) d) s
    if q.last then freeReq q.tag s else s

/-- The access at the head of the queue is served; none if it must wait for the next slot. -/
def hostServe (p : Nat) (errs : List GErr) (s : State) : Option State :=
  let k := s.shaft p
  match k.hostq with
  | [] => none
  | q :: r =>
    let pop (s : State) : State := s.setShaft p { s.shaft p with hostq := r }
    match hostStop p q s with
    | some st => some (hostDone q st [] (pop s))
    | none =>
      if hostWaits p q s || decide (50400 < k.slotNs + hostTime q) || decide (2 ≤ k.slotGran) then none
      else
        let s := s.setShaft p { k with hostq := r, slotNs := k.slotNs + hostTime q, slotGran := k.slotGran + 1 }
        some (if q.write then
          match hostWrite p q errs s with
          | (st, s) => hostDone q st [] s
        else
          match hostRead p q errs s with
          | ((st, d), s) => hostDone q st d s)

/-- Accesses in arrival order until one does not fit. -/
def hostServeAll (p : Nat) (errs : List GErr) : Nat → State → State
  | 0, s => s
  | n + 1, s =>
    match hostServe p errs s with
    | some s => hostServeAll p errs n s
    | none => s

/-- A host slot of one shaft: the first 200 ns of the exposure, where a plate does not use it (01 R29, R32). -/
def hostSlotServe (p : Nat) (errs : List GErr) (s : State) : State :=
  if !inSlot s || (s.shaft p).lent then s else hostServeAll p errs (s.shaft p).hostq.length s

/-- An engine's read of a window of core c is served, if it heads its shaft's queue (09 R282; 12 R359; 13 R382). -/
def windowServe (k : WinKind) (c : Nat) (s : State) : State :=
  let p := posOf c
  match (s.shaft p).hostq.head? with
  | some q =>
    if q.src ≠ .window k || decide (q.core ≠ c) || !inSlot s || (s.shaft p).lent then s else (hostServe p [] s).getD s
  | none => s

/-! ### The scrubber (07 R239, R240) -/

/-- The next granule that a layer's scrubbing takes, at or after position `pos` (page × 2,048 + granule): the touched pages of
the layer in ascending order; none once its lap is over. -/
def scrubNext (touch l pos : Nat) : Option Nat :=
  match (upFrom (pos / 2048) (2048 - pos / 2048)).find? (fun pg => touch.testBit pg && decide (pageLayer pg = l)) with
  | some pg => some (max pos (pg * 2048))
  | none => none

/-- The largest DRAM lap of a region's shafts (07 R243). -/
def lapMax (p : Nat) (s : State) : State :=
  match coreOfPos p with
  | none => s
  | some c =>
    let r := regionOf c
    wr R.TWR_RGN_SHAFT_LAP_MAX r ((regionCores r).foldl (fun m k => max m (rd R.SHF_SCRUB_LAP_DRAM_LAP (posOf k) s)) 0) s

/-- A duration in units of `u` timebase counts. -/
def lapOf (from_ u : Nat) (s : State) : Nat := min ((s.timebase - from_) / u) 0xFFFF

/-- `cycles` of `mhz` have passed since the scrubber read last, by a clock that counts 10 ns (07 R239). -/
def scrubDue (at_ : Option Nat) (cycles mhz : Nat) (s : State) : Bool :=
  at_.all (fun t => decide (cycles * 100 ≤ (s.timebase - t) * mhz))

/-- What a scrubber read finds in one granule or word: a poisoned value is passed, counted; else the check of R231. -/
def scrubUnit (p a : Nat) (errs : List GErr) (s : State) : State := (checkUnit p a .scrub errs s).2

/-- One layer's part of a scrubber read: its next granule, if its port is idle. -/
def scrubLayer (p : Nat) (errs : List GErr) (s : State) (l : Nat) : State :=
  match scrubNext (s.shaft p).touch l (mgetD l 0 (s.shaft p).scrubs) with
  | none => s
  | some g =>
    if !portIdle p l s then s
    else
      let s := scrubUnit p (g * 32) errs s
      s.setShaft p { s.shaft p with scrubs := mput l (g + 1) (s.shaft p).scrubs }

/-- The granules that the four layers scrub next. -/
def scrubHeads (p : Nat) (s : State) : List Nat :=
  (upFrom 0 4).filterMap (fun l => scrubNext (s.shaft p).touch l (mgetD l 0 (s.shaft p).scrubs))

/-- SHF_SCRUB_POS.PAGE: the lowest page being scrubbed. -/
def scrubPage (p : Nat) (s : State) : State :=
  match scrubHeads p s with
  | [] => s
  | g :: r => wr R.SHF_SCRUB_POS_PAGE p (r.foldl min g / 2048) s

/-- Every layer has scrubbed its touched pages: the lap's duration is recorded and the next lap begins. -/
def scrubLap (p : Nat) (s : State) : State :=
  if !(scrubHeads p s).isEmpty then s
  else
    let s := wr R.SHF_SCRUB_LAP_DRAM_LAP p (lapOf ((s.shaft p).lapD.getD s.timebase) 10000 s) s
    lapMax p (s.setShaft p { s.shaft p with lapD := some s.timebase, scrubs := [] })

/-- SCRUB_READ of the DRAM: one granule in each layer whose port is idle, all four layers in parallel, at most one in every
2^DRATE port cycles; at the lap's end its duration is recorded. -/
def scrubDram (p : Nat) (errs : List GErr) (s : State) : State :=
  let k := s.shaft p
  if k.touch = 0 || !scrubDue k.scrubD (2 ^ rd R.SHF_SCRUB_CTRL_DRATE p s) 1050 s then s
  else
    let s := s.setShaft p { k with scrubD := some s.timebase, lapD := some (k.lapD.getD s.timebase) }
    scrubPage p (scrubLap p ((upFrom 0 4).foldl (scrubLayer p errs) s))

/-- SCRUB_READ of the stack SRAM: the line that SHF_SCRUB_POS names, in an idle cycle, at most one in every 2^SRATE of them (at
the top stop's 1,260 MHz: entry 125). -/
def scrubSram (p : Nat) (errs : List GErr) (s : State) : State :=
  let k := s.shaft p
  if !sramIdle p s || !scrubDue k.scrubS (2 ^ rd R.SHF_SCRUB_CTRL_SRATE p s) 1260 s then s
  else
    let l := rd R.SHF_SCRUB_POS_LINE p s
    let s := s.setShaft p { k with scrubS := some s.timebase, lapS := some (k.lapS.getD s.timebase) }
    let s := (upFrom 0 16).foldl (fun s i => scrubUnit p (0x10000000 + 128 * l + 8 * i) errs s) s
    if l < 12287 then wr R.SHF_SCRUB_POS_LINE p (l + 1) s
    else
      let s := wr R.SHF_SCRUB_POS_LINE p 0 s
      let s := wr R.SHF_SCRUB_LAP_SRAM_LAP p (lapOf ((s.shaft p).lapS.getD s.timebase) 1000 s) s
      s.setShaft p { s.shaft p with lapS := some s.timebase }

/-- SCRUB_READ (07 R239): while the scrubber is enabled. -/
def scrubRead (p : Nat) (sram : Bool) (err : Option GErr) (s : State) : State :=
  if !flag R.SHF_SCRUB_CTRL_EN p s then s
  else if sram then scrubSram p err.toList s
  else scrubDram p err.toList s

/-! ### The checker test strip (07 R237, R238) -/

/-- The position's checker fails in service: from the next tick every read there is poison, and the core is fenced. -/
def checkerFailed (p : Nat) (s : State) : State :=
  let s := raise .checkerFail .shf p s
  let s := s.setShaft p { s.shaft p with untrustedNext := true }
  match coreOfPos p with
  | some c => fenceCore c 4 s
  | none => s

/-- A run begins; no batch of it runs in exposure `last`. -/
def checkerStart (p : Nat) (last : Option Nat) (s : State) : State :=
  wr R.SHF_TEST_DONE p 0 (s.setShaft p { s.shaft p with check := some ⟨last, 10000, 0, 0⟩ })

/-- CHECKER_TEST_RUN: SHF_TEST.RUN; the first batch runs in the next dark frame. -/
def checkerRun (p : Nat) (s : State) : State := checkerStart p (some s.frame) s

/-- The run has ended (07 R237). -/
def checkerEnd (p : Nat) (k : ChkRun) (s : State) : State :=
  let s := s.setShaft p { s.shaft p with check := none }
  wr R.SHF_TEST_DONE p 1 (wr R.SHF_TEST_DRAM_PASS p (decide (k.dram = 0)).toNat
    (wr R.SHF_TEST_SRAM_PASS p (decide (k.sram = 0)).toNat (wr R.SHF_TEST_FAILED p (min (k.dram + k.sram) 10217) s)))

/-- A batch of a position's run may run in this exposure: it is dark, and none has run in it. -/
def batchDue (p : Nat) (s : State) : Bool :=
  flag R.GLB_EXP_DARK 0 s && (s.shaft p).check.any (fun k => decide (k.last ≠ some s.frame))

/-- The run after a batch with the wrong outcomes found: up to 1,024 vectors of each DRAM decoder, and all 217 of each SRAM
decoder in the first batch (07 R237). -/
def ChkRun.batch (k : ChkRun) (frame dram sram : Nat) : ChkRun :=
  ⟨some frame, k.left - 1024, k.dram + min dram (min 1024 k.left), k.sram + (if k.left = 10000 then min sram 217 else 0)⟩

/-- CHECKER_BATCH: one batch in a dark frame. The first wrong outcome makes the position untrusted (07 R238). -/
def checkerBatch (p dram sram : Nat) (s : State) : State :=
  if !batchDue p s then s
  else
    match (s.shaft p).check with
    | none => s
    | some k =>
      let k' := k.batch s.frame dram sram
      let s := if k'.left = 0 then checkerEnd p k' s else s.setShaft p { s.shaft p with check := some k' }
      if k.dram + k.sram = 0 && decide (0 < k'.dram + k'.sram) then checkerFailed p s else s

end Sys2Proof.Machine
end

