-- ==== Sys2Proof/Machine/Sync.lean ====
section
/-! DEFINITION. Sync groups (01 R19 to R23; 11 R338 to R343): beacons, proposals and adopted lengths, leaving and rejoining
a group, route-set swaps, view holds. -/
namespace Sys2Proof.Machine

/-- Slot, board y and board x of this device (11 R330). -/
def mySlot (s : State) : Nat := devId s % 8
def boardY (s : State) : Nat := devId s / 8 % 8
def boardX (s : State) : Nat := devId s / 64 % 8

def syncLevel (s : State) : Nat := rd R.GLB_SYNC_LEVEL 0 s
def isLeader (s : State) : Bool := flag R.GLB_SYNC_LEADER 0 s

/-- The adoption delay (01 R19, R23). -/
def syncD (s : State) : Nat :=
  if syncLevel s = 4 then max 2 (rd R.GLB_SYNC_D_BOARD 0 s)
  else if syncLevel s = 5 then max 10 (rd R.GLB_SYNC_D_CELL 0 s)
  else 1

/-- Ports of a role. -/
def portsOf (f : Nat → Bool) (s : State) : List Nat := (upFrom 0 18).filter (fun p => f (rayRole p s))

/-- A port toward the leader (11 R339, R340): the board port to slot 0; on slot 0 of a cell, a y port off row 0, an x port
on row 0. -/
def towardLeader (p : Nat) (s : State) : Bool :=
  let r := rayRole p s
  if mySlot s ≠ 0 then decide (r = 1) && decide ((mySlot s + p + 1) % 8 = 0)
  else if syncLevel s ≠ 5 && s.img.level ≠ 5 then false
  else if boardY s ≠ 0 then decide (r = 4) || decide (r = 5)
  else if boardX s ≠ 0 then decide (r = 2) || decide (r = 3)
  else false

/-- A port away from the leader, for a beacon that arrived on `p` (none at the leader). -/
def awayFrom (p : Option Nat) (q : Nat) (s : State) : Bool :=
  let r := rayRole q s
  if mySlot s ≠ 0 || p = some q then false
  else decide (r = 1)
    || ((decide (syncLevel s = 5) || decide (s.img.level = 5))
        && (decide (r = 4) || decide (r = 5) || (decide (boardY s = 0) && (decide (r = 2) || decide (r = 3)))))

/-- A beacon sent on every port that is UP and meets `f`; the latency of each link is added to its delay. -/
def sendBeacon (f : Nat → Bool) (m : BeaconMsg) (s : State) : State :=
  (upFrom 0 18).foldl (fun s q =>
    if f q && rayUp q s then
      rayCtl q (.beacon { m with delay := BitVec.ofNat 32 (m.delay.toNat + rd R.RAY_LAT q s) }) s
    else s) s

/-- Proposals merged by maximum (01 R20; 11 R340; 16 R453). -/
def Agreed.max (a b : Agreed) : Agreed := ⟨Nat.max a.len b.len, Nat.max a.k b.k, a.test || b.test⟩

/-- A proposal merged into those for its frame. -/
def mergeProposal (frame : Nat) (a : Agreed) (s : State) : State :=
  { s with sync := { s.sync with proposals := mmod frame ⟨0, 0, false⟩ (Agreed.max a) s.sync.proposals } }

/-- What a group agrees on adopted for a group frame. -/
def adopt (frame : Nat) (a : Agreed) (s : State) : State :=
  { s with sync := { s.sync with adopted := mput frame a s.sync.adopted } }

/-- What a beacon says. -/
def beaconSays (m : BeaconMsg) : Agreed := ⟨m.len.toNat, m.k.toNat, m.test⟩

/-- A beacon that says `a` for frame `f`. -/
def beaconOf (proposal : Bool) (f : Nat) (a : Agreed) : BeaconMsg :=
  ⟨proposal, BitVec.ofNat 64 f, BitVec.ofNat 16 a.len, BitVec.ofNat 4 a.k, a.test, 0⟩

/-! ### The next exposure's length (01 R17, R20, R24) -/

/-- What the next exposure is: its own proposal in a group of one, else the adopted one, or the current length while none
has been adopted. -/
def nextAgreed (s : State) : Agreed :=
  if syncLevel s = 0 then s.sync.own
  else mgetD (groupFrame s + 1) ⟨rd R.GLB_EXP_CUR_LEN 0 s, 0, false⟩ s.sync.adopted

/-- A length within the bounds of 01 R17; what a group never proposed for is this device's own. -/
def boundLen (n : Nat) (s : State) : Nat := min 800 (max 100 (if n = 0 then s.sync.own.len else n))

/-- NEXT_LEN; it stands as it is from the start of the fix window on (01 R24). -/
def showNext (s : State) : State :=
  if inFix s then s else wr R.GLB_EXP_NEXT_LEN 0 (boundLen (nextAgreed s).len s) s

/-- This device's latest proposal (01 R20, R24). -/
def setOwn (a : Agreed) (s : State) : State :=
  wr R.GLB_SYNC_LEN_PROPOSED 0 a.len { s with sync := { s.sync with own := a } }

/-- A need in ns that the exposure that runs and every one that the group has adopted a length for cover: what the frame
sequencer changes D exposures after the proposal that covers it (01 R21). -/
def coversAll (ns : Nat) (s : State) : Bool :=
  let cur := rd R.GLB_EXP_CUR_LEN 0 s
  decide (ns ≤ 10 * cur) && (upFrom 1 (syncD s - 1)).all (fun i =>
    decide (ns ≤ 10 * (mgetD (groupFrame s + i) ⟨cur, 0, false⟩ s.sync.adopted).len))

/-! ### Beacons -/

/-- A joining member has heard its group: it takes the group frame and stops aligning (11 R342). -/
def joined (frame : Nat) (s : State) : State :=
  if flag R.GLB_SYNC_STAT_JOINING 0 s then
    let s := wr R.GLB_GROUP_FRAME 0 (frame - 1) (wr R.GLB_SYNC_STAT_JOINING 0 0 s)
    showNext (wr R.GLB_SYNC_LEVEL 0 s.img.level s)
  else s

/-- BEACON (11 R339, R340, R350). A proposal from a port away from the leader is merged and, by a member that does not lead,
passed on; a beacon of the leader is adopted and forwarded. Frame, length and delay are where 11 R340 puts them in the
payload. -/
def beaconRx (p : Nat) (w : RayWords) (proposal : Bool) (k : BitVec 4) (test : Bool) (s : State) : State :=
  match rayRx p 10 w s with
  | (false, s) => s
  | (true, s) =>
    let m : BeaconMsg := ⟨proposal, BitVec.ofNat 64 w.pay.toNat, BitVec.ofNat 16 (w.pay.toNat >>> 64), k, test,
      BitVec.ofNat 32 (w.pay.toNat >>> 80)⟩
    let f := m.frame.toNat
    if m.proposal then
      if towardLeader p s then rayNak p 6 w.seq s
      else
        let s := mergeProposal f (beaconSays m) s
        if isLeader s then s
        else sendBeacon (fun q => towardLeader q s)
          { beaconOf true f (mgetD f ⟨0, 0, false⟩ s.sync.proposals) with delay := m.delay } s
    else if !towardLeader p s then rayNak p 6 w.seq s
    else
      match s.sync.beacon with
      | some g => if f ≤ g then s else go m f s
      | none => go m f s
where
  /-- The leader's beacon taken and forwarded: sent in the exposure before the tick it names, it says the length of the
  exposure D after that one (entry 33). -/
  go (m : BeaconMsg) (f : Nat) (s : State) : State :=
    let s := { s with sync := { s.sync with beacon := some f, delay := m.delay.toNat, heard := true } }
    let s := joined f (adopt (f + syncD s - 1) (beaconSays m) s)
    sendBeacon (fun q => awayFrom (some p) q s) m s

/-- A plate that carries SLOT traffic on a Ray port. -/
def usesRay (m : Image) : Bool := m.rayNeed.any (fun e => decide (0 < e.2))

/-- The device leaves its group and is a group of one (01 R54; 11 R342). -/
def leaveGroup (s : State) : State :=
  stopPlates usesRay (showNext (wr R.GLB_SYNC_LEVEL 0 0 (wr R.GLB_SYNC_LEADER 0 0 s)))

/-- GLB_SYNC_LOSS expires (01 R54). -/
def syncLoss (s : State) : State :=
  if syncLevel s = 0 || isLeader s then s else raise .syncLost .glb 0 (leaveGroup s)

/-- GLB_SYNC_STAT.REJOIN (11 R342): a group of one that the image makes a member aligns to its group. -/
def rejoin (s : State) : State :=
  if syncLevel s ≠ 0 || s.img.level = 0 then s
  else { wr R.GLB_SYNC_STAT_JOINING 0 1 s with sync := { s.sync with beacon := none } }

/-- GLB_REJOIN_LIMIT expires (11 R343). -/
def rejoinLimit (s : State) : State :=
  if flag R.GLB_SYNC_STAT_JOINING 0 s then
    raise .rejoinFail .glb 0 (wr R.GLB_SYNC_STAT_JOINING 0 0 (wr R.GLB_SYNC_LEVEL 0 0 s))
  else s

/-- GLB_ROUTE_AT (11 R338): a frame that has passed is ignored. -/
def routeArm (frame : Nat) (s : State) : State :=
  let s := wr R.GLB_ROUTE_AT 0 frame s
  let g := groupFrame s
  let d := (frame + 2 ^ 32 - g % 2 ^ 32) % 2 ^ 32
  if d = 0 || 2 ^ 31 ≤ d then raise .routeSwapLate .glb 0 s
  else { s with sync := { s.sync with swapAt := some (g + d) } }

/-- The swap takes effect at the tick that opens its frame (11 R338). A plate without the set keeps its own. -/
def routeSwap (s : State) : State :=
  if s.sync.swapAt = some (groupFrame s) then
    let n := rd R.GLB_ROUTE_NEXT_SET 0 s
    let s := wr R.GLB_ROUTE_CUR_SET 0 n
      { s with sync := { s.sync with swapAt := none, swapped := some (groupFrame s) } }
    { s with plates := mmap (fun _ k =>
        match k.img with
        | some m => if n < m.routeSets then { k with oldSet := k.set, set := n } else { k with oldSet := k.set }
        | none => k) s.plates }
  else s

/-- GLB_VIEW_CTRL.HOLD (01 R49). -/
def viewHold (on : Bool) (s : State) : State := later (.viewHold on) (wr R.GLB_VIEW_CTRL_HOLD 0 on.toNat s)

/-- The view-hold timer expires (01 R49, R54): the hold is released at the next tick. HOLD itself reads 0 from the expiry on
(DESIGN CHOICE, entry 120). -/
def viewExpiry (s : State) : State :=
  if flag R.GLB_VIEW_CTRL_HELD 0 s then
    raise .viewHoldExpired .glb 0 (later (.viewHold false) (wr R.GLB_VIEW_CTRL_HOLD 0 0 s))
  else s

/-- A member's proposal, for the frame D exposures on; a leader adopts the largest and announces it (01 R20; 11 R340). -/
def propose (a : Agreed) (s : State) : State :=
  let s := setOwn a s
  if syncLevel s = 0 then s
  else
    let f := groupFrame s + syncD s
    let s := mergeProposal f a s
    let n := mgetD f a s.sync.proposals
    if isLeader s then s else sendBeacon (fun q => towardLeader q s) (beaconOf true f n) s

/-- The leader's beacon for the tick to come, at the end of the exposure: what the exposure D after this one is, from the
proposals made for it (entry 33). -/
def announce (s : State) : State :=
  if syncLevel s = 0 || !isLeader s then s
  else
    let f := groupFrame s + syncD s
    let a := mgetD f s.sync.own s.sync.proposals
    sendBeacon (fun q => awayFrom none q s) (beaconOf false (groupFrame s + 1) a) (adopt f a s)

/-- Entries of frames that have passed are dropped. -/
def pruneLens (s : State) : State :=
  let g := groupFrame s
  { s with sync := { s.sync with adopted := s.sync.adopted.filter (fun e => decide (g ≤ e.1)),
                                 proposals := s.sync.proposals.filter (fun e => decide (g ≤ e.1)) } }

end Sys2Proof.Machine
end

