-- ==== Sys2Proof/Machine/Power.lean ====
section
/-! DEFINITION. Stops, wishes, dark frames and the Aperture controller (01 R14 to R22, R34 to R36; 16 R447 to R456),
energy (16 R457 to R459), feeds, telemetry, regulator phases and region wakes (16 R460 to R466). -/
namespace Sys2Proof.Machine

/-! ### Stops (16 R447 to R451) -/

/-- VDD_CORE of a stop in mV (16 R447). -/
def stopMv (n : Nat) : Nat := if n ≤ 4 then 560 + 30 * n else if n ≤ 6 then 680 + 40 * (n - 4) else 760 + 50 * (n - 6)

/-- The region carries no work: dark or tripped, or every core of it fenced (01 R14). -/
def regionDead (r : Nat) (s : State) : Bool :=
  decide (rd R.PDN_STAT_PHASE_CEIL r s = 15) || decide (rd R.PDN_STAT_STATE r s ≠ 2) || decide (rd R.TWR_RGN_FENCED r s = 2 ^ 64 - 1)

/-- The region carries work, or will once its wake has ended (01 R14; 16 R466). -/
def regionComing (r : Nat) (s : State) : Bool :=
  decide (rd R.PDN_STAT_PHASE_CEIL r s ≠ 15) && (decide (rd R.PDN_STAT_STATE r s = 1) || decide (rd R.PDN_STAT_STATE r s = 2))
    && decide (rd R.TWR_RGN_FENCED r s ≠ 2 ^ 64 - 1)

/-- The plate's writes have been served (14 R402). -/
def shelfServed (k : Plate) (s : State) : Bool :=
  match k.loader with
  | some (_, _, n) => kvServed n s
  | none => false

/-- The plate has active regions (01 R14); with `soon`: it will have them in the exposures that a proposal is for (01 R21; 14
R402, R404). -/
def platesIn (soon : Bool) (k : Plate) (s : State) : Bool :=
  if soon then (k.active.isSome && !k.unload) || (decide (k.st = .loading) && shelfServed k s) else k.active.isSome

/-- Regions with a plate, with its record and image. -/
def platedRegions (soon : Bool) (s : State) : List (RegionRec × Image) :=
  s.plates.flatMap (fun e =>
    match e.2.img with
    | some m => if platesIn soon e.2 s then m.recs.map (fun q => (q, m)) else []
    | none => [])

/-- The active regions of a half. -/
def activeIn (h : Nat) (soon : Bool) (s : State) : List (RegionRec × Image) :=
  (platedRegions soon s).filter (fun q => decide (q.1.region / 8 = h))

/-- floor_h (16 R450). -/
def floorOf (h : Nat) (soon : Bool) (s : State) : Nat := ((activeIn h soon s).map (fun q => q.2.floor)).foldl max 0

/-- Limits 1 to 4 and 9 of a half (16 R450). -/
def softLimits (h : Nat) (soon : Bool) (s : State) : List (Nat × Nat) :=
  let a := activeIn h soon s
  [(1, rd R.APT_CTRL_MAX_STOP 0 s), (2, rd R.GLB_ID_GRADE_STOP 0 s)]
    ++ a.map (fun q => (3, fusedCeil q.1.region s)) ++ a.map (fun q => (4, shaftCeil q.1 q.2.snapReserve s))
    ++ (if flag R.APT_CTRL_FIXED 0 s then [(9, rd R.APT_CTRL_FIX_STOP 0 s)] else [])

/-- Limits 5 to 8, the forced ones (16 R450, R451, R456; 17 R477, R478). -/
def forcedLimits (h : Nat) (s : State) : List (Nat × Nat) :=
  ((activeIn h false s).filter (fun q => !regionDead q.1.region s)).map (fun q => (5, rd R.PDN_STAT_PHASE_CEIL q.1.region s))
    ++ [(6, rd (R.THM_HALF_CEIL h) 0 s)]
    ++ (match mget h s.apt.droop with
        | some d => [(7, d)]
        | none => [])
    ++ (if flag R.APT_STAT_BRAKE 0 s then [(8, 0)] else [])

/-- The lowest limit. -/
def lowest (l : List (Nat × Nat)) : Nat := (l.map (fun x => x.2)).foldl min 8

/-- ceil_h (16 R450). -/
def ceilOf (h : Nat) (soon : Bool) (s : State) : Nat := min (lowest (softLimits h soon s)) (lowest (forcedLimits h s))

/-- LIMITER: what sets the stop (16 R450; entry 32 on ties). -/
def limiterOf (h : Nat) (s : State) : Nat :=
  let c := ceilOf h false s
  let l := forcedLimits h s ++ softLimits h false s
  if flag R.APT_CTRL_FIXED 0 s && decide (c = rd R.APT_CTRL_FIX_STOP 0 s) then 9
  else if rd R.APT_STAT_TARGET 0 s ≤ c then 0
  else (((l.filter (fun x => decide (x.2 = c))).map (fun x => x.1)).min?).getD 0

/-- The stop that a half should run at: the floor wins over soft limits, forced ones over the floor (16 R450, R451). A half
without an active region runs at S0. -/
def wantedStop (h : Nat) (soon : Bool) (s : State) : Nat :=
  if (activeIn h soon s).isEmpty then 0
  else min (max (floorOf h soon s) (min (rd R.APT_STAT_TARGET 0 s) (lowest (softLimits h soon s)))) (lowest (forcedLimits h s))

def stopOf (h : Nat) (s : State) : Nat := rd (R.APT_HALF_STOP_STOP h) 0 s
def setStop (h n : Nat) (s : State) : State := wr (R.APT_HALF_STOP_STOP h) 0 n s

/-- The stop whose voltage is in force in a half (16 R448). -/
def voltOf (h : Nat) (s : State) : Nat := mgetD h 0 s.apt.volt

def setApt (f : Apt → Apt) (s : State) : State := { s with apt := f s.apt }

/-- A half whose stop should rise ramps its voltage first (16 R448). -/
def rampUp (h : Nat) (s : State) : State :=
  let w := wantedStop h false s
  if w ≤ voltOf h s then s else setApt (fun a => { a with ramp := mput h w a.ramp }) s

/-! ### Wishes (01 R14, R15, R21; 19 R516) -/

/-- The stretch in force for a region in ns (19 R516). -/
def stretchOf (r : Nat) (s : State) : Nat := mgetD r 0 s.stretch

/-- A region's wish at a stop in ns, before rounding up to the device's. -/
def regionWish (q : RegionRec) (stop : Nat) (s : State) : Nat := max (wishNs q.cycles stop) (stretchOf q.region s)

/-- A region's wish before rounding, in units of 1/(105 × 27,720) ns, so that every stop's is a whole number. -/
def exactWish (q : RegionRec) (stop : Nat) (s : State) : Nat :=
  max (q.cycles * 1000 * (27720 / (4 + stop)) + 100 * 2910600) (stretchOf q.region s * 2910600)

/-- The region that sets the device's wish, and its wish in ns; the stops by half are given (01 R15). Of regions with the same
wish the first in order of plate and region record is named (DESIGN CHOICE, entry 121). -/
def deviceWish (soon : Bool) (stop : Nat → Nat) (s : State) : Option (Nat × Nat) :=
  (((platedRegions soon s).filter (fun q => if soon then regionComing q.1.region s else !regionDead q.1.region s)).foldl
    (fun (best : Option (RegionRec × Nat)) q =>
      let w := exactWish q.1 (stop (q.1.region / 8)) s
      match best with
      | some (_, b) => if b < w then some (q.1, w) else best
      | none => some (q.1, w)) none).map (fun x => (x.1.region, regionWish x.1 (stop (x.1.region / 8)) s))

/-- GLB_WISH (01 R24). -/
def putWish (w : Option (Nat × Nat)) (s : State) : State :=
  match w with
  | some (r, n) => wr R.GLB_WISH_WISH 0 (n / 10) (wr R.GLB_WISH_SETTER 0 r (wr R.GLB_WISH_NONE 0 0 s))
  | none => wr R.GLB_WISH_WISH 0 100 (wr R.GLB_WISH_SETTER 0 0 (wr R.GLB_WISH_NONE 0 1 s))

/-- The stop of a half in the next exposure: a lower one as wanted, a raise as far as its voltage is in force (01 R14, R21; 16
R448). -/
def nextStop (soon : Bool) (s : State) (h : Nat) : Nat :=
  let w := wantedStop h soon s
  if stopOf h s < w then min w (max (stopOf h s) (voltOf h s)) else w

/-- The length in 10 ns that a wish asks for (01 R15). -/
def wishLen (w : Option (Nat × Nat)) : Nat :=
  match w with
  | some (_, n) => n / 10
  | none => 100

/-- A requested test forces dark frames (18 R498). -/
def testForces (s : State) : Bool :=
  match s.boot.test with
  | some t => t.force
  | none => false

/-- What this device proposes: a length that covers its regions as they are and as they will be once what waits for a length is
in force (01 R20, R21); its dark ratio, forced test frames (16 R453; 18 R498). -/
def ownProposal (s : State) : Agreed :=
  let n := max (wishLen (deviceWish false (nextStop false s) s)) (wishLen (deviceWish true (nextStop true s) s))
  ⟨min 800 (max 100 n), rd R.APT_STAT_LOCAL_K 0 s, testForces s⟩

/-- A group of one computes the next exposure's length anew before the fix window (01 R20, R24). -/
def rewish (s : State) : State :=
  if syncLevel s ≠ 0 || inFix s then s else showNext (setOwn (ownProposal s) s)

/-- VOLTAGE_RAMP_DONE (16 R448): the raised stop takes effect at the next tick; a ramp that ends in the fix window, at the one
after (00 R7). -/
def rampDone (h : Nat) (s : State) : State :=
  match mget h s.apt.ramp with
  | some w =>
    if inFix s then setApt (fun a => { a with late := mput h w a.late, ramp := mdel h a.ramp }) s
    else rewish (setApt (fun a => { a with volt := mput h w a.volt, ramp := mdel h a.ramp }) s)
  | none => s

/-- The voltages whose ramp ended in the fix window are in force once its tick has set the stops. -/
def lateRamps (s : State) : State :=
  setApt (fun a => { a with volt := a.late.foldl (fun m e => mput e.1 e.2 m) a.volt, late := [] }) s

/-! ### Dark frames (01 R22, R34; 16 R453, R456; 17 R480) -/

/-- bitrev4 (16 R453). -/
def bitrev4 (n : Nat) : Nat := bitsAt n 0 1 * 8 + bitsAt n 1 1 * 4 + bitsAt n 2 1 * 2 + bitsAt n 3 1

/-- The dark ratio in force (16 R453, R456; 17 R480). -/
def darkRatio (s : State) : Nat :=
  let k := rd R.APT_STAT_K 0 s
  max (max k (if flag R.APT_STAT_BRAKE 0 s then max 8 k else 0)) (rd R.THM_STAT_K_TH 0 s)

/-- An active region needs more than `ns` at its half's stop (01 R22). -/
def overLength (ns : Nat) (s : State) : Bool :=
  (platedRegions false s).any (fun q =>
    !regionDead q.1.region s && decide (ns < regionWish q.1 (stopOf (q.1.region / 8) s) s))

/-- Whether the exposure that opens is a dark frame, and whether that is forced by its length. `a`: what the group agreed
for it; a group of one goes by the test that runs (18 R498). -/
def darkNow (a : Agreed) (s : State) : Bool × Bool :=
  let g := groupFrame s
  let forced := overLength (a.len * 10) s
  (forced || decide (bitrev4 (g % 16) < darkRatio s) || ((if syncLevel s = 0 then testForces s else a.test) && decide (g % 64 = 63)) || flag R.GLB_SYNC_STAT_JOINING 0 s
    || s.boot.edge, forced)

/-! ### The controller (16 R452 to R455) -/

/-- A cap or stop above the grade is clamped (00 R3). -/
def clampTo (limit v : Nat) (s : State) : Nat × State :=
  if limit < v then (limit, raise .gradeClamp .apt 0 s) else (v, s)

/-- APT_CAP_WIN in samples; 0 selects 10 (16 R467). -/
def capWindow (s : State) : Nat :=
  let n := rd R.APT_CAP_WIN 0 s
  if n = 0 then 10 else min 100 n

/-- The average of a list; 0 of none. -/
def average (l : List Nat) : Nat := l.sum / max 1 l.length

/-- The operating point changes: the next evaluation acts once it has been in force for a sample (16 R452). -/
def movePoint (s : State) : State := setApt (fun a => { a with waiting := true, moved := s.timebase }) s

/-- Halves with an active region. -/
def liveHalves (s : State) : List Nat := (upFrom 0 8).filter (fun h => !(activeIn h false s).isEmpty)

/-- Some half runs above its floor. -/
def mayDown (s : State) : Bool :=
  !flag R.APT_CTRL_FIXED 0 s && (liveHalves s).any (fun h => decide (floorOf h false s < stopOf h s))

/-- The Down case, or the Unreachable one at its end (16 R452). -/
def stepDown (s : State) : State :=
  let k := rd R.APT_STAT_LOCAL_K 0 s
  if mayDown s then
    let top := ((liveHalves s).map (fun h => stopOf h s)).foldl max 0
    movePoint (wr R.APT_STAT_TARGET 0 (top - 1) s)
  else if k < 15 then movePoint (wr R.APT_STAT_LOCAL_K 0 (k + 1) s)
  else
    let s := setApt (fun a => { a with excess := a.excess + 1 }) s
    if capWindow s ≤ s.apt.excess && !flag R.APT_STAT_UNREACHABLE 0 s then
      raise .capUnreachable .apt 0 (wr R.APT_STAT_UNREACHABLE 0 1 s)
    else s

/-- The Up case. -/
def stepUp (s : State) : State :=
  let k := rd R.APT_STAT_LOCAL_K 0 s
  let t := rd R.APT_STAT_TARGET 0 s
  if 0 < k then movePoint (wr R.APT_STAT_LOCAL_K 0 (k - 1) s)
  else if !flag R.APT_CTRL_FIXED 0 s && decide (t < 8) && (upFrom 0 8).any (fun h => decide (t < ceilOf h false s)) then
    movePoint (wr R.APT_STAT_TARGET 0 (t + 1) s)
  else s

/-- APERTURE_EVALUATION on a sample of `power` W (16 R452, R455). -/
def apertureEval (power : Nat) (s : State) : State :=
  let s := setApt (fun a => { a with samples := (power :: a.samples).take 100 }) s
  let avg := average (s.apt.samples.take (capWindow s))
  let s := wr R.APT_POWER_LAST 0 power (wr R.APT_POWER_WIN 0 avg s)
  let c := rd R.APT_CAP 0 s
  let s := if avg ≤ c then wr R.APT_STAT_UNREACHABLE 0 0 s else s
  let s := if power ≤ c then setApt (fun a => { a with excess := 0 }) s else s
  if flag R.APT_STAT_BRAKE 0 s || s.apt.pin || flag R.APT_STAT_HOLD 0 s || s.apt.waiting
      || decide (s.timebase < s.apt.moved + 100000) then s
  else if c < power then stepDown s
  else if 100 * power ≤ 95 * c && decide (100 * avg ≤ 95 * c) then stepUp s
  else s

/-- The cap in force becomes `c` (12 R375; 16 R452, R455): a lowering while a bucket is open starts a collective hold. -/
def capApply (c : Nat) (s : State) : State :=
  let old := rd R.APT_CAP 0 s
  let s := wr R.APT_CAP 0 c s
  if c = old then s
  else
    let s := setApt (fun a => { a with excess := 0 }) (wr R.APT_STAT_UNREACHABLE 0 0 s)
    if c < old && !(openBuckets s).isEmpty && s.red.hold.isNone then holdStart c s else s

/-- The collective hold ends (12 R375): COLLECTIVE_HOLD_END, or the last bucket open at the change. -/
def holdEnd (s : State) : State :=
  if s.red.hold.isSome then wr R.APT_STAT_HOLD 0 0 { s with red := { s.red with hold := none } } else s

/-! ### PWR_BRAKE# (16 R456) -/

/-- An assertion; with a release that acts at the same tick, neither has anything to do. -/
def brakeAssert (s : State) : State :=
  if s.apt.pin then s
  else raise .pwrBrake .apt 0 (setApt (fun a => { a with
    pin := true,
    brakeOff := if a.brakeOff = some (actFrame s) then none else a.brakeOff,
    brakeOn := if a.brakeOff = some (actFrame s) then a.brakeOn else some (actFrame s) }) s)

/-- A release; with an assertion that acts at the same tick, neither has anything to do. -/
def brakeRelease (s : State) : State :=
  if s.apt.pin then setApt (fun a => if a.brakeOn = some (actFrame s) then { a with pin := false, brakeOn := none }
    else { a with pin := false, brakeOff := some (actFrame s) }) s
  else s

/-- A frame that has come. -/
def due (f : Option Nat) (s : State) : Bool :=
  match f with
  | some n => decide (n ≤ s.frame)
  | none => false

/-- The brake's tick: it acts, or is off and the controller's point is in force again (16 R455, R456). -/
def brakeTick (s : State) : State :=
  let s := if due s.apt.brakeOn s then setApt (fun a => { a with brakeOn := none }) (wr R.APT_STAT_BRAKE 0 1 s) else s
  if due s.apt.brakeOff s then setApt (fun a => { a with brakeOff := none, moved := s.timebase }) (wr R.APT_STAT_BRAKE 0 0 s) else s

/-! ### The tick's stops (16 R448 to R451, R454) -/

/-- One half at the tick that opens an exposure: a forced stop and a raise whose voltage is in force apply; a lower stop
applies once every length that the group has adopted covers it (01 R21); a raise without its voltage starts a ramp. -/
def stopTick (h : Nat) (s : State) : State :=
  let w := wantedStop h false s
  let cur := stopOf h s
  let forced := lowest (forcedLimits h s)
  let covered := (activeIn h false s).all (fun q => coversAll (regionWish q.1 w s) s)
  let next := if cur < w then min w (max cur (voltOf h s)) else if covered || decide (forced < cur) then (if covered then w else min cur forced) else cur
  let s := setStop h next s
  let s := setApt (fun a => { a with volt := mput h (max next (if next < cur then next else mgetD h 0 a.volt)) a.volt }) s
  let s := if next < w then rampUp h s else setApt (fun a => { a with ramp := mdel h a.ramp }) s
  let s := wr (R.APT_HALF_STOP_CEIL h) 0 (ceilOf h false s)
    (wr (R.APT_HALF_STOP_FLOOR h) 0 (floorOf h false s) (wr (R.APT_HALF_STOP_LIMITER h) 0 (limiterOf h s) s))
  let breach := decide (forced < floorOf h false s) && decide (next < floorOf h false s)
  let s := if breach && !s.apt.breach.contains h then raise .floorBreach .apt 0 s else s
  let s := setApt (fun a => { a with breach := if breach then (if a.breach.contains h then a.breach else h :: a.breach)
                                              else a.breach.filter (fun x => decide (x ≠ h)) }) s
  (upFrom (h * 8) 8).foldl (fun s r => wr R.PDN_VMIN_TARGET r (stopMv next) s) s

/-- All halves; fixed-frequency mode held or broken; a moved point that is now in force (16 R452, R454). -/
def stopsTick (s : State) : State :=
  let s := setApt (fun a => { a with droop := a.droopNext.foldl (fun m e => mmod e.1 8 (fun n => min n e.2) m) a.droop, droopNext := [] }) s
  let s := if flag R.APT_CTRL_FIXED 0 s then wr R.APT_STAT_TARGET 0 (rd R.APT_CTRL_FIX_STOP 0 s) s else s
  let s := (upFrom 0 8).foldl (fun s h => stopTick h s) s
  let fix := rd R.APT_CTRL_FIX_STOP 0 s
  let held := (liveHalves s).all (fun h => decide (stopOf h s = fix))
  let broken := flag R.APT_CTRL_FIXED 0 s && (liveHalves s).any (fun h => decide (lowest (forcedLimits h s) < fix) && decide (stopOf h s < fix))
  let s := wr R.APT_STAT_FIXED_HELD 0 (flag R.APT_CTRL_FIXED 0 s && held).toNat s
  let s := if broken && !s.apt.broken then raise .fixedBroken .apt 0 s else s
  let settled := (upFrom 0 8).all (fun h => decide (stopOf h s = wantedStop h false s))
    && decide (rd R.APT_STAT_LOCAL_K 0 s ≤ rd R.APT_STAT_K 0 s)
  setApt (fun a => { a with broken := broken, waiting := a.waiting && !settled, moved := if a.waiting && settled then s.timebase else a.moved }) s

/-- A plate boundary in its halves: their droop ceilings end (16 R462). -/
def plateBoundary (m : Image) (s : State) : State :=
  setApt (fun a => { a with droop := a.droop.filter (fun e => !(regionList m.regions).any (fun r => decide (r / 8 = e.1))) }) s

/-! ### Energy (16 R457 to R459) -/

/-- The energy of a domain in an exposure. -/
def eDom (env : TickEnv) (d : Nat) : Nat := ((env.energy.filter (fun e => decide (e.1.val = d))).map (fun e => e.2)).sum

/-- Active regions of a tower, of all plates or of one. -/
def towerRegions (t : Nat) (s : State) : Nat := ((platedRegions false s).filter (fun q => decide (q.1.region / 16 = t))).length
def plateRegions (t : Nat) (m : Image) : Nat := (m.recs.filter (fun q => decide (q.region / 16 = t))).length

/-- A job's part of the domains' energies, as a numerator over the product of the towers' active regions (16 R458). -/
def jobPart (env : TickEnv) (m : Image) (s : State) : Nat × Nat :=
  let n (t : Nat) : Nat := max 1 (towerRegions t s)
  let all := n 0 * n 1 * n 2 * n 3
  let logic := (m.recs.map (fun q => eDom env q.region)).sum
  let shared := ((upFrom 0 4).map (fun t =>
    (eDom env (68 + t) + eDom env (72 + t) + eDom env (76 + t)) * plateRegions t m * (all / n t))).sum
  (logic * all + shared, all)

/-- A sample of the domains' energies, with the bytes that the shafts have moved in this exposure. -/
def heatSample (energy : List (DomainId × Nat)) (s : State) : HeatSample :=
  ⟨s.timebase, energy.foldl (fun m x => mput x.1.val x.2 m) [], s.therm.bytes⟩

/-- The exposure's energies join those of the last 10 ms (17 R475, R476). -/
def heatTick (env : TickEnv) (s : State) : State :=
  setTherm (fun k => { k with bytes := [], heat := k.heat.filter (fun x => decide (s.timebase < x.at_ + 1000000))
    ++ [heatSample env.energy s] }) s

/-- Step 2's energy: measured, credited to the jobs that run, the rest unattributed; the domains' counters (16 R457,
R458). -/
def energyTick (env : TickEnv) (s : State) : State :=
  let total := s.apt.frac + env.input
  let e := total / 1000
  let sum := (env.energy.map (fun x => x.2)).sum
  let s := setApt (fun a => { a with frac := total % 1000 }) s
  let s := bump R.APT_E_MEAS 0 e s
  let s := env.energy.foldl (fun s x => bump R.PDN_E x.1.val x.2 s) s
  let shares := s.plates.filterMap (fun k =>
    match k.2.img, k.2.job with
    | some m, some j => if j.begun && decide (sum ≠ 0) then some (j.tag, e * (jobPart env m s).1 / (sum * (jobPart env m s).2)) else none
    | _, _ => none)
  let s := shares.foldl (fun s x => setApt (fun a => { a with energy := mmod x.1 0 (fun n => n + x.2) a.energy }) s) s
  let given := (shares.map (fun x => x.2)).sum
  bump R.APT_E_JOBSUM 0 given (bump R.APT_E_UNATTR 0 (e - given) s)

/-- A job's tag is complete: the last 256 tags are held (16 R459). -/
def energyDone (tag : Nat) (s : State) : State :=
  setApt (fun a =>
    let d := (tag :: a.done.filter (fun x => decide (x ≠ tag)))
    let keep := d.take 256
    { a with done := keep, energy := a.energy.filter (fun x => keep.contains x.1 || !(d.drop 256).contains x.1) }) s

/-- APT_JOB_E of a tag, as the host sees it: all ones if it is not held (16 R459). -/
def jobEnergy (tag : Nat) (s : State) : Nat := mgetD tag (2 ^ 64 - 1) s.apt.seen

/-! ### Telemetry (16 R462, R463) -/

/-- A Vmin record into the log of 64 entries, the oldest overwritten (16 R463). -/
def vminLog (v : VminRec) (s : State) : State :=
  let i := rd R.APT_VMIN_CNT 0 s % 64
  bump R.APT_VMIN_CNT 0 1 (wr (R.APT_VMIN_LOG_DOMAIN i) 0 v.domain.val (wr (R.APT_VMIN_LOG_DEPTH i) 0 v.depth.toNat
    (wr (R.APT_VMIN_LOG_MIN i) 0 v.min.toNat (wr (R.APT_VMIN_LOG_TIMEBASE i) 0 s.timebase s))))

/-- One domain's minimum: PDN_VMIN, a Vmin record beyond 20 mV, EVT_VDROOP of a logic region beyond 40 mV (16 R462). -/
def vminSample (v : VminRec) (s : State) : State :=
  let d := v.domain.val
  let s := wr R.PDN_VMIN_MIN d (min (rd R.PDN_VMIN_MIN d s) v.min.toNat) s
  let s := if 20 < v.depth.toNat then vminLog v s else s
  if d < 64 && decide (40 < v.depth.toNat) then
    let h := d / 8
    raise .vdroop .pdn d (setApt (fun a => { a with droopNext := mput h (stopOf h s - 1) a.droopNext }) s)
  else s

/-- Vmin records are exported (16 R463). -/
def vminExport (s : State) : Bool :=
  decide (syncLevel s = 5) || flag R.APT_TELEM_VMIN_EXPORT 0 s || (upFrom 0 18).any (fun p => rayZ p s)

/-- APT_STAT[15:0]. -/
def aptStat (s : State) : Nat :=
  rd R.APT_STAT_TARGET 0 s + 16 * rd R.APT_STAT_K 0 s + 256 * rd R.APT_STAT_LOCAL_K 0 s + 4096 * rd R.APT_STAT_UNREACHABLE 0 s
    + 8192 * rd R.APT_STAT_HOLD 0 s + 16384 * rd R.APT_STAT_BRAKE 0 s + 32768 * rd R.APT_STAT_FIXED_HELD 0 s

/-- The 16 bytes of a Vmin record (16 R467). -/
def vminBytes (v : VminRec) (s : State) : List Byte :=
  leBytes 8 (v.domain.val + 256 * v.depth.toNat + 65536 * v.min.toNat) ++ leBytes 8 s.timebase

/-- A telemetry record of 512 bytes (16 R463). -/
def telemRecord (t : TelemSample) (s : State) : List Byte :=
  let vs := if vminExport s then (t.mins.filter (fun v => decide (20 < v.depth.toNat))).take 16 else []
  leBytes 8 s.timebase ++ leBytes 8 s.frame ++ leBytes 4 t.power ++ leBytes 4 t.feedA ++ leBytes 4 t.feedB
    ++ leBytes 2 (aptStat s) ++ leBytes 1 vs.length ++ leBytes 1 0
    ++ (upFrom 0 106).flatMap (fun d => leBytes 2 ((t.avg[d]?).getD 0)) ++ leBytes 12 0
    ++ vs.flatMap (fun v => vminBytes v s) ++ leBytes (256 - 16 * vs.length) 0

/-- A telemetry record dropped. -/
def telemDrop (s : State) : State := raise .telemDrop .apt 0 (bump R.APT_TELEM_DROP 0 1 s)

/-- TELEMETRY_SAMPLE (16 R462, R463). -/
def telemetry (t : TelemSample) (s : State) : State :=
  let s := wr R.APT_FEED_A_V 0 t.voltA.toNat (wr R.APT_FEED_B_V 0 t.voltB.toNat s)
  let s := (upFrom 0 106).foldl (fun s d =>
    wr R.PDN_I_AVG d ((t.avg[d]?).getD 0) (wr R.PDN_I_PEAK d ((t.peak[d]?).getD 0) s)) s
  let s := t.mins.foldl (fun s v => vminSample v s) s
  if !flag R.APT_TELEM_EN 0 s then s
  else
    let prod := rd R.APT_TELEM_PROD 0 s
    let size := 2 ^ rd R.APT_TELEM_SIZE 0 s
    if (prod + 2 ^ 64 - rd R.APT_TELEM_CONS 0 s) % 2 ^ 64 = size then telemDrop s
    else
      match windowWrite (rd R.APT_TELEM_WINDOW 0 s) (prod % size) 512 (telemRecord t s) s with
      | (true, s) => wr R.APT_TELEM_PROD 0 (prod + 1) s
      | (false, s) => telemDrop s

/-! ### Feeds (16 R460) -/

/-- FEED_LOST: the other feed carries the module. -/
def feedLost (b : Bool) (s : State) : State :=
  raise .feedLost .apt 0 (if b then wr R.APT_FEED_B_OK 0 0 s else wr R.APT_FEED_A_OK 0 0 s)

/-! ### Phases, over-current, wakes (16 R464 to R466) -/

/-- A region goes off: its cores are fenced with a cause, its router stays lit. -/
def regionOff (r state cause : Nat) (s : State) : State :=
  let s := wr R.PDN_STAT_STATE r state (wr R.PDN_STAT_STEP r 0 (wr R.PDN_STAT_DEFERRED r 0 s))
  rewish ((regionCores r).foldl (fun s c => fenceCore c cause s) s)

/-- PHASE_LOST (16 R464): the cap takes effect at the next tick; a third loss makes the region dark. -/
def phaseLost (r : Nat) (s : State) : State :=
  let n := min 6 (rd R.PDN_STAT_PHASES_LOST r s + 1)
  let s := wr R.PDN_STAT_PHASES_LOST r n s
  let c := if n = 1 then 6 else 4
  if n < 3 then
    raise .phaseLost .pdn r
      (if rd R.BOOT_STAT_STATE 0 s < 7 then wr R.PDN_STAT_PHASE_CEIL r c s else later (.write .pdn r 0x44 11 4 c) s)
  else if rd R.PDN_STAT_PHASE_CEIL r s = 15 then s
  else raise .regionDark .pdn r (regionOff r 0 5 (wr R.PDN_STAT_PHASE_CEIL r 15 s))

/-- OVER_CURRENT_TRIP (16 R465). -/
def overCurrent (r : Nat) (s : State) : State :=
  if rd R.PDN_STAT_STATE r s = 1 || rd R.PDN_STAT_STATE r s = 2 then raise .regionOc .pdn r (regionOff r 3 6 s) else s

/-- PDN_CTRL.ON = 1 of a logic region that is off or tripped starts its ramp (16 R465, R466). -/
def regionWake (d : Nat) (s : State) : State :=
  let st := rd R.PDN_STAT_STATE d s
  if d < 64 && (decide (st = 0) || decide (st = 3)) && decide (rd R.PDN_STAT_PHASE_CEIL d s ≠ 15) then
    wr R.PDN_STAT_STATE d 1 (wr R.PDN_STAT_STEP d 0 (wr R.PDN_STAT_DEFERRED d 0 s))
  else s

/-- The ramp holds: the segment's other regions, a neighbour's droop, or PWR_BRAKE# (16 R466). -/
def rampHeld (w : WakeSense) (s : State) : Bool := decide (68000 < w.others) || decide (25 < w.depth) || s.apt.pin

/-- WAKE_RAMP_STEP and WAKE_RETRY: the next step is taken, or held (16 R466). -/
def wakeStep (d : Nat) (w : WakeSense) (s : State) : State :=
  if rd R.PDN_STAT_STATE d s ≠ 1 || flag R.PDN_STAT_DEFERRED d s || rampHeld w s then s
  else
    let n := rd R.PDN_STAT_STEP d s + 1
    let s := wr R.PDN_STAT_STEP d n s
    if 16 ≤ n then rewish (later (.wakeDone d) (wr R.PDN_STAT_STATE d 2 s)) else s

/-- WAKE_LIMIT: the ramp is abandoned at its current step and the request stays pending (01 R54; 16 R466). -/
def wakeLimit (d : Nat) (s : State) : State :=
  if rd R.PDN_STAT_STATE d s = 1 && !flag R.PDN_STAT_DEFERRED d s then raise .wakeDeferred .pdn d (wr R.PDN_STAT_DEFERRED d 1 s) else s

/-- WAKE_RESTART: the ramp goes on from its current step, at the next tick where ticks run (16 R466). -/
def wakeRestart (d : Nat) (s : State) : State :=
  if !flag R.PDN_STAT_DEFERRED d s then s
  else if inService s then later (.write .pdn d 0x44 2 1 0) s
  else wr R.PDN_STAT_DEFERRED d 0 s

/-- The tick after a region's wake: cores fenced for its over-current leave the fenced state (19 R512). -/
def wakeDone (r : Nat) (s : State) : State :=
  (regionCores r).foldl (fun s c => if fenced c s && decide (fenceCause c s = 6) then unfenceCore c s else s) s

/-- Logic regions without a plate are gated while IDLE_GATE = 1 (16 R461). -/
def gateIdle (r : Nat) (s : State) : State :=
  if flag R.APT_CTRL_IDLE_GATE 0 s && (plateOfRegion r s).isNone && decide (rd R.PDN_STAT_STATE r s = 2) then
    wr R.PDN_STAT_STATE r 0 (wr R.PDN_STAT_STEP r 0 s)
  else s

/-- The domains of Ray ports and bridges (16 R461). -/
def domainTick (s : State) : State :=
  let s := (upFrom 0 18).foldl (fun s p =>
    wr R.PDN_STAT_STATE (80 + p) (if rayRole p s = 0 || flag R.RAY_CTRL_DISABLE p s then 0 else 2) s) s
  (upFrom 0 6).foldl (fun s b =>
    wr R.PDN_STAT_STATE (98 + b) (if brgWidth b 0 s = 0 && brgWidth b 1 s = 0 then 0 else 2) s) s

end Sys2Proof.Machine
end

