-- ==== Sys2Proof/Machine/Rings.lean ====
section
/-! DEFINITION. Rings (14 R411 to R419): doorbells, services, entries, completion records, faults and resets; and result
slots (14 R420 to R424). -/
namespace Sys2Proof.Machine

/-! ### A ring's registers -/

/-- Size of a ring's entry array and completion queue (14 R411, R426). -/
def ringSize (r : Nat) (s : State) : Nat := 2 ^ rd R.RING_CFG_SIZE r s

/-- The first entry that has not started. A SETLR under way holds those behind it. -/
def Ring.head (k : Ring) : Option REntry :=
  if k.queue.any (fun e => e.started && decide (e.op = 6)) then none else k.queue.find? (fun e => !e.started)

/-- RING_STAT of a ring: disabled, active, held, faulted (14 R426). -/
def ringShow (r : Nat) (s : State) : State :=
  let k := s.ring r
  let st := if k.faulted.isSome then 3 else if !flag R.RING_CFG_EN r s then 0
    else if (match k.head with
      | some e => e.held
      | none => false) then 2 else 1
  wr R.RING_STAT_STATE r st (wr R.RING_STAT_CAUSE r (k.faulted.getD 0) s)

/-- A ring's state replaced, and its registers with it. -/
def putRing (r : Nat) (k : Ring) (s : State) : State := ringShow r (s.setRing r k)

/-- A ring is faulted: 1 INDEX, 2 MALFORMED, 3 FETCH (14 R419). -/
def ringFault (r cause : Nat) (s : State) : State :=
  let k := s.ring r
  if k.faulted.isSome then s else raise .ringFault .ring 0 (putRing r { k with faulted := some cause } s)

/-- The ring takes and starts entries. -/
def ringRuns (r : Nat) (s : State) : Bool :=
  flag R.RING_CFG_EN r s && (s.ring r).faulted.isNone && !(s.ring r).reset

/-! ### Doorbells and services (14 R414) -/

/-- DOORBELL: the latest value is kept and the pending bit set. -/
def doorbell (r v : Nat) (s : State) : State := s.setRing r { s.ring r with bell := v % 2 ^ 32, pend := true }

/-- The tick samples the pending map and the values. -/
def ringSample (s : State) : State :=
  { s with rings := mmap (fun _ k => { k with sampled := k.pend, value := if k.pend then k.bell else k.value }) s.rings }

/-- The next entry of a service is read: `n` are still to come. -/
def fetchEntry (r idx n : Nat) (s : State) : State :=
  if n = 0 then s
  else
    match dmaRead (rd R.RING_BASE r s + idx % ringSize r s * 128) 128 (.entries r idx n) s with
    | (true, s) => s
    | (false, s) => ringFault r 3 s

/-- One sampled ring is serviced: up to 8 new entries; a ring with more, or with a newer doorbell, keeps its bit.
An index behind what is already fetched brings no entry and clears the bit (DEDUCED, entry 165). -/
def ringServe (r : Nat) (s : State) : State :=
  let k := s.ring r
  let more (x : Bool) (s : State) : State := s.setRing r { s.ring r with sampled := false, pend := x || decide ((s.ring r).bell ≠ k.value) }
  if !ringRuns r s then more false s
  else if ringSize r s < (k.value + 2 ^ 32 - rd R.RING_CONS r s % 2 ^ 32) % 2 ^ 32 then ringFault r 1 (more false s)
  else
    let new := (k.value + 2 ^ 32 - k.fetched % 2 ^ 32) % 2 ^ 32
    if ringSize r s < new then more false s
    else
      let n := min 8 new
      let s := more (decide (8 < new)) s
      fetchEntry r k.fetched n (s.setRing r { s.ring r with fetched := k.fetched + n })

/-- The sampled rings in service order: after the last one serviced, wrapping round. -/
def ringOrder (s : State) : List Nat :=
  let l := (s.rings.filter (fun e => e.2.sampled)).map (fun e => e.1)
  l.filter (fun r => decide (s.seqr.lastRing < r)) ++ l.filter (fun r => decide (r ≤ s.seqr.lastRing))

/-- RING_SERVICE: the next 64 sampled rings; the others wait for the next exposure. -/
def ringService (s : State) : State :=
  let l := (ringOrder s).take 64
  let s := l.foldl (fun s r => { ringServe r s with seqr := { s.seqr with lastRing := r } }) s
  { s with rings := mmap (fun _ k => { k with sampled := false }) s.rings }

/-! ### Entries (14 R412, R413) -/

/-- Words of an entry that an operation uses, beside words 0 and 1. -/
def usedWords : Nat → List Nat
  | 1 => [2, 4, 5, 6]
  | 2 => [2, 3, 4, 5] ++ upFrom 16 16
  | 3 => [2]
  | 4 => [2]
  | 5 => [6, 7]
  | _ => [2, 4, 5, 6]

/-- An entry read from its 128 bytes: `bad` where an operation is reserved or a reserved field or unused word is not 0
(14 R412, R413, R419, R424). -/
def entryOf (idx : Nat) (b : List Byte) : REntry :=
  let w (i : Nat) : Nat := field b (4 * i) 4
  let op := bitsAt (w 0) 0 8
  let noSlot := bitAt (w 3) 16
  let bad := decide (op = 0) || decide (6 < op) || decide (1024 ≤ w 0)
    || (upFrom 2 30).any (fun i => !(usedWords op).contains i && decide (w i ≠ 0))
    || decide (w 2 / 4096 ≠ 0) || (decide (op ≠ 2) && decide (bitsAt (w 2) 8 4 ≠ 0)) || decide (w 3 / 2 ^ 17 ≠ 0)
    || (noSlot && decide (bitsAt (w 3) 0 16 ≠ 0))
    || (decide (op = 5) && (decide (w 6 / 2 ^ 17 ≠ 0) || decide (3 ≤ bitsAt (w 6) 0 4)))
  { idx := idx, op := op, signal := bitAt (w 0) 8, barrier := bitAt (w 0) 9, tag := w 1, plate := bitsAt (w 2) 0 8,
    entry := bitsAt (w 2) 8 4, slot := bitsAt (w 3) 0 16, noSlot := noSlot, addr := field b 16 8, length := w 6,
    target := w 7, args := field b 64 64, bad := bad, started := false, held := false, buf := [] }

/-- The ledger's sums follow a ring's counter. -/
def ringCount (f sum : Fld) (r : Nat) (up : Bool) (n : Nat) (s : State) : State :=
  if up then bump f r n (bump sum 0 n s) else drop f r n (drop sum 0 n s)

/-- An entry has been fetched: it is taken, or faults the ring; the next one of the service is read (14 R414, R418, R419). -/
def takeEntry (r idx n : Nat) (b : List Byte) (s : State) : State :=
  if !ringRuns r s then s
  else
    let e := entryOf idx b
    if e.bad then ringFault r 2 s
    else
      let k := s.ring r
      let s := putRing r { k with queue := k.queue ++ [e] } s
      let s := ringCount R.RING_PEND R.RING_PEND_SUM r true 1 (ringCount R.RING_PROD R.RING_PROD_SUM r true 1 s)
      fetchEntry r (idx + 1) (n - 1) s

/-- An entry of a ring replaced. -/
def setEntry (r idx : Nat) (f : REntry → REntry) (s : State) : State :=
  let k := s.ring r
  putRing r { k with queue := k.queue.map (fun e => if e.idx = idx then f e else e) } s

def findEntry (r idx : Nat) (s : State) : Option REntry := (s.ring r).queue.find? (fun e => decide (e.idx = idx))

/-- What a completion record says beside the entry's own fields (14 R416). -/
structure RecInfo where
  status : Nat
  cause : Nat
  seq : Nat
  first : Nat
  frame : Nat
  energy : Nat
  slices : Nat
  deriving DecidableEq, Repr

/-- The 32 bytes of a completion record (14 R416). -/
def recordBytes (e : REntry) (i : RecInfo) : List Byte :=
  [e.op + 256 * i.status + 65536 * i.cause, e.tag, e.idx, i.seq, i.first, i.frame, i.energy, i.slices].flatMap (leBytes 4)

/-- An entry completes (14 R416, R418): the record, then CONS, then the signal. A failed write faults the ring. -/
def entryDone (r idx : Nat) (i : RecInfo) (s : State) : State :=
  match findEntry r idx s with
  | none => s
  | some e =>
    let k := s.ring r
    let at_ := rd R.RING_CQ r s + k.cons % ringSize r s * 32
    let s := putRing r { k with queue := k.queue.filter (fun e => decide (e.idx ≠ idx)) } s
    match dmaWrite at_ (recordBytes e i) s with
    | (false, s) => ringFault r 3 s
    | (true, s) =>
      let s := s.setRing r { s.ring r with cons := k.cons + 1 }
      let s := ringCount R.RING_PEND R.RING_PEND_SUM r false 1 (ringCount R.RING_CONS R.RING_CONS_SUM r true 1 s)
      if e.signal then signal (rd R.RING_CFG_SIGNAL r s) s else s

/-- An entry that started no job completes with a status and cause; energy is that of its tag (14 R416). -/
def entryStatus (r : Nat) (e : REntry) (status cause : Nat) (s : State) : State :=
  let mj := match mget e.tag s.apt.energy with
    | some n => n / 1000
    | none => 0
  entryDone r e.idx ⟨status, cause, 0, 0, s.frame, mj, 0⟩ s

/-- The head entry is held (14 R415). -/
def hold (r : Nat) (e : REntry) (s : State) : State := setEntry r e.idx (fun e => { e with held := true }) s

/-- The head entry starts. -/
def begin_ (r : Nat) (e : REntry) (s : State) : State := setEntry r e.idx (fun e => { e with started := true, held := false }) s

/-- The next piece of a LOAD's or SETLR's data is read: up to a 4 KiB boundary of host address; whether it could. -/
def fetchMore (r : Nat) (e : REntry) (total : Nat) (s : State) : Bool × State :=
  let a := e.addr + e.buf.length
  dmaRead a (min (total - e.buf.length) (4096 - a % 4096)) (.entry r e.idx) s

/-! ### WAIT (14 R413) -/

/-- The value that a WAIT measures: RED_DONE_SEQ of a channel, RAY_EPOCH_DONE of a port's cell, the group frame. -/
def waitValue (e : REntry) (s : State) : Nat :=
  match bitsAt e.length 0 4 with
  | 0 => rd R.RED_DONE_SEQ (bitsAt e.length 4 6) s
  | 1 => rd (R.RAY_EPOCH_DONE (bitsAt e.length 10 7)) (bitsAt e.length 4 6) s
  | _ => groupFrame s % 2 ^ 32

def startWait (r : Nat) (e : REntry) (s : State) : State :=
  if (waitValue e s + 2 ^ 32 - e.target) % 2 ^ 32 < 2 ^ 31 then entryStatus r e 0 0 s else hold r e s

/-- RING_WAIT_TIMEOUT (14 R415): the held entry completes and the ring is released. -/
def waitTimeout (r : Nat) (s : State) : State :=
  match (s.ring r).head with
  | some e => if e.held && ringRuns r s then entryStatus r e 0x18 0 (raise .ringWaitTimeout .ring 0 s) else s
  | none => s

/-! ### Reset (14 R418, R419) -/

/-- RING_RESET: the ring's jobs are stopped, and it is reset at the next tick. -/
def ringReset (r : Nat) (s : State) : State :=
  let s := s.setRing r { s.ring r with reset := true }
  let s := s.plates.foldl (fun s e =>
    match e.2.img, e.2.job with
    | some m, some j => if j.ring = r then invalidatePlate (actFrame s) m (later (.stopPlate e.1 2 0) s) else s
    | _, _ => s) s
  later (.ringReset r) s

/-- The reset's tick: every pending entry is flushed, and the indices and the ledger read 0. -/
def ringResetTick (r : Nat) (s : State) : State :=
  let n := rd R.RING_PEND r s
  let s := bump R.RING_FLUSHED r n s
  let s := drop R.RING_PROD_SUM 0 (rd R.RING_PROD r s) (drop R.RING_CONS_SUM 0 (rd R.RING_CONS r s) (drop R.RING_PEND_SUM 0 n s))
  let s := wr R.RING_PROD r 0 (wr R.RING_CONS r 0 (wr R.RING_PEND r 0 s))
  let s := setAba (fun a => { a with dmas := a.dmas.map (fun d =>
    match d.purpose with
    | .entries q _ _ => if q = r then { d with purpose := .entries q 0 0 } else d
    | .entry q _ => if q = r then { d with purpose := .entries q 0 0 } else d
    | .recovery _ => d) }) s
  putRing r Ring.init s

/-! ### Result slots (14 R420 to R424) -/

/-- STATUS of a slot as a host reads it (14 R420, R422). -/
def slotStatus (k : RSlot) : Nat :=
  match k.st with
  | .fixed => 2 + 8 * k.read.toNat + 16 * k.noResult.toNat + 32 * k.poison.toNat + 256 * k.seq
  | .consumed => 3 + 256 * k.seq
  | st => st.code + 4 + 256 * k.seq

/-- RESULT_STATUS_READ: the first read of a FIXED slot marks it (14 R422). -/
def slotRead (k : Nat) (s : State) : State :=
  let q := s.rslot k
  if q.st = .fixed then s.setRslot k { q with read := true } else s

/-- RESULT_ACK (14 R423). -/
def slotAck (k seq : Nat) (s : State) : State :=
  let q := s.rslot k
  if q.st = .fixed && decide (q.seq = seq) then s.setRslot k { q with st := .consumed }
  else raise .slotStaleAck .ring 0 (bump R.RING_STALE_ACK 0 1 s)

/-- Another word of a slot: JOB_TAG, FIX_FRAME, DATA; DATA reads 0 unless the slot is FIXED (14 R420, R422). -/
def slotWord (k off : Nat) (s : State) : Nat :=
  let q := s.rslot k
  match off with
  | 0x08 => q.tag
  | 0x0C => q.frame
  | _ => if q.st = .fixed && decide (0x10 ≤ off) then bitsAt q.data.toNat (8 * (off - 0x10)) 32 else 0

/-- A job's slot takes its next SEQ and is EMPTY (14 R420). -/
def slotOpen (k tag : Nat) (s : State) : State :=
  s.setRslot k { RSlot.init with st := .empty, seq := ((s.rslot k).seq + 1) % 2 ^ 24, tag := tag }

/-- A slot without a result develops (14 R421). -/
def slotVoid (k frame : Nat) (s : State) : State :=
  let q := s.rslot k
  if q.st = .empty || q.st = .latent then
    s.setRslot k { q with st := .fixed, noResult := true, poison := false, data := 0, frame := frame, read := false }
  else s

/-- The slot of a job that faults or is stopped: a result that this tick fixed is cleared as well (01 R40; 03 R128). -/
def slotClear (k frame : Nat) (s : State) : State :=
  let q := s.rslot k
  slotVoid k frame (if q.st = .fixed && decide (q.frame = frame) && !q.noResult then s.setRslot k { q with st := .latent } else s)

/-- Every LATENT slot is FIXED (14 R421). -/
def slotsFix (frame : Nat) (s : State) : State :=
  { s with slots := mmap (fun _ q => if q.st = .latent then { q with st := .fixed, frame := frame, read := false } else q) s.slots }

end Sys2Proof.Machine
end

