-- ==== Sys2Proof/Machine/Plates.lean ====
section
/-! DEFINITION. Plates and jobs (14 R401 to R410): LOAD, LAUNCH, UNLOAD, STOP and SETLR entries, activation, fill, slices
and completion; layer tables (05 R175 to R177). -/
namespace Sys2Proof.Machine

/-! ### Plate registers -/

/-- RING_PLATE_STAT, RING_PLATE_JOB and RING_PLATE_REGIONS of a plate (14 R426). -/
def plateShow (p : Nat) (s : State) : State :=
  let k := s.plate p
  let st : Nat := match k.st with
    | .free => 0 | .loading => 1 | .loaded => 2 | .running => 3
  wr R.RING_PLATE_STAT_STATE p st (wr R.RING_PLATE_STAT_SET p k.set
    (wr R.RING_PLATE_JOB p (match k.job with
      | some j => j.tag
      | none => 0)
     (wr R.RING_PLATE_REGIONS p (match k.img with
      | some m => m.regions
      | none => 0) s)))

/-- A plate replaced, and its registers with it. -/
def putPlate (p : Nat) (k : Plate) (s : State) : State := plateShow p (s.setPlate p k)

/-- Every later LOAD and LAUNCH completes FAULT with CAUSE 0xFF (19 R518; 01 R51). -/
def failed (s : State) : Bool := decide (rd R.BOOT_STAT_STATE 0 s = 10)

/-! ### LOAD (14 R401, R402) -/

/-- A LOAD is refused with a load status. -/
def loadRefused (r : Nat) (e : REntry) (code : Nat) (s : State) : State :=
  entryStatus r e 0x13 code (raise .loadRefused .ring 0 s)

/-- The shelf's bytes of a core: its bundles, and its constants or zeros, as writes at shaft addresses (14 R402, R406). -/
def shelfBytes (m : Image) (c : Nat) : List (Nat × List Byte) :=
  let code := (mgetD c [] m.code).flatMap (fun w => leBytes 16 w.toNat)
  let consts := match mget c m.consts with
    | some l => l.flatMap lineBytes
    | none => List.replicate (128 * m.constLines) 0
  [(m.shelf, code), (m.shelf + 128 * ceilDiv m.bundles 8, consts)]

/-- Bytes from an address cut at 4 KiB boundaries. -/
def pieces : Nat → Nat → List Byte → List (Nat × List Byte)
  | 0, _, _ => []
  | n + 1, a, b =>
    if b.isEmpty then []
    else
      let k := 4096 - a % 4096
      (a, b.take k) :: pieces n (a + k) (b.drop k)

/-- A plate that passed every check: its shelf is written through host slots, and its gated regions are woken (14 R402; 16
R461). -/
def loadPlate (r : Nat) (e : REntry) (m : Image) (s : State) : State :=
  let s := m.cores.foldl (fun s c => (shelfBytes m c).foldl (fun s x =>
    (pieces (x.2.length / 4096 + 2) x.1 x.2).foldl (fun s y => kvWrite c y.1 y.2 s) s) s) s
  let s := (regionList m.regions).foldl (fun s q => regionWake q s) s
  putPlate e.plate { Plate.free with st := .loading, img := some m, loader := some (r, e.idx, s.kv.nextWrite) } s

/-- The image has been fetched: it is checked (14 R401). -/
def loadDecide (r : Nat) (e : REntry) (b : List Byte) (s : State) : State :=
  match loadImage b e.plate s with
  | .inl code => loadRefused r e code s
  | .inr m => loadPlate r e m s

/-- The next fetch of a LOAD. -/
def loadFetch (r : Nat) (e : REntry) (s : State) : State :=
  match fetchMore r e e.length s with
  | (true, s) => s
  | (false, s) => loadRefused r e 1 s

/-- A LOAD entry starts; an image of no length or above 64 MiB is not fetched (14 R397, R401). -/
def startLoad (r : Nat) (e : REntry) (s : State) : State :=
  if failed s then entryStatus r e 1 0xFF s
  else
    let s := begin_ r e s
    if e.length = 0 || 2 ^ 26 < e.length then loadRefused r e 2 s else loadFetch r e s

/-- What the regions' pages show of a plate: declared cycles, TRAIN, CEIL, the near-memory bound and allowance (03 R129; 05
R178; 07 R226; 08 R261). -/
def activeRegs (m : Image) (s : State) : State :=
  m.recs.foldl (fun s q =>
    let r := q.region
    let s := wr R.TWR_RGN_CYCLES_DECLARED r q.cycles (wr R.TWR_RGN_TRAIN_TRAINING r m.training.toNat
      (wr R.TWR_RGN_TRAIN_MIREL r m.mirel.toNat (wr R.TWR_RGN_TRAIN_STEP r m.retakeStep
        (wr R.TWR_RGN_TRAIN_RESERVE r m.retakeReserve s))))
    let ceil := shaftCeil q m.snapReserve s
    let s := wr R.TWR_RGN_SHAFT_CEIL r ceil s
    let s := if ceil < fusedCeil r s then raise .shaftCeiling .rgn r s else s
    (regionCores r).foldl (fun s c =>
      wr R.SHF_NM_CFG_K (posOf c) q.k (wr R.SHF_NM_CFG_G (posOf c) (regionG q m.snapReserve s)
        (wr R.SHF_NM_RSV (posOf c) q.ar s))) s) s

/-- PLATE_ACTIVATION (14 R402; 01 R21): every write served, every region switched on, and the length in force, every one
adopted and the latest proposal cover the plate's regions at the stops in force. -/
def activate (p : Nat) (s : State) : State :=
  let k := s.plate p
  match k.st, k.img, k.loader with
  | .loading, some m, some (r, idx, n) =>
    if kvServed n s && m.recs.all (fun q => decide (rd R.PDN_STAT_STATE q.region s = 2)
        && coversAll (regionWish q (stopOf (q.region / 8) s) s) s
        && decide (regionWish q (stopOf (q.region / 8) s) s ≤ 10 * s.sync.own.len)) then
      let s := activeRegs m (putPlate p { k with st := .loaded, loader := none, active := some s.frame } s)
      let s := putWish (deviceWish false (fun h => stopOf h s) s) s
      match findEntry r idx s with
      | some e => entryStatus r e 0 0 s
      | none => s
    else s
  | _, _, _ => s

/-- A tick's activations: at it every loading plate that its length covers becomes active (14 R402; 01 R21). -/
def activateAll (s : State) : State := s.plates.foldl (fun s e => activate e.1 s) s

/-! ### LAUNCH (14 R405) -/

/-- A hole or fenced core that HOLES does not list. -/
def badHole (m : Image) (s : State) : Bool := m.cores.any (fun c => (isHole c s || fenced c s) && !m.holes.contains c)

/-- A link is narrower than the need, down or fenced (06 R209; 11 R337): a bridge whose need is FULL is narrow in some
direction, or a direction that the plate uses is down. -/
def linkShort (m : Image) (s : State) : Bool :=
  m.brgNeed.any (fun e => decide (e.2 = 2) && (decide (brgWidth e.1 0 s = 1) || decide (brgWidth e.1 1 s = 1)))
    || m.brgUse.any (fun k => decide (brgWidth (k / 2) (k % 2) s = 0))
    || m.rayNeed.any (fun e => decide (0 < e.2) && (!rayUp e.1 s || decide (lanesOf (rd R.RAY_STAT_WIDTH e.1 s) < e.2)))

/-- A snapshot runs on the plate's regions and it has no reserve (13 R389). -/
def snapBars (m : Image) (s : State) : Bool :=
  s.snap.on && decide (m.snapReserve = 0)
    && s.snap.descs.any (fun d => m.cores.any (fun c => decide (d.base ≤ c) && decide (c < d.base + d.cores)))

/-- The named slot is LATENT, FIXED or held by another job. -/
def slotBusy (k : Nat) (s : State) : Bool :=
  decide ((s.rslot k).st = .latent) || decide ((s.rslot k).st = .fixed)
    || s.plates.any (fun e => match e.2.job with
      | some j => decide (j.slot = some k)
      | none => false)

/-- Fill exposures of a plate (14 R406). `table`: bytes of its layer table. -/
def fillCount (m : Image) (table : Nat) : Nat :=
  let least := ((m.recs.map (fun q => q.cycles)).min?).getD 253
  max 1 (max (ceilDiv (ceilDiv m.bundles 8 + m.constLines) (max 1 (least - 252))) (ceilDiv table 8192))

/-- Layers of a plate, and a field of one (05 R175; entry 31). -/
def layerCount (m : Image) : Nat := if m.training then min 1024 (Config.layerMap m.layers 0 0) else 0
def layerField (m : Image) (l f : Nat) : Nat := Config.layerMap m.layers l f

/-- A refused LAUNCH. -/
def launchRefused (r : Nat) (e : REntry) (status : Nat) (s : State) : State :=
  entryStatus r e status 0 (raise .launchRefused .ring 0 s)

/-- A test in the plate's towers is cancelled at the next tick, and the launch waits for that (18 R498). -/
def testBars (m : Image) (s : State) : Bool :=
  match s.boot.test with
  | some t => (regionList m.regions).any (fun q => t.towers.testBit (q / 16))
  | none => false

/-- A LAUNCH entry starts, is refused, or is held; its job fills from frame `f` on (14 R405, R407, R409). -/
def startLaunch (r : Nat) (e : REntry) (f : Nat) (s : State) : State :=
  let k := s.plate e.plate
  if failed s then entryStatus r e 1 0xFF s
  else
    match k.img with
    | none => launchRefused r e 0x10 s
    | some m =>
      if k.active.isNone || k.unload || m.entries ≤ e.entry then launchRefused r e 0x10 s
      else if k.job.isSome then hold r e s
      else if testBars m s then
        hold r e { s with boot := { s.boot with test := s.boot.test.map (fun t => { t with cancelled := true }) } }
      else if badHole m s then launchRefused r e 0x14 s
      else if linkShort m s then launchRefused r e 0x15 s
      else if snapBars m s then launchRefused r e 0x16 s
      else if !e.noSlot && slotBusy e.slot s then launchRefused r e 0x17 s
      else
        let j : Job :=
          { tag := e.tag, entry := e.entry, slot := if e.noSlot then none else some e.slot, seq := 0, seed := e.addr,
            args := e.args, ring := r, idx := e.idx, fill := fillCount m (16 * layerCount m),
            begun := false, written := 0, ready := false, slices := 0, from_ := f, stops := [], first := none, stopping := none }
        putPlate e.plate { k with st := .running, job := some j } (begin_ r e s)

/-! ### UNLOAD, STOP, SETLR (14 R404, R408, R413) -/

def startUnload (r : Nat) (e : REntry) (s : State) : State :=
  let k := s.plate e.plate
  if k.st = .free || k.unload then entryStatus r e 0x10 0 s
  else if k.st = .loading || k.job.isSome then hold r e s
  else rewish (later (.unload e.plate) (putPlate e.plate { k with unload := true, loader := some (r, e.idx, 0) } (begin_ r e s)))

def startStop (r : Nat) (e : REntry) (s : State) : State :=
  let k := s.plate e.plate
  match k.img, k.job with
  | some m, some j =>
    if j.tag = e.tag then
      let s := putPlate e.plate { k with job := some { j with stops := j.stops ++ [(r, e.idx)] } } (begin_ r e s)
      later (.stopPlate e.plate 2 0) (invalidatePlate (actFrame s) m s)
    else entryStatus r e 0x11 0 s
  | _, _ => entryStatus r e 0x11 0 s

/-- FIRST and COUNT of a SETLR. -/
def lrFirst (e : REntry) : Nat := bitsAt e.length 0 16
def lrCount (e : REntry) : Nat := bitsAt e.length 16 16

def setlrFetch (r : Nat) (e : REntry) (s : State) : State :=
  match fetchMore r e (4 * lrCount e) s with
  | (true, s) => s
  | (false, s) => ringFault r 3 s

def startSetlr (r : Nat) (e : REntry) (s : State) : State :=
  let k := s.plate e.plate
  if k.active.isNone || k.unload then entryStatus r e 0x10 0 s
  else if lrCount e = 0 then entryStatus r e 0 0 s
  else setlrFetch r e (begin_ r e s)

/-- The values of a SETLR have arrived: entries FIRST onward of the layer table, of which there are 1,024. -/
def setlrDone (r : Nat) (e : REntry) (b : List Byte) (s : State) : State :=
  let k := s.plate e.plate
  let lr := (upFrom 0 (lrCount e)).foldl (fun m i =>
    if lrFirst e + i < 1024 then mput (lrFirst e + i) (field b (4 * i) 4) m else m) k.lr
  entryStatus r e 0 0 (if k.active.isSome then s.setPlate e.plate { k with lr := lr } else s)

/-- Data of a LOAD or SETLR have arrived. -/
def entryData (r idx : Nat) (b : List Byte) (s : State) : State :=
  match findEntry r idx s with
  | none => s
  | some e =>
    let e := { e with buf := e.buf ++ b }
    let total := if e.op = 1 then e.length else 4 * lrCount e
    if e.buf.length < total then
      let s := setEntry r idx (fun _ => e) s
      if e.op = 1 then loadFetch r e s else setlrFetch r e s
    else
      let s := setEntry r idx (fun x => { x with buf := [] }) s
      if e.op = 1 then loadDecide r e e.buf s else setlrDone r e e.buf s

/-- A read of ring data fails (15 R439). -/
def entryLost (r idx : Nat) (s : State) : State :=
  match findEntry r idx s with
  | some e => if e.op = 1 then loadRefused r e 1 s else ringFault r 3 s
  | none => s

/-! ### Starting entries (14 R415) -/

/-- The head entry of a ring, if it is of operation `op` and no BARRIER holds it; a barred one is held. -/
def startEntry (r : Nat) (e : REntry) (f : Nat) (s : State) : State :=
  if e.barrier && (s.ring r).queue.any (fun x => x.started) then hold r e s
  else
    match e.op with
    | 1 => startLoad r e s
    | 2 => startLaunch r e f s
    | 3 => startUnload r e s
    | 4 => startStop r e s
    | 5 => startWait r e s
    | _ => startSetlr r e s

/-- The ring engine comes to the next entry of ring r, an `op` one. -/
def ringOp (op r : Nat) (s : State) : State :=
  match (s.ring r).head with
  | some e => if ringRuns r s && decide (e.op = op) then startEntry r e (actFrame s) s else s
  | none => s

/-- Entries of a ring start in order until one is held. -/
def ringAdvance (r : Nat) : Nat → State → State
  | 0, s => s
  | n + 1, s =>
    match (s.ring r).head with
    | some e =>
      if ringRuns r s then
        let s := startEntry r e s.frame s
        match (s.ring r).head with
        | some q => if q.held then s else ringAdvance r n s
        | none => s
      else s
    | none => s

/-- Rings held at a tick are examined again (14 R415). -/
def ringsTick (s : State) : State :=
  s.rings.foldl (fun s e =>
    match (s.ring e.1).head with
    | some q => if q.held then ringAdvance e.1 (s.ring e.1).queue.length s else s
    | none => s) s

/-! ### Fill (14 R406; 05 R175; 03 R92) -/

/-- One 16-byte entry of a layer table. -/
def layerEntry (k : Plate) (l : Nat) : List Byte :=
  leBytes 4 (mgetD l 0 k.lr) ++ leBytes 1 (unsigned 8 (mgetD l 0 k.kNew)) ++ leBytes 1 (unsigned 8 (mgetD l 0 k.kOld))
    ++ leBytes 10 0

/-- The addresses that the layer map gives the table in a core: those of the layers that use its region. -/
def tableAddrs (m : Image) (c : Nat) : List Nat :=
  (((upFrom 0 (layerCount m)).filter (fun l => (layerField m l 1).testBit (regionOf c))).map (fun l => layerField m l 4)).eraseDups

/-- The whole layer table is written into every core that the map names, through host slots (05 R175; 01 R31). -/
def writeLayers (m : Image) (k : Plate) (s : State) : State :=
  let b := (upFrom 0 (layerCount m)).flatMap (layerEntry k)
  m.cores.foldl (fun s c => (tableAddrs m c).foldl (fun s a =>
    (pieces (b.length / 4096 + 2) a b).foldl (fun s y => kvWrite c y.1 y.2 s) s) s) s

/-- The configuration of a core of a job. -/
def jobCfg (m : Image) (p : Nat) (j : Job) (q : RegionRec) (c : Nat) (s : State) : CoreCfg :=
  let w := mgetD c 0 m.maps
  { plate := p, timed := bitsAt w 0 16, gradient := if m.training then bitsAt w 16 16 else 0, cubesTimed := !bitAt w 32,
    rel := if m.loose then c - m.looseBase else m.cores.idxOf c, loose := m.loose, looseM := m.looseM, mirel := m.mirel,
    training := m.training, hostSlot := m.hostSlot, seed := j.seed, reserve := m.retakeReserve, step := m.retakeStep,
    cycles := q.cycles, bd := q.bd, bs := q.bs, requests := q.requests, k := q.k, g := regionG q m.snapReserve s,
    ps := m.snapReserve, since := s.frame }

/-- Contexts at launch: one with a start bundle begins there, the others are halted. -/
def jobCtxs (m : Image) (j : Job) : SMap Ctx :=
  (((m.starts[j.entry]?).getD []).zipIdx).filterMap (fun x =>
    if x.1 = 0xFFFF then none else some (x.2, { Ctx.halted with ptr := x.1, mode := .run }))

/-- ARG_LINE: the arguments and 64 zero bytes. -/
def argLine (j : Job) : Slot := ⟨BitVec.ofNat 1024 j.args, .full, false⟩

/-- One core prepared: the shelf copied as it stands, a poisoned line giving poisoned bundles or a poisoned line, and every
other state as 03 R92 sets out. -/
def prepCore (m : Image) (p : Nat) (j : Job) (c : Nat) (s : State) : State :=
  match m.recOf c with
  | none => s
  | some q =>
    let issued := (s.core c).nmIssued
    if isHole c s || fenced c s then
      s.setCore c { Core.idle with stopped := true, cfg := jobCfg m p j q c s, nmIssued := issued }
    else
      let n := ceilDiv m.bundles 8
      let pos := posOf c
      let (code, s) := (upFrom 0 n).foldl (fun (x : SMap BWord × State) i =>
        match coreReadLine pos (m.shelf + 128 * i) [] x.2 with
        | (l, bad, s) => (x.1 ++ codeWords (8 * i) l bad, s)) ([], s)
      let (tray, s) := (upFrom 0 m.constLines).foldl (fun (x : SMap Slot × State) i =>
        match coreReadLine pos (m.shelf + 128 * (n + i)) [] x.2 with
        | (l, bad, s) => (x.1 ++ [(i, ⟨l, .full, bad⟩)], s)) ([], s)
      s.setCore c { Core.idle with
        cfg := jobCfg m p j q c s, ctxs := jobCtxs m j, store := code.take m.bundles, tray := mput m.argLine (argLine j) tray,
        reserveLeft := m.retakeReserve, nmIssued := issued }

/-- The counters of a region that count since plate launch, and its ratio-watch sets (05 R174). -/
def clearCounters (r : Nat) (s : State) : State :=
  let s := [R.TWR_RGN_MISS, R.TWR_RGN_TRAY_RETRY, R.TWR_RGN_LOOSE_DROP, R.TWR_RGN_SAT_CNT, R.TWR_RGN_NAN_CNT,
    R.TWR_RGN_RETAKE_CNT, R.TWR_RGN_TILE_SAT_CNT, R.TWR_RGN_SCORE_NAN, R.TWR_RGN_SCORE_INF].foldl (fun s f => wr f r 0 s) s
  clearRw r 0xFFFF (wr R.TWR_RGN_RESERVE_MIN r 0xFFF s)
where
  /-- Ratio-watch sets cleared, by bit. -/
  clearRw (r sets : Nat) (s : State) : State :=
    ((upFrom 0 16).filter (fun i => sets.testBit i)).foldl (fun s i =>
      wr (R.TWR_RGN_RW_SUM i) r 0 (wr (R.TWR_RGN_RW_COUNT i) r 0 (wr (R.TWR_RGN_RW_OVER i) r 0
        (wr (R.TWR_RGN_RW_MAX i) r 0 (wr (R.TWR_RGN_RW_EMAX i) r 0x80 (wr (R.TWR_RGN_RW_SUM_SAT i) r 0 s)))))) s

/-! ### Completion (14 R407, R416, R421; 05 R177) -/

/-- emax of a moment format (05 R177). -/
def momentEmax (f : Nat) : Int :=
  match Fmt.ofCode f with
  | some .fp16 => 15
  | some .bf16 => 127
  | some .e4m3 => 8
  | some .e5m2 => 15
  | _ => 127

/-- EMAX of a layer: the largest that a region of it recorded. -/
def layerEmax (m : Image) (l : Nat) (s : State) : Option Int :=
  let set := layerField m l 2
  ((m.recs.filter (fun q => (layerField m l 1).testBit q.region)).filterMap (fun q =>
    let v := rd (R.TWR_RGN_RW_EMAX set) q.region s
    if v = 0x80 then none else some (signed 8 v))).max?

/-- K_NEW for the next job. -/
def nextK (k emax : Int) (seen : Option Int) : Int :=
  match seen with
  | none => k
  | some e => if emax - 2 < e then k - (e - (emax - 2)) else if e < emax - 8 then k + 1 else k

/-- The layers' scales after a job (05 R177). -/
def scaleUpdate (p : Nat) (m : Image) (s : State) : State :=
  (upFrom 0 (layerCount m)).foldl (fun s l =>
    let k := s.plate p
    let old := mgetD l 0 k.kNew
    let n := nextK old (momentEmax (layerField m l 3)) (layerEmax m l s)
    let v := max (-64) (min 63 n)
    let s := s.setPlate p { k with kNew := mput l v k.kNew, kOld := mput l old k.kOld }
    if v = n then s else raise .layerScaleLimit .glb 0 s) s

/-- JOB_COMPLETE: the oldest completed job's record, its STOP entries, the layers' scales, the tag's energy. -/
def jobComplete (p : Nat) (s : State) : State :=
  let k := s.plate p
  match k.ended with
  | [] => s
  | x :: rest =>
    let s := s.setPlate p { k with ended := rest }
    let s := match k.img with
      | some m => scaleUpdate p m s
      | none => s
    let j := x.job
    let s := entryDone j.ring j.idx ⟨x.status, x.cause, j.seq, j.first.getD 0, x.frame, x.energy, j.slices⟩ s
    let s := j.stops.foldl (fun s q =>
      match findEntry q.1 q.2 s with
      | some e => entryStatus q.1 e (if x.status = 2 then 0 else 0x11) 0 s
      | none => s) s
    energyDone j.tag s

/-- All records of a plate that are to be written. -/
def jobsComplete (p : Nat) : Nat → State → State
  | 0, s => s
  | n + 1, s => jobsComplete p n (jobComplete p s)

/-- JOB_FILL: in a fill exposure the shelf is copied and every core prepared (14 R406). -/
def jobFill (p : Nat) (s : State) : State :=
  let s := jobsComplete p (s.plate p).ended.length s
  let k := s.plate p
  match k.img, k.job with
  | some m, some j =>
    if !j.begun || j.ready || j.fill = 0 then s
    else
      let s := m.cores.foldl (fun s c => prepCore m p j c s) s
      let s := (regionList m.regions).foldl (fun s r => clearCounters r s) s
      putPlate p { k with job := some { j with ready := true } } s
  | _, _ => s

/-- Every context of every core of the plate has issued HALT. -/
def allHalted (m : Image) (s : State) : Bool :=
  m.cores.all (fun c => (s.core c).ctxs.all (fun x => decide (x.2.mode = .halted)))

/-- How a job ends at this tick, if it does: it faulted; its last HALT fell in the slice that closes; it is stopped (14
R407, R408). `lit`: a slice of it closes. -/
def jobEnd (k : Plate) (m : Image) (j : Job) (s : State) : Option (Nat × Nat) :=
  match j.stopping with
  | some (1, c) => some (1, c)
  | st => if j.ready && decide (j.fill = 0) && decide (0 < j.slices) && k.st = .running && allHalted m s then some (0, 0) else st

/-- The plate's cores stop: nothing more issues, operations in flight are abandoned, and loose messages to them are
dropped. -/
def coresStop (m : Image) (s : State) : State :=
  let s := m.cores.foldl (fun s c =>
    let o := s.core c
    enterNow c (s.setCore c { o with on := false, stopped := true, flights := [], shq := [] })) s
  { s with fab := { s.fab with loose := s.fab.loose.filter (fun x => !m.cores.contains x.1) } }

/-- A job ends at the tick that opens frame `f` (14 R407, R421; 03 R128). -/
def endJob (p : Nat) (m : Image) (j : Job) (status cause f : Nat) (s : State) : State :=
  let s := match j.slot with
    | some q => if !j.begun then s else if status = 0 then slotVoid q f s else slotClear q f s
    | none => s
  let s := coresStop m s
  let k := s.plate p
  let x : EndedJob := ⟨j, status, cause, f, (match mget j.tag s.apt.energy with
    | some n => n / 1000
    | none => 0)⟩
  plateBoundary m (putPlate p { k with st := .loaded, job := none, ended := k.ended ++ [x] } s)

/-- Every job that ends at the tick: those that fault or are stopped lose their latent results before step 1 fixes
results, the others end after it (01 R40; 03 R128). -/
def endJobs (ok : Bool) (f : Nat) (s : State) : State :=
  s.plates.foldl (fun s e =>
    let k := s.plate e.1
    match k.img, k.job with
    | some m, some j =>
      (match jobEnd k m j s with
       | some (st, c) => if decide (st = 0) = ok then endJob e.1 m j st c f s else s
       | none => s)
    | _, _ => s) s

/-- A job is to stop at this tick (14 R408); the first reason stands. -/
def stopPlate (p status cause : Nat) (s : State) : State :=
  let k := s.plate p
  match k.job with
  | some j => if j.stopping.isSome then s else s.setPlate p { k with job := some { j with stopping := some (status, cause) } }
  | none => s

/-! ### Slices (14 R406, R409; 01 R34, R44) -/

/-- An invalidation cleared what was staged for the region in this exposure (01 R44). -/
def darkRegion (r : Nat) (s : State) : Bool := s.seqr.dark.contains (r, s.frame)

/-- Some region of the plate runs a dark slice (01 R34, R44). -/
def darkSlice (m : Image) (s : State) : Bool := (regionList m.regions).any (fun r => darkRegion r s)

/-- Invalidations of exposures that have passed are dropped. -/
def pruneDark (s : State) : State :=
  { s with seqr := { s.seqr with dark := s.seqr.dark.filter (fun x => decide (s.frame < x.2)) } }

/-- A core for its next slice: its contexts go on after END, its counters start over (03 R109, R116, R124; 05 R178). The
router of a core that is stopped runs the slice's schedule all the same (06 R214, R215). -/
def sliceCore (slices : Nat) (o : Core) : Core :=
  { o with on := true, cyc := 0, slice := slices, used := 0, usedD := 0, usedS := 0, doneCyc := 0,
           reserveLeft := o.cfg.reserve, nmSlice := 0,
           ctxs := mmap (fun _ x => { x with mode := if x.mode = .ended then .run else x.mode, readyAt := 0, delay := 0, drawV := 0, drawC := 0 }) o.ctxs }

/-- A plate's part of a lit exposure: its job begins or continues its fill, or, once its layer table is written, runs a slice.
While one of its regions runs a dark slice a job that has run no slice waits (DEDUCED, entry 122); one that has runs in its
other regions. -/
def plateSlice (p : Nat) (s : State) : State :=
  let k := s.plate p
  match k.img, k.job with
  | some m, some j =>
    if darkSlice m s && decide (j.slices = 0) then s
    else if !j.begun then
      if s.frame < j.from_ then s
      else
        let s := jobsComplete p k.ended.length s
        let k := s.plate p
        let s := kvPush (writeLayers m k s)
        let j := { j with begun := true, written := s.kv.nextWrite }
        match j.slot with
        | some q =>
          let s := slotOpen q j.tag s
          putPlate p { k with job := some { j with seq := (s.rslot q).seq } } s
        | none => putPlate p { k with job := some j } s
    else if 1 < j.fill then putPlate p { k with job := some { j with fill := j.fill - 1 } } s
    else if !kvServed j.written s then s
    else
      let s := if j.ready then s else jobFill p s
      let j := { j with ready := true, fill := 0, first := some (j.first.getD s.frame), slices := j.slices + 1 }
      let s := m.cores.foldl (fun s c =>
        if darkRegion (regionOf c) s then s else s.setCore c (sliceCore (j.slices - 1) (s.core c))) s
      putPlate p { s.plate p with job := some j } s
  | _, _ => s

/-- The host slots that plates use: those of shafts whose host queue is empty at the tick, under cores whose plate declares
host-slot use (01 R32). -/
def lendSlots (s : State) : State :=
  s.cores.foldl (fun s e =>
    let k := s.shaft (posOf e.1)
    if e.2.on && e.2.cfg.hostSlot && k.hostq.isEmpty then s.setShaft (posOf e.1) { k with lent := true } else s) s

/-- Every core's exposure is over: nothing issues until its next slice. -/
def coresOff (s : State) : State := { s with cores := mmap (fun _ o => { o with on := false }) s.cores }

/-- Plates in the exposure that opens; nothing runs in a dark frame. -/
def slicesTick (dark : Bool) (s : State) : State :=
  pruneDark (if dark then s else s.plates.foldl (fun s e => plateSlice e.1 s) s)

/-- An UNLOAD's tick (14 R404; 16 R461): the number and the regions are free, and gated regions go off. -/
def unloadTick (p : Nat) (s : State) : State :=
  let k := s.plate p
  match k.img with
  | none => s
  | some m =>
    let s := jobsComplete p k.ended.length s
    let s := putPlate p Plate.free s
    let s := m.recs.foldl (fun s q => gateIdle q.region (wr R.TWR_RGN_CYCLES_DECLARED q.region 0
      (wr R.TWR_RGN_TRAIN_TRAINING q.region 0 (wr R.TWR_RGN_TRAIN_MIREL q.region 0 (wr R.TWR_RGN_TRAIN_STEP q.region 0
        (wr R.TWR_RGN_TRAIN_RESERVE q.region 0 (wr R.TWR_RGN_SHAFT_CEIL q.region (fusedCeil q.region s) s))))))) s
    match k.loader with
    | some (r, idx, _) =>
      (match findEntry r idx s with
       | some e => entryStatus r e 0 0 s
       | none => s)
    | none => s

end Sys2Proof.Machine
end

