-- ==== Sys2Proof/Machine/Repair.lean ====
section
/-! DEFINITION. What re-tuning finds (02 R68, R69; 06 R208, R209), exposure stretch (19 R516), re-seats (19 R514, R515),
evacuation over the row bus (02 R77; 19 R517), refresh (07 R241). -/
namespace Sys2Proof.Machine

/-! ### Shaft ceilings and stretch -/

/-- TWR_RGN_SHAFT.CEIL: the plate's shaft ceiling, or the fused ceiling without a plate (07 R226, R243). -/
def ceilShown (r : Nat) (s : State) : State :=
  let c := match plateOfRegion r s with
    | some (_, k) => (match k.img with
      | some m => (match m.recs.find? (fun q => decide (q.region = r)) with
        | some q => shaftCeil q m.snapReserve s
        | none => fusedCeil r s)
      | none => fusedCeil r s)
    | none => fusedCeil r s
  wr R.TWR_RGN_SHAFT_CEIL r c s

/-- GLB_STRETCH.LEN: the longest stretch in force. -/
def stretchShow (s : State) : State :=
  wr R.GLB_STRETCH_LEN 0 ((s.stretch.map (fun e => e.2)).foldl max 0 / 10) s

/-- l_stretch in ns (19 R516). -/
def stretchLen (bd : Nat) : Nat := 10 * ceilDiv (bd * 10 + 126000) 2520

/-- The leader grants: this device where it leads or is a group of one, else the leader's setting, which nothing here
holds: a free value (entry 1). -/
def leaderAccepts (s : State) : Bool × State :=
  if syncLevel s = 0 || isLeader s then (flag R.GLB_STRETCH_ACCEPT 0 s, s)
  else
    match s.fresh with
    | (n, s) => (decide (n % 2 = 1), s)

/-- The regions' plate record, if a plate is loaded there. -/
def regionRecord (r : Nat) (s : State) : Option (RegionRec × Image) :=
  match plateOfRegion r s with
  | some (_, k) => (match k.img with
    | some m => (m.recs.find? (fun q => decide (q.region = r))).map (fun q => (q, m))
    | none => none)
  | none => none

/-- A core's DRAM path has gone to half width: the exposure stretches, or the core is fenced (19 R516). -/
def dramHalf (c : Nat) (s : State) : State :=
  match regionRecord (regionOf c) s with
  | none => s
  | some (q, m) =>
    let l := stretchLen q.bd
    let cap := if rd R.GLB_STRETCH_MAX_LEN 0 s = 0 then 8000 else rd R.GLB_STRETCH_MAX_LEN 0 s * 10
    let g := guaranteed q m.snapReserve l 24
    match leaderAccepts s with
    | (ok, s) =>
      if flag R.GLB_STRETCH_EN 0 s && ok && decide (l ≤ cap) && decide (l ≤ 8000) && (decide (q.k = 0) || decide (529 ≤ g)) then
        let s := if 1 ≤ q.k then wr R.SHF_NM_CFG_G (posOf c) g (s.setCore c { s.core c with cfg := { (s.core c).cfg with g := g } }) else s
        let s := if mhas (regionOf c) s.stretch then s else raise .stretch .glb 0 s
        stretchShow { s with stretch := mmod (regionOf c) 0 (max l) s.stretch }
      else fenceCore c 3 s

/-- A core's SRAM path has gone to half width (19 R516). -/
def sramHalf (c : Nat) (s : State) : State :=
  match regionRecord (regionOf c) s with
  | none => s
  | some (q, _) => if 64 * (q.cycles - 252) < q.bs then fenceCore c 3 s else s

/-- Stretches that no half-width shaft under a plate backs any more end (19 R516). -/
def stretchFix (s : State) : State :=
  stretchShow { s with stretch := s.stretch.filter (fun e =>
    (regionRecord e.1 s).isSome && (regionCores e.1).any (fun c => flag R.SHF_LANE_DRAM_HALF (pathOf (posOf c) s) s)) }

/-! ### Delay trims (02 R67, R68; 06 R208) -/

/-- The key of a lane of a position's shaft: lanes 0 to 1,055 are the SRAM path's (1,024 on are spares), 1,056 to 1,215 the
DRAM path's (data, from 1,184 spares, from 1,192 control, 1,204 and 1,205 spare control), then 264 of each layer port (data,
8 spares) (02 R65, R68; entry 141). -/
def laneKey (p n : Nat) : Nat := p * 2272 + n

/-- The key of a wire of a bridge direction's group. -/
def wireTrim (b d g i : Nat) : Nat := 0x1000000 + ((b * 2 + d) * 67 + g) * 33 + i

def setTune (f : Tuning → Tuning) (s : State) : State := { s with fab := { s.fab with tune := f s.fab.tune } }

/-- A lane's trim: 0 before its first training; what training found, until re-tuning moves it. -/
def trimOf (k : Nat) (s : State) : Nat :=
  let u := s.fab.tune
  match mget k u.trims with
  | some n => n
  | none => if (if k < 0x1000000 then u.lanes else u.wires) then 1 + Config.laneTrim k % 62 else 0

/-- A trim moves by at most one step towards the best one (02 R68). -/
def trimStep (now best : Nat) : Nat := if now < best then now + 1 else if best < now then now - 1 else now

/-- A best trim at either end (02 R69). -/
def trimEnd (best : Nat) : Bool := decide (best = 0) || decide (best = 63)

/-- A lane re-tuned: it has failed where its best trim lies at an end, or its pattern fails at two successive re-tunes, and
keeps its trim then; else its trim moves. Answers whether it has failed now. -/
def retuneLane (k best : Nat) (ok : Bool) (s : State) : Bool × State :=
  let u := s.fab.tune
  if u.dead.contains k then (false, s)
  else if trimEnd best || (!ok && u.suspect.contains k) then
    (true, setTune (fun u => { u with dead := u.dead ++ [k], suspect := u.suspect.filter (fun x => decide (x ≠ k)) }) s)
  else
    let rest := u.suspect.filter (fun x => decide (x ≠ k))
    (false, setTune (fun u => { u with trims := mput k (trimStep (trimOf k s) best) u.trims,
                                       suspect := if ok then rest else rest ++ [k] }) s)

/-- A lane fully trained: it takes its best trim, and has failed where that lies at an end (02 R67, R69). -/
def trainLane (k best : Nat) (ok : Bool) (s : State) : Bool × State :=
  let u := s.fab.tune
  if u.dead.contains k then (false, s)
  else if trimEnd best then (true, setTune (fun u => { u with dead := u.dead ++ [k] }) s)
  else
    let rest := u.suspect.filter (fun x => decide (x ≠ k))
    (false, setTune (fun u => { u with trims := mput k best u.trims, suspect := if ok then rest else rest ++ [k] }) s)

/-- The next spare of a group that is neither in use nor failed. -/
def nextSpare (ks : List Nat) (s : State) : Option Nat :=
  ks.find? (fun k => !s.fab.tune.spares.contains k && !s.fab.tune.dead.contains k)

def useSpare (k : Nat) (s : State) : State := setTune (fun u => { u with spares := u.spares ++ [k] }) s

/-! ### Lanes of a shaft (02 R69) -/

/-- The path of a lane: with its 32-lane, 16-lane or port group. -/
inductive LanePath where
  | sram (g : Nat)
  | dram (g : Nat)
  | ctrl
  | port (l : Nat)
  | unused
  deriving DecidableEq, Repr

/-- The group that a lane belongs to, a spare lane to the group that it repairs. -/
def lanePath (n : Nat) : LanePath :=
  if n < 1024 then .sram (n / 32)
  else if n < 1056 then .sram (n - 1024)
  else if n < 1184 then .dram ((n - 1056) / 16)
  else if n < 1192 then .dram (n - 1184)
  else if n < 1206 then .ctrl
  else if n < 1216 then .unused
  else .port ((n - 1216) / 264)

/-- The lane is a spare. -/
def isSpare (n : Nat) : Bool :=
  (decide (1024 ≤ n) && decide (n < 1056)) || (decide (1184 ≤ n) && decide (n < 1192)) || decide (n = 1204)
    || decide (n = 1205) || (decide (1216 ≤ n) && decide (256 ≤ (n - 1216) % 264))

/-- The spare lanes of a group. -/
def laneSpares : LanePath → List Nat
  | .sram g => [1024 + g]
  | .dram g => [1184 + g]
  | .ctrl => [1204, 1205]
  | .port l => upFrom (1216 + 264 * l + 256) 8
  | .unused => []

/-- The number of a group among those that are unrepaired: SRAM path from 0, DRAM path from 32. -/
def laneCode : LanePath → Nat
  | .sram g => g
  | .dram g => 32 + g
  | .ctrl => 40
  | .port l => 41 + l
  | .unused => 45

/-- The core whose shaft runs through a physical column. -/
def coreOn (p : Nat) (s : State) : Option Nat :=
  (upFrom (p / 17 * 16) 16).find? (fun c => decide (pathOf (posOf c) s = p) && !isHole c s)

/-- A spare replaces a lane of a group. -/
def laneSpared (p : Nat) (l : LanePath) (spare : Nat) (s : State) : State :=
  let s := useSpare spare s
  let s := match l with
    | .sram _ => bump R.SHF_LANE_SRAM_SP p 1 s
    | .dram _ => bump R.SHF_LANE_DRAM_SP p 1 s
    | .ctrl => bump R.SHF_LANE_CTRL_SP p 1 s
    | .port i => wr R.SHF_PORT_SP p (rd R.SHF_PORT_SP p s + 16 ^ i) s
    | .unused => s
  raise .laneSpared .shf p s

/-- A half of a path's groups holds an unrepaired lane: halves are the lower and the upper groups. -/
def halfBroken (p first n : Nat) (upper : Bool) (s : State) : Bool :=
  s.fab.broken.any (fun e => decide (e.1 = p) && decide (first ≤ e.2) && decide (e.2 < first + n)
    && (decide (first + n / 2 ≤ e.2) == upper))

/-- The skip of a core's half-row once the skips found in start-up apply (18 R490). -/
def plannedSkip (c : Nat) (s : State) : Nat :=
  match s.boot.skips.find? (fun k => decide (k.1 = c / 16)) with
  | some k => k.2
  | none => rd (R.TWR_SHIFT_SKIP (shiftIdx c)) (towerOf c) s

/-- The logical core that a physical column of a half-row (tower × 64 + half × 32 + row) hosts once those skips apply. -/
def plannedOn (hr col : Nat) (s : State) : Option Nat :=
  ((upFrom 0 16).map (fun k => hr * 16 + k)).find? (fun c =>
    decide (colOf c + (if plannedSkip c s ≤ colOf c then 1 else 0) = col))

/-- A logical core becomes a hole at release, with a fence cause for a second one in its half-row (18 R490; 02 R75). -/
def planHole (c cause : Nat) (s : State) : State :=
  if s.boot.holes.any (fun h => decide (h.1 = c)) then s
  else { s with boot := { s.boot with holes := s.boot.holes ++ [(c, cause)] } }

/-- The shaft of a half-row's free spare is lost: the spare has failed, from release in start-up (02 R75, R79). -/
def spareLost (p : Nat) (s : State) : State :=
  let hr := p / 17
  let i := hr % 64
  if rd R.BOOT_STAT_STATE 0 s < 7 then
    if plannedSkip (hr * 16) s = 31 then { s with boot := { s.boot with skips := s.boot.skips ++ [(hr, 16)] } } else s
  else if flag (R.TWR_SHIFT_SPARE_FREE i) (hr / 64) s then
    wr (R.TWR_SHIFT_SKIP i) (hr / 64) 16 (wr (R.TWR_SHIFT_SPARE_FREE i) (hr / 64) 0 s)
  else s

/-- The shaft is lost: its core is fenced (02 R69), or a hole from release in start-up (18 R490). -/
def shaftLost (p : Nat) (s : State) : State :=
  if (s.shaft p).lost then s
  else
    let s := raise .shaftCtrlLost .shf p (s.setShaft p { s.shaft p with lost := true })
    let start := decide (rd R.BOOT_STAT_STATE 0 s < 7)
    match (if start then plannedOn (p / 17) (p % 17) s else coreOn p s) with
    | some c => if start then planHole c 2 s else fenceCore c 2 s
    | none => if p % 17 = 16 then spareLost p s else s

/-- A path's group has no spare left: half width, or the shaft is lost. -/
def pathBroken (p first n : Nat) (f : Fld) (then_ : Nat → State → State) (s : State) : State :=
  if halfBroken p first n false s && halfBroken p first n true s then shaftLost p s
  else if flag f p s then s
  else
    let s := raise .shaftHalfWidth .shf p (wr f p 1 s)
    match coreOn p s with
    | some c => then_ c s
    | none => s

/-- A lane has failed, at the tick: a spare that is not in use is out of use for good; any other lane's group takes its next
spare, and without one the path narrows or the shaft is lost (02 R69). -/
def laneFailed (p n : Nat) (s : State) : State :=
  let l := lanePath n
  if l = .unused || (isSpare n && !s.fab.tune.spares.contains (laneKey p n)) then s
  else
    match nextSpare ((laneSpares l).map (laneKey p)) s with
    | some k => laneSpared p l k s
    | none =>
      let s := { s with fab := { s.fab with broken := s.fab.broken ++ [(p, laneCode l)] } }
      match l with
      | .sram _ => pathBroken p 0 32 R.SHF_LANE_SRAM_HALF sramHalf s
      | .dram _ => pathBroken p 32 8 R.SHF_LANE_DRAM_HALF dramHalf s
      | .port l =>
        if (rd R.SHF_PORT_HALF p s).testBit l then s
        else raise .portHalfWidth .shf p (orIn R.SHF_PORT_HALF p (2 ^ l) s)
      | _ => shaftLost p s

/-- Full training of the lanes named, of any shafts; every other lane of the shafts trained is clean (02 R67; 18 R490, R498).
Answers whether one failed. -/
def trainLanes (l : List (Nat × LaneObs)) (s : State) : Bool × State :=
  l.foldl (fun x o =>
    match trainLane (laneKey o.1 o.2.lane.val) o.2.best.val o.2.ok x.2 with
    | (bad, s) => (x.1 || bad, if bad then laneFailed o.1 o.2.lane.val s else s)) (false, s)

/-! ### Bridge wires (06 R208, R209) -/

/-- A direction goes down: the plates that use it stop (06 R208, R209). -/
def bridgeDown (b d : Nat) (s : State) : State :=
  if brgWidth b d s = 0 then s
  else bridgeOff b d (stopPlates (fun m => m.brgUse.contains (brgKey b d)) s)

/-- A direction narrows: the plates whose need on the bridge is FULL stop (06 R208, R209). -/
def bridgeNarrow (b d : Nat) (s : State) : State :=
  raise .bridgeNarrow .brg b (setWidth b d 1 (stopPlates (fun m => decide (mgetD b 0 m.brgNeed = 2)) s))

/-- A wire has failed, at the tick. -/
def wireFailed (b d g i : Nat) (s : State) : State :=
  let q := s.brg b d
  let spare := wireTrim b d g 32
  if i = 32 && !s.fab.tune.spares.contains spare then s
  else
    match nextSpare [spare] s with
    | some k =>
      let s := useSpare k s
      let s := if g < 64 then bump (if d = 0 then R.BRG_STAT_SP_D0 else R.BRG_STAT_SP_D1) b 1 s
        else bump (if d = 0 then R.BRG_STAT_SB_SP_D0 else R.BRG_STAT_SB_SP_D1) b 1 s
      raise .bridgeLaneSpared .brg b s
    | none =>
      if 64 ≤ g then bridgeDown b d s
      else
        let br := q.broken ++ [g]
        let s := s.setBrg b d { q with broken := br }
        if br.any (fun x => decide (x < 32)) && br.any (fun x => decide (32 ≤ x)) then bridgeDown b d s
        else if brgWidth b d s = 2 then bridgeNarrow b d s
        else s

/-! ### The rotations of the fix window (02 R68; 06 R208) -/

/-- The group that a rotation of `n` re-tunes next; it starts at group 0 (entry 84). -/
def nextGroup (n : Nat) : Option Nat → Nat
  | none => 0
  | some g => (g + 1) % n

/-- Lanes of the group re-tuned that are not named are clean. -/
def clearSuspects (now : Nat → Bool) (named : List Nat) (s : State) : State :=
  setTune (fun u => { u with suspect := u.suspect.filter (fun k => !now k || named.contains k) }) s

/-- One group of 16 lanes of every shaft re-tuned. -/
def retuneShafts (l : List (PosId × LaneObs)) (s : State) : State :=
  let g := nextGroup 142 s.fab.retune
  let l := l.filter (fun o => decide (o.2.lane.val / 16 = g))
  let s := { s with fab := { s.fab with retune := some g } }
  let s := clearSuspects (fun k => decide (k < 0x1000000) && decide (k % 2272 / 16 = g))
    (l.map (fun o => laneKey o.1.val o.2.lane.val)) s
  l.foldl (fun s o =>
    match retuneLane (laneKey o.1.val o.2.lane.val) o.2.best.val o.2.ok s with
    | (bad, s) => if bad then laneFailed o.1.val o.2.lane.val s else s) s

/-- One 32-wire group of every bridge direction re-tuned, its spare with it. -/
def retuneBridges (l : List WireObs) (s : State) : State :=
  let g := nextGroup 67 s.fab.retuneB
  let l := l.filter (fun o => decide (o.group.val = g))
  let s := { s with fab := { s.fab with retuneB := some g } }
  let s := (upFrom 0 6).foldl (fun s b => wr R.BRG_RETUNE_GROUP_D0 b g (wr R.BRG_RETUNE_GROUP_D1 b g s)) s
  let key (o : WireObs) : Nat := wireTrim o.bridge.val o.dir.val o.group.val o.wire.val
  let s := clearSuspects (fun k => decide (0x1000000 ≤ k) && decide ((k - 0x1000000) / 33 % 67 = g)) (l.map key) s
  l.foldl (fun s o =>
    match retuneLane (key o) o.best.val o.ok s with
    | (bad, s) => if bad then wireFailed o.bridge.val o.dir.val o.group.val o.wire.val s else s) s

/-- The re-tunes of a fix window. -/
def retuneTick (lanes : List (PosId × LaneObs)) (wires : List WireObs) (s : State) : State :=
  retuneBridges wires (retuneShafts lanes s)

/-! ### Re-seat (19 R514, R515) -/

/-- Cores of a half-row, ascending. -/
def rowCores (t half row : Nat) : List Nat := (upFrom 0 16).map (fun c => coreAt (t * 2 + half) row c)

/-- A job of a region's plate runs or fills. -/
def regionBusy (r : Nat) (s : State) : Bool :=
  match plateOfRegion r s with
  | some (_, k) => k.job.isSome
  | none => false

/-- Why a re-seat is refused (19 R514). -/
def reseatCause (t half row : Nat) (s : State) : Option Nat :=
  let cs := rowCores t half row
  if !cs.any (fun c => fenced c s) then some 1
  else if !flag (R.TWR_SHIFT_SPARE_FREE (half * 32 + row)) t s then some 2
  else if regionBusy (regionOf (coreAt (t * 2 + half) row 0)) s
      || (match mget t s.evacs with
          | some e => decide (e.half = half) && decide (e.row = row)
          | none => false) then some 3
  else if flag R.HALF_FABRIC_LOST (t * 2 + half) s then some 4
  else none

/-- RESEAT_REQUEST: a write of TWR_RESEAT with GO. -/
def reseatRequest (t half row : Nat) (s : State) : State :=
  later (.reseat t half row) (wr R.TWR_RESEAT_HALF t half (wr R.TWR_RESEAT_ROW t row s))

/-- The checks at the tick after the request. -/
def reseatCheck (t half row : Nat) (s : State) : State :=
  match reseatCause t half row s with
  | some k => wr R.TWR_RESEAT_STATUS t 3 (wr R.TWR_RESEAT_CAUSE t k s)
  | none =>
    let s := invalidate (actFrame s) (regionOf (coreAt (t * 2 + half) row 0)) s
    later (.reseatDone t half row) (wr R.TWR_RESEAT_STATUS t 1 (wr R.TWR_RESEAT_CAUSE t 0 s))

/-- A logical core on another physical core: tray and bundle store hold nothing known until the next launch refills them (02
R72): the lines are EMPTY, and what a partial write keeps of one is a free value (03 R89). -/
def moveCore (o : Core) : Core := { o with tray := [], store := [], vregs := [], codeq := [], cache := [] }

/-- Step 4 of the tick after that: the shift map changes; the lowest fenced core leaves the fenced state. -/
def reseatDone (t half row : Nat) (s : State) : State :=
  let i := half * 32 + row
  match (rowCores t half row).find? (fun c => fenced c s) with
  | none => wr R.TWR_RESEAT_STATUS t 2 s
  | some c =>
    let s := wr (R.TWR_SHIFT_SKIP i) t (colOf c) (wr (R.TWR_SHIFT_SPARE_FREE i) t 0 (wr (R.TWR_SHIFT_ORIGIN i) t 1 s))
    let s := kvReseat c (unfenceCore c s)
    let s := ceilShown (regionOf c) s
    let s := (upFrom 0 16).foldl (fun s k =>
      let d := coreAt (t * 2 + half) row k
      let s := if colOf c ≤ k && flag R.SHF_LANE_SRAM_HALF (pathOf (posOf d) s) s then sramHalf d s else s
      let s := if colOf c ≤ k && flag R.SHF_LANE_DRAM_HALF (pathOf (posOf d) s) s then dramHalf d s else s
      if colOf c ≤ k then s.setCore d (moveCore (s.core d)) else s) s
    raise .reseat .twr t (wr R.TWR_RESEAT_STATUS t 2 (stretchFix s))

/-! ### Evacuation (02 R77; 19 R517) -/

/-- A re-seat of a half-row is pending. -/
def reseatPending (t half row : Nat) (s : State) : Bool :=
  s.acts.contains (.reseat t half row) || s.acts.contains (.reseatDone t half row)

/-- Why an evacuation is refused (19 R517). -/
def evacCause (t : Nat) (e : Evac) (s : State) : Option Nat :=
  let a := coreAt (t * 2 + e.half) e.row e.src
  let b := coreAt (t * 2 + e.half) e.row e.dst
  if !(deadCore a s || (s.shaft (posOf a)).untrusted) || deadCore b s || decide (a = b) then some 1
  else if e.len = 0 || decide (32768 < e.len) || decide (e.saddr % 4096 ≠ 0) || decide (e.daddr % 4096 ≠ 0)
      || decide (0x8000000 < e.saddr + 4096 * e.len) || decide (0x8000000 < e.daddr + 4096 * e.len) then some 2
  else if regionBusy (regionOf b) s || mhas t s.evacs || reseatPending t e.half e.row s then some 3
  else if flag R.HALF_FABRIC_LOST (t * 2 + e.half) s then some 4
  else none

/-- EVACUATION: a write of TWR_EVAC_CTRL with GO. -/
def evacuation (t : Nat) (s : State) : State :=
  let e : Evac := ⟨rd R.TWR_EVAC_CTRL_HALF t s, rd R.TWR_EVAC_CTRL_ROW t s, rd R.TWR_EVAC_CTRL_SRC_COL t s,
    rd R.TWR_EVAC_CTRL_DST_COL t s, rd R.TWR_EVAC_SADDR t s, rd R.TWR_EVAC_DADDR t s, rd R.TWR_EVAC_LEN t s, 0⟩
  match evacCause t e s with
  | some k =>
    let s := wr R.TWR_EVAC_CTRL_CAUSE t k s
    if mhas t s.evacs then s else wr R.TWR_EVAC_CTRL_STATUS t 3 s
  | none =>
    wr R.TWR_EVAC_CTRL_STATUS t 1 (wr R.TWR_EVAC_CTRL_CAUSE t 0 (wr R.TWR_EVAC_DONE t 0 { s with evacs := mput t e s.evacs }))

/-- One 32-byte granule copied with its check bits. -/
def busGranule (p q a b : Nat) (s : State) : State :=
  let bad := storedPoison p a s || unwrittenBad p a s
  writeUnit q b (readBytes p a 32 s) bad (shaftBytes p 32 s)

/-- ROW_BUS_TRANSFER: the next 4 KiB granule of a tower's evacuation, while the port at either end is free (02 R77; 07 R241;
entry 126); the bus pauses while a chunk runs at either end. -/
def rowBus (t : Nat) (s : State) : State :=
  match mget t s.evacs with
  | none => s
  | some e =>
    let p := posOf (coreAt (t * 2 + e.half) e.row e.src)
    let q := posOf (coreAt (t * 2 + e.half) e.row e.dst)
    if e.len ≤ e.done || !(s.shaft p).runs.isEmpty || !(s.shaft q).runs.isEmpty
        || !portIdle p (layerOf (e.saddr + 4096 * e.done)) s || !portIdle q (layerOf (e.daddr + 4096 * e.done)) s then s
    else
      let s := (upFrom 0 128).foldl (fun s i =>
        busGranule p q (e.saddr + 4096 * e.done + 32 * i) (e.daddr + 4096 * e.done + 32 * i) s) s
      wr R.TWR_EVAC_DONE t (e.done + 1) { s with evacs := mput t { e with done := e.done + 1 } s.evacs }

/-- EVACUATION_DONE: at the tick that closes the exposure of the last granule. -/
def evacDone (t : Nat) (s : State) : State :=
  match mget t s.evacs with
  | none => s
  | some e =>
    if e.done < e.len then s
    else raise .evacDone .twr t (wr R.TWR_EVAC_CTRL_STATUS t 2 { s with evacs := mdel t s.evacs })

/-! ### Refresh (07 R241; 01 R37 to R39) -/

/-- REFRESH: 128 rows of every bank of the layers in rotation, once in an exposure, from 200 ns to 400 ns. -/
def refresh (s : State) : State :=
  if s.refAt = some s.frame || !inRefresh s then s
  else
    let f := rd R.GLB_REFRESH_FIRST 0 s
    let g := rd R.GLB_REFRESH_SECOND 0 s
    let rows := (upFrom 0 4).foldl (fun m t =>
      let m := mmod (t * 4 + f) 0 (fun n => (n + 128) % 2048) m
      if (rd R.GLB_REFRESH_HOT 0 s).testBit t && decide (g ≠ f) then mmod (t * 4 + g) 0 (fun n => (n + 128) % 2048) m else m) s.refRows
    { s with refRows := rows, refAt := some s.frame }

end Sys2Proof.Machine
end

