-- ==== Sys2Proof/Machine/Thermal.lean ====
section
/-! DEFINITION. Heat in the stack (17 R472 to R481; 01 R38): sensors, shadow temperatures, disagreement, throttling, hot
refresh. Readings are in 0.25 °C, temperatures in µ°C. -/
namespace Sys2Proof.Machine

/-! ### Places (17 R472) -/

/-- Layer and quadrant of sensor i of a tower. -/
def sensorPlace (i : Nat) : Nat × Nat :=
  if i < 64 then (0, i / 32 * 2 + i % 32 / 16)
  else if i < 80 then (1, (i - 64) / 8 * 2 + (i - 64) % 8 / 4)
  else if i < 96 then (2, (i - 80) / 8 * 2 + (i - 80) % 8 / 4)
  else ((i - 96) / 4 + 3, i % 4)

/-- Sensors of a layer-quadrant. -/
def sensorsAt (layer q : Nat) : List Nat := (upFrom 0 116).filter (fun i => decide (sensorPlace i = (layer, q)))

/-- Key of a layer-quadrant. -/
def lqKey (t layer q : Nat) : Nat := t * 32 + layer * 4 + q

/-- Half of a tower's quadrant. -/
def halfOfQ (t q : Nat) : Nat := t * 2 + q / 2

/-! ### Readings and values (17 R473, R479) -/

/-- The working sensors' values of a layer-quadrant. -/
def workingTemps (t layer q : Nat) (s : State) : List Int :=
  ((sensorsAt layer q).filter (fun i => !flag (R.THM_SENSOR_FAIL t i) 0 s)).map (fun i => signed 10 (rd (R.THM_SENSOR_TEMP t i) 0 s))

/-- The reading in µ°C. -/
def reading (t layer q : Nat) (s : State) : Option Int := ((workingTemps t layer q s).max?).map (fun v => v * 250000)

def shadowOf (t layer q : Nat) (s : State) : Option Int := mget (lqKey t layer q) s.therm.shadow

def inDis (t layer q : Nat) (s : State) : Bool := s.therm.dis.contains (lqKey t layer q)

/-- The value: the shadow in disagreement or without a working sensor, else the reading; and whether it is the shadow. -/
def valueOf (t layer q : Nat) (s : State) : Option (Int × Bool) :=
  match reading t layer q s, shadowOf t layer q s with
  | some r, some v => some (if inDis t layer q s then (max r v, decide (r < v)) else (r, false))
  | some r, none => some (r, false)
  | none, some v => some (v, true)
  | none, none => none

/-- A temperature in a register's 10 bits of 0.25 °C, rounded down. -/
def tempBits (v : Int) : Nat := unsigned 10 (max (-511) (min 511 v))

/-! ### Sensors (17 R472, R473) -/

/-- A sensor has failed (17 R473). -/
def sensorFail (t i : Nat) (s : State) : State :=
  if flag (R.THM_SENSOR_FAIL t i) 0 s then s
  else raise .sensorFail .thm 0 (bump R.THM_STAT_FAILED 0 1 (wr (R.THM_SENSOR_FAIL t i) 0 1 s))

/-- A DRAM reading or shadow of a tower exceeds 85 °C; or all are at or below 83 °C (01 R38). -/
def dramTemps (t : Nat) (s : State) : List Int :=
  (upFrom 3 4).flatMap (fun l => (upFrom 0 4).flatMap (fun q => (reading t l q s).toList ++ (shadowOf t l q s).toList))

def hotCheck (t : Nat) (s : State) : State :=
  if (dramTemps t s).any (fun v => decide (85000000 < v)) then
    setTherm (fun k => { k with hotIn := if k.hotIn.testBit t then k.hotIn else k.hotIn + 2 ^ t }) s
  else s

/-- The timers of a layer-quadrant's difference run or not: above 8 °C, at or below 4 °C (17 R477). -/
def diffCheck (t layer q : Nat) (s : State) : State :=
  let k := lqKey t layer q
  let d := match reading t layer q s, shadowOf t layer q s with
    | some r, some v => some (v - r)
    | _, _ => none
  let hi := match d with
    | some x => decide (8000000 < x)
    | none => false
  let lo := match d with
    | some x => decide (x ≤ 4000000)
    | none => false
  let put (b : Bool) (l : List Nat) : List Nat := if b then (if l.contains k then l else k :: l) else l.filter (fun x => decide (x ≠ k))
  setTherm (fun m => { m with high := put hi m.high, low := put lo m.low }) s

/-- Every layer-quadrant of a tower. -/
def layerQuads : List (Nat × Nat) := (upFrom 0 8).flatMap (fun l => (upFrom 0 4).map (fun q => (l, q)))

def diffsCheck (t : Nat) (s : State) : State := layerQuads.foldl (fun s x => diffCheck t x.1 x.2 s) s

/-- SENSOR_READ: the readings of a tower; one outside −20 °C to 150 °C marks its sensor failed. -/
def sensorRead (t : Nat) (vals : List Int) (s : State) : State :=
  let s := (vals.take 116).zipIdx.foldl (fun s x =>
    let s := wr (R.THM_SENSOR_TEMP t x.2) 0 (tempBits x.1) s
    if x.1 < -80 || 600 < x.1 then sensorFail t x.2 s else s) s
  hotCheck t (diffsCheck t s)

/-- HOT_EXIT (01 R38): at the next tick the tower leaves hot refresh, if all its values are at or below 83 °C. -/
def hotExit (t : Nat) (s : State) : State :=
  if (rd R.GLB_REFRESH_HOT 0 s).testBit t && (dramTemps t s).all (fun v => decide (v ≤ 83000000)) then
    setTherm (fun k => { k with hotOut := if k.hotOut.testBit t then k.hotOut else k.hotOut + 2 ^ t }) s
  else s

/-- Towers enter and leave hot refresh at the tick; the rotation of the exposure that opens (01 R37 to R39). -/
def hotTick (s : State) : State :=
  let hot := rd R.GLB_REFRESH_HOT 0 s
  let goIn := s.therm.hotIn
  let out := s.therm.hotOut
  let next := ((upFrom 0 4).map (fun t =>
    if goIn.testBit t || (hot.testBit t && !out.testBit t) then 2 ^ t else 0)).sum
  let s := (upFrom 0 4).foldl (fun s t => if goIn.testBit t && !hot.testBit t then raise .refreshHot .thm 0 s else s) s
  let s := setTherm (fun k => { k with hotIn := 0, hotOut := 0 }) s
  wr R.GLB_REFRESH_HOT 0 next (wr R.GLB_REFRESH_FIRST 0 (s.frame % 4) (wr R.GLB_REFRESH_SECOND 0 ((s.frame + 2) % 4) s))

/-! ### The thermal ceiling (17 R477 to R480) -/

/-- The ceiling that throttling set. -/
def thmBase (h : Nat) (s : State) : Nat := mgetD h 8 s.therm.base

/-- The half's thermal ceiling: throttling, precaution, blindness. -/
def thmCeil (h : Nat) (s : State) : Nat :=
  min (thmBase h s) (min (mgetD h 8 s.therm.prec) (if s.therm.blind.contains h then 3 else 8))

def ceilShow (h : Nat) (s : State) : State := wr (R.THM_HALF_CEIL h) 0 (thmCeil h s) s
def setBase (h n : Nat) (s : State) : State := ceilShow h (setTherm (fun k => { k with base := mput h n k.base }) s)

/-! ### Shadow temperatures (17 R475 to R478) -/

/-- µJ of a domain over the samples kept. -/
def heatOf (d : Nat) (l : List HeatSample) : Nat := (l.map (fun x => mgetD d 0 x.energy)).sum

/-- A tower-wide domain's energy split among the quadrants by the bytes that their shafts moved; equally where none moved
any (17 R476; entry 142). -/
def heatSplit (t q n : Nat) (l : List HeatSample) : Nat :=
  let moved (q : Nat) : Nat := (l.map (fun x => mgetD (t * 4 + q) 0 x.bytes)).sum
  let all := ((upFrom 0 4).map moved).sum
  if all = 0 then n / 4 else n * moved q / all

/-- What the domains took over the last 10 ms: the exposures closed in them, and the one that runs (17 R475, R476). -/
def heatNow (energy : List (DomainId × Nat)) (s : State) : List HeatSample :=
  s.therm.heat.filter (fun x => decide (s.timebase < x.at_ + 1000000)) ++ [heatSample energy s]

/-- The power map of a tower: mW by layer × 4 + quadrant, averaged over the last 10 ms (17 R475, R476). -/
def powerMap (t : Nat) (energy : List (DomainId × Nat)) (s : State) : List Nat :=
  let l := heatNow energy s
  let quads (f : Nat → Nat) : List Nat := (upFrom 0 4).map (fun q => f q / 10)
  let dram := quads (fun q => heatSplit t q (heatOf (76 + t) l) l / 4)
  quads (fun q => ((upFrom (t * 16 + q * 4) 4).map (fun d => heatOf d l)).sum + heatOf (64 + t) l / 4)
    ++ quads (fun q => heatSplit t q (heatOf (68 + t) l) l) ++ quads (fun q => heatSplit t q (heatOf (72 + t) l) l)
    ++ dram ++ dram ++ dram ++ dram ++ [0, 0, 0, 0]

/-- f_i of a quadrant in mW. -/
def heatUp (powers : List Nat) (q i : Nat) : Nat := ((upFrom 0 (i + 1)).map (fun j => (powers[j * 4 + q]?).getD 0)).sum

/-- S_i (17 R475): the larger of the estimates from below and above. -/
def shadowAt (t q i : Nat) (powers : List Nat) (s : State) : Option Int :=
  let r (k : Nat) : Nat := rd (R.THM_COEF (t * 4 + q) k) 0 s
  let below := if i = 0 then none else (reading t (i - 1) q s).map (fun (v : Int) => v - ((heatUp powers q (i - 1) * r (i - 1) : Nat) : Int))
  let above := if i = 7 then none else (reading t (i + 1) q s).map (fun (v : Int) => v + ((heatUp powers q i * r i : Nat) : Int))
  (below.toList ++ above.toList).max?

/-- A layer-quadrant's shadow in its sensors' registers; 0x200 where there is none. -/
def shadowShow (t layer q : Nat) (s : State) : State :=
  (sensorsAt layer q).foldl (fun s i => wr (R.THM_SENSOR_SHADOW t i) 0 (match shadowOf t layer q s with
    | some v => tempBits (v / 250000)
    | none => 0x200) s) s

/-- Neither a working sensor nor a shadow: the half is held at S3 (17 R478). -/
def blindCheck (t layer q : Nat) (s : State) : State :=
  let h := halfOfQ t q
  if (valueOf t layer q s).isSome || s.therm.blind.contains h then s
  else raise .thermalBlind .thm 0 (wr R.THM_STAT_BLIND 0 1 (ceilShow h (setTherm (fun k => { k with blind := h :: k.blind }) s)))

/-- SHADOW_COMPUTE, from the power map (17 R475, R476). -/
def shadowCompute (t : Nat) (energy : List (DomainId × Nat)) (s : State) : State :=
  let powers := powerMap t energy s
  let vals := layerQuads.map (fun x => (lqKey t x.1 x.2, shadowAt t x.2 x.1 powers s))
  let s := vals.foldl (fun s x => setTherm (fun k => { k with shadow := match x.2 with
    | some v => mput x.1 v k.shadow
    | none => mdel x.1 k.shadow }) s) s
  let s := layerQuads.foldl (fun s x => blindCheck t x.1 x.2 (diffCheck t x.1 x.2 (shadowShow t x.1 x.2 s))) s
  hotCheck t s

/-- TRUSTED of a layer-quadrant's sensors, and how many are in disagreement. -/
def disShow (t layer q : Nat) (s : State) : State :=
  let b := inDis t layer q s
  (sensorsAt layer q).foldl (fun s i => wr (R.THM_SENSOR_TRUSTED t i) 0 b.toNat s) (wr R.THM_STAT_DISAGREE 0 s.therm.dis.length s)

/-- A disagreement lasts in the half. -/
def halfDis (h : Nat) (s : State) : Bool := s.therm.dis.any (fun k => decide (k / 32 * 2 + k % 4 / 2 = h))

/-- SHADOW_HOLD_EXPIRY (17 R477): a disagreement begins, with its precaution, or ends. -/
def shadowHold (t layer q : Nat) (s : State) : State :=
  let k := lqKey t layer q
  let h := halfOfQ t q
  if inDis t layer q s then
    if s.therm.low.contains k then
      let s := disShow t layer q (setTherm (fun m => { m with dis := m.dis.filter (fun x => decide (x ≠ k)) }) s)
      if halfDis h s then s else ceilShow h (setTherm (fun m => { m with prec := mdel h m.prec }) s)
    else s
  else if s.therm.high.contains k then
    let s := disShow t layer q (setTherm (fun m => { m with dis := k :: m.dis }) s)
    let c := min (thmCeil h s) (stopOf h s - 1)
    raise .sensorDisagree .thm 0 (ceilShow h (setTherm (fun m => { m with prec := mput h c m.prec }) s))
  else s

/-! ### Throttling (17 R479 to R481) -/

/-- The highest value of layers [a, a + n) in a half, with its layer and whether it is a shadow. -/
def governing (h a n : Nat) (s : State) : Option (Int × Nat × Bool) :=
  ((upFrom a n).flatMap (fun l => (upFrom (h % 2 * 2) 2).filterMap (fun q =>
    (valueOf (h / 2) l q s).map (fun v => (v.1, l, v.2))))).foldl (fun best x =>
      match best with
      | some b => if b.1 < x.1 then some x else best
      | none => some x) none

/-- A threshold in µ°C, clamped to its range (17 R483). -/
def thrOf (f : Fld) (lo hi : Nat) (s : State) : Int := (max lo (min hi (rd f 0 s)) : Nat) * 1000000
def logicThr (s : State) : Int := thrOf R.THM_CTRL_LOGIC_THR 90 104 s
def dramThr (s : State) : Int := thrOf R.THM_CTRL_DRAM_THR 86 94 s
def hystOf (s : State) : Int := (rd R.THM_CTRL_HYST 0 s : Nat) * 1000000

/-- A value at or above a limit. -/
def atLeast (g : Option (Int × Nat × Bool)) (v : Int) : Bool :=
  match g with
  | some x => decide (v ≤ x.1)
  | none => false

/-- THM_HALF's temperatures; GOV names the layer of the value that lies nearest to or furthest above its threshold. -/
def govShow (h : Nat) (l d : Option (Int × Nat × Bool)) (s : State) : State :=
  let s := match l with
    | some x => wr (R.THM_HALF_T_LOGIC h) 0 (tempBits (x.1 / 250000)) s
    | none => s
  let s := match d with
    | some x => wr (R.THM_HALF_T_DRAM h) 0 (tempBits (x.1 / 250000)) s
    | none => s
  let g := match l, d with
    | some x, some y => some (if x.1 - logicThr s < y.1 - dramThr s then y else x)
    | some x, none => some x
    | none, y => y
  match g with
  | some x => wr (R.THM_HALF_GOV h) 0 x.2.1 (wr (R.THM_HALF_SHADOW h) 0 x.2.2.toNat s)
  | none => s

/-- A thermal step down to `n`: counted if it lowers the ceiling. -/
def stepTo (h n : Nat) (s : State) : State :=
  if n < thmBase h s then bump R.THM_THROTTLE_CNT 0 1 (setBase h n s) else s

/-- THERMAL_EVALUATION (17 R479): at limit, warm, or neither. -/
def thermalEval (h : Nat) (s : State) : State :=
  let l := governing h 0 3 s
  let d := governing h 3 4 s
  let s := govShow h l d s
  if atLeast l 105000000 || atLeast d 95000000 then
    let s := raise .thermalLimit .thm 0 (stepTo h 0 s)
    if stopOf h s = 0 then wr R.THM_STAT_K_TH 0 (min 15 (rd R.THM_STAT_K_TH 0 s + 1)) s else s
  else if atLeast l (logicThr s) || atLeast d (dramThr s) then
    if thmBase h s < stopOf h s then s
    else
      let s := stepTo h (stopOf h s - 1) s
      if s.therm.runs.contains h then s
      else raise .thermalThrottle .thm 0 (setTherm (fun k => { k with runs := h :: k.runs }) s)
  else s

/-- The Cool case holds in a half. -/
def isCool (h : Nat) (s : State) : Bool :=
  !halfDis h s && !atLeast (governing h 0 3 s) (logicThr s - hystOf s + 1) && !atLeast (governing h 3 4 s) (dramThr s - hystOf s + 1)

/-- THM_RECOVER (17 R479, R481): one Cool step. -/
def thmRecover (h : Nat) (s : State) : State :=
  if !isCool h s then s
  else
    let k := rd R.THM_STAT_K_TH 0 s
    let s := setTherm (fun m => { m with runs := m.runs.filter (fun x => decide (x ≠ h)) }) s
    if 0 < k then wr R.THM_STAT_K_TH 0 (k - 1) s else setBase h (min 8 (thmBase h s + 1)) s

end Sys2Proof.Machine
end

