-- ==== Sys2Proof/Machine/Verify.lean ====
section
/-! DEFINITION. Verification of the flash images (18 R493; 20 R519 to R524): headers, CRC, signature blocks, and the
entries of a configuration page. -/
namespace Sys2Proof.Machine

/-- Bytes [o, o + n) of an image. -/
def part (b : List Byte) (o n : Nat) : List Byte := (b.drop o).take n

/-- The fields that every header shares are correct (18 R493; 20 R520): MAGIC, VERSION, KIND, LENGTH up to a limit, CRC
over LENGTH bytes with its own field taken as 0. -/
def flashHead (b : List Byte) (magic kind limit : Nat) : Bool :=
  let len := field b 8 4
  decide (0x40 ≤ b.length) && decide (field b 0 4 = magic) && decide (field b 4 2 = 1) && decide (field b 6 2 = kind)
    && decide (0x40 ≤ len) && decide (len ≤ limit) && decide (len ≤ b.length) && zeros b 0x18 0x28
    && decide (crc32 (blank (b.take len) 0x10 4) = field b 0x10 4)

/-- SIG_OFFSET, and the signature block at it: it lies whole in the image (20 R519). -/
def sigAt (b : List Byte) : Option (List Byte) :=
  let o := field b 0x14 4
  if o ≠ 0 ∧ 0x40 ≤ o ∧ o + 224 ≤ field b 8 4 then some (part b o 224) else none

/-- A block's fixed fields (20 R519): MAGIC, KIND, SVN 0 but in firmware, reserved bytes 0. -/
def blockOk (blk : List Byte) (kind : Nat) (fw : Bool) : Bool :=
  decide (field blk 0 4 = 0x4E474953) && decide (field blk 4 2 = kind) && (fw || decide (field blk 8 4 = 0))
    && zeros blk 0x0C 4 && zeros blk 0x71 15
    && (if kind = 0 then decide (field blk 6 2 < 4) else decide (field blk 6 2 = 0))

/-- KEY_INDEX of a block. -/
def keyIndex (blk : List Byte) : Nat := field blk 6 2

/-- What the signature is over: the image up to SIG_OFFSET, then block bytes 0x00 to 0x7F (20 R519). -/
def signedDigest (b blk : List Byte) : Nat := Config.sha384 (b.take (field b 0x14 4) ++ part blk 0 0x80)

/-- PUBKEY, and the signature, as numbers. -/
def pubKey (blk : List Byte) : List Byte := part blk 0x10 97
def sigChecks (b blk : List Byte) : Bool :=
  Config.sigOk (leNat (pubKey blk)) (signedDigest b blk) (leNat (part blk 0x80 96))

/-- A KIND 0 block verifies (20 R521): PUBKEY hashes to the ROM entry of KEY_INDEX, that key is not revoked, and the
signature checks. -/
def zorSigned (b : List Byte) (fw : Bool) (revoked : Nat) : Bool :=
  match sigAt b with
  | none => false
  | some blk =>
    blockOk blk 0 fw && decide (Config.sha384 (pubKey blk) = Config.romHash (keyIndex blk))
      && !revoked.testBit (keyIndex blk) && sigChecks b blk

/-- A KIND 1 block verifies under the owner hash (20 R524). -/
def ownerSigned (b : List Byte) (owner : Nat) : Bool :=
  match sigAt b with
  | none => false
  | some blk => blockOk blk 1 false && decide (Config.sha384 (pubKey blk) = owner) && sigChecks b blk

/-- The firmware image's header (20 R520): SIG_OFFSET is never 0, ENTRY lies within the image. -/
def fwFormat (b : List Byte) : Bool :=
  flashHead b 0x4D574644 2 0x2000000 && decide (field b 0x0C 4 < field b 8 4) && (sigAt b).isSome

/-- SVN of a signed image. -/
def svnOf (b : List Byte) : Nat := match sigAt b with
  | some blk => field blk 8 4
  | none => 0

/-- Key of a signed image. -/
def signerOf (b : List Byte) : Nat := match sigAt b with
  | some blk => keyIndex blk
  | none => 0

/-- Why an image is not accepted (21 R542): the format, the signature, or the SVN. -/
inductive ImgBad where
  | format | signature | rollback
  deriving DecidableEq, Repr

/-- The firmware image verified (20 R520 to R522). -/
def fwCheck (b : List Byte) (revoked minSvn : Nat) : Option ImgBad :=
  if !fwFormat b then some .format
  else if !zorSigned b true revoked then some .signature
  else if svnOf b < minSvn then some .rollback
  else none

/-! ### Configuration pages (18 R493) -/

/-- An entry: its name up to the padding, its instance, its value. -/
structure CfgEnt where
  name : List Byte
  inst : Nat
  val : Nat
  deriving DecidableEq, Repr

/-- Name, instance and value of the i-th entry. -/
def cfgEnt (b : List Byte) (i : Nat) : CfgEnt :=
  let o := 0x40 + 48 * i
  ⟨(part b o 32).takeWhile (fun x => decide (x ≠ 0)), field b (o + 32) 2, field b (o + 40) 8⟩

/-- The entries of a page. -/
def cfgEnts (b : List Byte) : List CfgEnt := (upFrom 0 (field b 0x0C 4)).map (cfgEnt b)

/-- No two entries share NAME and INSTANCE. -/
def noTwins : List CfgEnt → Bool
  | [] => true
  | e :: r => !r.any (fun f => decide (f.name = e.name) && decide (f.inst = e.inst)) && noTwins r

/-- NAME is padded with NULs. -/
def padded (b : List Byte) (o : Nat) : Bool :=
  ((part b o 32).dropWhile (fun x => decide (x ≠ 0))).all (fun x => decide (x = 0))

/-- A page's format (18 R493): header, entries within the page, reserved bytes, no two alike. -/
def pageFormat (b : List Byte) (kind : Nat) : Bool :=
  let n := field b 0x0C 4
  flashHead b 0x47464E43 kind 0x100000 && decide (n ≤ 16384)
    && decide (0x40 + 48 * n ≤ field b 8 4)
    && (upFrom 0 n).all (fun i => zeros b (0x40 + 48 * i + 34) 6 && padded b (0x40 + 48 * i))
    && noTwins (cfgEnts b)

/-- The factory page is valid (18 R493; 20 R521). -/
def factoryOk (b : List Byte) (revoked : Nat) : Bool := pageFormat b 0 && zorSigned b false revoked

/-- The user page passes its signature rule (20 R524): any page while no owner is set; the owner's signature else. -/
def userSigOk (b : List Byte) (o : Otp) : Bool :=
  match o.owner with
  | none => true
  | some h => !o.spoiled && ownerSigned b h

/-- The user page is absent: entirely 0xFF (18 R494). -/
def userAbsent (b : List Byte) : Bool := b.all (fun x => decide (x = 0xFF))

end Sys2Proof.Machine
end

