-- ==== Sys2Proof/Machine/Startup.lean ====
section
/-! DEFINITION. Ways into start-up (18 R486 to R488; 16 R460; 17 R482; 22 R547, R549), and the phases SAFELIGHT, FUSE and
STRIP (18 R489 to R491). -/
namespace Sys2Proof.Machine

/-! ### The state before start-up -/

/-- A key of the SAFE page's fields. -/
def safeKey (k : Nat) : Bool := decide (k / 64 / 4096 / 65536 = Pg.safe.num)

/-- The feeds' OK bits, which the safelight watches (16 R460). -/
def feedsOk (s : State) : Nat × Nat := (rd R.APT_FEED_A_OK 0 s, rd R.APT_FEED_B_OK 0 s)

/-- The key lies in DRAM. -/
def dramKey (k : Nat) : Bool := decide (k % 2 ^ 29 < 2 ^ 28)

/-- Touch maps live until V_AUX is lost (07 R236). -/
def touchOnly (m : SMap Shaft) : SMap Shaft :=
  (m.filter (fun e => decide (e.2.touch ≠ 0))).map (fun e => (e.1, { Shaft.init with touch := e.2.touch }))

/-- Set bits of a touch map. -/
def onesIn (n : Nat) : Nat := ((upFrom 0 2048).filter (fun i => n.testBit i)).length

/-- The device stands before FUSE of a start-up of a kind, whose cause is `last` (18 R486, R487, R502; 21 R543). The
timebase, the SAFE page, the start-up buffer, the touch maps, OTP and the flash last; memory does not (07 R235), but for
DRAM where `dram`. -/
def startState (kind last : Nat) (dram : Bool) (s : State) : State :=
  let r := State.reset
  let n := s.free + 1
  let f := feedsOk s
  let s' : State := { r with
    pending := s.pending, free := n, timebase := s.timebase, tickBase := s.timebase,
    regs := s.regs.filter (fun e => safeKey e.1), lastEv := s.lastEv.filter (fun e => decide (e.1 / 65536 = Pg.safe.num)),
    evt := { EvtSt.init with startup := s.evt.startup, startupLost := s.evt.startupLost },
    mem := if dram then s.mem.filter (fun e => dramKey e.1) else [],
    marks := if dram then s.marks.filter (fun e => dramKey e.1) else [],
    voids := if dram then ⟨0, memTop, true, some n⟩ :: s.voids else [⟨0, memTop, false, some n⟩],
    shafts := touchOnly s.shafts,
    therm := { Therm.init with trip := s.therm.trip }, apt := { Apt.init with pin := s.apt.pin },
    sec := { Sec.init with otp := s.sec.otp },
    boot := { Boot.init with fw := s.boot.fw, user := s.boot.user, alive := s.boot.alive, powered := s.boot.powered,
                             alert := s.boot.alert, phaseAt := s.timebase, partOk := s.boot.partOk } }
  let s' := (touchOnly s.shafts).foldl (fun x e => wr R.SHF_TOUCH e.1 (onesIn e.2.touch) x) s'
  let s' := if s.boot.alive then
      (upFrom 76 4).foldl (fun x d => wr R.PDN_STAT_STATE d 2 x) (wr R.APT_FEED_AUX_OK 0 1 s')
    else s'
  wr R.SAFE_DOWN 0 last (wr R.BOOT_STAT_RESET_KIND 0 kind (wr R.APT_FEED_A_OK 0 f.1 (wr R.APT_FEED_B_OK 0 f.2 s')))

/-- The module has V_AUX and its safelight runs. -/
def awake (s : State) : Bool := s.boot.powered && s.boot.alive

/-- PWR_OK (22 R548, R549): high while a feed is in range and the stage-one converters run, which they do once SAFELIGHT has
completed. -/
def pwrOk (s : State) : Bool := awake s && decide ((feedsOk s).1 + (feedsOk s).2 ≠ 0)

/-- ALERT# (18 R491; 19 R508): asserted while a severity's alert bit is set, or after a safelight that failed its check. -/
def alertOn (s : State) : Bool := s.boot.alert || decide (rd R.EVT_ALERT 0 s ≠ 0)

/-- What the safelight domain does once it is alive. -/
def powered (f : State → State) (s : State) : State := if awake s then f s else s

/-! ### What ends service (18 R487; 16 R460; 17 R482; 22 R547, R549) -/

/-- MOD_RESET# asserted. `cool`: every comparator's sensor reads at least 10 °C below its threshold, so that a trip is
released. While SAFELIGHT runs, FUSE waits for it and the start-up stays a cold one (22 R549). -/
def modReset (cool : Bool) (s : State) : State :=
  if !s.boot.powered then s
  else if !s.boot.alive && decide (rd R.BOOT_STAT_STATE 0 s = 0) then { s with boot := { s.boot with reset := true } }
  else
    let tripped := s.therm.trip
    let s := if tripped && cool then setTherm (fun k => { k with trip := false }) s else s
    let s := startState 1 (if tripped && cool then 3 else 1) false s
    { s with boot := { s.boot with reset := true } }

/-- BOTH_FEEDS_LOST: the module stops; the safelight goes on. -/
def bothFeedsLost (s : State) : State :=
  let s := wr R.APT_FEED_A_OK 0 0 (wr R.APT_FEED_B_OK 0 0 s)
  if awake s then startState 1 2 false s else s

/-- FEED_LOST: one feed; with the other already out of range, both are lost. -/
def feedOut (b : Bool) (s : State) : State :=
  let f := feedsOk s
  let own := if b then f.2 else f.1
  let other := if b then f.1 else f.2
  if own = 0 then s else if other = 0 then bothFeedsLost s else feedLost b s

/-- FEED_RESTORED. -/
def feedIn (b : Bool) (s : State) : State := wr (if b then R.APT_FEED_B_OK else R.APT_FEED_A_OK) 0 1 s

/-- V_AUX_LOST: the device stops and the safelight domain is lost; OTP, the flash and the feeds last. -/
def auxLost (s : State) : State :=
  let r := State.reset
  let n := s.free + 1
  let f := feedsOk s
  wr R.APT_FEED_A_OK 0 f.1 (wr R.APT_FEED_B_OK 0 f.2
    { r with pending := s.pending, free := n, voids := [⟨0, memTop, false, some n⟩],
             sec := { Sec.init with otp := s.sec.otp },
             boot := { Boot.init with fw := s.boot.fw, user := s.boot.user, powered := false } })

/-- An event of the SAFE page whose record waits for the next start-up (17 R482). -/
def raiseSafe (e : Ev) (s : State) : State :=
  let r := evRec e .safe 0 noTag false s
  let s := evMark e .safe 0 s
  { s with evt := addStartup r s.evt }

/-- Sensor i of a tower has a comparator: L0 and the DRAM layers; KIND of SAFE_TRIP. -/
def tripKind (i : Nat) : Option Nat := if i < 64 then some 0 else if 96 ≤ i ∧ i < 112 then some 1 else none

/-- THERMTRIP (17 R482). -/
def thermTrip (t i : Nat) (s : State) : State :=
  match tripKind i with
  | none => s
  | some kind =>
    if !awake s || s.therm.trip then s
    else
      let s := raiseSafe .thermtrip s
      let s := if flag R.SAFE_TRIP_VALID 0 s then s
        else wr R.SAFE_TRIP_VALID 0 1 (wr R.SAFE_TRIP_TOWER 0 t (wr R.SAFE_TRIP_SENSOR 0 i (wr R.SAFE_TRIP_KIND 0 kind s)))
      startState 1 3 false (setTherm (fun k => { k with trip := true }) s)

/-- REFCLK_LOST: FATAL in every state, asleep and before release too, so that only a reset leads on; every Ray port and the
Abaes link drop to DOWN (22 R547; 19 R518). -/
def refclkLost (s : State) : State :=
  if !awake s then s
  else
    let s := raise .refclkLost .safe 0 s
    let s := if rd R.BOOT_STAT_STATE 0 s = 10 then s else wr R.BOOT_STAT_CAUSE 0 5 (wr R.BOOT_STAT_STATE 0 10 s)
    let s := (upFrom 0 18).foldl (fun s p => if rayState p s = 4 then s else rayDark p 0 (rd R.RAY_STAT_LAST_CAUSE p s) s) s
    wr R.ABA_STAT_STATE 0 0 (wr R.ABA_STAT_WIDTH 0 0 s)

/-! ### SAFELIGHT and FUSE (18 R489) -/

/-- A phase ends: BOOT_PHASE_MS, and the state that follows. -/
def phaseEnd (p next : Nat) (s : State) : State :=
  let s := wr (R.BOOT_PHASE_MS p) 0 (min 0xFFFF ((s.timebase - s.boot.phaseAt) / 100000)) s
  wr R.BOOT_STAT_STATE 0 next { s with boot := { s.boot with phaseAt := s.timebase } }

/-- Start-up stops before release (18 R491). -/
def bootFailed (cause : Nat) (e : Ev) (s : State) : State :=
  wr R.BOOT_STAT_STATE 0 10 (wr R.BOOT_STAT_CAUSE 0 cause (raise e .boot 0 s))

/-- SAFELIGHT: V_AUX is in range; the safelight checks itself. -/
def safelight (ok : Bool) (s : State) : State :=
  if rd R.BOOT_STAT_STATE 0 s ≠ 0 || s.boot.alive then s
  else
    let s := { s with boot := { s.boot with powered := true } }
    if !ok then
      wr R.BOOT_STAT_STATE 0 10 (wr R.BOOT_STAT_CAUSE 0 1 { s with boot := { s.boot with alert := true } })
    else
      let s := { s with boot := { s.boot with alive := true } }
      let s := (upFrom 76 4).foldl (fun s d => wr R.PDN_STAT_STATE d 2 s) (wr R.APT_FEED_AUX_OK 0 1 s)
      phaseEnd 0 0 s

/-- The grade's limits (00 R1). -/
def gradeRegs (f : Fuses) (s : State) : State :=
  wr R.GLB_ID_GRADE 0 f.gradeB.toNat (wr R.GLB_ID_GRADE_STOP 0 (if f.gradeB then 6 else 8)
    (wr R.GLB_ID_GRADE_CAP 0 (if f.gradeB then 1500 else 2000) (wr R.GLB_ID_SILICON 0 f.silicon.toNat s)))

/-- A skip of a half-row takes effect (02 R72, R79). -/
def setSkip (hr col : Nat) (selftest : Bool) (s : State) : State :=
  let t := hr / 64
  let i := hr % 64
  wr (R.TWR_SHIFT_SKIP i) t col (wr (R.TWR_SHIFT_SPARE_FREE i) t 0 (wr (R.TWR_SHIFT_ORIGIN i) t 0
    (wr (R.TWR_SHIFT_SELFTEST i) t selftest.toNat s)))

/-- OTP as this start-up uses and shows it (20 R521 to R523, R532). -/
def otpRegs (s : State) : State :=
  let o := s.sec.otp
  let s := { s with sec := { s.sec with revoked := o.revoked, minSvn := o.minSvn } }
  let s := wr R.SEC_STAT_MIN_SVN 0 o.minSvn (wr R.SEC_STAT_REVOKED 0 o.revoked s)
  match o.owner with
  | none => s
  | some h =>
    let s := wr R.SEC_STAT_OWNER_SET 0 1 (wr R.SEC_STAT_SPOILED 0 o.spoiled.toNat s)
    (upFrom 0 12).foldl (fun s i => wr (R.SEC_OWNER_HASH i) 0 (bitsAt h (32 * i) 32) s) s

/-- A measurement (20 R526). -/
def measure (i d : Nat) (s : State) : State := { s with sec := { s.sec with meas := mput i d s.sec.meas } }

/-- FUSE may run: MOD_RESET# deasserted, a feed in range, no trip held, and in Dark a wake source. -/
def mayFuse (s : State) : Bool :=
  awake s && decide (rd R.BOOT_STAT_STATE 0 s = 0) && decide ((feedsOk s).1 + (feedsOk s).2 ≠ 0) && !s.therm.trip
    && (s.boot.resume.isNone || s.boot.woken)

/-- FUSE. -/
def fuse (f : Fuses) (s : State) : State :=
  if !mayFuse s then s
  else
    let s := { s with boot := { s.boot with reset := false, phaseAt := s.timebase } }
    if !f.ok then bootFailed 2 .fuseFail s
    else
      let s := { s with boot := { s.boot with mapped := true, stops := f.stops.foldl (fun m e => mput e.1.val (min 8 e.2) m) [] } }
      let s := gradeRegs f s
      let s := (upFrom 0 4).foldl (fun s i => wr (R.SEC_SERIAL i) 0 (bitsAt f.serial.toNat (32 * i) 32) s) s
      let s := f.skips.foldl (fun s k => setSkip k.1 k.2 false s) s
      let s := f.coef.foldl (fun s k => wr (R.THM_COEF (k.1.val / 8) (k.1.val % 8)) 0 k.2 s) s
      let s := otpRegs s
      let s := measure 5 (Config.hwDigest (f.gradeB.toNat :: f.stops.flatMap (fun e => [e.1.val, e.2])
        ++ f.skips.flatMap (fun e => [e.1.val, e.2.val]))) (measure 1 (Config.romHash 4) s)
      let s := ((upFrom 0 76) ++ [105]).foldl (fun s d => wr R.PDN_STAT_STATE d 2 s) s
      let s := (upFrom 0 64).foldl (fun s r => ceilShown r s) s
      phaseEnd 1 2 s

/-! ### STRIP (18 R490) -/

/-- A memory position is untrusted from start-up: its core becomes a hole (07 R238). -/
def stripUntrusted (p : Nat) (s : State) : State :=
  let s := raise .checkerFail .shf p (s.setShaft p { s.shaft p with untrusted := true })
  match coreOfPos p with
  | some c => planHole c 4 s
  | none => s

/-- The checkers' results. -/
def stripChecker (x : CheckFail) (s : State) : State :=
  let p := x.pos.val
  if x.dram + x.sram = 0 then s
  else
    stripUntrusted p (wr R.SHF_TEST_DRAM_PASS p (decide (x.dram = 0)).toNat
      (wr R.SHF_TEST_SRAM_PASS p (decide (x.sram = 0)).toNat (wr R.SHF_TEST_FAILED p (min (x.dram + x.sram) 10217) s)))

/-- A fault of a sample march. -/
def stripMarch (x : MarchFault) (s : State) : State :=
  let p := x.pos.val
  if !x.corr then stripUntrusted p s
  else if x.sram then bump R.SHF_SRAM_CORR p 1 (raise .sramCorr .shf p s)
  else bump R.SHF_DRAM_CORR p 1 (raise .dramCorr .shf p s)

/-- A physical core fails its self-test: skipped if the half-row's spare is free, else the core it hosts is a hole. -/
def stripCore (hr col : Nat) (s : State) : State :=
  let s := raise .coreFail .rgn (regionOf (hr * 16)) s
  let free := decide (plannedSkip (hr * 16) s = 31)
  if free then { s with boot := { s.boot with skips := s.boot.skips ++ [(hr, col)] } }
  else
    match plannedOn hr col s with
    | some c => planHole c 1 s
    | none => s

/-- A router fails its self-test: the half is lost (06 R216). -/
def stripRouter (h row col : Nat) (s : State) : State :=
  if flag R.HALF_FABRIC_LOST h s then s else loseHalf h row col (raise .routerLost .half h s)

/-- Both halves of a tower are lost, or its buffer die fails all its checks (18 R491). -/
def noTower (r : StripRes) (s : State) : Bool :=
  !r.towers.isEmpty || (upFrom 0 4).any (fun t => flag R.HALF_FABRIC_LOST (t * 2) s && flag R.HALF_FABRIC_LOST (t * 2 + 1) s)

/-- STRIP. A resume from Dark omits the marches and the regulator check (18 R502). -/
def strip (r : StripRes) (s : State) : State :=
  if rd R.BOOT_STAT_STATE 0 s ≠ 2 then s
  else
    let full := s.boot.resume.isNone
    let s := (upFrom 0 4352).foldl (fun s p =>
      wr R.SHF_TEST_DONE p 1 (wr R.SHF_TEST_DRAM_PASS p 1 (wr R.SHF_TEST_SRAM_PASS p 1 s))) s
    let s := r.checker.foldl (fun s x => stripChecker x s) s
    let s := if full then r.march.foldl (fun s x => stripMarch x s) s else s
    let s := r.cores.foldl (fun s x => stripCore x.1 x.2 s) s
    let s := r.routers.foldl (fun s x => stripRouter x.1 x.2.1 x.2.2 s) s
    let s := (trainLanes (r.lanes.map (fun x => (x.1.val, x.2))) (setTune (fun u => { u with lanes := true }) s)).2
    let s := if full then r.phases.foldl (fun s x =>
        (upFrom 0 x.2.val).foldl (fun s _ => phaseLost x.1 s) s) s else s
    let s := r.sensors.foldl (fun s x => sensorFail x.1 x.2 s) s
    if noTower r s then bootFailed 4 .towerLost s else phaseEnd 2 3 s

/-! ### Whether a DEGRADE condition is in effect (18 R497; 19 R518) -/

/-- A port that is narrow, failed, missing or fenced. -/
def portBad (p : Nat) (s : State) : Bool :=
  decide (rayRole p s ≠ 0) && !flag R.RAY_CTRL_DISABLE p s
    && (flag R.RAY_STAT_DEGRADED p s || decide (rayState p s < 2) || decide (rayState p s = 4))

/-- A region that is dark or tripped, or has lost a phase. -/
def regionBad (r : Nat) (s : State) : Bool :=
  decide (rd R.TWR_RGN_FENCED r s ≠ 0) || decide (rd R.PDN_STAT_PHASES_LOST r s ≠ 0) || decide (rd R.PDN_STAT_STATE r s = 3)

/-- A layer port runs at half width, or a path of a shaft that some core uses (DEDUCED, entry 164). -/
def halfWidths (s : State) : Bool :=
  s.fab.broken.any (fun e => decide (40 < e.2) || (decide (e.2 < 40) && (coreOn e.1 s).isSome))

/-- The condition of some DEGRADE event is in effect: those that R497 names. A lost shaft counts by its core, fenced or a hole. -/
def degraded (s : State) : Bool :=
  (upFrom 0 4).any (fun t => (upFrom 0 64).any (fun i => flag (R.TWR_SHIFT_HOLE i) t s))
    || (upFrom 0 64).any (fun r => regionBad r s)
    || (upFrom 0 8).any (fun h => flag R.HALF_FABRIC_LOST h s)
    || s.shafts.any (fun e => e.2.untrusted || e.2.untrustedNext)
    || halfWidths s
    || (upFrom 0 6).any (fun b => decide (brgWidth b 0 s ≠ 2) || decide (brgWidth b 1 s ≠ 2))
    || (upFrom 0 18).any (fun p => portBad p s)
    || !s.therm.blind.isEmpty
    || (decide (syncLevel s = 0) && decide (s.img.level ≠ 0))
    || (upFrom 0 64).any (fun c => decide (rd R.RED_STAT_STATE c s = 2))
    || (upFrom 0 4).any (fun g => decide (2 ≤ rd (R.PAR_STAT_STATE g) 0 s))

end Sys2Proof.Machine
end

