-- ==== Sys2Proof/Machine/Load.lean ====
section
/-! DEFINITION. LOAD (18 R493 to R495; 00 R8): firmware, configuration pages, and the reset values that the image gives. -/
namespace Sys2Proof.Machine

/-- A tag's name in ASCII. -/
def Tag.bytes (t : Tag) : List Byte := t.name.toList.map (fun c => BitVec.ofNat 8 c.toNat)

/-- The two pages that apply: the user page's entries, then the factory page's. -/
structure CfgPages where
  user : List CfgEnt
  factory : List CfgEnt
  deriving DecidableEq, Repr

/-- The entry of a page for a name and an instance (0xFFFF: every instance). -/
def entFor (l : List CfgEnt) (nm : List Byte) (i : Nat) : Option CfgEnt :=
  l.find? (fun e => decide (e.name = nm) && decide (e.inst = i))

/-- The entries that may supply a field, in precedence (18 R494): user page for the instance, user page for every
instance, factory page likewise; true of the user page's. -/
def entsFor (c : CfgPages) (nm : List Byte) (i : Nat) : List (Bool × CfgEnt) :=
  (((entFor c.user nm i).toList ++ (entFor c.user nm 0xFFFF).toList).map (fun e => (true, e)))
    ++ (((entFor c.factory nm i).toList ++ (entFor c.factory nm 0xFFFF).toList).map (fun e => (false, e)))

/-- What LOAD found: values by key, entries skipped for their range, tags that supply no value. -/
structure CfgTake where
  vals : SMap Nat
  skipped : List (Bool × CfgEnt)
  missing : List Tag
  deriving DecidableEq, Repr

/-- The value of a tag for an instance: the first entry in range, else the missing tag's value (00 R8). -/
def tagValue (c : CfgPages) (t : Tag) (i : Nat) (ok : Nat → Bool) (dflt : Nat) (r : CfgTake) : Nat × CfgTake :=
  let es := entsFor c t.bytes i
  let bad := es.takeWhile (fun e => !ok e.2.val)
  let r := { r with skipped := r.skipped ++ bad.filter (fun e => !r.skipped.contains e) }
  match es.find? (fun e => ok e.2.val) with
  | some e => (e.2.val, r)
  | none => (dflt, { r with missing := if r.missing.contains t then r.missing else r.missing ++ [t] })

/-- A field's part of a tag's value: a tag of several fields of one register holds the register (15 R445, 11 R353). -/
def tagPart (f : Fld) (hi v : Nat) : Nat := if 2 ^ f.w ≤ hi then bitsAt v f.lo f.w else v

/-- One field of one instance. -/
def takeField (c : CfgPages) (f : Fld) (inst idx : Nat) (r : CfgTake) : CfgTake :=
  match f.rst with
  | .img t lo hi =>
    (match tagValue c t idx (fun v => decide (lo ≤ v) && decide (v ≤ hi)) lo r with
     | (v, r) =>
       let v := tagPart f hi v
       if v = 0 then r else { r with vals := mput (f.key inst) v r.vals })
  | _ => r

/-- A row of the map in every instance of its page. INSTANCE is the repetition within a page, else the page's (00 R8). -/
def takeRow (c : CfgPages) (q : Row) (r : CfgTake) : CfgTake :=
  match q.fld.rst with
  | .img _ _ _ =>
    if q.count = 1 then
      (upFrom 0 q.fld.pg.count).foldl (fun r i => takeField c q.fld i (q.fld.pg.instance_ i) r) r
    else (upFrom 0 q.count).foldl (fun r k => takeField c (q.fld.at q.stride k) 0 k r) r
  | _ => r

/-- Every page type. -/
def Pg.all : List Pg :=
  [.glb, .boot, .safe, .sec, .evt, .ldg, .apt, .thm, .pdn, .twr, .half, .seam, .rgn, .shf, .ray, .brg, .aba, .kvl, .red,
   .snap, .par, .ring]

/-- Every field that the image gives. -/
def takeFields (c : CfgPages) : CfgTake :=
  (Pg.all.flatMap Pg.rows).foldl (fun r q => takeRow c q r) ⟨[], [], []⟩

/-- The image's values that no register holds (18 R495; 20 R528): 16 bits of identity; SYNC_LEVEL 0, 4 or 5; 32 bits of
each port's SHEET_PARTNER; a 7-bit SMBus address. -/
def takeImg (c : CfgPages) (r : CfgTake) : ImgVals × CfgTake :=
  match tagValue c .tRayDevId 0 (fun v => decide (v < 2 ^ 16)) 0 r with
  | (dev, r) =>
    match tagValue c .tSyncLevel 0 (fun v => decide (v = 0) || decide (v = 4) || decide (v = 5)) 0 r with
    | (lvl, r) =>
      match tagValue c .tSmbAddr 0 (fun v => decide (v < 128)) 0 r with
      | (smb, r) =>
        let ps := (upFrom 0 18).foldl (fun (x : SMap Nat × CfgTake) p =>
          match tagValue c .tSheetPartner p (fun v => decide (v < 2 ^ 32)) 0 x.2 with
          | (v, r) => (mput p v x.1, r)) ([], r)
        (⟨dev, lvl, smb, ps.1⟩, ps.2)

/-- Entries whose NAME is no tag. -/
def unknown (l : List CfgEnt) : Nat := (l.filter (fun e => !Tag.all.any (fun t => decide (t.bytes = e.name)))).length

/-- The values take their place (18 R494), stops and cap clamped to the grade (00 R3). -/
def applyCfg (c : CfgPages) (s : State) : State :=
  match takeImg c (takeFields c) with
  | (img, r) =>
    let s := { s with img := img, boot := { s.boot with cfg := r.vals } }
    let old := [R.SAFE_WAKE_TIMER, R.SAFE_WAKE_SMBUS, R.SAFE_WAKE_ABAES].map (fun f => f.key 0)
    let s := { s with regs := r.vals.foldl (fun m e => mput e.1 e.2 m) (s.regs.filter (fun e => !old.contains e.1)) }
    let s := r.skipped.foldl (fun s _ => bump R.BOOT_CFG_STAT_RANGE 0 1 (raise .imgTagRange .boot 0 s)) s
    let s := r.missing.foldl (fun s _ => raise .imgTagMissing .boot 0 s) s
    let s := bump R.BOOT_CFG_STAT_UNKNOWN 0 (unknown c.user + unknown c.factory) s
    let clampF (f lim : Fld) (s : State) : State :=
      match clampTo (rd lim 0 s) (rd f 0 s) s with
      | (v, s) => wr f 0 v s
    clampF R.APT_CTRL_FIX_STOP R.GLB_ID_GRADE_STOP (clampF R.APT_CTRL_MAX_STOP R.GLB_ID_GRADE_STOP
      (clampF R.APT_CAP R.GLB_ID_GRADE_CAP s))

/-- A page or image as far as its LENGTH says. -/
def whole (b : List Byte) : List Byte := b.take (field b 8 4)

/-- The user page is taken or not (18 R494; 20 R524): its entries, and the state. -/
def loadUser (u : List Byte) (s : State) : List CfgEnt × State :=
  let none_ := Config.sha384 (List.replicate 48 0)
  if userAbsent u then ([], measure 4 none_ s)
  else if pageFormat u 1 && userSigOk u s.sec.otp then
    let s := wr R.BOOT_CFG_STAT_USER_OK 0 1 (wr R.BOOT_CFG_STAT_USER_SIGNED 0 (decide (field u 0x14 4 ≠ 0)).toNat s)
    (cfgEnts u, measure 4 (Config.sha384 (whole u)) (wr R.SEC_STAT_USER_VERIFIED 0 s.sec.otp.owner.isSome.toNat s))
  else
    let s := if pageFormat u 1 then wr R.SEC_STAT_CAUSE 0 3 s else s
    ([], measure 4 none_ (raise .userPageInvalid .boot 0 s))

/-- LOAD_PHASE (18 R494). -/
def loadPhase (fl : Flash) (s : State) : State :=
  if rd R.BOOT_STAT_STATE 0 s ≠ 3 then s
  else
    let fw := s.boot.fw.getD fl.fw
    let s := wr R.PDN_STAT_STATE 104 2 (abaTrainStart s)
    let s := measure 2 (Config.sha384 (whole fw)) s
    match fwCheck fw s.sec.revoked s.sec.minSvn with
    | some bad =>
      let s := raise .fwInvalid .boot 0 (wr R.SEC_STAT_CAUSE 0 (if bad = .rollback then 2 else 1) s)
      wr R.BOOT_STAT_STATE 0 9 (wr R.ABA_STAT_RECOVERY 0 1 s)
    | none =>
      let s := wr R.SEC_STAT_FW_VALID 0 1 (wr R.SEC_STAT_FW_SVN 0 (svnOf fw) { s with sec := { s.sec with key := signerOf fw } })
      if !factoryOk fl.factory s.sec.revoked then bootFailed 3 .factoryPageInvalid s
      else
        let s := measure 3 (Config.sha384 (whole fl.factory)) (wr R.BOOT_CFG_STAT_FACTORY_OK 0 1 s)
        match loadUser (s.boot.user.getD fl.user) s with
        | (us, s) => phaseEnd 3 4 (applyCfg ⟨us, cfgEnts fl.factory⟩ s)

end Sys2Proof.Machine
end

