-- ==== Sys2Proof/Machine/Release.lean ====
section
/-! DEFINITION. TRAIN, SHEET and release (18 R488, R489, R495 to R497; 20 R531). -/
namespace Sys2Proof.Machine

/-! ### The fixed copies (01 R46, R49) -/

/-- A field that need not be listed while it holds its value. -/
def note (f : Fld) (i v : Nat) (s : State) : State := if rd f i s = v then s else wr f i v s

/-- PG_STAT.DEGRADED and OUT of a page (21 R536). -/
def noteStat (pg : Pg) (i : Nat) (bad out : Bool) (s : State) : State :=
  note (H.OUT pg) i out.toNat (note (H.DEGRADED pg) i bad.toNat s)

/-- A shaft runs a path or a layer port at half width. -/
def shaftHalf (p : Nat) (s : State) : Bool :=
  flag R.SHF_LANE_SRAM_HALF p s || flag R.SHF_LANE_DRAM_HALF p s || flag R.SHF_PORT_HALF p s

/-- PG_STAT of every page: a DEGRADE condition of 18 R497 in its block; its instance fenced, down, lost or dark. -/
def pageStats (s : State) : State :=
  let s := (upFrom 0 4).foldl (fun s t => noteStat .twr t ((upFrom 0 64).any (fun i => flag (R.TWR_SHIFT_HOLE i) t s)) false s) s
  let s := (upFrom 0 64).foldl (fun s r => noteStat .rgn r (decide (rd R.TWR_RGN_FENCED r s ≠ 0)) (regionDead r s) s) s
  let s := (upFrom 0 106).foldl (fun s d => noteStat .pdn d (decide (rd R.PDN_STAT_PHASES_LOST d s ≠ 0)
    || decide (rd R.PDN_STAT_STATE d s = 3)) (decide (rd R.PDN_STAT_STATE d s ≠ 2)) s) s
  let s := (upFrom 0 8).foldl (fun s h => noteStat .half h (flag R.HALF_FABRIC_LOST h s) (flag R.HALF_FABRIC_LOST h s) s) s
  let s := s.shafts.foldl (fun s e => noteStat .shf e.1 (e.2.lost || e.2.untrusted || shaftHalf e.1 s) e.2.lost s) s
  let s := (upFrom 0 6).foldl (fun s b => noteStat .brg b (decide (brgWidth b 0 s ≠ 2) || decide (brgWidth b 1 s ≠ 2))
    (decide (brgWidth b 0 s = 0) && decide (brgWidth b 1 s = 0)) s) s
  let s := (upFrom 0 18).foldl (fun s p => noteStat .ray p (portBad p s) (decide (rayState p s ≠ 2)) s) s
  let s := (upFrom 0 64).foldl (fun s c => noteStat .red c (decide (rd R.RED_STAT_STATE c s = 2))
    (decide (rd R.RED_STAT_STATE c s = 2)) s) s
  let s := noteStat .par 0 ((upFrom 0 4).any (fun g => decide (2 ≤ rd (R.PAR_STAT_STATE g) 0 s))) false s
  let s := noteStat .thm 0 (!s.therm.blind.isEmpty) false s
  let s := noteStat .aba 0 false (decide (rd R.ABA_STAT_STATE 0 s ≠ 2)) s
  noteStat .glb 0 (decide (syncLevel s = 0) && decide (s.img.level ≠ 0)) false s

/-- The host sees the fixed copies. -/
def showView (s : State) : State :=
  { s with view := s.rof, seqView := s.seqRof, fab := { s.fab with shown := s.fab.retune.getD 0 },
           apt := { s.apt with seen := s.apt.energy } }

/-- Step 2's copy of the ROF fields; a view hold freezes what the host sees of it. -/
def copyRof (s : State) : State :=
  let s := pageStats s
  let s := { s with rof := s.regs, seqRof := s.frame % 2 ^ 32 }
  if flag R.GLB_VIEW_CTRL_HELD 0 s then s else showView s

/-- A field of the exposure that opens, which the copies hold as well. -/
def showNow (f : Fld) (s : State) : State :=
  let v := rd f 0 s
  let s := { s with rof := mput (f.key 0) v s.rof }
  if flag R.GLB_VIEW_CTRL_HELD 0 s then s else { s with view := mput (f.key 0) v s.view }

/-! ### TRAIN -/

/-- Purge at reset (20 R531). -/
def purge (s : State) : State :=
  let all := 2 ^ 2048 - 1
  let s := { s with mem := [], marks := [], voids := [⟨0, memTop, false, none⟩] }
  let s := (upFrom 0 4352).foldl (fun s p => wr R.SHF_TOUCH p 2048 (s.setShaft p { s.shaft p with touch := all })) s
  raise .purgeDone .sec 0 (wr R.SEC_STAT_PURGED 0 1 s)

/-- TRAIN: bridges and Ray ports train; the purge, if it is enabled, but not in a resume. -/
def train (s : State) : State :=
  if rd R.BOOT_STAT_STATE 0 s ≠ 4 || s.boot.trained then s
  else
    let s := if flag R.SEC_POLICY_PURGE 0 s && s.boot.resume.isNone then purge s else s
    let s := domainTick s
    let s := (upFrom 0 18).foldl (fun s p => rayTrainStart p s) s
    setTune (fun u => { u with wires := true }) { s with boot := { s.boot with trained := true } }

/-! ### Release (18 R488, R497) -/

/-- The hole of a half-row, or a fenced core where it has one already (02 R75; 18 R490). -/
def makeHole (c cause : Nat) (s : State) : State :=
  let i := shiftIdx c
  let t := towerOf c
  if flag (R.TWR_SHIFT_HOLE i) t s then fenceCore c cause s
  else wr (R.TWR_SHIFT_HOLE i) t 1 (wr (R.TWR_SHIFT_HOLE_COL i) t (colOf c) s)

/-- The image's sync level and this device's place make it its group's leader (11 R339, R340). -/
def leadsGroup (s : State) : Bool :=
  decide (mySlot s = 0) && (decide (s.img.level = 4)
    || (decide (s.img.level = 5) && decide (boardY s = 0) && decide (boardX s = 0)))

/-- A brake asserted before the release is in force from the first tick (16 R456; 22 R549). -/
def brakeHeld (s : State) : State :=
  wr R.APT_STAT_BRAKE 0 s.apt.pin.toNat (setApt (fun a => { a with brakeOn := none, brakeOff := none }) s)

/-- The release: skips and holes take effect, the frame counter starts or goes on, idle regions are gated, and the state
is READY or DEGRADED. LDG_CHECKS counts the tick that opens the first exposure (21 R544). -/
def release (s : State) : State :=
  let b := s.boot
  let s := b.skips.foldl (fun s k => setSkip k.1 k.2 true s) s
  let s := b.holes.foldl (fun s h => makeHole h.1 h.2 s) s
  let s := (upFrom 0 64).foldl (fun s r => ceilShown r (gateIdle r s)) s
  let frame := match b.resume with
    | some f => f + 1
    | none => 0
  let s := wr R.GLB_FRAME 0 frame (wr R.GLB_GROUP_FRAME 0 frame s)
  let s := wr R.GLB_REFRESH_FIRST 0 (frame % 4) (wr R.GLB_REFRESH_SECOND 0 ((frame + 2) % 4) s)
  let s := (upFrom 0 64).foldl (fun s c => if flag R.RED_CTRL_EN c s then redEnable c s else s) s
  let s := (upFrom 0 4).foldl (fun s g => if flag (R.PAR_CFG_EN g) 0 s then parEnable g s else s) s
  let s := bump R.LDG_CHECKS 0 1 (brakeHeld s)
  let s := { s with tickBase := s.timebase, boot := { s.boot with ticks := true, edge := false, skips := [], holes := [], resume := none } }
  let s := phaseEnd 5 (if degraded s then 8 else 7) s
  copyRof s

/-! ### SHEET (18 R496) -/

/-- A port is expected to train (18 R495). -/
def expected (p : Nat) (s : State) : Bool := (sheetOf p s).testBit 31

/-- A port that has trained with the partner the sheet names. -/
def portMatches (p : Nat) (s : State) : Bool :=
  rayUp p s && decide (bitsAt (sheetOf p s) 0 16 = rd R.RAY_STAT_PARTNER_ID p s)
    && decide (bitsAt (sheetOf p s) 16 5 = rd R.RAY_STAT_PARTNER_PORT p s)

/-- The group's tick has been heard, where the image makes the device a member. -/
def sheetHeard (s : State) : Bool := decide (s.img.level = 0) || leadsGroup s || (s.sync.heard && !s.boot.peerOver)

/-- SHEET is complete without its timer. -/
def sheetDone (s : State) : Bool := (upFrom 0 18).all (fun p => !expected p s || portMatches p s) && sheetHeard s

/-- What each port and the group come to, the first time. -/
def sheetEvents (s : State) : State :=
  let s := (upFrom 0 18).foldl (fun s p =>
    if expected p s && rayState p s ≠ 4 && !rayUp p s then raise .sheetMissing .boot 0 s
    else if !expected p s && rayUp p s then raise .sheetExtra .boot 0 s
    else s) s
  if sheetHeard s then s else raise .sheetNoLeader .boot 0 s

/-- A STRICT port that is narrow or missing holds the device (11 R348). -/
def sheetHolds (s : State) : Bool :=
  (upFrom 0 18).any (fun p => flag R.RAY_CTRL_STRICT p s
    && ((rayUp p s && flag R.RAY_STAT_DEGRADED p s) || (expected p s && !rayUp p s)))

/-- A device whose sheet holds nothing back: a group of one or a leader releases; a member waits for the first edge. -/
def sheetRelease (s : State) : State :=
  if s.img.level = 0 || !sheetHeard s then release (wr R.GLB_SYNC_LEVEL 0 0 s)
  else if leadsGroup s then release (wr R.GLB_SYNC_LEVEL 0 s.img.level (wr R.GLB_SYNC_LEADER 0 1 s))
  else { s with boot := { s.boot with edge := true } }

/-- The sheet is resolved. -/
def sheetResolve (s : State) : State :=
  if s.boot.edge then s
  else
    let first := decide (rd R.BOOT_STAT_STATE 0 s = 5)
    let s := if first then sheetEvents s else s
    if sheetHolds s then
      let s := if s.boot.heldSaid then s
        else raise .sheetHeld .boot 0 { s with boot := { s.boot with heldSaid := true } }
      wr R.BOOT_STAT_STATE 0 6 s
    else sheetRelease s

/-- TRAIN is complete: every port has trained, failed or been disabled. -/
def trainDone (s : State) : Bool := s.boot.trained && (upFrom 0 18).all (fun p => decide (rayState p s ≠ 1))

/-- SHEET: TRAIN ends, the sheet completes, or a held one resolves again. -/
def sheet (s : State) : State :=
  let s := if rd R.BOOT_STAT_STATE 0 s = 4 && trainDone s then phaseEnd 4 5 s else s
  let st := rd R.BOOT_STAT_STATE 0 s
  if (decide (st = 5) && sheetDone s) || decide (st = 6) then sheetResolve s else s

/-- PEER_WAIT_EXPIRY. -/
def peerWait (s : State) : State :=
  if rd R.BOOT_STAT_STATE 0 s ≠ 5 || s.boot.edge then s
  else sheetResolve { s with boot := { s.boot with peerOver := !sheetHeard s } }

/-- A port's state or a STRICT bit has changed: a sheet that waits or is held is looked at again (18 R496, R497). -/
def sheetAgain (s : State) : State :=
  if rd R.BOOT_STAT_STATE 0 s = 5 || rd R.BOOT_STAT_STATE 0 s = 6 then sheet s else s

/-- A member's release at its first edge (18 R497; 11 R342): dark frames until it has the group frame. -/
def memberRelease (s : State) : State :=
  release (wr R.GLB_SYNC_LEVEL 0 s.img.level (wr R.GLB_SYNC_STAT_JOINING 0 1 s))

end Sys2Proof.Machine
end

