-- ==== Sys2Proof/Machine/Service.lean ====
section
/-! DEFINITION. Requested tests (18 R498), sleep and waking (18 R499 to R504). -/
namespace Sys2Proof.Machine

/-! ### Requested tests (18 R498) -/

/-- Towers of a mask, ascending. -/
def towersIn (mask : Nat) : List Nat := (upFrom 0 4).filter (fun t => mask.testBit t)

/-- One of 2^k cores from a base lies in towers of a mask. -/
def spanIn (mask base k : Nat) : Bool := (upFrom 0 4).any (fun t =>
  mask.testBit t && decide (base < (t + 1) * 1024) && decide (t * 1024 < base + 2 ^ k))

/-- What refuses a destructive test: a plate, a snapshot, a parity group or an open bucket there. -/
def testBlocked (mask : Nat) (s : State) : Bool :=
  s.plates.any (fun e => decide (e.2.st ≠ .free) && (match e.2.img with
      | some m => (regionList m.regions).any (fun r => mask.testBit (r / 16))
      | none => true))
    || s.snap.on || s.snap.armed.isSome
    || (upFrom 0 4).any (fun g => flag (R.PAR_CFG_EN g) 0 s
        && spanIn mask (rd (R.PAR_SPAN_CORE_BASE g) 0 s) (rd (R.PAR_SPAN_K g) 0 s))
    || s.red.chans.any (fun e => !e.2.bkts.isEmpty && spanIn mask (rd R.RED_SPAN_CORE_BASE e.1 s) (rd R.RED_SPAN_K e.1 s))

def testRefused (s : State) : State :=
  raise .testRefused .boot 0 (wr R.BOOT_TEST_STATUS 0 3 (wr R.BOOT_TEST_RESULT 0 2 s))

/-- A write of BOOT_TEST with GO. -/
def testRequest (code : Nat) (force : Bool) (towers : Nat) (s : State) : State :=
  if rd R.BOOT_TEST_STATUS 0 s = 1 then raise .testRefused .boot 0 s
  else
    let s := wr R.BOOT_TEST_CODE 0 code (wr R.BOOT_TEST_FORCE 0 force.toNat (wr R.BOOT_TEST_TOWERS 0 towers s))
    if !s.released || code = 0 || 5 < code || (decide (4 ≤ code) && testBlocked towers s) then testRefused s
    else if towers % 16 = 0 then
      raise .testDone .boot 0 (wr R.BOOT_TEST_STATUS 0 2 (wr R.BOOT_TEST_RESULT 0 0 s))
    else
      wr R.BOOT_TEST_STATUS 0 1 (wr R.BOOT_TEST_RESULT 0 0
        { s with boot := { s.boot with test := some ⟨code, towers % 16, force, 0, false, false⟩ } })

/-- Units of a test in one tower. -/
def unitsPer (code : Nat) : Nat := if code = 1 then 10880 else if code = 3 then 16 else 1088

/-- Tower, and number in it, of the next unit. -/
def unitAt (k : Test) : Nat × Nat := (((towersIn k.towers)[k.unit / unitsPer k.code]?).getD 0, k.unit % unitsPer k.code)

/-- The failures of a march unit. -/
def marchUnit (p : Nat) (sram : Bool) (faults : List Bool) (s : State) : State :=
  let s := faults.foldl (fun s corr =>
    if !corr then checkerFailed p s
    else if sram then bump R.SHF_SRAM_CORR p 1 (raise .sramCorr .shf p s)
    else bump R.SHF_DRAM_CORR p 1 (raise .dramCorr .shf p s)) s
  if sram then forgetRange p 0x10000000 0x180000 s else forgetRange p 0 0x8000000 s

/-- The work of one unit, and whether it fails. -/
def unitWork (k : Test) (r : UnitRes) (s : State) : Bool × State :=
  let t := (unitAt k).1
  let u := (unitAt k).2
  if k.code = 1 then
    let p := t * 1088 + u / 10
    let s := if u % 10 = 0 then checkerStart p none s else s
    (decide (r.dram + r.sram ≠ 0), checkerBatch p r.dram r.sram s)
  else if k.code = 2 then
    trainLanes (r.lanes.map (fun l => (t * 1088 + u, l)))
      (setTune (fun k => { k with trims := k.trims.filter (fun e => decide (e.1 / 2272 ≠ t * 1088 + u)),
                                  suspect := k.suspect.filter (fun e => decide (e / 2272 ≠ t * 1088 + u)) }) s)
  else if k.code = 3 then (decide (r.phases ≠ 0), (upFrom 0 (min 6 r.phases)).foldl (fun s _ => phaseLost (t * 16 + u) s) s)
  else (!r.march.isEmpty, marchUnit (t * 1088 + u) (decide (k.code = 4)) r.march s)

/-- The next unit is a checker batch of a position that has had one in this exposure (07 R237). -/
def testWaits (k : Test) (s : State) : Bool :=
  decide (k.code = 1) && decide ((unitAt k).2 % 10 ≠ 0) && !batchDue ((unitAt k).1 * 1088 + (unitAt k).2 / 10) s

/-- TEST_UNIT: the next unit, in a dark frame. -/
def testUnit (r : UnitRes) (s : State) : State :=
  match s.boot.test with
  | none => s
  | some k =>
    if !flag R.GLB_EXP_DARK 0 s || !inService s || testWaits k s then s
    else
      match unitWork k r s with
      | (bad, s) =>
        let k := { k with unit := k.unit + 1, fails := k.fails || bad }
        if k.unit < (towersIn k.towers).length * unitsPer k.code then { s with boot := { s.boot with test := some k } }
        else
          raise .testDone .boot 0 (wr R.BOOT_TEST_STATUS 0 2 (wr R.BOOT_TEST_RESULT 0 k.fails.toNat
            { s with boot := { s.boot with test := none } }))

/-- A test that a launch cancelled ends at the tick. -/
def testTick (s : State) : State :=
  match s.boot.test with
  | some k =>
    if k.cancelled then
      wr R.BOOT_TEST_STATUS 0 2 (wr R.BOOT_TEST_RESULT 0 3 { s with boot := { s.boot with test := none } })
    else s
  | none => s

/-! ### Sleep (18 R499 to R502) -/

/-- SLEEP_DIM and SLEEP_DARK: the request is decided at the next tick. -/
def sleepRequest (dark : Bool) (s : State) : State :=
  if s.released then later (if dark then .sleepDark else .sleepDim) s else s

/-- A parity generation is being formed. -/
def parForming (s : State) : Bool := s.red.groups.any (fun e =>
  e.2.posted.isSome || !e.2.sentTo.isEmpty || !e.2.got.isEmpty || !e.2.dones.isEmpty || e.2.doneSaid)

/-- What refuses sleep. -/
def sleepBlocked (s : State) : Bool :=
  s.plates.any (fun e => e.2.job.isSome) || s.red.chans.any (fun e => !e.2.bkts.isEmpty) || s.snap.on
    || s.snap.armed.isSome || parForming s || s.boot.test.isSome

/-- The tick of a Dim request; a device that has failed meanwhile does not sleep (19 R518). -/
def sleepDim (s : State) : State :=
  if !s.released || sleepBlocked s then raise .sleepRefused .boot 0 s
  else
    let s := wr R.BOOT_STAT_STATE 0 11 (leaveGroup s)
    { s with boot := { s.boot with ticks := false } }

/-- The tick of a Dark request: only the safelight domain and the DRAM arrays go on. -/
def sleepDark (s : State) : State :=
  if !s.released || sleepBlocked s || s.plates.any (fun e => decide (e.2.st ≠ .free)) then raise .sleepRefused .boot 0 s
  else
    let f := s.frame
    let s := startState 2 (rd R.SAFE_DOWN 0 s) true s
    { s with boot := { s.boot with resume := some f } }

/-- WAKE_FROM_DIM (18 R500). -/
def wakeDim (s : State) : State :=
  if rd R.BOOT_STAT_STATE 0 s ≠ 11 then s
  else
    let s := wr R.BOOT_STAT_RESET_KIND 0 3
      { s with tickBase := s.timebase, latches := [], boot := { s.boot with ticks := true } }
    rejoin (wr R.BOOT_STAT_STATE 0 (if degraded s then 8 else 7) s)

/-- A wake source ends Dark (18 R502, R504). -/
def wakeDark (cause : Nat) (s : State) : State :=
  if s.boot.resume.isNone || s.boot.woken then s
  else wr R.SAFE_WAKE_CAUSE 0 cause (wr R.SAFE_DOWN 0 4
    { s with boot := { s.boot with woken := true, phaseAt := s.timebase } })

/-- WAKE_TIMER_EXPIRY. -/
def wakeTimer (s : State) : State :=
  if flag R.SAFE_WAKE_TIMER 0 s && decide (rd R.SAFE_WAKE_AT 0 s ≤ s.timebase) then wakeDark 1 s else s

/-- DARK_WAKE_SIGNAL: an SMBus write to the wake address, or signal detect on an Abaes lane. -/
def wakeSignal (smbus : Bool) (s : State) : State :=
  if smbus && flag R.SAFE_WAKE_SMBUS 0 s then wakeDark 2 s
  else if !smbus && flag R.SAFE_WAKE_ABAES 0 s then wakeDark 3 s
  else s

end Sys2Proof.Machine
end

