-- ==== Sys2Proof/Machine/Recovery.lean ====
section
/-! DEFINITION. Recovery loads (21 R542; 15 R443; 18 R494): an image fetched from host memory or taken over SMBus is
verified, programmed into the flash and read back. -/
namespace Sys2Proof.Machine

def setRl (r : Option RecLoad) (s : State) : State := { s with boot := { s.boot with rl := r } }

/-- A load fails with a cause. -/
def rlFail (cause : Nat) (s : State) : State :=
  raise .rlFail .boot 0 (wr R.BOOT_RL_CTRL_STATUS 0 3 (wr R.BOOT_RL_CTRL_CAUSE 0 cause (setRl none s)))

/-- A GO while a load runs: it completes as BUSY and the running load goes on. -/
def rlBusy (s : State) : State := raise .rlFail .boot 0 (wr R.BOOT_RL_CTRL_CAUSE 0 1 s)

/-- The target range of the flash. -/
def program (user : Bool) (b : List Byte) (s : State) : State :=
  if user then { s with boot := { s.boot with user := some b } } else { s with boot := { s.boot with fw := some b } }

/-- Bytes a target may have. -/
def rlLimit (user : Bool) : Nat := if user then 0x100000 else 0x2000000

/-- Why an image is not programmed: 4 FORMAT, 5 SIGNATURE, 6 ROLLBACK. A user page must pass 20 R524 once OWNER_SET = 1. -/
def rlVerify (user : Bool) (b : List Byte) (s : State) : Option Nat :=
  if user then
    if !pageFormat b 1 then some 4
    else if flag R.SEC_STAT_OWNER_SET 0 s && !userSigOk b s.sec.otp then some 5
    else none
  else (fwCheck b s.sec.revoked s.sec.minSvn).map (fun k => match k with
    | .format => 4
    | .signature => 5
    | .rollback => 6)

/-- The read-back, and the end of a load: in the recovery state a warm reset follows at once. -/
def rlEnd (user : Bool) (first b : List Byte) (s : State) : State :=
  let s := wr R.BOOT_RL_DONE 0 b.length s
  if !s.boot.partOk then rlFail 7 s
  else if Config.sha384 b ≠ Config.sha384 first then rlFail 8 s
  else
    let s := program user b s
    let s := raise .rlDone .boot 0 (wr R.BOOT_RL_CTRL_STATUS 0 2 (wr R.BOOT_RL_CTRL_CAUSE 0 0 (setRl none s)))
    if rd R.BOOT_STAT_STATE 0 s = 9 then startState 1 5 false s else s

/-- The image lies in DMA window 0, which allows READ. -/
def inWindow0 (a n : Nat) (s : State) : Bool :=
  flag (R.ABA_WIN_CTRL_EN 0) 0 s && flag (R.ABA_WIN_CTRL_READ 0) 0 s && decide (rd (R.ABA_WIN_BASE 0) 0 s ≤ a)
    && decide (a + n ≤ rd (R.ABA_WIN_BASE 0) 0 s + rd (R.ABA_WIN_SIZE 0) 0 s)

/-- The next 4 KiB of a pass are fetched. -/
def rlFetch (s : State) : State :=
  match s.boot.rl with
  | none => s
  | some k =>
    let a := rd R.BOOT_RL_ADDR 0 s + k.buf.length
    let n := min 4096 (k.len - k.buf.length)
    if !inWindow0 a n s then rlFail 3 (dmaFail s)
    else
      match dmaRead a n (.recovery k.pass) s with
      | (true, s) => s
      | (false, s) => rlFail 3 s

/-- RECOVERY_LOAD: a write of BOOT_RL_CTRL.GO. `flashOk`: the flash programs and reads back without an error. -/
def recoveryLoad (flashOk : Bool) (s : State) : State :=
  if !awake s then s
  else if s.boot.rl.isSome then rlBusy s
  else
    let user := flag R.BOOT_RL_CTRL_TARGET 0 s
    let n := rd R.BOOT_RL_LEN 0 s
    let s := wr R.BOOT_RL_CTRL_SMBUS 0 0 (wr R.BOOT_RL_DONE 0 0 s)
    if n = 0 || rlLimit user < n then rlFail 2 s
    else
      let s := wr R.BOOT_RL_CTRL_STATUS 0 1 (wr R.BOOT_RL_CTRL_CAUSE 0 0 s)
      rlFetch { s with boot := { s.boot with partOk := flashOk, rl := some ⟨user, false, 1, n, [], []⟩ } }

/-- Bytes of a pass arrive. -/
def rlBytes (d : List Byte) (s : State) : State :=
  match s.boot.rl with
  | none => s
  | some k =>
    let b := k.buf ++ d
    let s := if k.pass = 2 then wr R.BOOT_RL_DONE 0 b.length s else s
    if b.length < k.len then rlFetch (setRl (some { k with buf := b }) s)
    else if k.pass = 1 then
      match rlVerify k.user b s with
      | some c => rlFail c s
      | none => rlFetch (setRl (some { k with pass := 2, buf := [], first := b }) (program k.user [] s))
    else rlEnd k.user k.first b s

/-- A fetch of a pass fails (15 R439). -/
def rlLost (s : State) : State := if s.boot.rl.isSome then rlFail 3 s else s

/-- SMBUS_RECOVERY_LOAD: the same load over SMBus, the image whole. -/
def smbusLoad (user : Bool) (b : List Byte) (flashOk : Bool) (s : State) : State :=
  if !awake s then s
  else if s.boot.rl.isSome then rlBusy s
  else
    let s := wr R.BOOT_RL_CTRL_SMBUS 0 1 (wr R.BOOT_RL_DONE 0 0 s)
    if b.length = 0 || rlLimit user < b.length then rlFail 2 s
    else
      match rlVerify user b s with
      | some c => rlFail c s
      | none => rlEnd user b b (program user [] { s with boot := { s.boot with partOk := flashOk } })

end Sys2Proof.Machine
end

