-- ==== Sys2Proof/Machine/Security.lean ====
section
/-! DEFINITION. Security and attestation (20 R522 to R530): the owner key, SVN and revocation, debug unlock, the SPDM
responder. -/
namespace Sys2Proof.Machine

def setSec (f : Sec → Sec) (s : State) : State := { s with sec := f s.sec }
def setOtp (f : Otp → Otp) (s : State) : State := setSec (fun k => { k with otp := f k.otp }) s

/-- A number of `n` words of 32 bits, the first lowest. -/
def wordsNat (f : Nat → Nat) (n : Nat) : Nat := ((upFrom 0 n).map (fun i => f i * 2 ^ (32 * i))).sum

/-! ### OTP (20 R522, R523) -/

/-- SEC_OWNER_HASH as a number of 48 bytes. -/
def ownerHash (s : State) : Nat := wordsNat (fun i => rd (R.SEC_OWNER_HASH i) 0 s) 12

/-- OWNER_PROGRAM: a write of SEC_OWNER_CTRL; `readBack`: what the OTP reads back matches. -/
def ownerProgram (w : Nat) (readBack : Bool) (s : State) : State :=
  if w ≠ 0x4F574E52 || !s.released || s.sec.otp.owner.isSome then s
  else
    let s := setOtp (fun o => { o with owner := some (ownerHash s), spoiled := !readBack }) s
    let s := later .ownerSet s
    if readBack then raise .ownerSet .sec 0 s else raise .ownerProgFail .sec 0 s

/-- The tick after programming: OWNER_SET and SPOILED. -/
def ownerShown (s : State) : State :=
  wr R.SEC_STAT_OWNER_SET 0 1 (wr R.SEC_STAT_SPOILED 0 s.sec.otp.spoiled.toNat s)

/-- SVN_COMMIT: the OTP minimum rises to the running image's SVN; checks use it from the next start-up. -/
def svnCommit (s : State) : State :=
  if !flag R.SEC_STAT_FW_VALID 0 s then s
  else
    let n := max s.sec.otp.minSvn (rd R.SEC_STAT_FW_SVN 0 s)
    wr R.SEC_STAT_MIN_SVN 0 n (setOtp (fun o => { o with minSvn := n }) s)

/-- KEY_REVOKE: keys other than the running image's own. -/
def keyRevoke (keys : Nat) (s : State) : State :=
  let keys := keys % 16
  if keys = 0 || !flag R.SEC_STAT_FW_VALID 0 s || keys.testBit s.sec.key then s
  else
    let n := s.sec.otp.revoked ||| keys
    raise .keyRevoked .sec 0 (wr R.SEC_STAT_REVOKED 0 n (setOtp (fun o => { o with revoked := n }) s))

/-! ### Debug unlock (20 R529, R530) -/

/-- A number of 8 words that the responder draws. -/
def fresh256 (s : State) : Nat × State := (Config.freeValue s.free % 2 ^ 256, { s with free := s.free + 1 })

/-- Further requests are refused after 8 failures since reset. -/
def debugBarred (s : State) : Bool := decide (8 ≤ rd R.SEC_DBG_CTRL_FAILS 0 s)

/-- NONCE_REQ: LEVEL is written and 32 fresh random bytes are loaded (entry 1). -/
def nonceReq (level : Nat) (s : State) : State :=
  let s := wr R.SEC_DBG_CTRL_LEVEL 0 level s
  if debugBarred s then wr R.SEC_DBG_CTRL_RESULT 0 3 s
  else
    match fresh256 s with
    | (n, s) =>
      let s := (upFrom 0 8).foldl (fun s i => wr (R.SEC_DBG_NONCE i) 0 (bitsAt n (32 * i) 32) s) s
      wr R.SEC_DBG_CTRL_RESULT 0 0 (setSec (fun k => { k with nonce := some n }) s)

/-- The digest that a response signs: nonce, serial, LEVEL as one byte. -/
def debugDigest (nonce level : Nat) (s : State) : Nat :=
  Config.sha384 (leBytes 32 nonce ++ leBytes 16 (wordsNat (fun i => rd (R.SEC_SERIAL i) 0 s) 4) ++ leBytes 1 level)

/-- The response's signature, r then s. -/
def debugSig (s : State) : Nat := wordsNat (fun i => rd (R.SEC_DBG_RESP i) 0 s) 24

/-- The key of SEC_DBG_KEY, 97 bytes. -/
def debugKey (s : State) : Nat := wordsNat (fun i => rd (R.SEC_DBG_KEY i) 0 s) 25 % 2 ^ 776

/-- Level 1: the owner's key signs, and an unspoiled owner is set. -/
def ownerUnlock (d : Nat) (s : State) : Bool :=
  match s.sec.otp.owner with
  | none => false
  | some h => !s.sec.otp.spoiled && decide (Config.sha384 (leBytes 97 (debugKey s)) = h) && Config.sigOk (debugKey s) d (debugSig s)

/-- Level 2: a Zorleril key that is not revoked signs, and no plate is loaded. -/
def vendorUnlock (d : Nat) (s : State) : Bool :=
  s.plates.all (fun e => decide (e.2.st = .free))
    && (upFrom 0 4).any (fun i => !s.sec.revoked.testBit i && Config.sigOk (Config.zorKey i) d (debugSig s))

/-- SUBMIT: the response is verified, once for each nonce. -/
def submit (s : State) : State :=
  if debugBarred s then wr R.SEC_DBG_CTRL_RESULT 0 3 s
  else
    let level := rd R.SEC_DBG_CTRL_LEVEL 0 s
    let ok := match s.sec.nonce with
      | none => false
      | some n =>
        let d := debugDigest n level s
        if level = 1 then ownerUnlock d s else if level = 2 then vendorUnlock d s else false
    let s := setSec (fun k => { k with nonce := none }) s
    if ok then
      raise .debugUnlock .sec 0 (later (.debugOn level) (wr R.SEC_DBG_CTRL_RESULT 0 1 s))
    else
      raise .debugDenied .sec 0 (wr R.SEC_DBG_CTRL_FAILS 0 (min 8 (rd R.SEC_DBG_CTRL_FAILS 0 s + 1))
        (wr R.SEC_DBG_CTRL_RESULT 0 2 s))

/-! ### SPDM (20 R525 to R528) -/

/-- The connection of an endpoint: 0 the mailbox, 1 SMBus. -/
def connOf (m : SpdmMsg) : Nat := m.smbus.toNat
def spdmConn (m : SpdmMsg) (s : State) : Spdm := mgetD (connOf m) ⟨0, []⟩ s.sec.conns

/-- The responder may answer: the Darkroom has booted, and the mailbox needs the Abaes link. -/
def spdmServes (m : SpdmMsg) (s : State) : Bool :=
  awake s && decide (2 ≤ rd R.BOOT_STAT_STATE 0 s) && (m.smbus || abaUp s)

/-- A reply given: it joins the transcript; the mailbox shows it in SEC_MCTP_RX, whose words and length are the packet's
(free values: the coding is DSP0236's and DSP0274's, entry 1). -/
def spdmReply (m : SpdmMsg) (stage : Nat) (b : SpdmBody) (s : State) : State :=
  let c := connOf m
  let k := spdmConn m s
  let s := setSec (fun x => { x with conns := mput c ⟨stage, k.script ++ m.body⟩ x.conns, replies := mput c b x.replies }) s
  if m.smbus then s
  else
    let n := s.free
    let s := { s with free := n + 257 }
    let s := (upFrom 0 256).foldl (fun s i => wr (R.SEC_MCTP_RX i) 0 (Config.freeValue (n + i)) s) s
    wr R.SEC_MCTP_CTRL_RX_READY 0 1 (wr R.SEC_MCTP_CTRL_RX_LEN 0 (Config.freeValue (n + 256) % 1025) s)

/-- ERROR UnexpectedRequest: a request out of its connection's order (PRESUMED: DSP0274's code 0x04). -/
def spdmEarly (m : SpdmMsg) (s : State) : State := spdmReply m (spdmConn m s).stage (.error 0x04) s

/-- A request that needs a negotiated connection. -/
def spdmWith (m : SpdmMsg) (b : SpdmBody) (s : State) : State :=
  if !spdmServes m s then s
  else if (spdmConn m s).stage < 3 then spdmEarly m s
  else spdmReply m 3 b s

/-- GET_VERSION starts its endpoint's connection anew. -/
def getVersion (m : SpdmMsg) (s : State) : State :=
  if !spdmServes m s then s
  else spdmReply m 1 .version (setSec (fun x => { x with conns := mput (connOf m) ⟨0, []⟩ x.conns }) s)

/-- GET_CAPABILITIES: CERT_CAP, CHAL_CAP and MEAS_CAP = 2, CTExponent 15 (the places of the bits are DSP0274's: 1, 2 and
[4:3], PRESUMED). -/
def getCapabilities (m : SpdmMsg) (s : State) : State :=
  if !spdmServes m s then s
  else if (spdmConn m s).stage ≠ 1 then spdmEarly m s
  else spdmReply m 2 (.capabilities (2 + 4 + 16) 15) s

/-- NEGOTIATE_ALGORITHMS. -/
def negotiate (m : SpdmMsg) (s : State) : State :=
  if !spdmServes m s then s
  else if (spdmConn m s).stage ≠ 2 then spdmEarly m s
  else spdmReply m 3 .algorithms s

/-- GET_DIGESTS: slot 0 only. -/
def getDigests (m : SpdmMsg) (s : State) : State := spdmWith m (.digests 0) s

/-- GET_CERTIFICATE: a part of slot 0's chain. -/
def getCertificate (m : SpdmMsg) (s : State) : State := spdmWith m (.certificate m.off m.len) s

/-- SEC_STAT as a word. -/
def secStat (s : State) : Nat :=
  rd R.SEC_STAT_FW_VALID 0 s + 2 * rd R.SEC_STAT_OWNER_SET 0 s + 4 * rd R.SEC_STAT_SPOILED 0 s
    + 8 * rd R.SEC_STAT_USER_VERIFIED 0 s + 16 * rd R.SEC_STAT_DEBUG 0 s + 64 * rd R.SEC_STAT_PURGED 0 s
    + 256 * rd R.SEC_STAT_FW_SVN 0 s + 65536 * rd R.SEC_STAT_MIN_SVN 0 s + 2 ^ 24 * rd R.SEC_STAT_REVOKED 0 s
    + 2 ^ 28 * rd R.SEC_STAT_CAUSE 0 s

/-- The digest of a measurement: 1 to 5 as start-up took them, 6 live (20 R526). -/
def measurement (i : Nat) (s : State) : Nat :=
  if i = 6 then Config.sha384 (leBytes 4 (secStat s) ++ leBytes 48 (if flag R.SEC_STAT_OWNER_SET 0 s then s.sec.otp.owner.getD 0 else 0))
  else mgetD i 0 s.sec.meas

/-- What a signature covers: the connection's transcript with the request. -/
def spdmSign (m : SpdmMsg) (d : Nat) (s : State) : Nat :=
  Config.sign (Config.sha384 ((spdmConn m s).script ++ m.body)) d

/-- CHALLENGE: the summary of all measurements, signed. -/
def challenge (m : SpdmMsg) (s : State) : State :=
  let d := Config.sha384 ((upFrom 1 6).flatMap (fun i => leBytes 48 (measurement i s)))
  spdmWith m (.challenge d (spdmSign m d s)) s

/-- The blocks asked for: all of them for index 0xFF. -/
def measBlocks (idx : Nat) (s : State) : List (Nat × Nat) :=
  ((upFrom 1 6).filter (fun i => decide (idx = 0xFF) || decide (idx = i))).map (fun i => (i, measurement i s))

/-- GET_MEASUREMENTS: the blocks of an index, signed if asked. Index 0 asks for their number only. -/
def getMeasurements (m : SpdmMsg) (s : State) : State :=
  let bs := measBlocks m.idx s
  let d := Config.sha384 (bs.flatMap (fun b => leBytes 48 b.2))
  spdmWith m (.measurements bs (if m.signed then some (spdmSign m d s) else none)) s

/-- Any other request: ERROR UnsupportedRequest (DSP0274's code 0x07, PRESUMED). -/
def unsupported (m : SpdmMsg) (s : State) : State :=
  if !spdmServes m s then s else spdmReply m (spdmConn m s).stage (.error 0x07) s

end Sys2Proof.Machine
end

