-- ==== Sys2Proof/Machine/RegAccess.lean ====
section
/-! DEFINITION. Register access (00 R4 to R7; 15 R435; 19 R509; 21 R534 to R538): which fields a word holds, what a read
returns, what a write does by access code, and what the tick makes of writes that waited for it. -/
namespace Sys2Proof.Machine

/-! ### Words and fields -/

/-- The field of a map row that has bits in the word at `off`, and whether these are its high half (00 R4). -/
def rowAt (off : Nat) (q : Row) : Option (Fld × Bool) :=
  let d := off - q.fld.off
  let k := if q.stride = 0 then 0 else d / q.stride
  let r := d - k * q.stride
  if off < q.fld.off || decide (q.count ≤ k) then none
  else if r = 0 then some (q.fld.at q.stride k, false)
  else if r = 4 && decide (32 < q.fld.w) then some (q.fld.at q.stride k, true)
  else none

/-- The block fields of a word. -/
def wordFields (pg : Pg) (off : Nat) : List (Fld × Bool) := pg.rows.filterMap (rowAt off)

/-- The instance that a field names: its page's, or the ring or plate selected (14 R426). -/
def fldInst (f : Fld) (i : Nat) (s : State) : Nat :=
  match f.sel with
  | .page => i
  | .ring => rd R.RING_SEL 0 s
  | .plate => rd R.RING_PLATE_SEL 0 s

/-- Bits of a word that a field takes. -/
def wordMask (f : Fld) : Nat := if 32 < f.w then 2 ^ 32 - 1 else (2 ^ f.w - 1) <<< f.lo

/-- The bits of a word that fields take. -/
def definedBits (fs : List (Fld × Bool)) : Nat := fs.foldl (fun m f => m ||| wordMask f.1) 0

/-- Ticks run, or will run again when Dim ends. -/
def ticksRun (s : State) : Bool := inService s || decide (rd R.BOOT_STAT_STATE 0 s = 11)

/-! ### Pending writes (00 R6, R7) -/

/-- The part of a field that a pending write replaces: bit, width, value. -/
def actOn (f : Fld) (i : Nat) : TickAct → Option (Nat × Nat × Nat)
  | .write pg j off lo w v =>
    if pg = f.pg ∧ j = i ∧ off = f.off ∧ f.lo ≤ lo ∧ lo < f.lo + f.w then some (lo - f.lo, w, v) else none
  | _ => none

/-- A field's value once the pending writes of a list are in force. -/
def withActs (l : List TickAct) (f : Fld) (i v : Nat) : Nat :=
  l.foldl (fun v a => match actOn f i a with
    | some (lo, w, x) => putBits v lo w x
    | none => v) v

/-- The first field that a pending write falls in. -/
def fieldOf (pg : Pg) (off lo : Nat) : Option Fld :=
  ((wordFields pg off).find? (fun f => !f.2 && decide (f.1.lo ≤ lo) && decide (lo < f.1.lo + f.1.w))).map (fun f => f.1)

/-- A pending change that the host wrote: one of a field that it may write. -/
def hostWrote (pg : Pg) (off lo : Nat) : Bool :=
  match fieldOf pg off lo with
  | some f => decide (f.acc ≠ .ro) && decide (f.acc ≠ .rof)
  | none => true

/-- The page of an action that waits for the tick: `soon` if a register write that PENDING names in service made it (21
R536); the others are named in Dim (18 R501). -/
def actPage : TickAct → Option (Pg × Nat × Bool)
  | .write pg i off lo _ _ => if hostWrote pg off lo then some (pg, i, true) else none
  | .softReset pg i => some (pg, i, true)
  | .viewHold _ => some (.glb, 0, false)
  | .fence c k => if k = 8 then some (.rgn, regionOf c, false) else none
  | .reseat t _ _ => some (.twr, t, false)
  | .ringReset _ => some (.ring, 0, false)
  | .redUnfence c => some (.red, c, false)
  | .rwClr r _ => some (.rgn, r, false)
  | _ => none

/-- PG_STAT.PENDING. -/
def pagePending (pg : Pg) (i : Nat) (s : State) : Bool :=
  let dim := decide (rd R.BOOT_STAT_STATE 0 s = 11)
  (s.acts ++ s.late).any (fun a => match actPage a with
    | some (q, j, soon) => decide (q = pg) && (decide (j = i) || decide (pg = .ring)) && (soon || dim)
    | none => false)

/-! ### Reads -/

/-- What a field reads: the pending value of RWT, and of RW while APPLY holds it; the fixed copy of ROF, live until the
first tick. A RED_CAP_HOLD of 3 reads as 2 (12 R377). -/
def fieldShown (f : Fld) (i : Nat) (s : State) : Nat :=
  let k := fldInst f i s
  match f.acc with
  | .wo => 0
  | .rof => if ticksRun s then mgetD (f.key k) f.dflt s.view else rd f k s
  | .rw =>
    let v := withActs (s.acts ++ s.late) f k (rd f k s)
    if f = R.RED_CAP_HOLD then min 2 v else v
  | .rwt => withActs (s.acts ++ s.late) f k (rd f k s)
  | _ => rd f k s

/-- The event of a code. -/
def evOfCode (code : Nat) : Option Ev := Ev.all.find? (fun e => decide (e.code = code))

/-- A word of EVT_NAME (19 R513). -/
def nameWord (k : Nat) (s : State) : Nat :=
  match evOfCode (fieldShown R.EVT_NAME_SEL 0 s) with
  | some e => leNat (((e.name.toList.map (fun c => BitVec.ofNat 8 c.toNat)).drop (4 * k)).take 4)
  | none => 0

/-- SHF_MAP of a position (02 R80); until FUSE has loaded the shift maps its fields hold their reset values. -/
def mapWord (p : Nat) (s : State) : Nat :=
  if !s.boot.mapped then 0x7FF + 0x7FF * 2 ^ 16 else
  let t := p / 1088
  let i := p % 1088 / 544 * 32 + p % 544 / 17
  let col := p % 17
  let skip := fieldShown (R.TWR_SHIFT_SKIP i) t s
  let hole (c : Nat) : Bool := decide (fieldShown (R.TWR_SHIFT_HOLE i) t s = 1) && decide (fieldShown (R.TWR_SHIFT_HOLE_COL i) t s = c)
  let base := p % 1088 / 544 * 512 + p % 544 / 17 * 16
  let mem := if col = 16 then 0x7FF else base + col
  let c := if skip < col then col - 1 else col
  let core := if col = skip || decide (c = 16) || hole c then 0x7FF else base + c
  mem + core * 2 ^ 16 + (decide (col < 16) && decide (skip ≤ col)).toNat * 2 ^ 27 + (decide (col < 16) && hole col).toNat * 2 ^ 28

/-- The frame counter that the safelight holds (18 R488). -/
def safeFrame (s : State) : Nat := s.boot.resume.getD s.frame

/-- A word whose value is computed. -/
def computed (pg : Pg) (i off : Nat) (s : State) : Option Nat :=
  match pg with
  | .safe => if off = 0x58 then some (s.timebase % 2 ^ 64) else if off = 0x60 then some (safeFrame s) else none
  | .apt => if off = 0x80 then some (jobEnergy (fieldShown R.APT_JOB_SEL 0 s) s) else none
  | .evt => if 0x80 ≤ off ∧ off < 0xA0 then some (nameWord ((off - 0x80) / 4) s) else none
  | .shf =>
    if off = 0x48 then some (mapWord i s)
    else if off = 0xA8 then some (min (backlog i s) 0xFFFFFF + min (backlogCmds i s) 255 * 2 ^ 24)
    else none
  | _ => none

/-- The fields of the word or pair that begins at `off`, in their places. -/
def fieldsValue (pg : Pg) (i off : Nat) (s : State) : Nat :=
  ((wordFields pg off).filter (fun f => !f.2)).foldl (fun v f => v ||| fieldShown f.1 i s <<< f.1.lo) 0

/-- A header word, or the pair of PG_EVT_CNT (19 R509; 21 R536). -/
def headerValue (pg : Pg) (i off : Nat) (s : State) : Nat :=
  match off with
  | 0x00 => 1 + pg.instance_ i * 2 ^ 8 + pg.type i * 2 ^ 20
  | 0x04 => (pg.rows.any (fun q => decide (q.fld.acc = .rof))).toNat + 2 * (pg.rows.any (fun q => decide (q.fld.acc = .rwl))).toNat
      + 4 * pg.sreset.toNat + pg.count * 2 ^ 16
  | 0x08 => rd (H.EN pg) i s + 4 * rd (H.LOCK pg) i s + 8 * rd (H.APPLY pg) i s
  | 0x0C => fieldShown (H.DEGRADED pg) i s + 2 * fieldShown (H.OUT pg) i s
      + 4 * (if ticksRun s then mgetD ((H.LOCK pg).key i) 0 s.view else rd (H.LOCK pg) i s) + 8 * (pagePending pg i s).toNat
  | 0x10 => rd (H.SEV pg) i s + (match mget (pageKey pg i) s.lastEv with
      | some e => e.code
      | none => 0) * 2 ^ 16
  | 0x14 => rd (H.EVT_EN pg) i s + 0xC
  | 0x1C => s.seqView
  | 0x20 => rd (H.EVT_CNT pg) i s
  | _ => 0

/-- The register that begins at `off`. -/
def regValue (pg : Pg) (i off : Nat) (s : State) : Nat :=
  if off < 0x40 then headerValue pg i off s
  else
    match computed pg i off s with
    | some v => v
    | none => fieldsValue pg i off s
      + (if pg = .shf && decide (off = 0x40) then s.fab.shown * 2 ^ 16 else 0)

/-- The word is the low word of a 64-bit register; the high word. -/
def isLow (pg : Pg) (off : Nat) : Bool := off = 0x20 || (wordFields pg off).any (fun f => decide (32 < f.1.w) && !f.2)
def isHigh (pg : Pg) (off : Nat) : Bool := off = 0x24 || (wordFields pg off).any (fun f => f.2)

/-- Key of a 64-bit register's latch. -/
def latchKey (pg : Pg) (i off : Nat) : Nat := pageKey pg i * 4096 + off

/-- One word of a page read (00 R4): a low word latches its high word, which later reads of the high word return. -/
def readPage (pg : Pg) (i off : Nat) (s : State) : Nat × State :=
  if isHigh pg off then (mgetD (latchKey pg i (off - 4)) 0 s.latches, s)
  else
    let v := regValue pg i off s
    if isLow pg off then (v % 2 ^ 32, { s with latches := mput (latchKey pg i off) (v / 2 ^ 32) s.latches })
    else (v % 2 ^ 32, s)

/-! ### Writes -/

/-- GLB_WR_IGNORED and GLB_RSVD_WR count (00 R5; 21 R537). -/
def wrIgnored (s : State) : State := bump R.GLB_WR_IGNORED 0 1 s
def rsvdWr (s : State) : State := bump R.GLB_RSVD_WR 0 1 s

def within (lo hi v : Nat) : Nat := min hi (max lo v)

/-- A value as a field accepts it: clamped to its range or to the grade (00 R3; 17 R483; 21 R540). -/
def accept (f : Fld) (v : Nat) (s : State) : Nat × State :=
  if f = R.GLB_SYNC_LOSS then (within 9 1000 v, s)
  else if f = R.GLB_REJOIN_LIMIT then (within 10 60000 v, s)
  else if f = R.THM_CTRL_LOGIC_THR then (within 90 104 v, s)
  else if f = R.THM_CTRL_DRAM_THR then (within 86 94 v, s)
  else if f = R.APT_CTRL_FIX_STOP || f = R.APT_CTRL_MAX_STOP then clampTo (rd R.GLB_ID_GRADE_STOP 0 s) v s
  else if f = R.APT_CAP then clampTo (rd R.GLB_ID_GRADE_CAP 0 s) v s
  else (v, s)

/-- A field that refuses a write now: a test's while one runs (18 R498), the owner hash once the OTP holds one (20 R532), an
enabled ring's configuration but for EN (14 R411). -/
def refuses (f : Fld) (i : Nat) (s : State) : Bool :=
  (decide (f.pg = .boot) && decide (f.off = 0x50) && decide (rd R.BOOT_TEST_STATUS 0 s = 1))
    || (decide (f.pg = .sec) && decide (0x60 ≤ f.off) && decide (f.off < 0x90) && s.sec.otp.owner.isSome)
    || (decide (f.sel = .ring) && decide (f ≠ R.RING_CFG_EN) && flag R.RING_CFG_EN (fldInst f i s) s)

/-- Region power follows IDLE_GATE (16 R461). -/
def gateAll (s : State) : State := (upFrom 0 64).foldl (fun s r => gateIdle r s) s

/-- RAY_CTRL.ROLE takes effect (11 R329, R353): a port that becomes UNUSED goes down, one that was trains. -/
def setRole (p v : Nat) (s : State) : State :=
  let old := rayRole p s
  let s := wr R.RAY_CTRL_ROLE p v s
  if v = 0 then (if old = 0 then s else rayDark p 0 (rd R.RAY_STAT_LAST_CAUSE p s) s)
  else if old = 0 then rayTrainStart p s
  else s

/-- A field of instance `k` takes the value `v`, with what that brings about. -/
def effect (f : Fld) (k v : Nat) (s : State) : State :=
  if f = R.GLB_VIEW_CTRL_HOLD then viewHold (decide (v = 1)) s
  else if f = R.GLB_ROUTE_AT then routeArm v s
  else if f = R.APT_CAP then capApply v s
  else if f = R.APT_CTRL_IDLE_GATE then gateAll (wr f k v s)
  else if f = R.PDN_CTRL then (if v = 1 then regionWake k (wr f k v s) else wr f k v s)
  else if f = R.RAY_CTRL_ROLE then setRole k v s
  else if f = R.RAY_CTRL_DISABLE then sheetAgain (rayDisable k (decide (v = 1)) s)
  else if f = R.RAY_CTRL_STRICT then sheetAgain (wr f k v s)
  else if f = R.SNAP_AT then snapArm v s
  else if f = R.RING_CFG_EN then ringShow k (wr f k v s)
  else wr f k v s

/-- A field written by the host at once: `hi` for the high word of a 64-bit field. -/
def putNow (f : Fld) (i : Nat) (hi : Bool) (v : Nat) (s : State) : State :=
  let k := fldInst f i s
  if 32 < f.w then effect f k (putBits (rd f k s) (if hi then 32 else 0) 32 v) s
  else
    match accept f v s with
    | (v, s) => effect f k v s

/-- A field whose write waits for the tick. -/
def putLater (f : Fld) (i : Nat) (hi : Bool) (v : Nat) (s : State) : State :=
  let k := fldInst f i s
  if 32 < f.w then later (.write f.pg k f.off (if hi then 32 else 0) 32 v) s
  else
    match accept f v s with
    | (v, s) => later (.write f.pg k f.off f.lo f.w v) s

/-- A field written by its access code (00 R6; 21 R537). Where no tick will run, RWT acts at once. -/
def putField (f : Fld) (i : Nat) (hi : Bool) (v : Nat) (s : State) : State :=
  match f.acc with
  | .rw => if flag (H.APPLY f.pg) i s && ticksRun s then putLater f i hi v s else putNow f i hi v s
  | .rwt => if ticksRun s then putLater f i hi v s else putNow f i hi v s
  | .rwl => if flag (H.LOCK f.pg) i s then s else putNow f i hi v s
  | .w1c => wr f i (rd f i s &&& (2 ^ f.w - 1 - v % 2 ^ f.w)) s
  | _ => s

/-- A field's bits of a word. -/
def sliceOf (f : Fld) (v : Nat) : Nat := if 32 < f.w then v else bitsAt v f.lo f.w

/-- The fields of a word written; refused ones keep their values, and a ring's are counted. -/
def putFields (i v : Nat) (fs : List (Fld × Bool)) (s : State) : State :=
  let (no, yes) := fs.partition (fun f => refuses f.1 i s)
  let s := if no.any (fun f => decide (f.1.sel = .ring)
      && (decide (f.1.off ≠ 0x48) || decide (rd f.1 (fldInst f.1 i s) s ≠ sliceOf f.1 v))) then
    bump R.RING_CFG_IGNORED 0 1 s else s
  yes.foldl (fun s f => putField f.1 i f.2 (sliceOf f.1 v) s) s

/-! ### Write-only fields -/

/-- KVL_CMD_GO (09 R282, R302): ignored while a host command runs. -/
def kvGo (s : State) : State :=
  if flag R.KVL_CMD_STAT_BUSY 0 s then s
  else
    let w (i : Nat) : Word := BitVec.ofNat 32 (rd (R.KVL_CMD i) 0 s)
    kvRow ⟨.host, w 0, w 1, (w 3 ++ w 2 : BitVec 64), (w 5 ++ w 4 : BitVec 64), w 6, w 7⟩ s

/-- BOOT_SLEEP.REQ (18 R499, R500). -/
def sleepWrite (v : Nat) (s : State) : State :=
  match v % 4 with
  | 1 => sleepRequest false s
  | 2 => sleepRequest true s
  | 3 => wakeDim s
  | _ => s

/-- SEC_OWNER_CTRL written over the link: whether the OTP reads back right is a free value (entry 1). -/
def ownerWrite (v : Nat) (s : State) : State :=
  ownerProgram v (decide (Config.freeValue s.free % 2 = 1)) { s with free := s.free + 1 }

/-- SEC_DBG_CTRL's requests. -/
def debugWrite (v : Nat) (s : State) : State :=
  let s := if v.testBit 2 then nonceReq (v % 4) s else s
  if v.testBit 3 then submit s else s

/-- What the write-only fields of a word do. -/
def trigger (pg : Pg) (i off v : Nat) (s : State) : State :=
  match pg with
  | .glb => if off = 0x68 && v.testBit 0 then rejoin s else s
  | .boot =>
    if off = 0x50 && v.testBit 5 then testRequest (v % 16) (v.testBit 4) (bitsAt v 6 4) s
    else if off = 0x58 then sleepWrite v s
    else if off = 0x100 && v.testBit 1 then recoveryLoad s.boot.partOk s
    else s
  | .sec =>
    if off = 0x44 then
      let s := if v.testBit 1 then svnCommit s else s
      keyRevoke (bitsAt v 2 4) s
    else if off = 0x90 then ownerWrite v s
    else if off = 0xA0 then debugWrite v s
    else if off = 0x200 && v.testBit 11 then wr R.SEC_MCTP_CTRL_RX_READY 0 0 s
    else s
  | .pdn => if off = 0x58 && v.testBit 24 then wr R.PDN_VMIN_MIN i 0xFFF s else s
  | .twr =>
    if off = 0x200 && v.testBit 14 then evacuation i s
    else if off = 0x220 && v.testBit 6 then reseatRequest i (bitsAt v 5 1) (v % 32) s
    else s
  | .rgn =>
    if off = 0x78 && decide (v % 2 ^ 16 ≠ 0) then later (.rwClr i (v % 2 ^ 16)) s
    else if off = 0x9C && v.testBit 6 then fenceRequest i (v % 64) s
    else s
  | .shf => if off = 0x94 && v.testBit 0 then checkerRun i s else s
  | .ray =>
    if off = 0x40 then
      let s := if v.testBit 7 then rayRetrain i s else s
      if v.testBit 8 then rayUnfence i s else s
    else if off = 0x54 then epochClose i v s
    else s
  | .aba => if off = 0x40 && v.testBit 0 then abaRetrain s else s
  | .kvl => if off = 0x80 && v.testBit 0 then kvGo s else s
  | .red => if off = 0x40 && v.testBit 1 then redUnfence i s else s
  | .snap => if off = 0x40 && v.testBit 1 then snapCancelHost s else s
  | .par => if 0x100 ≤ off ∧ off < 0x500 ∧ off % 0x100 = 0x18 then parRebuild ((off - 0x100) / 0x100) v s else s
  | .ring => if off = 0x48 && v.testBit 1 then ringReset (rd R.RING_SEL 0 s) s else s
  | _ => s

/-! ### The header -/

/-- PG_EVT_FORCE (19 R509). -/
def forceEvent (pg : Pg) (i code : Nat) (s : State) : State :=
  match evOfCode code with
  | some e => if e = .ringOverflow then wrIgnored s else raiseRec e pg i noTag true s
  | none => wrIgnored s

/-- PG_CTRL.SRESET (21 R537). -/
def softRequest (pg : Pg) (i : Nat) (s : State) : State :=
  if pg.sreset then later (.softReset pg i) s else wrIgnored s

/-- PG_CTRL.LOCK: writing 1 locks. -/
def lockPage (pg : Pg) (i : Nat) (s : State) : State := wr (H.LOCK pg) i 1 s

def applyPage (pg : Pg) (i : Nat) (on : Bool) (s : State) : State := wr (H.APPLY pg) i on.toNat s

/-- The block type of a number. -/
def Pg.ofNum (n : Nat) : Option Pg := Pg.all.find? (fun q => decide (q.num = n))

/-- A page of the device; a page that it does not have is none. -/
def onPage (pg i : Nat) (f : Pg → State → State) (s : State) : State :=
  match Pg.ofNum pg with
  | some q => if i < q.count then f q s else s
  | none => s

/-- Header bits that are not reserved. -/
def headerBits (off : Nat) : Nat :=
  match off with
  | 0x00 => 0xFFFFFFFF | 0x04 => 0xFFFF0007 | 0x08 => 0xF | 0x0C => 0xF | 0x10 => 0xFFFF000F | 0x14 => 0xF
  | 0x18 => 0x1FFFF | 0x1C => 0xFFFFFFFF | 0x20 => 0xFFFFFFFF | 0x24 => 0xFFFFFFFF | _ => 0

/-- A header word written: always writable where the access code allows (21 R537). -/
def writeHeader (pg : Pg) (i off v : Nat) (s : State) : State :=
  let s := if v &&& (0xFFFFFFFF - headerBits off) = 0 then s else rsvdWr s
  match off with
  | 0x08 =>
    let s := applyPage pg i (v.testBit 3) (wr (H.EN pg) i v s)
    let s := if v.testBit 2 then lockPage pg i s else s
    if v.testBit 1 then softRequest pg i s else s
  | 0x10 => wr (H.SEV pg) i (rd (H.SEV pg) i s &&& (15 - v % 16)) s
  | 0x14 => wr (H.EVT_EN pg) i v s
  | 0x18 => if v.testBit 16 then forceEvent pg i (v % 2 ^ 16) s else s
  | _ => s

/-- A page write enabled, or ignored and counted (21 R537). -/
def ifEn (pg : Pg) (i : Nat) (f : State → State) (s : State) : State :=
  if flag (H.EN pg) i s then f s else wrIgnored s

/-- A word's value with the pending writes of a list. -/
def pendingWord (l : List TickAct) (pg : Pg) (i off : Nat) (s : State) : Nat :=
  ((wordFields pg off).filter (fun f => !f.2)).foldl (fun v f => v ||| withActs l f.1 i (rd f.1 i s) <<< f.1.lo) 0

/-- A word configures a pool or a holder of the page ledger (09 R303, R304). -/
def kvConfigures (pg : Pg) (off : Nat) : Bool :=
  decide (pg = .kvl) && (wordFields pg off).any (fun f => decide (0x400 ≤ f.1.off) && decide (f.1.acc = .rwt))

/-- A pool's or holder's configuration word written where no tick will run: evaluated at once (09 R272, R297). -/
def kvConfigNow (off v : Nat) (s : State) : State :=
  if off < 0x800 then
    let p := (off - 0x400) / 0x40
    if (off - 0x400) % 0x40 = 0 then poolConfig p v (pendingWord [] .kvl 0 (0x404 + 0x40 * p) s) s
    else poolConfig p (pendingWord [] .kvl 0 (0x400 + 0x40 * p) s) v s
  else holderConfig ((off - 0x800) / 8) v s

/-- A block word written. -/
def writeBlock (pg : Pg) (i off v : Nat) (s : State) : State :=
  let fs := wordFields pg off
  let locked := flag (H.LOCK pg) i s && fs.any (fun f => decide (f.1.acc = .rwl))
  let s := if locked then wrIgnored s
    else if v &&& (0xFFFFFFFF - definedBits fs) = 0 then s else rsvdWr s
  if kvConfigures pg off && !ticksRun s then kvConfigNow off v s else trigger pg i off v (putFields i v fs s)

/-- One word of a page written. -/
def writePage (pg : Pg) (i off v : Nat) (s : State) : State :=
  if off < 0x40 then writeHeader pg i off v s else ifEn pg i (writeBlock pg i off v) s

/-- One field written by the host alone, as a write of its word that changes no other field would. -/
def hostField (f : Fld) (i v : Nat) (s : State) : State := ifEn f.pg i (putField f i false v) s

/-! ### Addresses (21 R534, R535) -/

/-- What an address of the window names: a page with a header, a doorbell page, a result-slot page. -/
inductive Place where
  | page (pg : Pg) (i off : Nat)
  | bell (ring off : Nat)
  | slot (k off : Nat)
  deriving DecidableEq, Repr

def placeOf (a : Nat) : Option Place :=
  let n := a / 4096
  let o := a % 4096
  if 0x3000 ≤ n ∧ n < 0x3100 then some (.bell ((n - 0x3000) * 256 + o / 16) (o % 16))
  else if 0x3200 ≤ n ∧ n < 0x3A00 then some (.slot ((n - 0x3200) * 32 + o / 128) (o % 128))
  else
    match pageAt n with
    | some (pg, i) => some (.page pg i o)
    | none => none

/-- The recovery state reaches the GLB, BOOT, SAFE, SEC and ABA pages only (15 R443). -/
def reaches (q : Place) (s : State) : Bool :=
  decide (rd R.BOOT_STAT_STATE 0 s ≠ 9) || (match q with
    | .page pg _ _ => decide (pg = .glb) || decide (pg = .boot) || decide (pg = .safe) || decide (pg = .sec) || decide (pg = .aba)
    | _ => false)

/-- The status of a register access (15 R435). -/
def regStatus (a : Nat) (s : State) : Nat :=
  match placeOf a with
  | none => 1
  | some q => if reaches q s then 0 else 2

/-- One word read. -/
def readWordAt (a : Nat) (s : State) : Nat × State :=
  match placeOf a with
  | none => (0, s)
  | some (.page pg i o) => readPage pg i o s
  | some (.bell r o) => (if o = 0 then (s.ring r).bell else 0, s)
  | some (.slot k o) =>
    if o = 0 then (slotStatus (s.rslot k), slotRead k s) else if o = 4 then (0, s) else (slotWord k o s, s)

/-- Words read in ascending order. -/
def readWords : Nat → Nat → State → List Nat × State
  | _, 0, s => ([], s)
  | a, n + 1, s =>
    match readWordAt a s with
    | (v, s) =>
      match readWords (a + 4) n s with
      | (l, s) => (v :: l, s)

/-- One word written. -/
def writeWordAt (a v : Nat) (s : State) : State :=
  match placeOf a with
  | none => s
  | some (.page pg i o) => writePage pg i o v s
  | some (.bell r o) => if o = 0 then doorbell r v s else if v = 0 then s else rsvdWr s
  | some (.slot k o) =>
    if o = 4 then slotAck k (v % 2 ^ 24) (if v < 2 ^ 24 then s else rsvdWr s)
    else if o = 0 && decide (bitsAt v 6 2 ≠ 0) then rsvdWr s
    else s

/-- Words written in ascending order. -/
def writeWords : Nat → List Nat → State → State
  | _, [], s => s
  | a, v :: l, s => writeWords (a + 4) l (writeWordAt a v s)

/-- A register write ignored for its status (15 R435). -/
def regIgnored (s : State) : State := bump R.ABA_REG_IGNORED 0 1 s

/-- A write of the host to a window offset: ignored unless its status would be OK. -/
def hostWriteRegs (a : Nat) (l : List Nat) (s : State) : State :=
  if regStatus a s = 0 then writeWords a l s else regIgnored s

/-- LOW_WORD_READ (00 R4). -/
def lowWordRead (a : Nat) (s : State) : State :=
  match placeOf a with
  | some (.page pg i o) => if isLow pg o then (readPage pg i o s).2 else s
  | _ => s

/-! ### The tick (00 R7; 21 R537) -/

/-- One pending write takes effect; a pool's and a holder's words are evaluated together and once (09 R272, R297). -/
def applyWrite (l : List TickAct) (pg : Pg) (i off lo w v : Nat) (x : List Nat × State) : List Nat × State :=
  if pg = .kvl && decide (0x400 ≤ off) then
    let p := (off - 0x400) / 0x40
    let h := (off - 0x800) / 8
    let k := if off < 0x800 then p else 0x800 + h
    if x.1.contains k then x
    else if off < 0x800 then
      (k :: x.1, poolConfig p (pendingWord l .kvl 0 (0x400 + 0x40 * p) x.2) (pendingWord l .kvl 0 (0x404 + 0x40 * p) x.2) x.2)
    else (k :: x.1, holderConfig h (pendingWord l .kvl 0 (0x800 + 8 * h) x.2) x.2)
  else
    match fieldOf pg off lo with
    | some f => (x.1, effect f i (putBits (rd f i x.2) (lo - f.lo) w v) x.2)
    | none => x

/-- Two pending writes of one field: the later has effect, the earlier none (00 R7). -/
def sameField (a b : TickAct) : Bool :=
  match a, b with
  | .write pg i off lo w _, .write pg' i' off' lo' w' _ =>
    decide (pg = pg') && decide (i = i') && decide (off = off') && decide (lo = lo') && decide (w = w')
  | _, _ => false

/-- The writes that no later one of the same field supersedes. -/
def lastWrites : List TickAct → List TickAct
  | [] => []
  | a :: l => if l.any (sameField a) then lastWrites l else a :: lastWrites l

/-- Every pending write of a list that is the last to its field, in receipt order. -/
def applyWrites (l : List TickAct) (s : State) : State :=
  ((lastWrites l).foldl (fun x a => match a with
    | .write pg i off lo w v => applyWrite l pg i off lo w v x
    | _ => x) ([], s)).2

/-- The value that a field resets to (00 R8). -/
def resetValue (f : Fld) (k : Nat) (s : State) : Nat :=
  match f.rst with
  | .const v => v % 2 ^ f.w
  | .img _ _ _ => mgetD (f.key k) 0 s.boot.cfg
  | .fused => rd f k s

/-- A soft reset of one field; `s0` is the state before the page's reset. -/
def resetField (s0 : State) (f : Fld) (i : Nat) (s : State) : State :=
  let k := fldInst f i s0
  let set (s : State) : State :=
    if refuses f i s0 then
      (if f.sel = .ring && decide (rd f k s0 ≠ resetValue f k s0) then bump R.RING_CFG_IGNORED 0 1 s else s)
    else if f = R.SNAP_AT then wr f k 0 s
    else
      match accept f (resetValue f k s0) s with
      | (v, s) => effect f k v s
  match f.acc with
  | .rw => set s
  | .rwt => set s
  | .rwl => if flag (H.LOCK f.pg) i s0 then s else set s
  | .w1c => wr f k 0 s
  | _ => s

/-- The pools' and holders' configuration words are reset through their own rules. -/
def resetPools (s : State) : State :=
  let s := (upFrom 0 16).foldl (fun s p => poolConfig p 0 0x1000 s) s
  (upFrom 0 256).foldl (fun s h => holderConfig h 0 s) s

/-- A page's soft reset at the tick. LOCK, RO, ROF and counters stay. -/
def softReset (pg : Pg) (i : Nat) (s : State) : State :=
  let s0 := s
  let s := wr (H.EN pg) i 1 (wr (H.APPLY pg) i 0 (wr (H.SEV pg) i 0 (wr (H.EVT_EN pg) i 3 s)))
  let s := pg.rows.foldl (fun s q => (upFrom 0 q.count).foldl (fun s k =>
    let f := q.fld.at q.stride k
    if pg = .kvl && decide (0x400 ≤ f.off) && decide (f.acc = .rwt) then s else resetField s0 f i s) s) s
  if pg = .kvl then resetPools s else s

end Sys2Proof.Machine
end

