-- ==== Sys2Proof/Machine/Requests.lean ====
section
/-! DEFINITION. The host's requests (15 R435 to R439): register reads and writes in order, memory reads and writes, DMA
completions; and the writing of event records to the host (19 R508). -/
namespace Sys2Proof.Machine

/-! ### Register requests (15 R435, R437) -/

/-- The device holds 1,024 host requests (15 R436). -/
def reqsFull (s : State) : Bool := decide (1024 ≤ s.aba.reqs.length)
def tagBusy (t : Nat) (s : State) : Bool := s.aba.reqs.any (fun r => decide (r.1 = t))

/-- A register access of `n` words at `a` is laid out right: 1 to 8 words within one page. -/
def regLayout (a n : Nat) : Bool := decide (1 ≤ n) && decide (n ≤ 8) && decide (a % 4 = 0) && decide (a % 4096 + 4 * n ≤ 4096)

/-- A read served: one REG_CPL; an access that does not succeed reads 0. -/
def serveRead (t a n : Nat) (s : State) : State :=
  match regStatus a s with
  | 0 =>
    match readWords a n s with
    | (l, s) => abaSend (.regCpl t 0 l) s
  | st => abaSend (.regCpl t st (List.replicate n 0)) s

/-- A waiting request served. -/
def serveReg (q : RegReq) (s : State) : State :=
  match q with
  | .write a l => hostWriteRegs a l s
  | .read t a n => freeReq t (serveRead t a n s)

/-- Waiting requests are served in order as far as none of the memory writes before them is outstanding (15 R437). -/
def drainHeld : Nat → State → State
  | 0, s => s
  | n + 1, s =>
    match s.aba.held with
    | [] => s
    | h :: r => if h.waits.isEmpty then drainHeld n (serveReg h.req (setAba (fun a => { a with held := r }) s)) else s

def drainRegs (s : State) : State := drainHeld s.aba.held.length s

/-- A request queued behind those that wait. -/
def holdReg (w : List Nat) (q : RegReq) (s : State) : State := setAba (fun a => { a with held := a.held ++ [⟨w, q⟩] }) s

/-- The memory writes that a register write waits for: all outstanding ones, if it is a doorbell. -/
def bellWaits (a : Nat) (s : State) : List Nat :=
  match placeOf a with
  | some (.bell _ _) => (s.aba.reqs.filter (fun r => r.2)).map (fun r => r.1)
  | _ => []

/-- REG_RD. -/
def regRd (w : RayWords) (more : List RayWords) (t a n : Nat) (s : State) : State :=
  match abaRx 0 w more s with
  | (false, s) => s
  | (true, s) =>
    if descBad 0 w || !regLayout a n || tagBusy t s then abaSend (.regCpl t 4 []) s
    else if reqsFull s then abaSend (.regCpl t 3 []) s
    else if s.aba.held.isEmpty then serveRead t a n s
    else holdReg [] (.read t a n) (setAba (fun k => { k with reqs := k.reqs ++ [(t, false)] }) s)

/-- REG_WR. -/
def regWr (w : RayWords) (more : List RayWords) (t a : Nat) (l : List Nat) (s : State) : State :=
  match abaRx 1 w more s with
  | (false, s) => s
  | (true, s) =>
    if descBad 1 w || !regLayout a l.length || tagBusy t s then regIgnored s
    else
      let m := bellWaits a s
      if s.aba.held.isEmpty && m.isEmpty then hostWriteRegs a l s else holdReg m (.write a l) s

/-! ### Memory requests (15 R436) -/

/-- The range lies in the shaft windows of 03 R107. -/
def inWindows (a n : Nat) : Bool :=
  decide (a + n ≤ 0x8000000) || (decide (0x10000000 ≤ a) && decide (a + n ≤ 0x10180000))

/-- Why a memory request moves no data, beside what its shaft says when it is served. -/
def memStop (malformed : Bool) (t c a n : Nat) (s : State) : Option Nat :=
  if malformed || tagBusy t s then some 4
  else if reqsFull s then some 3
  else if rd R.BOOT_STAT_STATE 0 s = 9 then some 2
  else if 4096 ≤ c || !inWindows a n then some 0x15
  else if !inService s || decide (rd R.PDN_STAT_STATE (72 + towerOf c) s ≠ 2) then some 0x16
  else none

/-- The aligned granules of a range: address and bytes. -/
def granules : Nat → Nat → Nat → List (Nat × Nat)
  | 0, _, _ => []
  | f + 1, a, n => if n = 0 then [] else
    let k := min n (4096 - a % 4096)
    (a, k) :: granules f (a + k) (n - k)

/-- Accesses join a shaft's host queue (01 R29). -/
def queueHost (c : Nat) (l : List HReq) (s : State) : State :=
  let p := posOf c
  s.setShaft p { s.shaft p with hostq := (s.shaft p).hostq ++ l }

/-- A request is outstanding. -/
def openReq (t : Nat) (write : Bool) (s : State) : State := setAba (fun k => { k with reqs := k.reqs ++ [(t, write)] }) s

/-- MEM_RD. -/
def memRd (w : RayWords) (more : List RayWords) (t c a n : Nat) (s : State) : State :=
  match abaRx 3 w more s with
  | (false, s) => s
  | (true, s) =>
    match memStop (descBad 3 w || decide (n = 0) || decide (65536 < n)) t c a n s with
    | some st => abaSend (.memCpl t st (s.frame % 2 ^ 32) []) s
    | none =>
      let gs := granules 18 a n
      queueHost c (gs.map (fun g => ⟨.host, t, false, c, g.1, g.2, [], decide (g.1 + g.2 = a + n)⟩)) (openReq t false s)

/-- MEM_WR. -/
def memWr (w : RayWords) (more : List RayWords) (t c a : Nat) (d : List Byte) (s : State) : State :=
  match abaRx 4 w more s with
  | (false, s) => s
  | (true, s) =>
    match memStop (descBad 4 w || d.isEmpty || decide (4096 < a % 4096 + d.length)) t c a d.length s with
    | some st => abaSend (.memCpl t st (s.frame % 2 ^ 32) []) s
    | none => queueHost c [⟨.host, t, true, c, a, d.length, d, true⟩] (openReq t true s)

/-! ### DMA completions (15 R439) -/

/-- What a failed read of host memory brings about. -/
def dmaLost (d : DmaRd) (s : State) : State :=
  let s := dmaFail s
  match d.purpose with
  | .entries r _ n => if n = 0 then s else ringFault r 3 s
  | .entry r i => entryLost r i s
  | .recovery _ => rlLost s

/-- The bytes of a read go where they belong; those of a ring reset meanwhile to nobody. -/
def dmaData (d : DmaRd) (b : List Byte) (s : State) : State :=
  match d.purpose with
  | .entries r i n => if n = 0 then s else takeEntry r i n b s
  | .entry r i => entryData r i b s
  | .recovery _ => rlBytes b s

/-- An outstanding read ends. -/
def endDma (d : DmaRd) (s : State) : State := setAba (fun a => { a with dmas := a.dmas.filter (fun x => decide (x.tag ≠ d.tag)) }) s

/-- DMA_CPL: a status other than OK, or a POISON bit, fails the DMA. -/
def dmaCpl (w : RayWords) (more : List RayWords) (t status : Nat) (b : List Byte) (s : State) : State :=
  match abaRx 8 w more s with
  | (false, s) => s
  | (true, s) =>
    match s.aba.dmas.find? (fun d => decide (d.tag = t)) with
    | none => bump R.ABA_VIOL 0 1 (setAba (fun a => { a with viol := a.viol + 1 }) s)
    | some d =>
      let s := endDma d s
      if status ≠ 0 || (w :: more).any (fun x => x.abaPoison) || decide (b.length ≠ d.len) then dmaLost d s else dmaData d b s

/-- ABA_DMA_TIMEOUT expires. -/
def dmaTimeout (t : Nat) (s : State) : State :=
  match s.aba.dmas.find? (fun d => decide (d.tag = t)) with
  | none => s
  | some d => dmaLost d (endDma d s)

/-! ### Event records to the host (19 R506 to R508) -/

def queueOf (v : Nat) (s : State) : List ERec := mgetD v [] s.evt.queues
def setQueue (v : Nat) (l : List ERec) (s : State) : State :=
  wr (R.EVT_RING_QUEUED v) 0 l.length { s with evt := { s.evt with queues := mput v l s.evt.queues } }

/-- The 32 bytes of a record (19 R506). -/
def recBytes (r : ERec) : List Byte :=
  leBytes 4 (r.ev.code + r.ev.sev.code * 2 ^ 16 + (decide (1 < r.count)).toNat * 2 ^ 18 + r.startup.toNat * 2 ^ 19 + r.forced.toNat * 2 ^ 20)
    ++ leBytes 4 r.src ++ leBytes 8 r.frame ++ leBytes 8 r.tb ++ leBytes 4 (min r.count (2 ^ 32 - 1)) ++ leBytes 4 r.tag

/-- The ring of a severity takes records. -/
def evRingOpen (v : Nat) (s : State) : Bool :=
  flag (R.EVT_RING_CTRL_EN v) 0 s
    && decide ((rd (R.EVT_RING_PROD v) 0 s + 2 ^ 64 - rd (R.EVT_RING_CONS v) 0 s) % 2 ^ 64 < 2 ^ rd (R.EVT_RING_CTRL_SIZE v) 0 s)

/-- One record written to the next slot, and whether it was; a failed write disables the ring at the next tick (15 R439). -/
def evPut (v : Nat) (r : ERec) (s : State) : Bool × State :=
  let prod := rd (R.EVT_RING_PROD v) 0 s
  match windowWrite (rd (R.EVT_RING_CTRL_WINDOW v) 0 s) (prod % 2 ^ rd (R.EVT_RING_CTRL_SIZE v) 0 s) 32 (recBytes r) s with
  | (true, s) => (true, wr (R.EVT_RING_PROD v) 0 (prod + 1) s)
  | (false, s) => (false, later (.ringOff v) s)

/-- Records move oldest first, the overflow record after them; how many moved. -/
def evBatch (v : Nat) : Nat → State → Nat × State
  | 0, s => (0, s)
  | n + 1, s =>
    if !evRingOpen v s then (0, s)
    else
      match queueOf v s with
      | r :: l =>
        (match evPut v r s with
         | (true, s) =>
           (match evBatch v n (setQueue v l s) with
            | (k, s) => (k + 1, s))
         | (false, s) => (0, s))
      | [] =>
        (match mget v s.evt.overflow with
         | some r =>
           (match evPut v r s with
            | (true, s) => (1, { s with evt := { s.evt with overflow := mdel v s.evt.overflow } })
            | (false, s) => (0, s))
         | none => (0, s))

/-- EVENT_RECORD_WRITE: a batch, then the ring's signal. -/
def eventWrite (v : Nat) (s : State) : State :=
  match evBatch v ((queueOf v s).length + 1) s with
  | (0, s) => s
  | (_, s) => signal (rd (R.EVT_RING_CTRL_SIGNAL v) 0 s) s

/-- A record that overflows counts in its severity's overflow record (19 R507). -/
def overflowRec (v n : Nat) (r : ERec) (s : State) : State :=
  let o : ERec := match mget v s.evt.overflow with
    | some o => { o with count := o.count + n }
    | none => ⟨.ringOverflow, .evt, 0, false, false, r.frame, r.tb, n, noTag⟩
  { s with evt := { s.evt with overflow := mput v o s.evt.overflow } }

/-- COUNT added to the first queued record of the same code and source. -/
def mergeRec (r : ERec) : List ERec → Option (List ERec)
  | [] => none
  | a :: l =>
    if a.ev = r.ev ∧ a.src = r.src ∧ a.forced = r.forced then some ({ a with count := a.count + r.count } :: l)
    else (mergeRec r l).map (fun l => a :: l)

/-- A record closes into its severity's device queue (19 R507, R508). -/
def closeRec (r : ERec) (s : State) : State :=
  let v := r.ev.sev.code
  let s := bump R.EVT_RAISED 0 r.count s
  let s := if flag (R.EVT_RING_CTRL_ALERT_EN v) 0 s then orIn R.EVT_ALERT 0 (2 ^ v) s else s
  let q := queueOf v s
  if q.length < 4096 then bump R.EVT_DELIVERED 0 1 (bump R.EVT_COALESCED 0 (r.count - 1) (setQueue v (q ++ [r]) s))
  else
    let s := bump R.EVT_COALESCED 0 r.count s
    match mergeRec r q with
    | some l => setQueue v l s
    | none => overflowRec v r.count r s

/-- Records in ascending SOURCE and then ascending CODE. -/
def recInsert (r : ERec) : List ERec → List ERec
  | [] => [r]
  | a :: l => if r.src < a.src ∨ (r.src = a.src ∧ r.ev.code < a.ev.code) then r :: a :: l else a :: recInsert r l

def recSort (l : List ERec) : List ERec := l.foldl (fun m r => recInsert r m) []

/-- The first tick after release delivers the start-up buffer: raises beyond it are counted in a final record (18 R492). -/
def startupRecs (s : State) : List ERec :=
  s.evt.startup ++ (if s.evt.startupLost = 0 then []
    else [⟨.eventBufferFull, .evt, 0, true, false, 0, s.timebase, s.evt.startupLost, noTag⟩])

/-- Step 1's event ledger (19 R507): start-up records first, then the exposure's, then the raises that PG_EVT_EN disabled;
raises of the fix window stay open. -/
def closeEvents (s : State) : State :=
  let l := startupRecs s ++ recSort s.evt.opn
  let n := s.evt.silent
  let s := if s.evt.startupLost = 0 then s else evMark .eventBufferFull .evt 0 s
  let s := { s with evt := { s.evt with opn := s.evt.next, silent := s.evt.silentNext, next := [], silentNext := 0, startup := [], startupLost := 0 } }
  let s := l.foldl (fun s r => closeRec r s) s
  bump R.EVT_RAISED 0 n (bump R.EVT_COALESCED 0 n s)

end Sys2Proof.Machine
end

