-- ==== Sys2Proof/Machine/Tick.lean ====
section
/-! DEFINITION. The tick (01 R11 to R25): the end of the exposure's work, the four steps of the fix window, the actions
that waited for it, and the exposure that opens. -/
namespace Sys2Proof.Machine

/-! ### The exposure's work ends (01 R18, R25 to R28) -/

/-- A shaft's chunks end, and commands whose last chunk has ended complete. -/
def endShaft (p : Nat) (s : State) : State :=
  let s := (s.shaft p).runs.foldl (fun s r => chunkEnd p r.1 none [] s) s
  (s.shaft p).queues.foldl (fun s q => q.2.foldl (fun s _ => nmDone p q.1 s) s) s

/-- Every region's declared cycles are over, every chunk has ended, every completed job has its record. -/
def endWork (s : State) : State :=
  let s := (upFrom 0 64).foldl (fun s r => cyclesEnd r s) s
  let s := s.shafts.foldl (fun s e => if e.2.runs.isEmpty && e.2.queues.isEmpty then s else endShaft e.1 s) s
  s.plates.foldl (fun s e => jobsComplete e.1 e.2.ended.length s) s

/-! ### Step 1 -/

/-- Jobs that are to stop at this tick: those named, and those of a half that goes out of service (06 R216). -/
def preStop (a : TickAct) (s : State) : State :=
  match a with
  | .stopPlate p st c => stopPlate p st c s
  | .halfLost h _ _ => s.plates.foldl (fun s e =>
      match e.2.img with
      | some m => if needsHalf h m then stopPlate e.1 2 0 s else s
      | none => s) s
  | _ => s

/-- A slot that holds data of the shaft from the exposure that closes is FULL (03 R87). -/
def Slot.fixed (v : Slot) : Slot := if v.pres = .early then { v with pres := .full } else v

/-- A core at the tick: early data are FULL, code lands in the store, RDS 7 counts the commands whose tick has come (03
R87, R114; 08 R265). -/
def coreTick (o : Core) : Core :=
  { o with nmTick := o.nmDone, store := o.codeq.foldl (fun m w => mput w.1 w.2 m) o.store, codeq := [],
           tray := mmap (fun _ v => v.fixed) o.tray, vregs := mmap (fun _ v => v.fixed) o.vregs,
           sregs := mmap (fun _ v => { v with early := false }) o.sregs,
           mregs := mmap (fun _ v => { v with early := false }) o.mregs }

/-- The lowest retake reserve left at a tick (05 R186). -/
def reserveTick (s : State) : State :=
  s.cores.foldl (fun s e =>
    if e.2.on && decide (e.2.reserveLeft < rd R.TWR_RGN_RESERVE_MIN (regionOf e.1) s) then
      wr R.TWR_RGN_RESERVE_MIN (regionOf e.1) e.2.reserveLeft s
    else s) s

/-- A shaft at the tick: what counts by exposure starts over; a checker that failed makes the position untrusted. -/
def shaftTick (k : Shaft) : Shaft :=
  { k with fin := [], moved := 0, remoteUsed := 0, slotNs := 0, slotGran := 0, lent := false, undo := [],
           untrusted := k.untrusted || k.untrustedNext, untrustedNext := false }

/-- A page's soft reset discards the writes that were pending on it (21 R537), but not what the device itself changes at the
tick. -/
def liveWrites (l : List TickAct) : List TickAct :=
  l.filter (fun a => match a with
    | .write pg i off lo _ _ => !l.contains (.softReset pg i) || !hostWrote pg off lo
    | _ => false)

/-- A change of the KVL page's registers: the ledger's books move in step 1 (09 R299). -/
def onKvl (a : TickAct) : Bool :=
  match a with
  | .write pg _ _ _ _ _ => decide (pg = .kvl)
  | .softReset pg _ => decide (pg = .kvl)
  | _ => false

/-- The pending writes and the soft reset of the KVL page. -/
def kvlActs (todo : List TickAct) (s : State) : State :=
  let l := todo.filter onKvl
  let s := applyWrites (liveWrites l) s
  if l.contains (.softReset .kvl 0) then softReset .kvl 0 s else s

/-- Step 1: latent state is fixed or cleared, and the engines that act at ticks go on. -/
def stepOne (env : TickEnv) (s : State) : State :=
  let n := s.frame + 1
  let s := reserveTick (heatTick env (energyTick env s))
  let s := { s with cores := mmap (fun _ o => coreTick o) s.cores, shafts := mmap (fun _ k => shaftTick k) s.shafts }
  let s := bucketStep (kvTick n s)
  let s := redTick s
  let s := if holdOver s then holdEnd s else s
  let s := snapTick (rayTick (epochTick (parTick s)))
  let s := endJobs true n (slotsFix n (endJobs false n s))
  (upFrom 0 4).foldl (fun s t => evacDone t s) s

/-! ### Step 2: the ledgers (01 R50, R51; 21 R544) -/

/-- The two sides of every identity, in ascending ledger and instance, as `g` reads the fields. -/
def ledgers (g : Fld → Nat → Nat) (rings : List Nat) : List (Nat × Nat × Nat × Nat) :=
  (upFrom 0 18).map (fun p => (1, p, g R.RAY_CRD_AVAIL p + g R.RAY_CRD_OUT p, g R.RAY_CRD_ADV p))
  ++ (upFrom 0 12).map (fun k => (1, 32 + k, g (R.BRG_CRD_AVAIL (k % 2)) (k / 2) + g (R.BRG_CRD_OUT (k % 2)) (k / 2),
      g (R.BRG_CRD_ADV (k % 2)) (k / 2)))
  ++ [(1, 64, g R.ABA_CRD_AVAIL 0 + g R.ABA_CRD_OUT 0, g R.ABA_CRD_ADV 0)]
  ++ (upFrom 0 18).map (fun p => (2, p, g R.RAY_BUF_FREE p + g R.RAY_BUF_OCC p, g R.RAY_BUF_TOTAL p))
  ++ (upFrom 0 12).map (fun k => (2, 32 + k, g (R.BRG_BUF_FREE (k % 2)) (k / 2) + g (R.BRG_BUF_OCC (k % 2)) (k / 2),
      g (R.BRG_BUF_TOTAL (k % 2)) (k / 2)))
  ++ [(2, 64, g R.ABA_BUF_FREE 0 + g R.ABA_BUF_OCC 0, g R.ABA_BUF_TOTAL 0)]
  ++ (upFrom 0 16).map (fun p => (3, p, g (R.KVL_POOL_FREE p) 0 + g (R.KVL_POOL_LIVE p) 0 + g (R.KVL_POOL_LATENT p) 0
      + g (R.KVL_POOL_FADED p) 0, g (R.KVL_POOL_TOTAL p) 0))
  ++ [(3, 16, g R.KVL_POOL_FREE_SUM 0 + g R.KVL_POOL_LIVE_SUM 0 + g R.KVL_POOL_LATENT_SUM 0 + g R.KVL_POOL_FADED_SUM 0,
      g R.KVL_POOL_TOTAL_SUM 0),
    (4, 0, g R.KVL_REF_SUM 0, g R.KVL_REF_ENTRIES 0)]
  ++ rings.map (fun r => (5, r, g R.RING_PROD r, g R.RING_CONS r + g R.RING_PEND r))
  ++ (upFrom 0 512).map (fun k => (6, k, g (R.RED_TALLY_EXP (k % 8)) (k / 8),
      g (R.RED_TALLY_RCV (k % 8)) (k / 8) + g (R.RED_TALLY_DROP (k % 8)) (k / 8) + g (R.RED_TALLY_OUT (k % 8)) (k / 8)))
  ++ [(7, 0, g R.APT_E_JOBSUM 0 + g R.APT_E_UNATTR 0, g R.APT_E_MEAS 0),
    (8, 0, g R.EVT_RAISED 0, g R.EVT_DELIVERED 0 + g R.EVT_COALESCED 0)]

/-- A ROF field's fixed copy. -/
def fixedCopy (f : Fld) (i : Nat) (s : State) : Nat := mgetD (f.key i) f.dflt s.rof

/-- Every identity checked on the copies; a ring that no doorbell has reached has every count 0. -/
def checkLedgers (s : State) : State :=
  (ledgers (fun f i => fixedCopy f i s) (s.rings.map (fun e => e.1))).foldl (fun s x =>
    if x.2.2.1 = x.2.2.2 then s else ledgerFail x.1 x.2.1 x.2.2.1 x.2.2.2 s) s

/-! ### Loose deliveries (03 R121) -/

/-- Messages delivered to one core, in order of k, into its lowest EMPTY inbound slots; those that do not fit are
discarded. -/
def looseLand (c : Nat) : List LooseMsg → State → State
  | [], s => s
  | m :: l, s =>
    let o := s.core c
    match (upFrom 0 32).find? (fun k => decide ((o.line (inLine k)).pres = .empty)) with
    | some k => looseLand c l (s.setCore c { o.setLine (inLine k) ⟨m.data, .full, m.poison⟩ with held := o.held ++ [(k, m.src)] })
    | none => plateFault c 0 0 0 .mailboxOverrun s

/-- Deliveries due at the tick that opens this frame; the messages that wait at an intermediate core cross on (06 R213). -/
def looseTick (s : State) : State :=
  let due := s.fab.loose.filter (fun x => decide (x.2.due ≤ s.frame))
  let s := { s with fab := { s.fab with loose := s.fab.loose.filter (fun x => decide (s.frame < x.2.due)) } }
  let s := s.fab.loose.foldl (fun s x => if x.2.fly then s else looseCross x.1 x.2 s) s
  ((due.foldl (fun m x => mput x.1 () m) ([] : SMap Unit)).map (fun x => x.1)).foldl (fun s c =>
    let ms := (upFrom 0 8).flatMap (fun k => (due.filter (fun x => decide (x.1 = c) && decide (x.2.k = k))).map (fun x => x.2))
    if deadCore c s then ms.foldl (fun s _ => absorb c s) s else looseLand c ms s) s

/-! ### Step 4: the actions that waited -/

/-- A timer's expiry action (01 R54). -/
def expiry (t : Timer) (s : State) : State :=
  match t with
  | .viewHold => viewExpiry s
  | .hotExit t => hotExit t s
  | .shadowHold t l q => shadowHold t l q s
  | .thmRecover h => thmRecover h s
  | .wakeRetry d w => wakeStep d w s
  | .wakeLimit d => wakeLimit d s
  | .collectiveHold => holdEnd s
  | .leaderLost ch => leaderLost ch s
  | .redTimeout ch w => redTimeout ch w s
  | .parLoss g r => parLoss g r s
  | .ringWait r => waitTimeout r s
  | .rayTrainLimit p => rayTrainLimit p s
  | .rayTrainRetry p => rayTrainRetry p s
  | .abaTrainLimit => abaTrainLimit s
  | .abaTrainRetry => abaTrainRetry s
  | .abaAckLimit => abaAckLimit s
  | .dma tag => dmaTimeout tag s
  | .syncLoss => syncLoss s
  | .rejoin => rejoinLimit s

/-- A timer expires: in Dim its action waits for the first resumed tick (18 R501). -/
def timed (t : Timer) (s : State) : State :=
  if rd R.BOOT_STAT_STATE 0 s = 11 then later (.expire t) s else expiry t s

/-- An action at the tick. Register writes and stops of plates have been made before; view holds come last. -/
def actTick (a : TickAct) (s : State) : State :=
  match a with
  | .softReset pg i => softReset pg i s
  | .fence c cause => if cause = 0 then kvRetire c (fenceTick c s) else fenceCore c cause s
  | .reseat t h r => reseatCheck t h r s
  | .reseatDone t h r => reseatDone t h r s
  | .ringReset r => ringResetTick r s
  | .ringOff v => wr (R.EVT_RING_CTRL_EN v) 0 0 s
  | .redUnfence c => redUnfenced c s
  | .rwClr r sets => clearCounters.clearRw r sets s
  | .unload p => unloadTick p s
  | .debugOn level => wr R.SEC_STAT_DEBUG 0 level s
  | .ownerSet => ownerShown s
  | .sleepDim => sleepDim s
  | .sleepDark => sleepDark s
  | .halfLost h row col => loseHalf h row col s
  | .wakeDone r => wakeDone r s
  | .expire t => expiry t s
  | .write _ _ _ _ _ _ => s
  | .stopPlate _ _ _ => s
  | .viewHold _ => s

/-- A view hold starts or ends (01 R49). -/
def viewAct (a : TickAct) (s : State) : State :=
  match a with
  | .viewHold true => wr R.GLB_VIEW_CTRL_HELD 0 1 s
  | .viewHold false => showView (wr R.GLB_VIEW_CTRL_HELD 0 0 s)
  | _ => s

/-- Channels and parity groups whose configuration the tick changed. -/
def reconfigure (a : TickAct) (s : State) : State :=
  match a with
  | .write .red i _ _ _ _ => redEnable i s
  | .softReset .red i => redEnable i s
  | .write .par _ off _ _ _ => if 0x100 ≤ off then parEnable ((off - 0x100) / 0x100) s else s
  | .softReset .par _ => (upFrom 0 4).foldl (fun s g => parEnable g s) s
  | _ => s

/-- A fence made during this tick is complete at it. -/
def fencesNow (s : State) : State :=
  let now (a : TickAct) : Bool := match a with
    | .fence _ k => decide (k = 0)
    | _ => false
  let l := s.acts
  (l.filter now).foldl (fun s a => actTick a s) { s with acts := l.filter (fun a => !now a) }

/-- The actions of a tick in receipt order; none goes on once the device has left service for Dark. -/
def actsTick (l : List TickAct) (s : State) : State :=
  let s := applyWrites (liveWrites l) s
  let s := l.foldl (fun s a => if ticksRun s then actTick a s else s) s
  if ticksRun s then fencesNow (l.foldl (fun s a => reconfigure a s) s) else s

/-! ### The exposure that opens -/

/-- A context that would resume past bundle 2,047 (03 R114). -/
def resumeFaults (s : State) : State :=
  s.cores.foldl (fun s e =>
    let o := s.core e.1
    if !o.on || o.stopped then s
    else
      match (upFrom 0 16).find? (fun x => decide ((o.ctx x).mode = .run) && decide (2047 < (o.ctx x).ptr)) with
      | some x => plateFault e.1 x 2047 0 .bundleRange s
      | none => s) s

/-- READY or DEGRADED (18 R497). -/
def shownState (s : State) : State :=
  if s.released then wr R.BOOT_STAT_STATE 0 (if degraded s then 8 else 7) s else s

/-- The frame numbers, the length and the copies of the exposure that opens (01 R12, R20, R24; 11 R341). -/
def advanceFrame (s : State) : State :=
  let n := s.frame + 1
  let g := if syncLevel s = 0 then n else groupFrame s + 1
  let s := wr R.GLB_FRAME 0 n (wr R.GLB_GROUP_FRAME 0 g s)
  let len := min 800 (max 100 (rd R.GLB_EXP_NEXT_LEN 0 s))
  wr R.GLB_EXP_CUR_LEN 0 len (wr R.GLB_SYNC_LEN_GROUP_LEN 0 len s)

/-- The pulse of SHUTTER_OUT at the tick, in ns: 60 where the group frame that it opens is a multiple of 1,024, else 20; the
output of a device that leads no board is held low (11 R339; 22 R548). -/
def shutterPulse (s : State) : State :=
  let w := if syncLevel s = 0 || decide (mySlot s ≠ 0) then 0 else if groupFrame s % 1024 = 0 then 60 else 20
  { s with sync := { s.sync with shutter := w } }

/-- Whether the exposure is dark: cap-driven, forced, or to align (01 R22, R34; 16 R453). -/
def darkTick (a : Agreed) (s : State) : Bool × State :=
  let s := wr R.APT_STAT_K 0 a.k s
  match darkNow { a with len := rd R.GLB_EXP_CUR_LEN 0 s } s with
  | (dark, forced) =>
    let s := if forced && !s.apt.forced then raise .forcedDark .apt 0 s else s
    let s := setApt (fun x => { x with forced := forced }) s
    let s := wr R.GLB_EXP_DARK 0 dark.toNat s
    (dark, if dark then bump R.APT_DARK_CNT 0 1 s else s)

/-- Records of raises in the fix window belong to the exposure that it opens (19 R506). -/
def stampEvents (s : State) : State :=
  { s with evt := { s.evt with opn := s.evt.opn.map (fun r => { r with frame := s.frame }) } }

/-- The fields of the exposure that opens, in the copies. -/
def showTimes (s : State) : State :=
  [R.GLB_EXP_DARK, R.APT_DARK_CNT, R.GLB_REFRESH_HOT, R.GLB_REFRESH_FIRST, R.GLB_REFRESH_SECOND, R.APT_STAT_K,
    R.APT_STAT_BRAKE].foldl (fun s f => showNow f s) s

/-- Work of the exposure that opens: stops, routes, rings, slices; the wish and the proposal made in it. -/
def openExposure (a : Agreed) (s : State) : State :=
  let s := stretchFix (testTick s)
  let s := routeSwap (brakeTick s)
  let s := lateRamps (stopsTick s)
  match darkTick a s with
  | (dark, s) =>
    let s := ringsTick (activateAll (ringSample (hotTick s)))
    let s := lendSlots (windowReads (resumeFaults (slicesTick dark (coresOff s))))
    let s := putWish (deviceWish false (fun h => stopOf h s) s) s
    let s := showNext (pruneLens (propose (ownProposal s) s))
    showTimes (shownState (abaTick (domainTick s)))

/-- Step 3 (01 R25): shadow slots move while the exposure that closes still counts, and a plate that faults by it stops at
this tick too (03 R128, R558). -/
def stepThree (s : State) : State :=
  let n := s.frame
  wr R.GLB_FRAME 0 n (endJobs false n (swapShadows (wr R.GLB_FRAME 0 (n - 1) s)))

/-- SEAM_PEAK: the largest count on one link in the lit exposure that closes (06 R218). -/
def seamPeaks (s : State) : State :=
  if flag R.GLB_EXP_DARK 0 s then s
  else (upFrom 0 4).foldl (fun s t =>
    let peak (d : Nat) : Nat := ((upFrom 0 32).map (fun r => mgetD (seamKey t r d) 0 s.fab.crossings)).foldl max 0
    wr R.SEAM_PEAK_W2E_PEAK t (peak 0) (wr R.SEAM_PEAK_E2W_PEAK t (peak 1) s)) s

/-- A fix window: everything that the tick does (01 R25). -/
def fixWindow (env : TickEnv) (s : State) : State :=
  let t := max s.timebase (s.tickBase + rd R.GLB_EXP_CUR_LEN 0 s)
  let s := closeEvents (endWork { s with timebase := t, tickBase := t })
  let s := retuneTick env.lanes env.wires s
  let s := env.sensors.foldl (fun s x => sensorFail x.1.val x.2.val s) s
  let todo := s.acts
  let s := todo.foldl (fun s a => preStop a s) { s with acts := s.late, late := [] }
  let s := stepOne env (kvlActs todo (kvFences todo s))
  let a := nextAgreed s
  let s := snapShutter (shutterPulse (advanceFrame (announce s)))
  let s := stepThree (checkLedgers (copyRof (bump R.LDG_CHECKS 0 1 (seamPeaks s))))
  let s := looseTick { s with fab := { s.fab with wires := [], crossings := [] } }
  let s := actsTick (todo.filter (fun a => !onKvl a)) s
  stampEvents (if inService s then todo.foldl (fun s a => viewAct a s) (openExposure a s) else s)

/-! ### The timebase (01 R13; 18 R499) -/

/-- The block idles for one unit of the timebase, while the safelight domain is powered (entry 3). -/
def idle (s : State) : State := if s.boot.powered then { s with timebase := s.timebase + 1 } else s

/-! ### TICK and SHUTTER_EDGE (01 R25; 11 R339; 18 R497) -/

/-- A member's first tick. -/
def memberFirst (s : State) : State :=
  let s := wr R.GLB_EXP_DARK 0 1 (memberRelease s)
  showNow R.GLB_EXP_DARK s

/-- TICK: the exposure closes. A slot-0 member of a cell that waits for its group is released at its tick, once it has
heard the group's. -/
def tick (env : TickEnv) (s : State) : State :=
  if inService s then fixWindow env s
  else if s.boot.edge && s.sync.heard && decide (mySlot s = 0) then memberFirst s
  else s

/-- SHUTTER_EDGE: the tick of a board member, or its first; a long pulse belongs to a group frame that is a multiple of
1,024. -/
def shutterEdge (long : Bool) (skew : Nat) (env : TickEnv) (s : State) : State :=
  let s := { s with sync := { s.sync with heard := true } }
  if !inService s then (if s.boot.edge then memberFirst s else s)
  else if isLeader s || (syncLevel s = 0 && !flag R.GLB_SYNC_STAT_JOINING 0 s) then s
  else
    let s := wr R.GLB_SYNC_STAT_SKEW 0 skew s
    if long && decide ((groupFrame s + 1) % 1024 ≠ 0) && !flag R.GLB_SYNC_STAT_JOINING 0 s then syncLoss s
    else fixWindow env s

end Sys2Proof.Machine
end

