-- ==== Sys2Proof/Machine/AbaesRows.lean ====
section
/-! DEFINITION. The commands of the Abaes host link (15 R427 to R443): one meaning for each. -/
namespace Sys2Proof.Machine

/-- REG_RD (15 R435): A register read request is served and answered by REG_CPL. -/
def execRegRd (w : RayWords) (more : List RayWords) (tag : BitVec 16) (addr : BitVec 26) (words : Nat) (s : State) : Res :=
  .next (regRd w more tag.toNat addr.toNat words s)

/-- REG_WR (15 R435): A register write request is applied or ignored. -/
def execRegWr (w : RayWords) (more : List RayWords) (tag : BitVec 16) (addr : BitVec 26) (data : List Word) (s : State) : Res :=
  .next (regWr w more tag.toNat addr.toNat (data.map (fun x => x.toNat)) s)

/-- MEM_RD (15 R436): A host memory read is queued by granule for the host slots. -/
def execMemRd (w : RayWords) (more : List RayWords) (tag : BitVec 16) (core : Nat) (addr : Word) (len : Nat) (s : State) : Res :=
  .next (memRd w more tag.toNat core addr.toNat len s)

/-- MEM_WR (15 R436): A host memory write is queued for a host slot. -/
def execMemWr (w : RayWords) (more : List RayWords) (tag : BitVec 16) (core : Nat) (addr : Word) (data : List Byte) (s : State) : Res :=
  .next (memWr w more tag.toNat core addr.toNat data s)

/-- DMA_CPL (15 R439): A DMA completion arrives, succeeds or fails, or is stray. -/
def execDmaCpl (f : RayWords × List RayWords) (tag : BitVec 16) (status : Nat) (data : List Byte) (s : State) : Res :=
  .next (dmaCpl f.1 f.2 tag.toNat status data s)

/-- ABA_DMA_TIMEOUT (15 R439): ABA_DMA_TIMEOUT expires and the DMA fails. -/
def execAbaDmaTimeout (tag : BitVec 16) (s : State) : Res := .next (timed (.dma tag.toNat) s)

/-- ABA_CREDIT (15 R434): An Abaes CREDIT flit returns credits. -/
def execAbaCredit (w : RayWords) (s : State) : Res := .next (abaCreditRx w s)

/-- ABA_ACK_ONLY (15 R434): An Abaes ACK_ONLY flit acknowledges flits. -/
def execAbaAckOnly (w : RayWords) (s : State) : Res := .next (abaAckRx w s)

/-- ABA_NAK (15 R434): An Abaes NAK makes the device resend. -/
def execAbaNak (w : RayWords) (s : State) : Res := .next (abaNakRx w s)

/-- ABA_REPLAY_REQ (15 R434): An Abaes REPLAY_REQ makes the device resend from the requested flit. -/
def execAbaReplayReq (w : RayWords) (first : BitVec 12) (s : State) : Res := .next (abaReplayRx w first.toNat s)

/-- ABA_ACK_LIMIT (15 R431): The ACK wait expires and the device resends from the first unacknowledged flit. -/
def execAbaAckLimit (s : State) : Res := .next (timed .abaAckLimit s)

/-- ABA_TRAINING (15 R429): The Abaes link trains to UP, narrow or down. -/
def execAbaTraining (t : AbaTrain) (s : State) : Res := .next (abaTrained t.width.val s)

/-- ABA_TRAIN_LIMIT (15 R431): ABA_TRAIN_LIMIT expires and the next narrower width is tried. -/
def execAbaTrainLimit (s : State) : Res := .next (timed .abaTrainLimit s)

/-- ABA_TRAIN_RETRY (15 R429): A down link retries training every second. -/
def execAbaTrainRetry (s : State) : Res := .next (timed .abaTrainRetry s)

/-- ABA_RETRAIN (15 R430): A write of ABA_CTRL.RETRAIN, a threshold or adapter patterns retrain the link. -/
def execAbaRetrain (s : State) : Res := .next (ifEn .aba 0 abaRetrain s)

/-- ABA_VIOLATION_WINDOW (15 R442): A 1 ms violation window ends and a retrain follows above threshold. -/
def execAbaViolationWindow (s : State) : Res := .next (abaWindow s)

/-- ABA_RETRAIN_DEFERRED (15 R442): After ABA_THRESH.RETRAINS retrains within 10 s, a retrain triggered by a violation
window starts once 1 s has passed since the previous retrain. -/
def execAbaRetrainDeferred (s : State) : Res := .next (abaRetrainDeferred s)

end Sys2Proof.Machine
end

