-- ==== Sys2Proof/Machine/BootRows.lean ====
section
/-! DEFINITION. The commands of start-up, requested tests, sleep and recovery (18 R486 to R504; 15 R443; 21 R542): one meaning
for each. -/
namespace Sys2Proof.Machine

/-- MOD_RESET_ASSERT (18 R487): MOD_RESET# asserted stops issue and opens the domains. -/
def execModResetAssert (cool : Bool) (s : State) : Res := .next (modReset cool s)

/-- SAFELIGHT (18 R489): V_AUX in range starts the safelight domain and its self-check. -/
def execBootSafelight (ok : Bool) (s : State) : Res := .next (safelight ok s)

/-- FUSE (18 R489): Fused trims, grade, maximum stops and shift maps load. -/
def execBootFuse (f : Fuses) (s : State) : Res := .next (fuse f s)

/-- STRIP (18 R490): The start-up test strips run. -/
def execBootStrip (r : StripRes) (s : State) : Res := .next (strip r s)

/-- LOAD_PHASE (18 R494): Firmware and configuration pages are verified and applied. -/
def execLoadPhase (fl : Flash) (s : State) : Res := .next (loadPhase fl s)

/-- TRAIN (18 R489): Bridges and Ray ports train and refresh starts. -/
def execBootTrain (s : State) : Res := .next (train s)

/-- SHEET (18 R496): The contact sheet completes and each port is resolved. -/
def execBootSheet (s : State) : Res := .next (sheet s)

/-- PEER_WAIT_EXPIRY (18 R496): BOOT_PEER_WAIT expires and the contact sheet resolves. -/
def execPeerWaitExpiry (s : State) : Res := .next (peerWait s)

/-- CHECKER_TEST (18 R498): BOOT_TEST code 1 runs the checker on the towers named. -/
def execCheckerTest (force : Bool) (towers : BitVec 4) (s : State) : Res :=
  .next (ifEn .boot 0 (testRequest 1 force towers.toNat) s)

/-- DELAY_TRAINING_TEST (18 R498): BOOT_TEST code 2 runs full vertical delay training. -/
def execDelayTrainingTest (force : Bool) (towers : BitVec 4) (s : State) : Res :=
  .next (ifEn .boot 0 (testRequest 2 force towers.toNat) s)

/-- REGULATOR_TEST (18 R498): BOOT_TEST code 3 runs the regulator phase check. -/
def execRegulatorTest (force : Bool) (towers : BitVec 4) (s : State) : Res :=
  .next (ifEn .boot 0 (testRequest 3 force towers.toNat) s)

/-- SRAM_MARCH (18 R498): BOOT_TEST code 4 runs a destructive stack-SRAM march. -/
def execSramMarch (force : Bool) (towers : BitVec 4) (s : State) : Res :=
  .next (ifEn .boot 0 (testRequest 4 force towers.toNat) s)

/-- DRAM_MARCH (18 R498): BOOT_TEST code 5 runs a destructive DRAM march. -/
def execDramMarch (force : Bool) (towers : BitVec 4) (s : State) : Res :=
  .next (ifEn .boot 0 (testRequest 5 force towers.toNat) s)

/-- TEST_UNIT (18 R498): One unit of a requested test runs in a dark frame. -/
def execTestUnit (res : UnitRes) (s : State) : Res := .next (testUnit res s)

/-- SLEEP_DIM (18 R499): A Dim request gates the clocks and puts DRAM in self-refresh, or is refused. -/
def execSleepDim (s : State) : Res := .next (ifEn .boot 0 (sleepRequest false) s)

/-- SLEEP_DARK (18 R499): A Dark request opens every switched domain but DRAM, or is refused. -/
def execSleepDark (s : State) : Res := .next (ifEn .boot 0 (sleepRequest true) s)

/-- WAKE_FROM_DIM (18 R500): A wake request ends Dim and ticks resume. -/
def execWakeFromDim (s : State) : Res := .next (ifEn .boot 0 wakeDim s)

/-- WAKE_TIMER_EXPIRY (18 R504): The timebase reaches SAFE_WAKE_AT and resumes from Dark. -/
def execWakeTimerExpiry (s : State) : Res := .next (wakeTimer s)

/-- DARK_WAKE_SIGNAL (18 R502): An SMBus write or Abaes signal detect resumes from Dark. -/
def execDarkWakeSignal (smbus : Bool) (s : State) : Res := .next (wakeSignal smbus s)

/-- RECOVERY_LOAD (21 R542): A write of BOOT_RL_CTRL.GO fetches, verifies and programs an image into flash. -/
def execRecoveryLoad (flashOk : Bool) (s : State) : Res := .next (ifEn .boot 0 (recoveryLoad flashOk) s)

/-- SMBUS_RECOVERY_LOAD (21 R542): A recovery load arrives over SMBus. -/
def execSmbusRecoveryLoad (user : Bool) (img : List Byte) (flashOk : Bool) (s : State) : Res :=
  .next (smbusLoad user img flashOk s)

end Sys2Proof.Machine
end

