-- ==== Sys2Proof/Machine/CoreRows.lean ====
section
/-! DEFINITION. The commands of the tick and the steps of a core: one meaning for each. -/
namespace Sys2Proof.Machine

/-- TICK (01 R25): The exposure count reaches its length L, the fix window runs and the next exposure opens. -/
def execTick (env : TickEnv) (s : State) : Res := .next (tick env s)

/-- BUNDLE_ISSUE (03 R83): The issue stage issues one ready bundle of one context, all five slots at once. -/
def execBundleIssue (c : CoreId) (cyc : Nat) (par : List TrayParity) (s : State) : Res :=
  .next (issueCycle c.val cyc par s)

/-- END (03 R116): The context waits for the next tick. -/
def execEndCtx (c : CoreId) (x : CtxId) (s : State) : Res :=
  .next (issueSlot c.val x.val { Bundle.nops with end_ := true } s)

/-- HALT (03 R116): The context finishes the plate. -/
def execHalt (c : CoreId) (x : CtxId) (s : State) : Res :=
  .next (issueSlot c.val x.val { Bundle.nops with halt := true } s)

/-- OPERATION_COMPLETE (03 R89): An issued operation completes and its destinations become EARLY or FULL. -/
def execOperationComplete (c : CoreId) (id : Nat) (errs : List GErr) (s : State) : Res :=
  .next (operationComplete c.val id errs s)

/-- DECLARED_CYCLES_END (03 R117): The region's cycle counter reaches cycles_r and unfinished contexts cause an overrun. -/
def execDeclaredCyclesEnd (r : RegionId) (s : State) : Res := .next (cyclesEnd r.val s)

end Sys2Proof.Machine
end

