-- ==== Sys2Proof/Machine/CubeRows.lean ====
section
/-! DEFINITION. The commands of the cube slot (03 R100, R101; 04 R139 to R162): one meaning for each. -/
namespace Sys2Proof.Machine

/-- TILE (04 R141): Accumulates a matrix product on the cubes. -/
def execTile (c : CoreId) (x : CtxId) (td : Fin 8) (rnd : BitVec 2) (s : State) : Res :=
  .next (issueSlot c.val x.val { Bundle.nops with cube := .op .tile td rnd } s)

/-- TILE_Z (04 R141): Writes a matrix product on the cubes, with retake on overflow. -/
def execTileZ (c : CoreId) (x : CtxId) (td : Fin 8) (rnd : BitVec 2) (s : State) : Res :=
  .next (issueSlot c.val x.val { Bundle.nops with cube := .op .tileZ td rnd } s)

/-- MV (04 R160): Runs an accumulating MV-path pass. -/
def execMv (c : CoreId) (x : CtxId) (td : Fin 8) (rnd : BitVec 2) (s : State) : Res :=
  .next (issueSlot c.val x.val { Bundle.nops with cube := .op .mv td rnd } s)

/-- MV_Z (04 R160): Runs a writing MV-path pass. -/
def execMvZ (c : CoreId) (x : CtxId) (td : Fin 8) (rnd : BitVec 2) (s : State) : Res :=
  .next (issueSlot c.val x.val { Bundle.nops with cube := .op .mvZ td rnd } s)

/-- CONV (04 R147): Converts the FP32 accumulator tile to the output format. -/
def execConv (c : CoreId) (x : CtxId) (td : Fin 8) (rnd : BitVec 2) (s : State) : Res :=
  .next (issueSlot c.val x.val { Bundle.nops with cube := .op .conv td rnd } s)

/-- CUBE_RUN_END (05 R180): A tile run reaches its last drain, and an overflow leads to retake, saturation or ±∞. -/
def execCubeRunEnd (c : CoreId) (id : Nat) (s : State) : Res := .next (cubeRunEnds c.val id s)

end Sys2Proof.Machine
end

