-- ==== Sys2Proof/Machine/FabricRows.lean ====
section
/-! DEFINITION. The commands of the package fabric (06 R189 to R216), loose departures, failed cores and routers: one meaning
for each. -/
namespace Sys2Proof.Machine

/-- ROUTE_ENTRY (06 R191): A route-schedule entry moves a flit from one port to another at its cycle. -/
def execRouteEntry (c : CoreId) (idx : Nat) (s : State) : Res := .next (routeEntry c.val idx s)

/-- LAGGED_FLIT_LAND (06 R195): A seam or bridge flit lands in its shadow slot. -/
def execLaggedFlitLand (l : LagLane) (parity : Bool) (s : State) : Res := .next (laggedLand l parity s)

/-- BRIDGE_FLIT_ARRIVAL (06 R206): A bridge flit arrives at the landing end and is queued or discarded for replay. -/
def execBridgeFlitArrival (b : Fin 6) (d : Fin 2) (seq : Fin 2048) (crcOk : Bool) (s : State) : Res :=
  .next (brgArrive b.val d.val seq.val crcOk s)

/-- LOOSE_DEPARTURE (03 R119): A loose slot departs with the oldest posted message for its partner, or an empty flit. -/
def execLooseDeparture (c : CoreId) (k : Fin 8) (s : State) : Res := .next (looseDepart c.val k.val s)

/-- CORE_CHECK_FAIL (19 R511): A parity or residue check fails and the core is fenced. -/
def execCoreCheckFail (c : CoreId) (s : State) : Res := .next (served (coreCheckFail c.val) s)

/-- ROUTER_LOST (06 R216): A router fails switch parity and its half is taken out of service. -/
def execRouterLost (h : HalfId) (row : Fin 32) (col : Fin 16) (s : State) : Res :=
  .next (served (routerLost h.val row.val col.val) s)

end Sys2Proof.Machine
end

