-- ==== Sys2Proof/Machine/HeatRows.lean ====
section
/-! DEFINITION. The commands of heat in the stack (17 R472 to R484): one meaning for each. -/
namespace Sys2Proof.Machine

/-- SENSOR_READ (17 R473): Every 100 µs the sensors are read and failed ones marked. -/
def execSensorRead (t : TowerId) (vals : List Int) (s : State) : Res := .next (powered (sensorRead t.val vals) s)

/-- THERMAL_EVALUATION (17 R479): Every 100 µs the governing temperatures set each half's thermal ceiling and dark ratio. -/
def execThermalEvaluation (h : HalfId) (s : State) : Res := .next (served (thermalEval h.val) s)

/-- SHADOW_COMPUTE (17 R475): Every 1 ms the shadow temperatures are computed. -/
def execShadowCompute (t : TowerId) (energy : List (DomainId × Nat)) (s : State) : Res := .next (served (shadowCompute t.val energy) s)

/-- SHADOW_HOLD_EXPIRY (17 R477): A disagreement lasting THM_SHADOW_HOLD makes the shadow trusted, or a resolved one ends. -/
def execShadowHoldExpiry (t : TowerId) (layer : Fin 8) (q : Fin 4) (s : State) : Res :=
  .next (timed (.shadowHold t.val layer.val q.val) s)

/-- THM_RECOVER (17 R481): THM_RECOVER expires and one Cool step is taken. -/
def execThmRecover (h : HalfId) (s : State) : Res := .next (timed (.thmRecover h.val) s)

/-- HOT_EXIT (01 R38): THM_HOT_EXIT expires and the tower leaves hot refresh at the next tick. -/
def execHotExit (t : TowerId) (s : State) : Res := .next (timed (.hotExit t.val) s)

/-- THERMTRIP (17 R482): A trip comparator fires, asserts THERMTRIP# and opens the domains. -/
def execThermtrip (t : TowerId) (n : Nat) (s : State) : Res := .next (thermTrip t.val n s)

end Sys2Proof.Machine
end

