-- ==== Sys2Proof/Machine/KvRows.lean ====
section
/-! DEFINITION. The commands of the KV page ledger (09 R271 to R303): one meaning for each. -/
namespace Sys2Proof.Machine

/-- LEDGER_WINDOW_READ (09 R282): The engine reads a ledger window and takes its pending requests, or overruns: its read is
served where it heads its shaft's host-slot queue. -/
def execLedgerWindowRead (c : CoreId) (s : State) : Res := .next (served (windowServe .ledger c.val) s)

/-- OPEN (09 R284): Opens a sequence handle. -/
def execKvOpen (q : KvReq) (s : State) : Res := .next (kvRow (kvWithOp q .open_) s)

/-- APPEND (09 R287): Extends a sequence's lengths and allocates the blocks it needs. -/
def execKvAppend (q : KvReq) (s : State) : Res := .next (kvRow (kvWithOp q .append) s)

/-- FIX (09 R289): Fixes latent positions of a sequence. -/
def execKvFix (q : KvReq) (s : State) : Res := .next (kvRow (kvWithOp q .fix) s)

/-- CLEAR (09 R289): Returns a sequence's latent length to its fixed length. -/
def execKvClear (q : KvReq) (s : State) : Res := .next (kvRow (kvWithOp q .clear) s)

/-- FORK (09 R291): Opens a sequence sharing a source's prefix. -/
def execKvFork (q : KvReq) (s : State) : Res := .next (kvRow (kvWithOp q .fork) s)

/-- FREE (09 R284): Removes a sequence's entries and closes its handle. -/
def execKvFree (q : KvReq) (s : State) : Res := .next (kvRow (kvWithOp q .free) s)

/-- FADEQ (09 R284): Returns the first faded range after a position. -/
def execKvFadeq (q : KvReq) (s : State) : Res := .next (kvRow (kvWithOp q .fadeq) s)

/-- REFILL (09 R284): Allocates LIVE frames for a faded block. -/
def execKvRefill (q : KvReq) (s : State) : Res := .next (kvRow (kvWithOp q .refill) s)

/-- FADEHIT (09 R296): Reports a read that met a FADED entry. -/
def execKvFadehit (q : KvReq) (s : State) : Res := .next (kvRow (kvWithOp q .fadehit) s)

/-- QUOTA (09 R297): Sets a holder's quota, host only. -/
def execKvQuota (q : KvReq) (s : State) : Res := .next (kvRow (kvWithOp q .quota) s)

/-- STAT (09 R284): Returns a sequence's fixed and latent lengths. -/
def execKvStat (q : KvReq) (s : State) : Res := .next (kvRow (kvWithOp q .stat) s)

/-- COPY_ON_WRITE_SWITCH (09 R292): After the last copy chunk ends, the appender's entries move to the copies and the
append takes effect. -/
def execCopyOnWriteSwitch (idx : Nat) (s : State) : Res := .next (served (kvSwitch idx) s)

/-- POOL_CONFIG (09 R272): A pool configuration write is accepted at the next tick or rejected. -/
def execPoolConfig (p : Fin 16) (cfg0 cfg1 : Word) (s : State) : Res :=
  .next (writePage .kvl 0 (0x404 + 0x40 * p.val) cfg1.toNat (writePage .kvl 0 (0x400 + 0x40 * p.val) cfg0.toNat s))

/-- HOLDER_CONFIG (09 R297): A holder configuration write sets its pool, enable and quota. -/
def execHolderConfig (h : Fin 256) (cfg : Word) (s : State) : Res :=
  .next (writePage .kvl 0 (0x800 + 8 * h.val) cfg.toNat s)

/-- BUCKET_SAMPLE (09 R300): At every N-th tick the bucket sorter samples the fixed lengths and sorts them. -/
def execBucketSample (s : State) : Res := .next (served bucketSample s)

end Sys2Proof.Machine
end

