-- ==== Sys2Proof/Machine/NearMemRows.lean ====
section
/-! DEFINITION. The commands of near-memory operations and chunks (08 R245 to R267): one meaning for each. -/
namespace Sys2Proof.Machine

/-- NM_ADD (08 R252): Near-memory elementwise add. -/
def execNmAdd (p : PosId) (a : NmArgs) (s : State) : Res := .next (nmRow .add p.val a s)

/-- NM_MUL (08 R252): Near-memory elementwise multiply. -/
def execNmMul (p : PosId) (a : NmArgs) (s : State) : Res := .next (nmRow .mul p.val a s)

/-- FMA (08 R252): Near-memory fused multiply-add. -/
def execFma (p : PosId) (a : NmArgs) (s : State) : Res := .next (nmRow .fma p.val a s)

/-- AXPBY (08 R252): Near-memory scaled sum of two operands. -/
def execAxpby (p : PosId) (a : NmArgs) (s : State) : Res := .next (nmRow .axpby p.val a s)

/-- SCALE (08 R252): Near-memory scaling by an immediate. -/
def execScale (p : PosId) (a : NmArgs) (s : State) : Res := .next (nmRow .scale p.val a s)

/-- NM_MAX (08 R252): Near-memory elementwise maximum. -/
def execNmMax (p : PosId) (a : NmArgs) (s : State) : Res := .next (nmRow .max p.val a s)

/-- NM_MIN (08 R252): Near-memory elementwise minimum. -/
def execNmMin (p : PosId) (a : NmArgs) (s : State) : Res := .next (nmRow .min p.val a s)

/-- CMPLT (08 R252): Near-memory less-than into a bit mask. -/
def execCmplt (p : PosId) (a : NmArgs) (s : State) : Res := .next (nmRow .cmplt p.val a s)

/-- CMPEQ (08 R252): Near-memory equality into a bit mask. -/
def execCmpeq (p : PosId) (a : NmArgs) (s : State) : Res := .next (nmRow .cmpeq p.val a s)

/-- NM_XOR (08 R252): Near-memory XOR. -/
def execNmXor (p : PosId) (a : NmArgs) (s : State) : Res := .next (nmRow .xor p.val a s)

/-- FILL (08 R252): Near-memory fill with an immediate. -/
def execNmFill (p : PosId) (a : NmArgs) (s : State) : Res := .next (nmRow .fill p.val a s)

/-- COPY (08 R252): Near-memory copy. -/
def execNmCopy (p : PosId) (a : NmArgs) (s : State) : Res := .next (nmRow .copy p.val a s)

/-- RELU (08 R256): Near-memory ReLU. -/
def execRelu (p : PosId) (a : NmArgs) (s : State) : Res := .next (nmRow .relu p.val a s)

/-- GELU (08 R256): Near-memory GELU. -/
def execGelu (p : PosId) (a : NmArgs) (s : State) : Res := .next (nmRow .gelu p.val a s)

/-- SILU (08 R256): Near-memory SiLU. -/
def execSilu (p : PosId) (a : NmArgs) (s : State) : Res := .next (nmRow .silu p.val a s)

/-- NM_CVT (08 R255): Near-memory format conversion, stochastic keys by R257. -/
def execNmCvt (p : PosId) (a : NmArgs) (s : State) : Res := .next (nmRow .cvt p.val a s)

/-- SETLAYOUT (08 R248): Sets the layout bit of a run of pages. -/
def execSetlayout (p : PosId) (a : NmArgs) (s : State) : Res := .next (nmRow .setlayout p.val a s)

/-- PLANE (08 R253): Converts word-layout INT32 to bit-plane layout. -/
def execPlane (p : PosId) (a : NmArgs) (s : State) : Res := .next (nmRow .plane p.val a s)

/-- UNPLANE (08 R253): Converts bit-plane elements to word-layout INT32. -/
def execUnplane (p : PosId) (a : NmArgs) (s : State) : Res := .next (nmRow .unplane p.val a s)

/-- PADD (08 R253): Bit-plane add. -/
def execPadd (p : PosId) (a : NmArgs) (s : State) : Res := .next (nmRow .padd p.val a s)

/-- PSUB (08 R253): Bit-plane subtract. -/
def execPsub (p : PosId) (a : NmArgs) (s : State) : Res := .next (nmRow .psub p.val a s)

/-- PCMPLT (08 R253): Bit-plane less-than. -/
def execPcmplt (p : PosId) (a : NmArgs) (s : State) : Res := .next (nmRow .pcmplt p.val a s)

/-- PCMPLTI (08 R253): Bit-plane less-than against an immediate. -/
def execPcmplti (p : PosId) (a : NmArgs) (s : State) : Res := .next (nmRow .pcmplti p.val a s)

/-- PAND (08 R253): Bit-plane AND. -/
def execPand (p : PosId) (a : NmArgs) (s : State) : Res := .next (nmRow .pand p.val a s)

/-- POR (08 R253): Bit-plane OR. -/
def execPor (p : PosId) (a : NmArgs) (s : State) : Res := .next (nmRow .por p.val a s)

/-- PXOR (08 R253): Bit-plane XOR. -/
def execPxor (p : PosId) (a : NmArgs) (s : State) : Res := .next (nmRow .pxor p.val a s)

/-- PCOUNT (08 R253): Counts set bits per bit-plane group. -/
def execPcount (p : PosId) (a : NmArgs) (s : State) : Res := .next (nmRow .pcount p.val a s)

/-- NM_CHUNK_START (08 R260): A unit starts the next chunk once its ports, time window and order allow. -/
def execNmChunkStart (p : PosId) (u : UnitId) (t : Nat) (s : State) : Res := .next (served (nmStart p.val u.val t) s)

/-- NM_CHUNK_END (08 R259): A chunk ends and frees its ports. -/
def execNmChunkEnd (p : PosId) (u : UnitId) (errs : List GErr) (s : State) : Res :=
  .next (served (chunkEnd p.val u.val none errs) s)

/-- NM_COMMAND_COMPLETE (08 R262): A command's last chunk ends and it completes, late if after tick n + K. -/
def execNmCommandComplete (p : PosId) (u : UnitId) (s : State) : Res := .next (served (nmDone p.val u.val) s)

/-- REMOTE_GRANULE_ARRIVAL (08 R267): An arriving granule joins the shaft's inbound buffer and its unit's queue. -/
def execRemoteGranuleArrival (p : PosId) (g : RemoteGran) (s : State) : Res :=
  .next (served (remoteArrive p.val g.kind ⟨g.addr.toNat / 32 * 32, g.data, g.poison, none⟩) s)

/-- WRITE (08 R267): A WRITE chunk stores arriving granules whole. -/
def execNmWrite (p : PosId) (u : UnitId) (errs : List GErr) (s : State) : Res :=
  .next (served (chunkEnd p.val u.val (some .write) errs) s)

/-- RACC (08 R267): An RACC chunk adds arriving FP32 values into the target. -/
def execRacc (p : PosId) (u : UnitId) (errs : List GErr) (s : State) : Res :=
  .next (served (chunkEnd p.val u.val (some .racc) errs) s)

/-- XACC (08 R267): An XACC chunk XORs arriving granules into the target. -/
def execXacc (p : PosId) (u : UnitId) (errs : List GErr) (s : State) : Res :=
  .next (served (chunkEnd p.val u.val (some .xacc) errs) s)

end Sys2Proof.Machine
end

