-- ==== Sys2Proof/Machine/PageRows.lean ====
section
/-! DEFINITION. The commands of events, fences, re-seats, evacuation and the register pages (00 R4 to R9; 19 R506 to R517; 21
R534 to R538): one meaning for each. -/
namespace Sys2Proof.Machine

/-- EVENT_FORCE (19 R509): A write of PG_EVT_FORCE.GO raises a forced event. -/
def execEventForce (pg inst : Nat) (code : BitVec 16) (s : State) : Res :=
  .next (onPage pg inst (fun q => forceEvent q inst code.toNat) s)

/-- EVENT_RECORD_WRITE (19 R508): Queued event records are written to the host ring oldest first, then the signal is sent. -/
def execEventRecordWrite (sev : Fin 4) (s : State) : Res := .next (served (eventWrite sev.val) s)

/-- FENCE_REQUEST (19 R512): A write of TWR_RGN_FENCE_REQ fences a core at the next tick. -/
def execFenceRequest (r : RegionId) (core : Fin 64) (s : State) : Res :=
  .next (ifEn .rgn r.val (fenceRequest r.val core.val) s)

/-- RESEAT_REQUEST (19 R514): A write of TWR_RESEAT is checked at the next tick and accepted or refused. -/
def execReseatRequest (t : TowerId) (half : Fin 2) (row : Fin 32) (s : State) : Res :=
  .next (ifEn .twr t.val (reseatRequest t.val half.val row.val) s)

/-- EVACUATION (19 R517): A write of TWR_EVAC_CTRL.GO starts a row-bus evacuation or refuses it. -/
def execEvacuation (t : TowerId) (s : State) : Res := .next (ifEn .twr t.val (evacuation t.val) s)

/-- EVACUATION_DONE (19 R517): An evacuation completes at the tick after its last granule. -/
def execEvacuationDone (t : TowerId) (s : State) : Res := .next (served (evacDone t.val) s)

/-- SOFT_RESET (21 R537): A write of PG_CTRL.SRESET resets the page's fields at the next tick. -/
def execSoftReset (pg inst : Nat) (s : State) : Res := .next (onPage pg inst (fun q => softRequest q inst) s)

/-- PAGE_LOCK (21 R537): A write of PG_CTRL.LOCK makes the page's RWL fields read-only. -/
def execPageLock (pg inst : Nat) (s : State) : Res := .next (onPage pg inst (fun q => lockPage q inst) s)

/-- PAGE_APPLY (21 R537): PG_CTRL.APPLY makes the page's RW fields take effect at the next tick. -/
def execPageApply (pg inst : Nat) (on : Bool) (s : State) : Res :=
  .next (onPage pg inst (fun q => applyPage q inst on) s)

/-- LOW_WORD_READ (00 R4): A read of a 64-bit register's low word latches its high word. -/
def execLowWordRead (addr : BitVec 26) (s : State) : Res := .next (lowWordRead addr.toNat s)

/-- RATIO_WATCH_CLEAR (05 R174): A write of TWR_RGN_RW_CLR clears ratio-watch sets at the next tick. -/
def execRatioWatchClear (r : RegionId) (sets : BitVec 16) (s : State) : Res :=
  .next (ifEn .rgn r.val (later (.rwClr r.val sets.toNat)) s)

/-- REGISTER_WRITE (00 R6): A write to a register without a row of its own takes effect by its access code. -/
def execRegisterWrite (addr : BitVec 26) (w : Word) (s : State) : Res := .next (hostWriteRegs addr.toNat [w.toNat] s)

end Sys2Proof.Machine
end

