-- ==== Sys2Proof/Machine/ParRows.lean ====
section
/-! DEFINITION. The commands of parity groups and snapshots (13 R379 to R392): one meaning for each. -/
namespace Sys2Proof.Machine

/-- PARITY_WINDOW_READ (13 R382): The engine reads a parity window and takes its seals. -/
def execParityWindowRead (c : CoreId) (s : State) : Res := .next (served (windowServe .parity c.val) s)

/-- CLEARED (13 R383): A CLEARED message arrives from a rank. -/
def execCleared (x : MgmtRx) (g : GrpId) (m : Fin 16 × Word) (s : State) : Res :=
  .next (linked (mgmtIn x (clearedRx g.val m.1.val m.2.toNat)) s)

/-- PARITY_CONTRIBUTION (13 R383): A data unit arrives at its parity owner and is applied by XACC. -/
def execParityContribution (g : GrpId) (m : SegMsg) (s : State) : Res := .next (served (parContribution g.val m) s)

/-- DONE (13 R383): An owner's DONE reaches the leader. -/
def execParDone (x : MgmtRx) (g : GrpId) (m : Fin 16 × Word) (s : State) : Res :=
  .next (linked (mgmtIn x (parDoneRx g.val m.1.val m.2.toNat)) s)

/-- COMMIT (13 R383): COMMIT arrives and PAR_COMMIT takes the generation at the next tick. -/
def execParCommit (x : MgmtRx) (m : GrpId × Word) (s : State) : Res := .next (linked (mgmtIn x (parCommitRx m.1.val m.2.toNat)) s)

/-- PARITY_LOSS (13 R384): A rank silent for RED_TIMEOUT is lost and the group becomes EXPOSED. -/
def execParityLoss (g : GrpId) (rank : Fin 16) (s : State) : Res := .next (timed (.parLoss g.val rank.val) s)

/-- PAR_REBUILD (13 R385): A write of PAR_REBUILD starts a rebuild and sends REBUILD to every rank. -/
def execParRebuild (g : GrpId) (gen : Word) (s : State) : Res := .next (ifEn .par 0 (parRebuild g.val gen.toNat) s)

/-- REBUILD (13 R385): A REBUILD message puts a member in REBUILDING. -/
def execRebuild (x : MgmtRx) (m : GrpId × Word) (s : State) : Res := .next (linked (mgmtIn x (rebuildRx m.1.val m.2.toNat)) s)

/-- REBUILD_SEGMENT (13 R385): A pulled unit arrives at the replacement and is applied by XACC. -/
def execRebuildSegment (g : GrpId) (m : SegMsg) (s : State) : Res := .next (served (rebuildSeg g.val m) s)

/-- SNAPSHOT_ARM (13 R389): A write of SNAP_AT arms a snapshot or refuses it. -/
def execSnapshotArm (frame : Word) (s : State) : Res := .next (hostField R.SNAP_AT 0 frame.toNat s)

/-- FIRST_WRITE_COPY (13 R390): A first write to a protected page waits while the page is copied, or cancels the snapshot. -/
def execFirstWriteCopy (c : CoreId) (page : Fin 2048) (s : State) : Res :=
  .next (served (firstWriteCopy c.val page.val) s)

/-- BACKGROUND_COPY (13 R391): The background copier copies a 4 KiB piece of an untouched page. -/
def execBackgroundCopy (x : CoreId × List GErr) (s : State) : Res := .next (served (backgroundCopy x.1.val x.2) s)

/-- SNAPSHOT_DRAIN (13 R392): A copied page drains from its stage slot to the host or a peer. -/
def execSnapshotDrain (c : CoreId) (s : State) : Res := .next (served (snapDrain c.val) s)

/-- SNAPSHOT_CANCEL (13 R392): A write of SNAP_CTRL.CANCEL ends the snapshot. -/
def execSnapshotCancel (s : State) : Res := .next (ifEn .snap 0 snapCancelHost s)

end Sys2Proof.Machine
end

