-- ==== Sys2Proof/Machine/PlateRows.lean ====
section
/-! DEFINITION. The commands of plates, rings and results (14 R401 to R425): one meaning for each. -/
namespace Sys2Proof.Machine

/-- DOORBELL (14 R414): A producer index written to a doorbell sets the ring's pending bit. -/
def execDoorbell (r : RingId) (v : Word) (s : State) : Res :=
  .next (hostWriteRegs (0x03000000 + 16 * r.val) [v.toNat] s)

/-- RING_SERVICE (14 R414): The ring engine services the next 64 sampled rings. -/
def execRingService (s : State) : Res := .next (served ringService s)

/-- LOAD (14 R401): Fetches, checks and loads a plate image. -/
def execPlateLoad (r : RingId) (s : State) : Res := .next (served (ringOp 1 r.val) s)

/-- LAUNCH (14 R405): Checks and stages one job of a plate. -/
def execPlateLaunch (r : RingId) (s : State) : Res := .next (served (ringOp 2 r.val) s)

/-- UNLOAD (14 R404): Frees a plate and its regions. -/
def execPlateUnload (r : RingId) (s : State) : Res := .next (served (ringOp 3 r.val) s)

/-- STOP (14 R408): Stops a plate's job with a given tag. -/
def execPlateStop (r : RingId) (s : State) : Res := .next (served (ringOp 4 r.val) s)

/-- WAIT (14 R413): Holds the ring until a counter reaches its target. -/
def execRingWait (r : RingId) (s : State) : Res := .next (served (ringOp 5 r.val) s)

/-- SETLR (14 R413): Copies learning-rate multipliers into a plate's layer table. -/
def execSetlr (r : RingId) (s : State) : Res := .next (served (ringOp 6 r.val) s)

/-- PLATE_ACTIVATION (14 R402): A loaded plate's regions become active at the tick of a covering length. -/
def execPlateActivation (pl : PlateId) (s : State) : Res := .next (served (activate pl.val) s)

/-- JOB_FILL (14 R406): A job's fill exposures copy its shelf and prepare its first slice. -/
def execJobFill (pl : PlateId) (s : State) : Res := .next (served (jobFill pl.val) s)

/-- JOB_COMPLETE (14 R407): A job completes at a tick and its completion record is written. -/
def execJobComplete (pl : PlateId) (s : State) : Res := .next (served (jobComplete pl.val) s)

/-- RING_WAIT_TIMEOUT (14 R415): A hold lasting RING_WAIT_LIMIT completes its entry with WAIT_TIMEOUT. -/
def execRingWaitTimeout (r : RingId) (s : State) : Res := .next (timed (.ringWait r.val) s)

/-- RING_RESET (14 R419): A write of RING_CFG.RESET stops the ring's jobs and flushes its entries at the next tick. -/
def execRingReset (r : RingId) (s : State) : Res := .next (ifEn .ring 0 (ringReset r.val) s)

/-- RESULT_STATUS_READ (14 R422): A read of a result slot's STATUS marks it read and reports repeats. -/
def execResultStatusRead (k : SlotId) (s : State) : Res := .next (slotRead k.val s)

/-- RESULT_ACK (14 R423): An ACK write makes a FIXED slot CONSUMED or counts a stale ACK. -/
def execResultAck (k : SlotId) (seq : BitVec 24) (s : State) : Res := .next (slotAck k.val seq.toNat s)

end Sys2Proof.Machine
end

