-- ==== Sys2Proof/Machine/PowerRows.lean ====
section
/-! DEFINITION. The commands of the Aperture controller, power domains and feeds (16 R447 to R467): one meaning for each. -/
namespace Sys2Proof.Machine

/-- APERTURE_EVALUATION (16 R452): Every 1 ms the controller moves its target stop or dark ratio against the cap. -/
def execApertureEvaluation (power : Nat) (s : State) : Res := .next (served (apertureEval power) s)

/-- CAP_CHANGE (12 R375): A write of APT_CAP changes the cap and may start a collective hold. -/
def execCapChange (cap : Nat) (s : State) : Res := .next (hostField R.APT_CAP 0 (cap % 2048) s)

/-- VOLTAGE_RAMP_DONE (16 R448): VDD_CORE completes its ramp and a raised stop takes effect at the next tick. -/
def execVoltageRampDone (h : HalfId) (s : State) : Res := .next (served (rampDone h.val) s)

/-- PWR_BRAKE_ASSERT (16 R456): PWR_BRAKE# asserted takes every half to S0 with a dark ratio of 8. -/
def execPwrBrakeAssert (s : State) : Res := .next (powered brakeAssert s)

/-- PWR_BRAKE_RELEASE (16 R456): PWR_BRAKE# released restores the controller's point. -/
def execPwrBrakeRelease (s : State) : Res := .next (powered brakeRelease s)

/-- FEED_LOST (16 R460): A feed out of range for 10 µs is lost. -/
def execFeedLost (b : Bool) (s : State) : Res := .next (feedOut b s)

/-- FEED_RESTORED (16 R460): A feed in range for 10 ms shares the load again. -/
def execFeedRestored (b : Bool) (s : State) : Res := .next (feedIn b s)

/-- BOTH_FEEDS_LOST (16 R460): Both feeds lost stop the module. -/
def execBothFeedsLost (s : State) : Res := .next (bothFeedsLost s)

/-- V_AUX_LOST (22 R549): V_AUX below 10.8 V for 10 µs stops the device and loses the safelight. -/
def execVAuxLost (s : State) : Res := .next (auxLost s)

/-- REFCLK_LOST (22 R547): REFCLK absent or off frequency is lost and the device goes FATAL. -/
def execRefclkLost (s : State) : Res := .next (refclkLost s)

/-- TELEMETRY_SAMPLE (16 R463): Every 1 ms a telemetry record and Vmin records are written. -/
def execTelemetrySample (smp : TelemSample) (s : State) : Res := .next (served (telemetry smp) s)

/-- PHASE_LOST (16 R464): A failed regulator phase is disconnected and caps or darkens its region. -/
def execPhaseLost (r : RegionId) (s : State) : Res := .next (powered (phaseLost r.val) s)

/-- OVER_CURRENT_TRIP (16 R465): A region's over-current trip opens its gate and fences its cores. -/
def execOverCurrentTrip (r : RegionId) (s : State) : Res := .next (served (overCurrent r.val) s)

/-- REGION_WAKE (16 R466): A write of PDN_CTRL.ON starts a region's gate ramp. -/
def execRegionWake (d : DomainId) (s : State) : Res := .next (hostField R.PDN_CTRL d.val 1 s)

/-- WAKE_RAMP_STEP (16 R466): The gate ramp takes or holds its next step every 2 µs. -/
def execWakeRampStep (d : DomainId) (w : WakeSense) (s : State) : Res := .next (powered (wakeStep d.val w) s)

/-- WAKE_RETRY (16 R466): PDN_WAKE_RETRY expires and a held step is retried. -/
def execWakeRetry (d : DomainId) (w : WakeSense) (s : State) : Res := .next (timed (.wakeRetry d.val w) s)

/-- WAKE_LIMIT (16 R466): PDN_WAKE_LIMIT expires and the ramp is abandoned as deferred. -/
def execWakeLimit (d : DomainId) (s : State) : Res := .next (timed (.wakeLimit d.val) s)

/-- WAKE_RESTART (16 R466): A deferred ramp restarts after the hold condition has been clear for 100 µs. -/
def execWakeRestart (d : DomainId) (s : State) : Res := .next (powered (wakeRestart d.val) s)

end Sys2Proof.Machine
end

