-- ==== Sys2Proof/Machine/RayRows.lean ====
section
/-! DEFINITION. The commands of Ray links and array traffic (11 R323 to R353): one meaning for each. -/
namespace Sys2Proof.Machine

/-- DATA (11 R332): A sequenced DATA flit arrives on a Ray port. -/
def execRayData (p : PortId) (head : BitVec 64) (pay : BitVec 1024) (s : State) : Res := .next (linked (rayMeshRx p.val 0 ⟨head, pay⟩) s)

/-- EMPTY (11 R326): A sequenced EMPTY flit arrives standing for an empty mesh flit. -/
def execRayEmpty (p : PortId) (w : RayWords) (s : State) : Res := .next (linked (rayMeshRx p.val 1 w) s)

/-- ARR_DESC (11 R344): An array descriptor arrives and opens a transfer, or is answered with NAK DESC. -/
def execArrDesc (p : PortId) (head : BitVec 64) (pay : BitVec 1024) (s : State) : Res :=
  .next (linked (arrDescRx p.val ⟨head, pay⟩ (arrDescOf pay)) s)

/-- ARR_DATA (11 R344): An array data flit of four granules arrives. -/
def execArrData (p : PortId) (head : BitVec 64) (pay : BitVec 1024) (s : State) : Res :=
  .next (linked (arrRx p.val ⟨head, pay⟩ (.arr pay (RayWords.poison ⟨head, pay⟩))) s)

/-- EPOCH_MARK (11 R346): An epoch mark arrives and RAY_EPOCH_DONE is set once earlier transfers complete. -/
def execEpochMark (p : PortId) (w : RayWords) (src : BitVec 16) (epoch : Word) (s : State) : Res :=
  .next (linked (arrRx p.val w (.mark src.toNat epoch.toNat)) s)

/-- RAY_CREDIT (11 R328): A CREDIT flit returns credits, clipped if none are outstanding. -/
def execRayCredit (p : PortId) (w : RayWords) (s : State) : Res := .next (linked (rayCreditRx p.val w) s)

/-- RAY_ACK_ONLY (11 R327): An ACK_ONLY flit acknowledges sequenced flits. -/
def execRayAckOnly (p : PortId) (w : RayWords) (s : State) : Res := .next (linked (rayAckRx p.val w) s)

/-- RAY_NAK (11 R327): A NAK makes the sender resend from the first unacknowledged flit. -/
def execRayNak (p : PortId) (head : BitVec 64) (said : BitVec 20) (rest : BitVec 1004) (s : State) : Res :=
  .next (linked (rayNakRx p.val ⟨head, rest ++ said⟩) s)

/-- RAY_REPLAY_REQ (11 R327): A REPLAY_REQ makes the sender resend from the requested flit. -/
def execRayReplayReq (p : PortId) (head : BitVec 64) (pay : BitVec 1024) (s : State) : Res := .next (linked (rayReplayRx p.val ⟨head, pay⟩) s)

/-- BEACON (11 R340): A beacon arrives, is forwarded with added delay and places the cell tick. -/
def execBeacon (p : PortId) (w : RayWords) (m : Bool × BitVec 4 × Bool) (s : State) : Res :=
  .next (linked (beaconRx p.val w m.1 m.2.1 m.2.2) s)

/-- RAY_SEND (11 R328): A Ray port sends its next queued flit as credits allow. -/
def execRaySend (p : PortId) (s : State) : Res := .next (linked (raySend p.val) s)

/-- TRANSIT_FORWARD (11 R335): A transit flit leaves the transit device in its due frame, or is late. -/
def execTransitForward (p : PortId) (s : State) : Res := .next (served (transitForward p.val) s)

/-- RAY_TRAINING (11 R347): A Ray port trains through its states to UP, degraded, strict or failed. -/
def execRayTraining (p : PortId) (t : TrainRes) (s : State) : Res := .next (sheetAgain (linked (rayTrained p.val t) s))

/-- RAY_TRAIN_LIMIT (11 R348): RAY_TRAIN_LIMIT expires and the port is marked down. -/
def execRayTrainLimit (p : PortId) (s : State) : Res := .next (sheetAgain (timed (.rayTrainLimit p.val) s))

/-- RAY_TRAIN_RETRY (11 R348): One second after a failure a new training attempt starts. -/
def execRayTrainRetry (p : PortId) (s : State) : Res := .next (sheetAgain (timed (.rayTrainRetry p.val) s))

/-- RETRAIN (11 R349): A write of RAY_CTRL.RETRAIN retrains the port. -/
def execRetrain (p : PortId) (s : State) : Res := .next (ifEn .ray p.val (rayRetrain p.val) s)

/-- PARTNER_TRAINING (11 R349): Training patterns from the partner start a retrain. -/
def execPartnerTraining (p : PortId) (s : State) : Res := .next (linked (rayRetrain p.val) s)

/-- RAY_VIOLATION_WINDOW (11 R351): A 1 ms violation window ends and a retrain or fence follows above threshold. -/
def execRayViolationWindow (p : PortId) (s : State) : Res := .next (linked (rayWindow p.val) s)

/-- UNFENCE (11 R351): A write of RAY_CTRL.UNFENCE leaves the fenced state and trains. -/
def execUnfence (p : PortId) (s : State) : Res := .next (ifEn .ray p.val (rayUnfence p.val) s)

/-- DISABLE (11 R353): A write of RAY_CTRL.DISABLE holds the port DOWN. -/
def execDisable (p : PortId) (on : Bool) (s : State) : Res := .next (hostField R.RAY_CTRL_DISABLE p.val on.toNat s)

/-- EPOCH_CLOSE (11 R346): A write of RAY_EPOCH_CLOSE queues an EPOCH_MARK, or is ignored as out of order. -/
def execEpochClose (p : PortId) (e : Word) (s : State) : Res := .next (ifEn .ray p.val (epochClose p.val e.toNat) s)

/-- FEC_UNCORRECTABLE_CODEWORD (11 R324): A received RS(544,514) codeword that the FEC cannot correct discards every
flit it carries and is counted in RAY_FEC_UNCORR, or in ABA_FEC_UNCORR on the Abaes link. -/
def execFecUncorrectableCodeword (p : Option PortId) (s : State) : Res := .next (linked (fecLost p) s)

end Sys2Proof.Machine
end

