-- ==== Sys2Proof/Machine/RedRows.lean ====
section
/-! DEFINITION. The commands of reduction channels (12 R356 to R377): one meaning for each. -/
namespace Sys2Proof.Machine

/-- SEAL_WINDOW_READ (12 R359): The channel engine reads a seal window and takes its seals. -/
def execSealWindowRead (c : CoreId) (s : State) : Res := .next (served (windowServe .seal c.val) s)

/-- SEAL (12 R363): A member's SEAL message reaches the leader. -/
def execRedSeal (x : MgmtRx) (ch : ChanId) (rank : Fin 64) (m : Word × Word) (s : State) : Res :=
  .next (linked (mgmtIn x (sealHeard ch.val rank.val m.1.toNat m.2.toNat)) s)

/-- ROSTER_FIX (12 R364): The leader fixes a bucket's roster once all SEALs arrive. -/
def execRosterFix (ch : ChanId) (s : State) : Res := .next (served (rosterFix ch.val) s)

/-- ROSTER (12 R364): A ROSTER message arrives and is applied at the next tick. -/
def execRedRoster (x : MgmtRx) (m : ChanId × RosterMsg) (s : State) : Res := .next (linked (mgmtIn x (rosterRx m.1.val m.2)) s)

/-- PULL (12 R366): An owner's PULL asks a rank for its contribution to a segment. -/
def execRedPull (x : MgmtRx) (m : PullFor × PullMsg) (s : State) : Res :=
  .next (linked (mgmtIn x (fun s => match m.1 with
    | .chan c => pullRx c.val m.2 s
    | .group g => parPullRx g.val m.2 s)) s)

/-- CONTRIBUTION (12 R367): A pulled contribution arrives and is applied in rank order. -/
def execContribution (ch : ChanId) (m : SegMsg) (s : State) : Res := .next (served (contribution ch.val m) s)

/-- MIRROR_CHECK (12 R373): After a share's last apply chunk, the sampled elements are compared with exact sums. -/
def execMirrorCheck (ch : ChanId) (share : Fin 64) (s : State) : Res := .next (served (mirrorCheck ch.val share.val) s)

/-- CHECK (12 R374): An owner's CHECK reaches the leader. -/
def execRedCheck (x : MgmtRx) (ch : ChanId) (rank : Fin 64) (m : Word × Bool) (s : State) : Res :=
  .next (linked (mgmtIn x (checkRx ch.val rank.val m.1.toNat m.2)) s)

/-- VERDICT (12 R374): The leader's VERDICT starts conversion, a re-reduction or a fence. -/
def execRedVerdict (x : MgmtRx) (ch : ChanId) (m : Word × RedVerdict) (s : State) : Res :=
  .next (linked (mgmtIn x (verdictRx ch.val m.1.toNat m.2)) s)

/-- RESULT_SEGMENT (12 R369): An arriving result segment is written into RES. -/
def execResultSegment (ch : ChanId) (m : SegMsg) (s : State) : Res := .next (served (resultSeg ch.val m) s)

/-- BUCKET_COMPLETE (12 R369): A bucket completes at the tick after its last result segment. -/
def execBucketComplete (ch : ChanId) (seq : Word) (s : State) : Res :=
  .next (served (bucketComplete ch.val seq.toNat) s)

/-- RED_TIMEOUT (12 R371): RED_TIMEOUT expires and missing contributors, owners or members are dropped. -/
def execRedTimeout (ch : ChanId) (w : RedWait) (s : State) : Res :=
  .next (match w with
    | .report x _ _ => linked (mgmtIn x (redTimeout ch.val w)) s
    | _ => timed (.redTimeout ch.val w) s)

/-- LEADER_LOST (12 R371): No ROSTER or VERDICT arrives within twice RED_TIMEOUT, and the next rank leads. -/
def execLeaderLost (ch : ChanId) (s : State) : Res := .next (timed (.leaderLost ch.val) s)

/-- CAP_NOTICE (12 R376): A partner's CAP_NOTICE is recorded in RED_CAP_NOTE. -/
def execCapNotice (x : MgmtRx) (ch : ChanId) (m : Fin 64 × Word) (s : State) : Res :=
  .next (linked (mgmtIn x (capNotice ch.val m.1.val m.2.toNat)) s)

/-- RED_UNFENCE (12 R374): A write of RED_CTRL.UNFENCE leaves the fenced state at the next tick. -/
def execRedUnfence (ch : ChanId) (s : State) : Res := .next (ifEn .red ch.val (redUnfence ch.val) s)

/-- COLLECTIVE_HOLD_END (12 R375): The collective hold ends on bucket completion or timer expiry and the cap applies. -/
def execCollectiveHoldEnd (s : State) : Res := .next (timed .collectiveHold s)

end Sys2Proof.Machine
end

