-- ==== Sys2Proof/Machine/ScalarRows.lean ====
section
/-! DEFINITION. The commands of the scalar slot (03 R98): a bundle of that operation alone, issued in the core's cycle: one
meaning for each. -/
namespace Sys2Proof.Machine

/-- ADD (03 R98): Scalar register add. -/
def execAdd (c : CoreId) (x : CtxId) (sd sa sb : Reg4) (s : State) : Res :=
  .next (issueScalar c.val x.val (.alu .add sd sa sb) s)

/-- SUB (03 R98): Scalar register subtract. -/
def execSub (c : CoreId) (x : CtxId) (sd sa sb : Reg4) (s : State) : Res :=
  .next (issueScalar c.val x.val (.alu .sub sd sa sb) s)

/-- AND (03 R98): Scalar register AND. -/
def execSAnd (c : CoreId) (x : CtxId) (sd sa sb : Reg4) (s : State) : Res :=
  .next (issueScalar c.val x.val (.alu .and sd sa sb) s)

/-- OR (03 R98): Scalar register OR. -/
def execSOr (c : CoreId) (x : CtxId) (sd sa sb : Reg4) (s : State) : Res :=
  .next (issueScalar c.val x.val (.alu .or sd sa sb) s)

/-- XOR (03 R98): Scalar register XOR. -/
def execSXor (c : CoreId) (x : CtxId) (sd sa sb : Reg4) (s : State) : Res :=
  .next (issueScalar c.val x.val (.alu .xor sd sa sb) s)

/-- SHL (03 R98): Scalar shift left. -/
def execShl (c : CoreId) (x : CtxId) (sd sa sb : Reg4) (s : State) : Res :=
  .next (issueScalar c.val x.val (.alu .shl sd sa sb) s)

/-- SHR (03 R98): Scalar logical shift right. -/
def execShr (c : CoreId) (x : CtxId) (sd sa sb : Reg4) (s : State) : Res :=
  .next (issueScalar c.val x.val (.alu .shr sd sa sb) s)

/-- SRA (03 R98): Scalar arithmetic shift right. -/
def execSra (c : CoreId) (x : CtxId) (sd sa sb : Reg4) (s : State) : Res :=
  .next (issueScalar c.val x.val (.alu .sra sd sa sb) s)

/-- MUL (03 R98): Scalar multiply keeping the low 32 bits. -/
def execMul (c : CoreId) (x : CtxId) (sd sa sb : Reg4) (s : State) : Res :=
  .next (issueScalar c.val x.val (.alu .mul sd sa sb) s)

/-- MIN (03 R98): Scalar signed minimum. -/
def execMin (c : CoreId) (x : CtxId) (sd sa sb : Reg4) (s : State) : Res :=
  .next (issueScalar c.val x.val (.alu .min sd sa sb) s)

/-- MAX (03 R98): Scalar signed maximum. -/
def execMax (c : CoreId) (x : CtxId) (sd sa sb : Reg4) (s : State) : Res :=
  .next (issueScalar c.val x.val (.alu .max sd sa sb) s)

/-- SLT (03 R98): Scalar signed set-less-than. -/
def execSlt (c : CoreId) (x : CtxId) (sd sa sb : Reg4) (s : State) : Res :=
  .next (issueScalar c.val x.val (.alu .slt sd sa sb) s)

/-- SLTU (03 R98): Scalar unsigned set-less-than. -/
def execSltu (c : CoreId) (x : CtxId) (sd sa sb : Reg4) (s : State) : Res :=
  .next (issueScalar c.val x.val (.alu .sltu sd sa sb) s)

/-- SEQ (03 R98): Scalar set-equal. -/
def execSeq (c : CoreId) (x : CtxId) (sd sa sb : Reg4) (s : State) : Res :=
  .next (issueScalar c.val x.val (.alu .seq sd sa sb) s)

/-- ADDI (03 R98): Scalar add immediate. -/
def execAddi (c : CoreId) (x : CtxId) (sd sa : Reg4) (imm : BitVec 14) (s : State) : Res :=
  .next (issueScalar c.val x.val (.alui .add sd sa imm) s)

/-- SUBI (03 R98): Scalar subtract immediate. -/
def execSubi (c : CoreId) (x : CtxId) (sd sa : Reg4) (imm : BitVec 14) (s : State) : Res :=
  .next (issueScalar c.val x.val (.alui .sub sd sa imm) s)

/-- ANDI (03 R98): Scalar AND immediate. -/
def execAndi (c : CoreId) (x : CtxId) (sd sa : Reg4) (imm : BitVec 14) (s : State) : Res :=
  .next (issueScalar c.val x.val (.alui .and sd sa imm) s)

/-- ORI (03 R98): Scalar OR immediate. -/
def execOri (c : CoreId) (x : CtxId) (sd sa : Reg4) (imm : BitVec 14) (s : State) : Res :=
  .next (issueScalar c.val x.val (.alui .or sd sa imm) s)

/-- XORI (03 R98): Scalar XOR immediate. -/
def execXori (c : CoreId) (x : CtxId) (sd sa : Reg4) (imm : BitVec 14) (s : State) : Res :=
  .next (issueScalar c.val x.val (.alui .xor sd sa imm) s)

/-- SHLI (03 R98): Scalar shift left by immediate. -/
def execShli (c : CoreId) (x : CtxId) (sd sa : Reg4) (imm : BitVec 14) (s : State) : Res :=
  .next (issueScalar c.val x.val (.alui .shl sd sa imm) s)

/-- SHRI (03 R98): Scalar logical shift right by immediate. -/
def execShri (c : CoreId) (x : CtxId) (sd sa : Reg4) (imm : BitVec 14) (s : State) : Res :=
  .next (issueScalar c.val x.val (.alui .shr sd sa imm) s)

/-- SRAI (03 R98): Scalar arithmetic shift right by immediate. -/
def execSrai (c : CoreId) (x : CtxId) (sd sa : Reg4) (imm : BitVec 14) (s : State) : Res :=
  .next (issueScalar c.val x.val (.alui .sra sd sa imm) s)

/-- MULI (03 R98): Scalar multiply by immediate. -/
def execMuli (c : CoreId) (x : CtxId) (sd sa : Reg4) (imm : BitVec 14) (s : State) : Res :=
  .next (issueScalar c.val x.val (.alui .mul sd sa imm) s)

/-- MINI (03 R98): Scalar minimum with immediate. -/
def execMini (c : CoreId) (x : CtxId) (sd sa : Reg4) (imm : BitVec 14) (s : State) : Res :=
  .next (issueScalar c.val x.val (.alui .min sd sa imm) s)

/-- MAXI (03 R98): Scalar maximum with immediate. -/
def execMaxi (c : CoreId) (x : CtxId) (sd sa : Reg4) (imm : BitVec 14) (s : State) : Res :=
  .next (issueScalar c.val x.val (.alui .max sd sa imm) s)

/-- SLTI (03 R98): Scalar signed set-less-than immediate. -/
def execSlti (c : CoreId) (x : CtxId) (sd sa : Reg4) (imm : BitVec 14) (s : State) : Res :=
  .next (issueScalar c.val x.val (.alui .slt sd sa imm) s)

/-- SLTUI (03 R98): Scalar unsigned set-less-than immediate. -/
def execSltui (c : CoreId) (x : CtxId) (sd sa : Reg4) (imm : BitVec 14) (s : State) : Res :=
  .next (issueScalar c.val x.val (.alui .sltu sd sa imm) s)

/-- SEQI (03 R98): Scalar set-equal immediate. -/
def execSeqi (c : CoreId) (x : CtxId) (sd sa : Reg4) (imm : BitVec 14) (s : State) : Res :=
  .next (issueScalar c.val x.val (.alui .seq sd sa imm) s)

/-- LUI (03 R98): Loads an 18-bit upper immediate into a scalar register. -/
def execLui (c : CoreId) (x : CtxId) (sd : Reg4) (imm : BitVec 18) (s : State) : Res :=
  .next (issueScalar c.val x.val (.lui sd imm) s)

/-- LDS (03 R98): Loads a tray word into a scalar register. -/
def execLds (c : CoreId) (x : CtxId) (sd sa : Reg4) (imm : BitVec 14) (s : State) : Res :=
  .next (issueScalar c.val x.val (.lds sd sa imm) s)

/-- STS (03 R98): Stores a scalar register into a tray word. -/
def execSts (c : CoreId) (x : CtxId) (sd sa : Reg4) (imm : BitVec 14) (s : State) : Res :=
  .next (issueScalar c.val x.val (.sts sd sa imm) s)

/-- PTEST (03 R98): Returns a line's presence code without waiting. -/
def execPtest (c : CoreId) (x : CtxId) (sd sa : Reg4) (imm : BitVec 14) (s : State) : Res :=
  .next (issueScalar c.val x.val (.ptest sd sa imm) s)

/-- RDS (03 R98): Reads a device item such as core, context, slice or cycle. -/
def execRds (c : CoreId) (x : CtxId) (sd : Reg4) (item : BitVec 14) (s : State) : Res :=
  .next (issueScalar c.val x.val (.rds sd item) s)

/-- TDSET (03 R98): Writes one word of a tile descriptor. -/
def execTdset (c : CoreId) (x : CtxId) (td : Fin 8) (w : Fin 4) (sa : Reg4) (s : State) : Res :=
  .next (issueScalar c.val x.val (.tdset td w sa) s)

/-- BEQZ (03 R98): Branches if a scalar is zero. -/
def execBeqz (c : CoreId) (x : CtxId) (sa : Reg4) (imm : BitVec 14) (s : State) : Res :=
  .next (issueScalar c.val x.val (.beqz sa imm) s)

/-- BNEZ (03 R98): Branches if a scalar is nonzero. -/
def execBnez (c : CoreId) (x : CtxId) (sa : Reg4) (imm : BitVec 14) (s : State) : Res :=
  .next (issueScalar c.val x.val (.bnez sa imm) s)

/-- BR (03 R98): Branches unconditionally. -/
def execBr (c : CoreId) (x : CtxId) (imm : BitVec 14) (s : State) : Res := .next (issueScalar c.val x.val (.br imm) s)

end Sys2Proof.Machine
end

