-- ==== Sys2Proof/Machine/SecurityRows.lean ====
section
/-! DEFINITION. The commands of security and attestation (20 R519 to R531): one meaning for each. -/
namespace Sys2Proof.Machine

/-- OWNER_PROGRAM (20 R523): A write of SEC_OWNER_CTRL programs the owner key hash. -/
def execOwnerProgram (w : Word) (readBack : Bool) (s : State) : Res :=
  .next (ifEn .sec 0 (ownerProgram w.toNat readBack) s)

/-- SVN_COMMIT (20 R522): A write of SEC_POLICY.SVN_COMMIT raises the minimum SVN. -/
def execSvnCommit (s : State) : Res := .next (ifEn .sec 0 svnCommit s)

/-- KEY_REVOKE (20 R522): A write of SEC_POLICY.REVOKE revokes a Zorleril key. -/
def execKeyRevoke (keys : BitVec 4) (s : State) : Res := .next (ifEn .sec 0 (keyRevoke keys.toNat) s)

/-- NONCE_REQ (20 R530): A debug nonce request loads 32 fresh random bytes. -/
def execNonceReq (level : Fin 4) (s : State) : Res := .next (ifEn .sec 0 (nonceReq level.val) s)

/-- SUBMIT (20 R530): A debug response is verified and unlocks or is denied. -/
def execSecSubmit (s : State) : Res := .next (ifEn .sec 0 submit s)

/-- GET_VERSION (20 R527): SPDM GET_VERSION request. -/
def execGetVersion (m : SpdmMsg) (s : State) : Res := .next (getVersion m s)

/-- GET_CAPABILITIES (20 R527): SPDM GET_CAPABILITIES request. -/
def execGetCapabilities (m : SpdmMsg) (s : State) : Res := .next (getCapabilities m s)

/-- NEGOTIATE_ALGORITHMS (20 R527): SPDM NEGOTIATE_ALGORITHMS request. -/
def execNegotiateAlgorithms (m : SpdmMsg) (s : State) : Res := .next (negotiate m s)

/-- GET_DIGESTS (20 R527): SPDM GET_DIGESTS request. -/
def execGetDigests (m : SpdmMsg) (s : State) : Res := .next (getDigests m s)

/-- GET_CERTIFICATE (20 R527): SPDM GET_CERTIFICATE request by offset and length. -/
def execGetCertificate (m : SpdmMsg) (s : State) : Res := .next (getCertificate m s)

/-- CHALLENGE (20 R527): SPDM CHALLENGE request. -/
def execSpdmChallenge (m : SpdmMsg) (s : State) : Res := .next (challenge m s)

/-- GET_MEASUREMENTS (20 R526): SPDM GET_MEASUREMENTS request returning signed measurement blocks. -/
def execGetMeasurements (m : SpdmMsg) (s : State) : Res := .next (getMeasurements m s)

/-- UNSUPPORTED_REQUEST (20 R527): Any other SPDM request is answered with ERROR UnsupportedRequest. -/
def execUnsupportedRequest (m : SpdmMsg) (s : State) : Res := .next (unsupported m s)

end Sys2Proof.Machine
end

