-- ==== Sys2Proof/Machine/ShaftRows.lean ====
section
/-! DEFINITION. The commands of host slots, refresh, correction, scrubbing, checker tests, the row bus (01 R29; 02 R77; 07
R230 to R241): one meaning for each. -/
namespace Sys2Proof.Machine

/-- HOST_SLOT (01 R29): Each shaft serves queued host accesses in the first 200 ns of the exposure. -/
def execHostSlot (p : PosId) (errs : List GErr) (s : State) : Res :=
  .next (served (fun s => drainRegs (hostSlotServe p.val errs s)) s)

/-- REFRESH (07 R241): The layers in rotation refresh from 200 ns to 400 ns. -/
def execRefresh (s : State) : Res := .next (served refresh s)

/-- CORRECTED_WRITE_BACK (07 R234): A corrected granule or word is written back in the next idle cycle unless overwritten. -/
def execCorrectedWriteBack (p : PosId) (s : State) : Res := .next (served (writeBack p.val) s)

/-- SCRUB_READ (07 R239): The scrubber reads one touched granule or SRAM line in an idle slot. -/
def execScrubRead (p : PosId) (sram : Bool) (err : Option GErr) (s : State) : Res :=
  .next (served (scrubRead p.val sram err) s)

/-- CHECKER_TEST_RUN (07 R237): A write of SHF_TEST.RUN starts the checker test strip in dark frames. -/
def execCheckerTestRun (p : PosId) (s : State) : Res := .next (ifEn .shf p.val (checkerRun p.val) s)

/-- CHECKER_BATCH (07 R237): A batch of up to 1,024 checker vectors runs in a dark frame. -/
def execCheckerBatch (p : PosId) (dramFails sramFails : Nat) (s : State) : Res :=
  .next (served (checkerBatch p.val dramFails sramFails) s)

/-- ROW_BUS_TRANSFER (02 R77): A 4 KiB granule moves between memory positions of a half-row. -/
def execRowBusTransfer (t : TowerId) (s : State) : Res := .next (served (rowBus t.val) s)

end Sys2Proof.Machine
end

