-- ==== Sys2Proof/Machine/SlotRows.lean ====
section
/-! DEFINITION. The commands of the move slot and the shaft slot (03 R102 to R114, R119 to R121): one meaning for each. -/
namespace Sys2Proof.Machine

/-- OUT (03 R102): Fills an outbound slot from a vector register. -/
def execMOut (c : CoreId) (x : CtxId) (slot : Fin 32) (reg : Reg4) (s : State) : Res :=
  .next (issueSlot c.val x.val { Bundle.nops with mv := .out slot reg } s)

/-- OUTL (03 R102): Fills an outbound slot from a tray line. -/
def execOutl (c : CoreId) (x : CtxId) (slot : Fin 32) (reg : Reg4) (off : BitVec 11) (s : State) : Res :=
  .next (issueSlot c.val x.val { Bundle.nops with mv := .outl slot reg off } s)

/-- TAKE (03 R102): Moves an inbound slot into a vector register. -/
def execMTake (c : CoreId) (x : CtxId) (slot : Fin 32) (reg : Reg4) (s : State) : Res :=
  .next (issueSlot c.val x.val { Bundle.nops with mv := .take slot reg } s)

/-- TAKEL (03 R102): Moves an inbound slot into a tray line. -/
def execTakel (c : CoreId) (x : CtxId) (slot : Fin 32) (reg : Reg4) (off : BitVec 11) (s : State) : Res :=
  .next (issueSlot c.val x.val { Bundle.nops with mv := .takel slot reg off } s)

/-- LPOST (03 R120): Posts a loose message to a plate-relative core. -/
def execLpost (c : CoreId) (x : CtxId) (dst reg : Reg4) (off : BitVec 11) (s : State) : Res :=
  .next (issueSlot c.val x.val { Bundle.nops with mv := .lpost dst reg off } s)

/-- LTAKE (03 R121): Takes the oldest loose message and its sender. -/
def execLtake (c : CoreId) (x : CtxId) (dst reg : Reg4) (off : BitVec 11) (s : State) : Res :=
  .next (issueSlot c.val x.val { Bundle.nops with mv := .ltake dst reg off } s)

/-- LD (03 R108): Issues a shaft load of lines into the tray. -/
def execShLd (c : CoreId) (x : CtxId) (sa sb : Reg4) (count : Fin 64) (bypass : Bool) (s : State) : Res :=
  .next (issueSlot c.val x.val { Bundle.nops with sh := .ld sa sb count bypass } s)

/-- ST (03 R110): Issues a shaft store of tray lines. -/
def execShSt (c : CoreId) (x : CtxId) (sa sb : Reg4) (count : Fin 64) (s : State) : Res :=
  .next (issueSlot c.val x.val { Bundle.nops with sh := .st sa sb count } s)

/-- NM (08 R259): Issues a near-memory command held in a tray line. -/
def execShNm (c : CoreId) (x : CtxId) (sb : Reg4) (s : State) : Res :=
  .next (issueSlot c.val x.val { Bundle.nops with sh := .nm sb } s)

/-- FENCE_NM (03 R112): Waits for earlier near-memory commands and chunks in a range, then invalidates the cache. -/
def execFenceNm (c : CoreId) (x : CtxId) (sa : Reg4) (count : Fin 64) (s : State) : Res :=
  .next (issueSlot c.val x.val { Bundle.nops with sh := .fenceNm sa count } s)

/-- FENCE_SHAFT (03 R111): Waits for the context's earlier shaft requests. -/
def execFenceShaft (c : CoreId) (x : CtxId) (s : State) : Res :=
  .next (issueSlot c.val x.val { Bundle.nops with sh := .fenceShaft } s)

/-- CODE (03 R114): Loads shaft lines into the bundle store for the next tick. -/
def execShCode (c : CoreId) (x : CtxId) (sa sb : Reg4) (count : Fin 64) (s : State) : Res :=
  .next (issueSlot c.val x.val { Bundle.nops with sh := .code sa sb count } s)

/-- CINV (03 R113): Invalidates read-cache lines in a range. -/
def execCinv (c : CoreId) (x : CtxId) (sa : Reg4) (count : Fin 64) (s : State) : Res :=
  .next (issueSlot c.val x.val { Bundle.nops with sh := .cinv sa count } s)

/-- FENCE_NM_DONE (08 R265): A waiting FENCE.NM completes and invalidates the read cache. -/
def execFenceNmDone (c : CoreId) (x : CtxId) (s : State) : Res := .next (fenceNmDone c.val x.val s)

/-- FENCE_SHAFT_DONE (03 R111): A waiting FENCE.SHAFT completes. -/
def execFenceShaftDone (c : CoreId) (x : CtxId) (s : State) : Res := .next (fenceShaftDone c.val x.val s)

/-- SHAFT_LOAD_LAND (03 R108): A loaded line lands in the tray and becomes EARLY. -/
def execShaftLoadLand (c : CoreId) (errs : List GErr) (s : State) : Res := .next (loadLand c.val errs s)

end Sys2Proof.Machine
end

