-- ==== Sys2Proof/Machine/SyncRows.lean ====
section
/-! DEFINITION. The commands of sync groups and view holds (01 R19 to R24, R49; 11 R338 to R343): one meaning for each. -/
namespace Sys2Proof.Machine

/-- SHUTTER_EDGE (11 R339): A SHUTTER edge ticks a board member. -/
def execShutterEdge (long : Bool) (skew : BitVec 8) (env : TickEnv) (s : State) : Res :=
  .next (shutterEdge long skew.toNat env s)

/-- SYNC_LOSS (01 R54): GLB_SYNC_LOSS expires and the device ticks on its own as a group of one. -/
def execSyncLoss (s : State) : Res := .next (timed .syncLoss s)

/-- REJOIN (11 R342): A write of GLB_SYNC_STAT.REJOIN aligns the device to its group. -/
def execRejoin (s : State) : Res := .next (ifEn .glb 0 rejoin s)

/-- REJOIN_LIMIT (11 R343): GLB_REJOIN_LIMIT expires and the device stays a group of one. -/
def execRejoinLimit (s : State) : Res := .next (timed .rejoin s)

/-- ROUTE_SWAP_ARM (11 R338): A write of GLB_ROUTE_AT arms a route-set swap or is ignored as late. -/
def execRouteSwapArm (frame : Word) (s : State) : Res := .next (hostField R.GLB_ROUTE_AT 0 frame.toNat s)

/-- VIEW_HOLD (01 R49): A write of GLB_VIEW_CTRL.HOLD freezes or releases the host view at the next tick. -/
def execViewHold (on : Bool) (s : State) : Res := .next (hostField R.GLB_VIEW_CTRL_HOLD 0 on.toNat s)

/-- VIEW_HOLD_EXPIRY (01 R49): The hold timer expires and the hold is released. -/
def execViewHoldExpiry (s : State) : Res := .next (timed .viewHold s)

end Sys2Proof.Machine
end

