-- ==== Sys2Proof/Machine/VectorRows.lean ====
section
/-! DEFINITION. The commands of the vector slot (03 R99; 04 R153 to R157; 05 R169 to R173; 10 R309 to R313): a bundle of that
operation alone: one meaning for each. -/
namespace Sys2Proof.Machine

/-- FADD (04 R155): Vector floating-point add. -/
def execFadd (c : CoreId) (x : CtxId) (f : VFields) (s : State) : Res :=
  .next (issueVector c.val x.val (.op .fadd f) s)

/-- FSUB (04 R155): Vector floating-point subtract. -/
def execFsub (c : CoreId) (x : CtxId) (f : VFields) (s : State) : Res :=
  .next (issueVector c.val x.val (.op .fsub f) s)

/-- FMUL (04 R155): Vector floating-point multiply. -/
def execFmul (c : CoreId) (x : CtxId) (f : VFields) (s : State) : Res :=
  .next (issueVector c.val x.val (.op .fmul f) s)

/-- FFMA (04 R155): Vector fused multiply-add. -/
def execFfma (c : CoreId) (x : CtxId) (f : VFields) (s : State) : Res :=
  .next (issueVector c.val x.val (.op .ffma f) s)

/-- FMIN (04 R155): Vector floating-point minimum. -/
def execFmin (c : CoreId) (x : CtxId) (f : VFields) (s : State) : Res :=
  .next (issueVector c.val x.val (.op .fmin f) s)

/-- FMAX (04 R155): Vector floating-point maximum. -/
def execFmax (c : CoreId) (x : CtxId) (f : VFields) (s : State) : Res :=
  .next (issueVector c.val x.val (.op .fmax f) s)

/-- IADD (03 R99): Vector integer add. -/
def execIadd (c : CoreId) (x : CtxId) (f : VFields) (s : State) : Res :=
  .next (issueVector c.val x.val (.op .iadd f) s)

/-- ISUB (03 R99): Vector integer subtract. -/
def execIsub (c : CoreId) (x : CtxId) (f : VFields) (s : State) : Res :=
  .next (issueVector c.val x.val (.op .isub f) s)

/-- IMUL (03 R99): Vector integer multiply. -/
def execImul (c : CoreId) (x : CtxId) (f : VFields) (s : State) : Res :=
  .next (issueVector c.val x.val (.op .imul f) s)

/-- VEC_AND (03 R99): Vector bitwise AND. -/
def execVecAnd (c : CoreId) (x : CtxId) (f : VFields) (s : State) : Res :=
  .next (issueVector c.val x.val (.op .and f) s)

/-- VEC_OR (03 R99): Vector bitwise OR. -/
def execVecOr (c : CoreId) (x : CtxId) (f : VFields) (s : State) : Res := .next (issueVector c.val x.val (.op .or f) s)

/-- VEC_XOR (03 R99): Vector bitwise XOR. -/
def execVecXor (c : CoreId) (x : CtxId) (f : VFields) (s : State) : Res :=
  .next (issueVector c.val x.val (.op .xor f) s)

/-- VEC_SHL (03 R99): Vector shift left. -/
def execVecShl (c : CoreId) (x : CtxId) (f : VFields) (s : State) : Res :=
  .next (issueVector c.val x.val (.op .shl f) s)

/-- VEC_SHR (03 R99): Vector logical shift right. -/
def execVecShr (c : CoreId) (x : CtxId) (f : VFields) (s : State) : Res :=
  .next (issueVector c.val x.val (.op .shr f) s)

/-- FCMPLT (03 R99): Vector floating-point compare less-than into a mask. -/
def execFcmplt (c : CoreId) (x : CtxId) (f : VFields) (s : State) : Res :=
  .next (issueVector c.val x.val (.op .fcmplt f) s)

/-- FCMPEQ (03 R99): Vector floating-point compare equal into a mask. -/
def execFcmpeq (c : CoreId) (x : CtxId) (f : VFields) (s : State) : Res :=
  .next (issueVector c.val x.val (.op .fcmpeq f) s)

/-- ICMPLT (03 R99): Vector signed integer compare into a mask. -/
def execIcmplt (c : CoreId) (x : CtxId) (f : VFields) (s : State) : Res :=
  .next (issueVector c.val x.val (.op .icmplt f) s)

/-- SEL (03 R99): Vector select by mask. -/
def execVSel (c : CoreId) (x : CtxId) (f : VFields) (s : State) : Res := .next (issueVector c.val x.val (.op .sel f) s)

/-- CVT (04 R154): Vector format conversion with the selected rounding. -/
def execCvt (c : CoreId) (x : CtxId) (f : VFields) (s : State) : Res := .next (issueVector c.val x.val (.op .cvt f) s)

/-- VRAND (03 R124): Vector random draw per lane. -/
def execVrand (c : CoreId) (x : CtxId) (f : VFields) (s : State) : Res :=
  .next (issueVector c.val x.val (.op .vrand f) s)

/-- PERM (03 R99): Vector lane permutation. -/
def execPerm (c : CoreId) (x : CtxId) (f : VFields) (s : State) : Res :=
  .next (issueVector c.val x.val (.op .perm f) s)

/-- LRED (03 R99): Vector lane-reduction sum in ascending lane order. -/
def execLred (c : CoreId) (x : CtxId) (f : VFields) (s : State) : Res :=
  .next (issueVector c.val x.val (.op .lred f) s)

/-- EXP (04 R156): Tone-unit e^x. -/
def execVExp (c : CoreId) (x : CtxId) (f : VFields) (s : State) : Res := .next (issueVector c.val x.val (.op .exp f) s)

/-- EXP2 (04 R156): Tone-unit 2^x. -/
def execVExp2 (c : CoreId) (x : CtxId) (f : VFields) (s : State) : Res :=
  .next (issueVector c.val x.val (.op .exp2 f) s)

/-- LN (04 R156): Tone-unit natural logarithm. -/
def execVLn (c : CoreId) (x : CtxId) (f : VFields) (s : State) : Res := .next (issueVector c.val x.val (.op .ln f) s)

/-- RCP (04 R156): Tone-unit reciprocal. -/
def execRcp (c : CoreId) (x : CtxId) (f : VFields) (s : State) : Res := .next (issueVector c.val x.val (.op .rcp f) s)

/-- RSQ (04 R156): Tone-unit reciprocal square root. -/
def execRsq (c : CoreId) (x : CtxId) (f : VFields) (s : State) : Res := .next (issueVector c.val x.val (.op .rsq f) s)

/-- WUPD (05 R172): Updates BF16 weights and remainders stochastically and feeds the ratio watch. -/
def execWupd (c : CoreId) (x : CtxId) (f : VFields) (s : State) : Res :=
  .next (issueVector c.val x.val (.op .wupd f) s)

/-- LMAX (10 R307): Broadcasts the largest active lane. -/
def execLmax (c : CoreId) (x : CtxId) (f : VFields) (s : State) : Res :=
  .next (issueVector c.val x.val (.op .lmax f) s)

/-- RSCL (10 R308): Computes the online-softmax rescale factor. -/
def execRscl (c : CoreId) (x : CtxId) (f : VFields) (s : State) : Res :=
  .next (issueVector c.val x.val (.op .rscl f) s)

/-- PEXP (10 R309): Computes exp of a score minus a maximum, with the mask rule and score checks. -/
def execPexp (c : CoreId) (x : CtxId) (f : VFields) (s : State) : Res :=
  .next (issueVector c.val x.val (.op .pexp f) s)

/-- RCPZ (10 R307): Reciprocal that returns +0 for zero. -/
def execRcpz (c : CoreId) (x : CtxId) (f : VFields) (s : State) : Res :=
  .next (issueVector c.val x.val (.op .rcpz f) s)

/-- VLD (03 R99): Loads a tray line into a vector register. -/
def execVld (c : CoreId) (x : CtxId) (mask : Fin 8) (vd sa : Reg4) (line : BitVec 11) (s : State) : Res :=
  .next (issueVector c.val x.val (.vld mask vd sa line) s)

/-- VST (03 R99): Stores a vector register into a tray line. -/
def execVst (c : CoreId) (x : CtxId) (mask : Fin 8) (vd sa : Reg4) (line : BitVec 11) (s : State) : Res :=
  .next (issueVector c.val x.val (.vst mask vd sa line) s)

/-- VSPLAT (03 R99): Broadcasts a scalar into every lane. -/
def execVsplat (c : CoreId) (x : CtxId) (mask : Fin 8) (vd sa : Reg4) (s : State) : Res :=
  .next (issueVector c.val x.val (.vsplat mask vd sa) s)

end Sys2Proof.Machine
end

