-- ==== Sys2Proof/Machine/Dispatch.lean ====
section
/-! DEFINITION. The meaning of every command: one call of it for each constructor. -/
namespace Sys2Proof.Machine

/-- What a command does. -/
def exec (i : Instr) (s : State) : Host.Outcome State Fault Refusal :=
  match i with
  | .tick env => Sys2Proof.Machine.execTick env s
  | .bundleIssue c cyc par => Sys2Proof.Machine.execBundleIssue c cyc par s
  | .endCtx c x => Sys2Proof.Machine.execEndCtx c x s
  | .halt c x => Sys2Proof.Machine.execHalt c x s
  | .operationComplete c id errs => Sys2Proof.Machine.execOperationComplete c id errs s
  | .declaredCyclesEnd r => Sys2Proof.Machine.execDeclaredCyclesEnd r s
  | .add c x sd sa sb => Sys2Proof.Machine.execAdd c x sd sa sb s
  | .sub c x sd sa sb => Sys2Proof.Machine.execSub c x sd sa sb s
  | .sAnd c x sd sa sb => Sys2Proof.Machine.execSAnd c x sd sa sb s
  | .sOr c x sd sa sb => Sys2Proof.Machine.execSOr c x sd sa sb s
  | .sXor c x sd sa sb => Sys2Proof.Machine.execSXor c x sd sa sb s
  | .shl c x sd sa sb => Sys2Proof.Machine.execShl c x sd sa sb s
  | .shr c x sd sa sb => Sys2Proof.Machine.execShr c x sd sa sb s
  | .sra c x sd sa sb => Sys2Proof.Machine.execSra c x sd sa sb s
  | .mul c x sd sa sb => Sys2Proof.Machine.execMul c x sd sa sb s
  | .min c x sd sa sb => Sys2Proof.Machine.execMin c x sd sa sb s
  | .max c x sd sa sb => Sys2Proof.Machine.execMax c x sd sa sb s
  | .slt c x sd sa sb => Sys2Proof.Machine.execSlt c x sd sa sb s
  | .sltu c x sd sa sb => Sys2Proof.Machine.execSltu c x sd sa sb s
  | .seq c x sd sa sb => Sys2Proof.Machine.execSeq c x sd sa sb s
  | .addi c x sd sa imm => Sys2Proof.Machine.execAddi c x sd sa imm s
  | .subi c x sd sa imm => Sys2Proof.Machine.execSubi c x sd sa imm s
  | .andi c x sd sa imm => Sys2Proof.Machine.execAndi c x sd sa imm s
  | .ori c x sd sa imm => Sys2Proof.Machine.execOri c x sd sa imm s
  | .xori c x sd sa imm => Sys2Proof.Machine.execXori c x sd sa imm s
  | .shli c x sd sa imm => Sys2Proof.Machine.execShli c x sd sa imm s
  | .shri c x sd sa imm => Sys2Proof.Machine.execShri c x sd sa imm s
  | .srai c x sd sa imm => Sys2Proof.Machine.execSrai c x sd sa imm s
  | .muli c x sd sa imm => Sys2Proof.Machine.execMuli c x sd sa imm s
  | .mini c x sd sa imm => Sys2Proof.Machine.execMini c x sd sa imm s
  | .maxi c x sd sa imm => Sys2Proof.Machine.execMaxi c x sd sa imm s
  | .slti c x sd sa imm => Sys2Proof.Machine.execSlti c x sd sa imm s
  | .sltui c x sd sa imm => Sys2Proof.Machine.execSltui c x sd sa imm s
  | .seqi c x sd sa imm => Sys2Proof.Machine.execSeqi c x sd sa imm s
  | .lui c x sd imm => Sys2Proof.Machine.execLui c x sd imm s
  | .lds c x sd sa imm => Sys2Proof.Machine.execLds c x sd sa imm s
  | .sts c x sd sa imm => Sys2Proof.Machine.execSts c x sd sa imm s
  | .ptest c x sd sa imm => Sys2Proof.Machine.execPtest c x sd sa imm s
  | .rds c x sd item => Sys2Proof.Machine.execRds c x sd item s
  | .tdset c x td w sa => Sys2Proof.Machine.execTdset c x td w sa s
  | .beqz c x sa imm => Sys2Proof.Machine.execBeqz c x sa imm s
  | .bnez c x sa imm => Sys2Proof.Machine.execBnez c x sa imm s
  | .br c x imm => Sys2Proof.Machine.execBr c x imm s
  | .fadd c x f => Sys2Proof.Machine.execFadd c x f s
  | .fsub c x f => Sys2Proof.Machine.execFsub c x f s
  | .fmul c x f => Sys2Proof.Machine.execFmul c x f s
  | .ffma c x f => Sys2Proof.Machine.execFfma c x f s
  | .fmin c x f => Sys2Proof.Machine.execFmin c x f s
  | .fmax c x f => Sys2Proof.Machine.execFmax c x f s
  | .iadd c x f => Sys2Proof.Machine.execIadd c x f s
  | .isub c x f => Sys2Proof.Machine.execIsub c x f s
  | .imul c x f => Sys2Proof.Machine.execImul c x f s
  | .vecAnd c x f => Sys2Proof.Machine.execVecAnd c x f s
  | .vecOr c x f => Sys2Proof.Machine.execVecOr c x f s
  | .vecXor c x f => Sys2Proof.Machine.execVecXor c x f s
  | .vecShl c x f => Sys2Proof.Machine.execVecShl c x f s
  | .vecShr c x f => Sys2Proof.Machine.execVecShr c x f s
  | .fcmplt c x f => Sys2Proof.Machine.execFcmplt c x f s
  | .fcmpeq c x f => Sys2Proof.Machine.execFcmpeq c x f s
  | .icmplt c x f => Sys2Proof.Machine.execIcmplt c x f s
  | .vSel c x f => Sys2Proof.Machine.execVSel c x f s
  | .cvt c x f => Sys2Proof.Machine.execCvt c x f s
  | .vrand c x f => Sys2Proof.Machine.execVrand c x f s
  | .perm c x f => Sys2Proof.Machine.execPerm c x f s
  | .lred c x f => Sys2Proof.Machine.execLred c x f s
  | .vExp c x f => Sys2Proof.Machine.execVExp c x f s
  | .vExp2 c x f => Sys2Proof.Machine.execVExp2 c x f s
  | .vLn c x f => Sys2Proof.Machine.execVLn c x f s
  | .rcp c x f => Sys2Proof.Machine.execRcp c x f s
  | .rsq c x f => Sys2Proof.Machine.execRsq c x f s
  | .vld c x mask vd sa line => Sys2Proof.Machine.execVld c x mask vd sa line s
  | .vst c x mask vd sa line => Sys2Proof.Machine.execVst c x mask vd sa line s
  | .vsplat c x mask vd sa => Sys2Proof.Machine.execVsplat c x mask vd sa s
  | .wupd c x f => Sys2Proof.Machine.execWupd c x f s
  | .lmax c x f => Sys2Proof.Machine.execLmax c x f s
  | .rscl c x f => Sys2Proof.Machine.execRscl c x f s
  | .pexp c x f => Sys2Proof.Machine.execPexp c x f s
  | .rcpz c x f => Sys2Proof.Machine.execRcpz c x f s
  | .tile c x td rnd => Sys2Proof.Machine.execTile c x td rnd s
  | .tileZ c x td rnd => Sys2Proof.Machine.execTileZ c x td rnd s
  | .mv c x td rnd => Sys2Proof.Machine.execMv c x td rnd s
  | .mvZ c x td rnd => Sys2Proof.Machine.execMvZ c x td rnd s
  | .conv c x td rnd => Sys2Proof.Machine.execConv c x td rnd s
  | .cubeRunEnd c id => Sys2Proof.Machine.execCubeRunEnd c id s
  | .mOut c x slot reg => Sys2Proof.Machine.execMOut c x slot reg s
  | .outl c x slot reg off => Sys2Proof.Machine.execOutl c x slot reg off s
  | .mTake c x slot reg => Sys2Proof.Machine.execMTake c x slot reg s
  | .takel c x slot reg off => Sys2Proof.Machine.execTakel c x slot reg off s
  | .lpost c x dst reg off => Sys2Proof.Machine.execLpost c x dst reg off s
  | .ltake c x dst reg off => Sys2Proof.Machine.execLtake c x dst reg off s
  | .shLd c x sa sb count bypass => Sys2Proof.Machine.execShLd c x sa sb count bypass s
  | .shSt c x sa sb count => Sys2Proof.Machine.execShSt c x sa sb count s
  | .shNm c x sb => Sys2Proof.Machine.execShNm c x sb s
  | .fenceNm c x sa count => Sys2Proof.Machine.execFenceNm c x sa count s
  | .fenceShaft c x => Sys2Proof.Machine.execFenceShaft c x s
  | .shCode c x sa sb count => Sys2Proof.Machine.execShCode c x sa sb count s
  | .cinv c x sa count => Sys2Proof.Machine.execCinv c x sa count s
  | .fenceNmDone c x => Sys2Proof.Machine.execFenceNmDone c x s
  | .fenceShaftDone c x => Sys2Proof.Machine.execFenceShaftDone c x s
  | .shaftLoadLand c errs => Sys2Proof.Machine.execShaftLoadLand c errs s
  | .routeEntry c idx => Sys2Proof.Machine.execRouteEntry c idx s
  | .laggedFlitLand l parity => Sys2Proof.Machine.execLaggedFlitLand l parity s
  | .bridgeFlitArrival b d seq crcOk => Sys2Proof.Machine.execBridgeFlitArrival b d seq crcOk s
  | .looseDeparture c k => Sys2Proof.Machine.execLooseDeparture c k s
  | .coreCheckFail c => Sys2Proof.Machine.execCoreCheckFail c s
  | .routerLost h row col => Sys2Proof.Machine.execRouterLost h row col s
  | .hostSlot p errs => Sys2Proof.Machine.execHostSlot p errs s
  | .refresh => Sys2Proof.Machine.execRefresh s
  | .correctedWriteBack p => Sys2Proof.Machine.execCorrectedWriteBack p s
  | .scrubRead p sram err => Sys2Proof.Machine.execScrubRead p sram err s
  | .checkerTestRun p => Sys2Proof.Machine.execCheckerTestRun p s
  | .checkerBatch p dramFails sramFails => Sys2Proof.Machine.execCheckerBatch p dramFails sramFails s
  | .nmAdd p a => Sys2Proof.Machine.execNmAdd p a s
  | .nmMul p a => Sys2Proof.Machine.execNmMul p a s
  | .fma p a => Sys2Proof.Machine.execFma p a s
  | .axpby p a => Sys2Proof.Machine.execAxpby p a s
  | .scale p a => Sys2Proof.Machine.execScale p a s
  | .nmMax p a => Sys2Proof.Machine.execNmMax p a s
  | .nmMin p a => Sys2Proof.Machine.execNmMin p a s
  | .cmplt p a => Sys2Proof.Machine.execCmplt p a s
  | .cmpeq p a => Sys2Proof.Machine.execCmpeq p a s
  | .nmXor p a => Sys2Proof.Machine.execNmXor p a s
  | .nmFill p a => Sys2Proof.Machine.execNmFill p a s
  | .nmCopy p a => Sys2Proof.Machine.execNmCopy p a s
  | .relu p a => Sys2Proof.Machine.execRelu p a s
  | .gelu p a => Sys2Proof.Machine.execGelu p a s
  | .silu p a => Sys2Proof.Machine.execSilu p a s
  | .nmCvt p a => Sys2Proof.Machine.execNmCvt p a s
  | .setlayout p a => Sys2Proof.Machine.execSetlayout p a s
  | .plane p a => Sys2Proof.Machine.execPlane p a s
  | .unplane p a => Sys2Proof.Machine.execUnplane p a s
  | .padd p a => Sys2Proof.Machine.execPadd p a s
  | .psub p a => Sys2Proof.Machine.execPsub p a s
  | .pcmplt p a => Sys2Proof.Machine.execPcmplt p a s
  | .pcmplti p a => Sys2Proof.Machine.execPcmplti p a s
  | .pand p a => Sys2Proof.Machine.execPand p a s
  | .por p a => Sys2Proof.Machine.execPor p a s
  | .pxor p a => Sys2Proof.Machine.execPxor p a s
  | .pcount p a => Sys2Proof.Machine.execPcount p a s
  | .nmChunkStart p u t => Sys2Proof.Machine.execNmChunkStart p u t s
  | .nmChunkEnd p u errs => Sys2Proof.Machine.execNmChunkEnd p u errs s
  | .nmCommandComplete p u => Sys2Proof.Machine.execNmCommandComplete p u s
  | .remoteGranuleArrival p g => Sys2Proof.Machine.execRemoteGranuleArrival p g s
  | .nmWrite p u errs => Sys2Proof.Machine.execNmWrite p u errs s
  | .racc p u errs => Sys2Proof.Machine.execRacc p u errs s
  | .xacc p u errs => Sys2Proof.Machine.execXacc p u errs s
  | .rowBusTransfer t => Sys2Proof.Machine.execRowBusTransfer t s
  | .ledgerWindowRead c => Sys2Proof.Machine.execLedgerWindowRead c s
  | .kvOpen q => Sys2Proof.Machine.execKvOpen q s
  | .kvAppend q => Sys2Proof.Machine.execKvAppend q s
  | .kvFix q => Sys2Proof.Machine.execKvFix q s
  | .kvClear q => Sys2Proof.Machine.execKvClear q s
  | .kvFork q => Sys2Proof.Machine.execKvFork q s
  | .kvFree q => Sys2Proof.Machine.execKvFree q s
  | .kvFadeq q => Sys2Proof.Machine.execKvFadeq q s
  | .kvRefill q => Sys2Proof.Machine.execKvRefill q s
  | .kvFadehit q => Sys2Proof.Machine.execKvFadehit q s
  | .kvQuota q => Sys2Proof.Machine.execKvQuota q s
  | .kvStat q => Sys2Proof.Machine.execKvStat q s
  | .copyOnWriteSwitch idx => Sys2Proof.Machine.execCopyOnWriteSwitch idx s
  | .poolConfig p cfg0 cfg1 => Sys2Proof.Machine.execPoolConfig p cfg0 cfg1 s
  | .holderConfig h cfg => Sys2Proof.Machine.execHolderConfig h cfg s
  | .bucketSample => Sys2Proof.Machine.execBucketSample s
  | .sealWindowRead c => Sys2Proof.Machine.execSealWindowRead c s
  | .redSeal x ch rank m => Sys2Proof.Machine.execRedSeal x ch rank m s
  | .rosterFix ch => Sys2Proof.Machine.execRosterFix ch s
  | .redRoster x m => Sys2Proof.Machine.execRedRoster x m s
  | .redPull x m => Sys2Proof.Machine.execRedPull x m s
  | .contribution ch m => Sys2Proof.Machine.execContribution ch m s
  | .mirrorCheck ch share => Sys2Proof.Machine.execMirrorCheck ch share s
  | .redCheck x ch rank m => Sys2Proof.Machine.execRedCheck x ch rank m s
  | .redVerdict x ch m => Sys2Proof.Machine.execRedVerdict x ch m s
  | .resultSegment ch m => Sys2Proof.Machine.execResultSegment ch m s
  | .bucketComplete ch seq => Sys2Proof.Machine.execBucketComplete ch seq s
  | .redTimeout ch w => Sys2Proof.Machine.execRedTimeout ch w s
  | .leaderLost ch => Sys2Proof.Machine.execLeaderLost ch s
  | .capNotice x ch m => Sys2Proof.Machine.execCapNotice x ch m s
  | .redUnfence ch => Sys2Proof.Machine.execRedUnfence ch s
  | .collectiveHoldEnd => Sys2Proof.Machine.execCollectiveHoldEnd s
  | .parityWindowRead c => Sys2Proof.Machine.execParityWindowRead c s
  | .cleared x g m => Sys2Proof.Machine.execCleared x g m s
  | .parityContribution g m => Sys2Proof.Machine.execParityContribution g m s
  | .parDone x g m => Sys2Proof.Machine.execParDone x g m s
  | .parCommit x m => Sys2Proof.Machine.execParCommit x m s
  | .parityLoss g rank => Sys2Proof.Machine.execParityLoss g rank s
  | .parRebuild g gen => Sys2Proof.Machine.execParRebuild g gen s
  | .rebuild x m => Sys2Proof.Machine.execRebuild x m s
  | .rebuildSegment g m => Sys2Proof.Machine.execRebuildSegment g m s
  | .snapshotArm frame => Sys2Proof.Machine.execSnapshotArm frame s
  | .firstWriteCopy c page => Sys2Proof.Machine.execFirstWriteCopy c page s
  | .backgroundCopy x => Sys2Proof.Machine.execBackgroundCopy x s
  | .snapshotDrain c => Sys2Proof.Machine.execSnapshotDrain c s
  | .snapshotCancel => Sys2Proof.Machine.execSnapshotCancel s
  | .doorbell r v => Sys2Proof.Machine.execDoorbell r v s
  | .ringService => Sys2Proof.Machine.execRingService s
  | .plateLoad r => Sys2Proof.Machine.execPlateLoad r s
  | .plateLaunch r => Sys2Proof.Machine.execPlateLaunch r s
  | .plateUnload r => Sys2Proof.Machine.execPlateUnload r s
  | .plateStop r => Sys2Proof.Machine.execPlateStop r s
  | .ringWait r => Sys2Proof.Machine.execRingWait r s
  | .setlr r => Sys2Proof.Machine.execSetlr r s
  | .plateActivation pl => Sys2Proof.Machine.execPlateActivation pl s
  | .jobFill pl => Sys2Proof.Machine.execJobFill pl s
  | .jobComplete pl => Sys2Proof.Machine.execJobComplete pl s
  | .ringWaitTimeout r => Sys2Proof.Machine.execRingWaitTimeout r s
  | .ringReset r => Sys2Proof.Machine.execRingReset r s
  | .resultStatusRead k => Sys2Proof.Machine.execResultStatusRead k s
  | .resultAck k seq => Sys2Proof.Machine.execResultAck k seq s
  | .rayData p head pay => Sys2Proof.Machine.execRayData p head pay s
  | .rayEmpty p w => Sys2Proof.Machine.execRayEmpty p w s
  | .arrDesc p head pay => Sys2Proof.Machine.execArrDesc p head pay s
  | .arrData p head pay => Sys2Proof.Machine.execArrData p head pay s
  | .epochMark p w src epoch => Sys2Proof.Machine.execEpochMark p w src epoch s
  | .rayCredit p w => Sys2Proof.Machine.execRayCredit p w s
  | .rayAckOnly p w => Sys2Proof.Machine.execRayAckOnly p w s
  | .rayNak p head said rest => Sys2Proof.Machine.execRayNak p head said rest s
  | .rayReplayReq p head pay => Sys2Proof.Machine.execRayReplayReq p head pay s
  | .beacon p w m => Sys2Proof.Machine.execBeacon p w m s
  | .raySend p => Sys2Proof.Machine.execRaySend p s
  | .transitForward p => Sys2Proof.Machine.execTransitForward p s
  | .rayTraining p t => Sys2Proof.Machine.execRayTraining p t s
  | .rayTrainLimit p => Sys2Proof.Machine.execRayTrainLimit p s
  | .rayTrainRetry p => Sys2Proof.Machine.execRayTrainRetry p s
  | .retrain p => Sys2Proof.Machine.execRetrain p s
  | .partnerTraining p => Sys2Proof.Machine.execPartnerTraining p s
  | .rayViolationWindow p => Sys2Proof.Machine.execRayViolationWindow p s
  | .unfence p => Sys2Proof.Machine.execUnfence p s
  | .disable p on => Sys2Proof.Machine.execDisable p on s
  | .epochClose p e => Sys2Proof.Machine.execEpochClose p e s
  | .shutterEdge long skew env => Sys2Proof.Machine.execShutterEdge long skew env s
  | .syncLoss => Sys2Proof.Machine.execSyncLoss s
  | .rejoin => Sys2Proof.Machine.execRejoin s
  | .rejoinLimit => Sys2Proof.Machine.execRejoinLimit s
  | .routeSwapArm frame => Sys2Proof.Machine.execRouteSwapArm frame s
  | .viewHold on => Sys2Proof.Machine.execViewHold on s
  | .viewHoldExpiry => Sys2Proof.Machine.execViewHoldExpiry s
  | .regRd w more tag addr words => Sys2Proof.Machine.execRegRd w more tag addr words s
  | .regWr w more tag addr data => Sys2Proof.Machine.execRegWr w more tag addr data s
  | .memRd w more tag core addr len => Sys2Proof.Machine.execMemRd w more tag core addr len s
  | .memWr w more tag core addr data => Sys2Proof.Machine.execMemWr w more tag core addr data s
  | .dmaCpl f tag status data => Sys2Proof.Machine.execDmaCpl f tag status data s
  | .abaDmaTimeout tag => Sys2Proof.Machine.execAbaDmaTimeout tag s
  | .abaCredit w => Sys2Proof.Machine.execAbaCredit w s
  | .abaAckOnly w => Sys2Proof.Machine.execAbaAckOnly w s
  | .abaNak w => Sys2Proof.Machine.execAbaNak w s
  | .abaReplayReq w first => Sys2Proof.Machine.execAbaReplayReq w first s
  | .abaAckLimit => Sys2Proof.Machine.execAbaAckLimit s
  | .abaTraining t => Sys2Proof.Machine.execAbaTraining t s
  | .abaTrainLimit => Sys2Proof.Machine.execAbaTrainLimit s
  | .abaTrainRetry => Sys2Proof.Machine.execAbaTrainRetry s
  | .abaRetrain => Sys2Proof.Machine.execAbaRetrain s
  | .abaViolationWindow => Sys2Proof.Machine.execAbaViolationWindow s
  | .apertureEvaluation power => Sys2Proof.Machine.execApertureEvaluation power s
  | .capChange cap => Sys2Proof.Machine.execCapChange cap s
  | .voltageRampDone h => Sys2Proof.Machine.execVoltageRampDone h s
  | .pwrBrakeAssert => Sys2Proof.Machine.execPwrBrakeAssert s
  | .pwrBrakeRelease => Sys2Proof.Machine.execPwrBrakeRelease s
  | .feedLost b => Sys2Proof.Machine.execFeedLost b s
  | .feedRestored b => Sys2Proof.Machine.execFeedRestored b s
  | .bothFeedsLost => Sys2Proof.Machine.execBothFeedsLost s
  | .vAuxLost => Sys2Proof.Machine.execVAuxLost s
  | .refclkLost => Sys2Proof.Machine.execRefclkLost s
  | .telemetrySample smp => Sys2Proof.Machine.execTelemetrySample smp s
  | .phaseLost r => Sys2Proof.Machine.execPhaseLost r s
  | .overCurrentTrip r => Sys2Proof.Machine.execOverCurrentTrip r s
  | .regionWake d => Sys2Proof.Machine.execRegionWake d s
  | .wakeRampStep d w => Sys2Proof.Machine.execWakeRampStep d w s
  | .wakeRetry d w => Sys2Proof.Machine.execWakeRetry d w s
  | .wakeLimit d => Sys2Proof.Machine.execWakeLimit d s
  | .wakeRestart d => Sys2Proof.Machine.execWakeRestart d s
  | .sensorRead t vals => Sys2Proof.Machine.execSensorRead t vals s
  | .thermalEvaluation h => Sys2Proof.Machine.execThermalEvaluation h s
  | .shadowCompute t energy => Sys2Proof.Machine.execShadowCompute t energy s
  | .shadowHoldExpiry t layer q => Sys2Proof.Machine.execShadowHoldExpiry t layer q s
  | .thmRecover h => Sys2Proof.Machine.execThmRecover h s
  | .hotExit t => Sys2Proof.Machine.execHotExit t s
  | .thermtrip t n => Sys2Proof.Machine.execThermtrip t n s
  | .modResetAssert cool => Sys2Proof.Machine.execModResetAssert cool s
  | .bootSafelight ok => Sys2Proof.Machine.execBootSafelight ok s
  | .bootFuse f => Sys2Proof.Machine.execBootFuse f s
  | .bootStrip r => Sys2Proof.Machine.execBootStrip r s
  | .loadPhase fl => Sys2Proof.Machine.execLoadPhase fl s
  | .bootTrain => Sys2Proof.Machine.execBootTrain s
  | .bootSheet => Sys2Proof.Machine.execBootSheet s
  | .peerWaitExpiry => Sys2Proof.Machine.execPeerWaitExpiry s
  | .checkerTest force towers => Sys2Proof.Machine.execCheckerTest force towers s
  | .delayTrainingTest force towers => Sys2Proof.Machine.execDelayTrainingTest force towers s
  | .regulatorTest force towers => Sys2Proof.Machine.execRegulatorTest force towers s
  | .sramMarch force towers => Sys2Proof.Machine.execSramMarch force towers s
  | .dramMarch force towers => Sys2Proof.Machine.execDramMarch force towers s
  | .testUnit res => Sys2Proof.Machine.execTestUnit res s
  | .sleepDim => Sys2Proof.Machine.execSleepDim s
  | .sleepDark => Sys2Proof.Machine.execSleepDark s
  | .wakeFromDim => Sys2Proof.Machine.execWakeFromDim s
  | .wakeTimerExpiry => Sys2Proof.Machine.execWakeTimerExpiry s
  | .darkWakeSignal smbus => Sys2Proof.Machine.execDarkWakeSignal smbus s
  | .recoveryLoad flashOk => Sys2Proof.Machine.execRecoveryLoad flashOk s
  | .smbusRecoveryLoad user img flashOk => Sys2Proof.Machine.execSmbusRecoveryLoad user img flashOk s
  | .eventForce pg inst code => Sys2Proof.Machine.execEventForce pg inst code s
  | .eventRecordWrite sev => Sys2Proof.Machine.execEventRecordWrite sev s
  | .fenceRequest r core => Sys2Proof.Machine.execFenceRequest r core s
  | .reseatRequest t half row => Sys2Proof.Machine.execReseatRequest t half row s
  | .evacuation t => Sys2Proof.Machine.execEvacuation t s
  | .evacuationDone t => Sys2Proof.Machine.execEvacuationDone t s
  | .softReset pg inst => Sys2Proof.Machine.execSoftReset pg inst s
  | .pageLock pg inst => Sys2Proof.Machine.execPageLock pg inst s
  | .pageApply pg inst on => Sys2Proof.Machine.execPageApply pg inst on s
  | .lowWordRead addr => Sys2Proof.Machine.execLowWordRead addr s
  | .ratioWatchClear r sets => Sys2Proof.Machine.execRatioWatchClear r sets s
  | .registerWrite addr w => Sys2Proof.Machine.execRegisterWrite addr w s
  | .ownerProgram w readBack => Sys2Proof.Machine.execOwnerProgram w readBack s
  | .svnCommit => Sys2Proof.Machine.execSvnCommit s
  | .keyRevoke keys => Sys2Proof.Machine.execKeyRevoke keys s
  | .nonceReq level => Sys2Proof.Machine.execNonceReq level s
  | .secSubmit => Sys2Proof.Machine.execSecSubmit s
  | .getVersion m => Sys2Proof.Machine.execGetVersion m s
  | .getCapabilities m => Sys2Proof.Machine.execGetCapabilities m s
  | .negotiateAlgorithms m => Sys2Proof.Machine.execNegotiateAlgorithms m s
  | .getDigests m => Sys2Proof.Machine.execGetDigests m s
  | .getCertificate m => Sys2Proof.Machine.execGetCertificate m s
  | .spdmChallenge m => Sys2Proof.Machine.execSpdmChallenge m s
  | .getMeasurements m => Sys2Proof.Machine.execGetMeasurements m s
  | .unsupportedRequest m => Sys2Proof.Machine.execUnsupportedRequest m s
  | .fecUncorrectableCodeword p => Sys2Proof.Machine.execFecUncorrectableCodeword p s
  | .abaRetrainDeferred => Sys2Proof.Machine.execAbaRetrainDeferred s

end Sys2Proof.Machine
end

