-- ==== Sys2Proof/Safety.lean ====
section
/-! DEFINITION. What a sound state of the block is, what no command may do, and the frames in which the statements speak:
what a command leaves as it was. -/
namespace Sys2Proof.Machine

/-! ### A sound state -/

/-- Memory is in its canonical form (07 R235, entry 2). -/
def State.memOk (s : State) : Prop := Memory.wf s.mem s.voids = true

/-- No range of memory bears a free value's number that is still to be drawn, so that no number is given twice (entry 1). -/
def State.voidsOk (s : State) : Prop := ∀ v ∈ s.voids, ∀ n, v.free = some n → n ≤ s.free

/-- The invariant of every state that a step can leave: memory is canonical, free values are fresh, and the last tick is not
after now (01 R25). -/
def State.Inv (s : State) : Prop := s.memOk ∧ s.voidsOk ∧ s.tickBase ≤ s.timebase

/-- One-time-programmable bits are only ever set (20 R521 to R523): a revoked key stays revoked, the minimum SVN does not
fall, and an owner key hash once programmed stays. -/
def OtpGrows (a b : Otp) : Prop :=
  (∀ i, a.revoked.testBit i = true → b.revoked.testBit i = true) ∧ a.minSvn ≤ b.minSvn
    ∧ ∀ h, a.owner = some h → b.owner = some h

/-- What holds between the states before and after any command: the queue is not touched, free values are not given
back, OTP bits are only set, and a sound state stays sound. -/
structure Keeps (s t : State) : Prop where
  pending : t.pending = s.pending
  free : s.free ≤ t.free
  time : s.tickBase ≤ s.timebase → t.tickBase ≤ t.timebase
  mem : s.memOk → t.memOk
  voids : s.voidsOk → t.voidsOk
  otp : OtpGrows s.sec.otp t.sec.otp

/-! ### Frames -/

/-- Nothing but the listed cores changed. -/
def OnlyCores (s t : State) : Prop := t = { s with cores := t.cores }

/-- Nothing but core `c` changed, and free values were drawn. -/
def OnlyCore (c : Nat) (s t : State) : Prop :=
  t = { s with cores := t.cores, free := t.free } ∧ ∀ d, d ≠ c → t.core d = s.core d

/-- What issuing a bundle of context x does to the issue stage, whatever its slots do (03 R83, R84, R97, R98): the context's
pointer becomes `ptr` and it may issue again `stall` cycles after the next; other contexts stand as they were. -/
def Issued (x ptr stall : Nat) (mode : CtxMode) (o k : Core) : Prop :=
  k.cyc = o.cyc + 1 ∧ (k.ctx x).ptr = ptr ∧ (k.ctx x).readyAt = o.cyc + 1 + stall ∧ (k.ctx x).mode = mode
    ∧ (k.ctx x).scales = (o.ctx x).scales ∧ (∀ y, y ≠ x → k.ctx y = o.ctx y)
    ∧ (o.isTimed x = true → k.lastTimed = x ∧ k.lastFree = o.lastFree)
    ∧ (o.isTimed x = false → k.lastFree = x ∧ k.lastTimed = o.lastTimed)

/-- What every issue may change in a core: its cycle, its contexts and the round-robin positions. -/
def Core.still (o : Core) : Core := { o with cyc := 0, doneCyc := 0, ctxs := [], lastTimed := 0, lastFree := 0 }

/-- The rest of a core beside the issue stage and the scalar registers. -/
def Core.butScalars (o : Core) : Core := { o.still with sregs := [] }

/-- Context x of core c issued a scalar operation whose destination is `sd`, and nothing else happened (03 R81, R97, R98):
`sd` holds `v`, or still reads 0 where it is s0; the next bundle is `ptr`. -/
def ScalarStep (c x sd ptr stall : Nat) (v : SReg) (s t : State) : Prop :=
  OnlyCore c s t ∧ t.free = s.free ∧ Issued x ptr stall .run (s.core c) (t.core c)
    ∧ (t.core c).butScalars = (s.core c).butScalars
    ∧ (∀ y r, y < 16 → r < 16 → ¬(y = x ∧ r = sd) → (t.core c).sreg y r = (s.core c).sreg y r)
    ∧ (t.core c).sreg x sd = (if sd = 0 then ⟨0, false, false⟩ else v)

/-- The width in bits of a vector operation's lanes: 16 where WIDTH is 1, else 32 (03 R99). -/
def laneBits (f : VFields) : Nat := if f.width = 1 then 16 else 32

/-- The floating-point format of a vector operation's lanes (03 R99). -/
def laneFmt (f : VFields) : Fmt := if f.width = 1 then (if f.f16 then .bf16 else .fp16) else .fp32

/-- Lane i of vector register r. -/
def Core.lane (o : Core) (x : Nat) (f : VFields) (r : Reg4) (i : Nat) : Nat :=
  elemAt (laneBits f) i (o.vreg x r.val).data.toNat

/-- The sources `srcs` of a vector operation are present, its mask and VD are free, and a timed context meets nothing that
the shaft timed (03 R86, R88). -/
def VecReady (o : Core) (x : Nat) (f : VFields) (srcs : List Nat) : Prop :=
  (∀ r ∈ srcs, (o.vreg x r).pres.present = true) ∧ (o.vreg x f.vd.val).pres.free = true
    ∧ (o.mreg x f.mask.val).pending = false
    ∧ (o.isTimed x = true → (∀ r ∈ f.vd.val :: srcs, (o.vreg x r).pres.isShaftTimed = false)
        ∧ (o.mreg x f.mask.val).early = false)

/-- Some lane of the operation is inactive, so that it keeps part of what its destination held (03 R89, R99). -/
def Core.keepsPart (o : Core) (x : Nat) (f : VFields) : Bool :=
  !(upFrom 0 (1024 / laneBits f)).all (fun i => (o.mreg x f.mask.val).val.getLsbD i)

/-- Core c put operation `fl` of context x in flight, and nothing else happened beside the issue stage (03 R89). -/
def FlightStep (c x : Nat) (fl : Flight) (s t : State) : Prop :=
  OnlyCore c s t ∧ Issued x (((s.core c).ctx x).ptr + 1) 0 .run (s.core c) (t.core c)
    ∧ (t.core c).still = (addFlight (s.core c) fl).still
    ∧ fl.ctx = x ∧ fl.bundle = ((s.core c).ctx x).ptr ∧ fl.cube = none ∧ fl.locks = []

/-- A register operation of the vector slot issued alone (03 R88, R89, R99, R125): it is in flight for `n` cycles with VD
PENDING; it will write the lane's bits of `lane i` to each lane i whose mask bit is set and VD's old lane to every other one,
EARLY if a source it read was, with poison if a source it read had it. What VD held is undefined where VD was EMPTY. -/
def VectorStep (c x n : Nat) (f : VFields) (srcs : List Nat) (draws : Bool) (lane : Nat → Nat) (s t : State) : Prop :=
  let o := s.core c
  let k := t.core c
  let mk := o.mreg x f.mask.val
  let dst := o.vreg x f.vd.val
  let old : Line := if dst.pres = .empty then BitVec.ofNat 1024 (Config.freeValue s.free) else dst.data
  ∃ fl data, FlightStep c x fl s t ∧ fl.due = o.cyc + n
    ∧ fl.effs = [.vreg x f.vd.val data
        (srcs.any (fun r => decide ((o.vreg x r).pres = .early)) || mk.early
          || (o.keepsPart x f && decide (dst.pres = .early)))
        (srcs.any (fun r => (o.vreg x r).poison) || mk.poison || (o.keepsPart x f && dst.poison))]
    ∧ (k.vreg x f.vd.val).pres = .pending
    ∧ (∀ i, i < 1024 / laneBits f →
        elemAt (laneBits f) i data.toNat
          = if mk.val.getLsbD i then lane i % 2 ^ laneBits f else elemAt (laneBits f) i old.toNat)
    ∧ (k.ctx x).drawV = (if draws then ((o.ctx x).drawV + 1) % 2 ^ 40 else (o.ctx x).drawV) ∧ (k.ctx x).drawC = (o.ctx x).drawC

/-- Context x of core c may issue its next bundle in the core's cycle (01 R26; 03 R83, R88, R116, R126, R557): the exposure is
not in its fix window, the core is lit and has not faulted, the declared cycles are not over, and the context runs, waits on no
fence and is past an LDS stall and a tray retry's delay. -/
def CanIssue (c x : Nat) (s : State) : Prop :=
  let o := s.core c
  inFix s = false ∧ o.on = true ∧ o.stopped = false ∧ o.cyc < o.cfg.cycles ∧ (o.ctx x).mode = .run ∧ (o.ctx x).wait = .none
    ∧ (o.ctx x).readyAt ≤ o.cyc ∧ (o.ctx x).delay ≤ o.cyc

end Sys2Proof.Machine
end

