-- ==== Sys2Proof/Certificates/Slice0/Obligations.lean ====
section
/-! DEFINITION. The statements about the block, from the rules of its spec. -/
open Sys2Proof Sys2Proof.Machine

/-! ### The step and the scalar slot -/

/-- The command at the front of the queue is the one that a step runs, on the state with the queue's rest. -/
def Obligations.StepRunsTheFrontCommand : Prop :=
  ∀ (c : Instr) (rest : List Instr) (s : State), s.pending = c :: rest → step s = exec c { s with pending := rest }

/-- On an empty queue the block idles: 10 ns pass on the timebase while the module has power, and nothing else happens
(the model's choice: log entry 3). -/
def Obligations.IdleStepPassesTime : Prop :=
  ∀ s : State, s.pending = [] →
    step s = .next { s with timebase := s.timebase + (if s.boot.powered then 1 else 0) }

/-- 03 R98: the register forms of the scalar slot, each on its own, and all that they leave as it was. -/
def Obligations.ScalarRegisterOps : Prop :=
  ∀ (c : CoreId) (x : CtxId) (sd sa sb : Reg4) (s : State),
    let o := s.core c.val
    let a := o.sreg x.val sa.val
    let b := o.sreg x.val sb.val
    CanIssue c.val x.val s → (o.isTimed x.val = true → a.early = false ∧ b.early = false) →
      let res (i : Instr) (v : BitVec 32) : Prop := ∃ t, exec i s = .next t ∧
        ScalarStep c.val x.val sd.val ((o.ctx x.val).ptr + 1) 0 ⟨v, a.early || b.early, a.poison || b.poison⟩ s t
      res (.add c x sd sa sb) (a.val + b.val) ∧ res (.sub c x sd sa sb) (a.val - b.val)
        ∧ res (.sAnd c x sd sa sb) (a.val &&& b.val) ∧ res (.sOr c x sd sa sb) (a.val ||| b.val)
        ∧ res (.sXor c x sd sa sb) (a.val ^^^ b.val)
        ∧ res (.shl c x sd sa sb) (a.val <<< (b.val.toNat % 32))
        ∧ res (.shr c x sd sa sb) (a.val >>> (b.val.toNat % 32))
        ∧ res (.sra c x sd sa sb) (a.val.sshiftRight (b.val.toNat % 32))
        ∧ res (.mul c x sd sa sb) (BitVec.ofNat 32 (a.val.toNat * b.val.toNat))
        ∧ res (.min c x sd sa sb) (if a.val.toInt < b.val.toInt then a.val else b.val)
        ∧ res (.max c x sd sa sb) (if a.val.toInt < b.val.toInt then b.val else a.val)
        ∧ res (.slt c x sd sa sb) (if a.val.toInt < b.val.toInt then 1 else 0)
        ∧ res (.sltu c x sd sa sb) (if a.val.toNat < b.val.toNat then 1 else 0)
        ∧ res (.seq c x sd sa sb) (if a.val = b.val then 1 else 0)

/-- 03 R98: the immediate forms, whose 14-bit immediate is signed. -/
def ScalarImmediateOps : Prop :=
  ∀ (c : CoreId) (x : CtxId) (sd sa : Reg4) (imm : BitVec 14) (s : State),
    let o := s.core c.val
    let a := o.sreg x.val sa.val
    let b := BitVec.ofInt 32 imm.toInt
    CanIssue c.val x.val s → (o.isTimed x.val = true → a.early = false) →
      let res (i : Instr) (v : BitVec 32) : Prop := ∃ t, exec i s = .next t ∧
        ScalarStep c.val x.val sd.val ((o.ctx x.val).ptr + 1) 0 ⟨v, a.early, a.poison⟩ s t
      res (.addi c x sd sa imm) (a.val + b) ∧ res (.subi c x sd sa imm) (a.val - b)
        ∧ res (.andi c x sd sa imm) (a.val &&& b) ∧ res (.ori c x sd sa imm) (a.val ||| b)
        ∧ res (.xori c x sd sa imm) (a.val ^^^ b)
        ∧ res (.shli c x sd sa imm) (a.val <<< (imm.toNat % 32))
        ∧ res (.shri c x sd sa imm) (a.val >>> (imm.toNat % 32))
        ∧ res (.srai c x sd sa imm) (a.val.sshiftRight (imm.toNat % 32))
        ∧ res (.muli c x sd sa imm) (BitVec.ofInt 32 (a.val.toInt * imm.toInt))
        ∧ res (.mini c x sd sa imm) (if a.val.toInt < imm.toInt then a.val else b)
        ∧ res (.maxi c x sd sa imm) (if a.val.toInt < imm.toInt then b else a.val)
        ∧ res (.slti c x sd sa imm) (if a.val.toInt < imm.toInt then 1 else 0)
        ∧ res (.sltui c x sd sa imm) (if a.val.toNat < b.toNat then 1 else 0)
        ∧ res (.seqi c x sd sa imm) (if a.val = b then 1 else 0)

/-- 03 R98: LUI, RDS of its items, and PTEST, which only a free context may run (03 R86). -/
def ScalarReads : Prop :=
  ∀ (c : CoreId) (x : CtxId) (sd sa : Reg4) (imm : BitVec 14) (up : BitVec 18) (s : State),
    let o := s.core c.val
    let next := (o.ctx x.val).ptr + 1
    let line := (((o.sreg x.val sa.val).val.toNat : Int) + imm.toInt) % 2 ^ 32
    CanIssue c.val x.val s →
      (∃ t, exec (.lui c x sd up) s = .next t
        ∧ ScalarStep c.val x.val sd.val next 0 ⟨BitVec.ofNat 32 (up.toNat * 2 ^ 14), false, false⟩ s t)
      ∧ (∀ (item : Nat) (v : BitVec 32), (item, v) ∈ [(0, BitVec.ofNat 32 c.val), (1, BitVec.ofNat 32 x.val),
            (2, BitVec.ofNat 32 o.slice), (3, BitVec.ofNat 32 o.cyc), (4, BitVec.ofNat 32 o.cfg.cycles),
            (5, BitVec.ofNat 32 o.cfg.rel), (6, BitVec.ofNat 32 o.reserveLeft), (7, BitVec.ofNat 32 o.nmTick)]
          ∨ (8 ≤ item ∧ item ≤ 15 ∧ v = BitVec.ofInt 32 (mgetD (item - 8) 0 (o.ctx x.val).scales)) →
        ∃ t, exec (.rds c x sd (BitVec.ofNat 14 item)) s = .next t
          ∧ ScalarStep c.val x.val sd.val next 0 ⟨v, decide (item = 3) && !o.isTimed x.val, false⟩ s t)
      ∧ (o.isTimed x.val = false → (o.sreg x.val sa.val).poison = false → 0 ≤ line → line < 1984 →
        ∃ t, exec (.ptest c x sd sa imm) s = .next t
          ∧ ScalarStep c.val x.val sd.val next 0 ⟨BitVec.ofNat 32 (o.line line.toNat).pres.code, true, false⟩ s t)

/-- 03 R98, R101: TDSET writes one word of a tile descriptor, and nothing else of the core. -/
def TdsetWritesOneWord : Prop :=
  ∀ (c : CoreId) (x : CtxId) (td : Fin 8) (w : Fin 4) (sa : Reg4) (s : State),
    let o := s.core c.val
    let a := o.sreg x.val sa.val
    CanIssue c.val x.val s → a.poison = false → (o.isTimed x.val = true → a.early = false) →
      ∃ t, exec (.tdset c x td w sa) s = .next t ∧ OnlyCore c.val s t ∧ t.free = s.free
        ∧ Issued x.val ((o.ctx x.val).ptr + 1) 0 .run o (t.core c.val)
        ∧ (t.core c.val).still = { o.still with tds := (t.core c.val).tds }
        ∧ (∀ y q, y < 16 → q < 8 → ¬(y = x.val ∧ q = td.val) → (t.core c.val).td y q = o.td y q)
        ∧ (∀ j : Fin 4, ((t.core c.val).td x.val td.val).extractLsb' (32 * j.val) 32
            = if j = w then a.val else (o.td x.val td.val).extractLsb' (32 * j.val) 32)

/-- 03 R94, R98: LDS reads a tray word and stalls its context for 3 cycles; STS puts the store of one word in flight, with
the rest of its line as it was. -/
def TrayWords : Prop :=
  ∀ (c : CoreId) (x : CtxId) (sd sa : Reg4) (imm : BitVec 14) (s : State),
    let o := s.core c.val
    let b := o.sreg x.val sa.val
    let v := o.sreg x.val sd.val
    let a := (((b.val.toNat : Int) + imm.toInt * 4) % 2 ^ 32).toNat
    let l := o.line (a / 128)
    CanIssue c.val x.val s → b.poison = false → (o.isTimed x.val = true → b.early = false ∧ l.pres.isShaftTimed = false) →
      a % 4 = 0 → a ≤ 0x3DFFC →
      (l.pres.present = true →
        ∃ t, exec (.lds c x sd sa imm) s = .next t ∧ ScalarStep c.val x.val sd.val ((o.ctx x.val).ptr + 1) 3
          ⟨l.data.extractLsb' (8 * (a % 128)) 32, b.early || decide (l.pres = .early), l.poison⟩ s t)
      ∧ (l.pres.free = true → o.locked (a / 128, 1) = false → (o.isTimed x.val = true → v.early = false) →
        ∃ t fl data, exec (.sts c x sd sa imm) s = .next t ∧ FlightStep c.val x.val fl s t ∧ fl.due = o.cyc + 3
          ∧ fl.effs = [.line (a / 128) data (v.early || b.early || decide (l.pres = .early)) (v.poison || l.poison)]
          ∧ ((t.core c.val).line (a / 128)).pres = .pending
          ∧ (∀ j, j < 32 → elemAt 32 j data.toNat = if j = a % 128 / 4 then v.val.toNat
              else if l.pres = .empty then elemAt 32 j (BitVec.ofNat 1024 (Config.freeValue s.free)).toNat
              else elemAt 32 j l.data.toNat))

/-- 03 R94, R98: an address of LDS or STS that is no multiple of 4 or above 0x3_DFFC is a plate fault with TRAY_RANGE. -/
def TrayWordOutOfRange : Prop :=
  ∀ (c : CoreId) (x : CtxId) (sd sa : Reg4) (imm : BitVec 14) (s : State),
    let o := s.core c.val
    let a := ((((o.sreg x.val sa.val).val.toNat : Int) + imm.toInt * 4) % 2 ^ 32).toNat
    CanIssue c.val x.val s → (a % 4 ≠ 0 ∨ 0x3DFFC < a) →
      exec (.lds c x sd sa imm) s = .next (plateFault c.val x.val (o.ctx x.val).ptr o.cyc .trayRange s)
        ∧ exec (.sts c x sd sa imm) s = .next (plateFault c.val x.val (o.ctx x.val).ptr o.cyc .trayRange s)

/-- 03 R98: a taken branch goes to its own index plus the immediate; one that is not taken goes on. -/
def Branches : Prop :=
  ∀ (c : CoreId) (x : CtxId) (sa : Reg4) (imm : BitVec 14) (s : State),
    let o := s.core c.val
    let a := o.sreg x.val sa.val
    let ptr := (o.ctx x.val).ptr
    let dest := (ptr : Int) + imm.toInt
    let goes (i : Instr) (taken : Bool) : Prop := ∃ t, exec i s = .next t ∧ OnlyCore c.val s t ∧ t.free = s.free
      ∧ Issued x.val (if taken then dest.toNat else ptr + 1) 0 .run o (t.core c.val) ∧ (t.core c.val).still = o.still
    CanIssue c.val x.val s → a.poison = false → (o.isTimed x.val = true → a.early = false) →
      ((a.val = 0 → 0 ≤ dest ∧ dest ≤ 2047) → goes (.beqz c x sa imm) (decide (a.val = 0)))
      ∧ ((a.val ≠ 0 → 0 ≤ dest ∧ dest ≤ 2047) → goes (.bnez c x sa imm) (decide (a.val ≠ 0)))
      ∧ (0 ≤ dest ∧ dest ≤ 2047 → goes (.br c x imm) true)

/-- 03 R116: END parks its context until the next tick and HALT ends it for the plate; the pointer has moved on. -/
def EndAndHalt : Prop :=
  ∀ (c : CoreId) (x : CtxId) (s : State),
    let o := s.core c.val
    let goes (i : Instr) (m : CtxMode) : Prop := ∃ t, exec i s = .next t ∧ OnlyCore c.val s t ∧ t.free = s.free
      ∧ Issued x.val ((o.ctx x.val).ptr + 1) 0 m o (t.core c.val) ∧ (t.core c.val).still = o.still
    CanIssue c.val x.val s → goes (.endCtx c x) .ended ∧ goes (.halt c x) .halted

/-- The operations of the scalar slot with an immediate, the reads of the context, and TDSET. -/
def Obligations.ScalarMoves : Prop := ScalarImmediateOps ∧ ScalarReads ∧ TdsetWritesOneWord

/-- Words and bytes of the tray, in and out of range. -/
def Obligations.TrayAccess : Prop := TrayWords ∧ TrayWordOutOfRange

/-- Branches, END and HALT. -/
def Obligations.ControlFlow : Prop := Branches ∧ EndAndHalt
/-! ### The vector slot -/

/-- 03 R99: the integer operations, modulo 2^32 or 2^16 by lane. -/
def Obligations.VectorIntegerOps : Prop :=
  ∀ (c : CoreId) (x : CtxId) (f : VFields) (s : State),
    let o := s.core c.val
    let a := o.lane x.val f f.va
    let b := o.lane x.val f f.vb
    let w := laneBits f
    let srcs := [f.va.val, f.vb.val]
    CanIssue c.val x.val s → f.width.toNat ≤ 1 → f.rnd ≠ 3 → f.f16 = false → VecReady o x.val f srcs →
      let res (i : Instr) (lane : Nat → Nat) : Prop :=
        ∃ t, exec i s = .next t ∧ VectorStep c.val x.val 2 f srcs false lane s t
      res (.iadd c x f) (fun i => a i + b i) ∧ res (.isub c x f) (fun i => a i + 2 ^ w - b i)
        ∧ res (.imul c x f) (fun i => a i * b i) ∧ res (.vecAnd c x f) (fun i => a i &&& b i)
        ∧ res (.vecOr c x f) (fun i => a i ||| b i) ∧ res (.vecXor c x f) (fun i => a i ^^^ b i)
        ∧ res (.vecShl c x f) (fun i => a i <<< (b i % w)) ∧ res (.vecShr c x f) (fun i => a i >>> (b i % w))

/-- 04 R155, 05 R184: the floating-point operations are exact and rounded once by RND; FMIN and FMAX order −0 below +0 and
give the canonical NaN; Mirel mode flushes subnormals of the rounding ones. -/
def VectorFloatOps : Prop :=
  ∀ (c : CoreId) (x : CtxId) (f : VFields) (s : State),
    let o := s.core c.val
    let fm := laneFmt f
    let m := o.cfg.mirel
    let flush (n : Nat) : Nat := if m then fm.flush n else n
    let val (r : Reg4) (i : Nat) : Val := fm.decode (flush (o.lane x.val f r i))
    let md : Rmode := if f.rnd = 2 then .rtz else .rne
    let out (v : Val) : Nat := flush (narrow fm md v).bits
    let raw (r : Reg4) (i : Nat) : Val := fm.decode (o.lane x.val f r i)
    let least (i : Nat) : Nat :=
      let a := raw f.va i
      let b := raw f.vb i
      if a.isNan || b.isNan then fm.nanCode
      else (narrow fm .rne (if Val.lt a b then a else if Val.lt b a then b else if a.neg? then a else b)).bits
    let greatest (i : Nat) : Nat :=
      let a := raw f.va i
      let b := raw f.vb i
      if a.isNan || b.isNan then fm.nanCode
      else (narrow fm .rne (if Val.lt a b then b else if Val.lt b a then a else if a.neg? then b else a)).bits
    CanIssue c.val x.val s → f.width.toNat ≤ 1 → (f.f16 = true → f.width = 1) → f.rnd ≠ 3 →
      let res (i : Instr) (srcs : List Nat) (lane : Nat → Nat) : Prop := VecReady o x.val f srcs →
        ∃ t, exec i s = .next t ∧ VectorStep c.val x.val 4 f srcs false lane s t
      let two := [f.va.val, f.vb.val]
      (f.rnd ≠ 1 →
        res (.fadd c x f) two (fun i => out (Val.add (val f.va i) (val f.vb i)))
        ∧ res (.fsub c x f) two (fun i => out (Val.add (val f.va i) (val f.vb i).flip))
        ∧ res (.fmul c x f) two (fun i => out (Val.mul (val f.va i) (val f.vb i)))
        ∧ res (.ffma c x f) [f.va.val, f.vb.val, f.vc.val]
            (fun i => out (Val.add (Val.mul (val f.va i) (val f.vb i)) (val f.vc i))))
      ∧ res (.fmin c x f) two least ∧ res (.fmax c x f) two greatest

/-- 03 R99: a comparison writes mask register VD[2:0]: each active lane's bit, and the other lanes' bits as they were. In
32-bit width bits 63:32 belong to no lane, and the model leaves them free (log entry 130). -/
def VectorCompares : Prop :=
  ∀ (c : CoreId) (x : CtxId) (f : VFields) (s : State),
    let o := s.core c.val
    let fm := laneFmt f
    let a := o.lane x.val f f.va
    let b := o.lane x.val f f.vb
    let mk := o.mreg x.val f.mask.val
    let m := f.vd.val % 8
    let om := o.mreg x.val m
    let srcs := [f.va.val, f.vb.val]
    CanIssue c.val x.val s → f.width.toNat ≤ 1 → f.rnd ≠ 3 → VecReady o x.val f srcs → m ≠ 0 → om.pending = false →
      (o.isTimed x.val = true → om.early = false) →
      let res (i : Instr) (bit : Nat → Bool) : Prop :=
        ∃ t fl val, exec i s = .next t ∧ FlightStep c.val x.val fl s t ∧ fl.due = o.cyc + 2
          ∧ fl.effs = [.mask x.val m val
              (srcs.any (fun r => decide ((o.vreg x.val r).pres = .early)) || mk.early
                || (o.keepsPart x.val f && om.early))
              (srcs.any (fun r => (o.vreg x.val r).poison) || mk.poison || (o.keepsPart x.val f && om.poison))]
          ∧ ((t.core c.val).mreg x.val m).pending = true
          ∧ (∀ i, i < 1024 / laneBits f → val.getLsbD i = if mk.val.getLsbD i then bit i else om.val.getLsbD i)
          ∧ t.free = s.free + (if f.width = 1 then 0 else 1)
      ((f.f16 = true → f.width = 1) →
        res (.fcmplt c x f) (fun i => Val.lt (fm.decode (a i)) (fm.decode (b i)))
        ∧ res (.fcmpeq c x f) (fun i => Val.eq (fm.decode (a i)) (fm.decode (b i))))
      ∧ (f.f16 = false →
        res (.icmplt c x f) (fun i => decide (signed (laneBits f) (a i) < signed (laneBits f) (b i))))

/-- 03 R99, R124; 10 R307: the operations that move lanes, draw them, or join them. -/
def VectorLaneOps : Prop :=
  ∀ (c : CoreId) (x : CtxId) (f : VFields) (s : State),
    let o := s.core c.val
    let n := 1024 / laneBits f
    let a := o.lane x.val f f.va
    let b := o.lane x.val f f.vb
    let mk := o.mreg x.val f.mask.val
    let draw (i : Nat) : Nat := drawOf o.cfg.seed o.slice (if o.cfg.mirel then o.cfg.rel else c.val) x.val 0 i
      ((o.ctx x.val).drawV % 2 ^ 40)
    let active := (upFrom 0 32).filter (fun i => mk.val.getLsbD i)
    let val (i : Nat) : Val := Fmt.decode .fp32 (a i)
    let chain (l : List Nat) : Nat := match l with
      | [] => 0
      | i :: r => (narrow .fp32 .rne
          (r.foldl (fun acc j => Fmt.decode .fp32 (narrow .fp32 .rne (Val.add acc (val j))).bits) (val i))).bits
    CanIssue c.val x.val s → f.width.toNat ≤ 1 → f.rnd ≠ 3 → f.f16 = false →
      let res (i : Instr) (cyc : Nat) (srcs : List Nat) (draws : Bool) (lane : Nat → Nat) : Prop :=
        VecReady o x.val f srcs → ∃ t, exec i s = .next t ∧ VectorStep c.val x.val cyc f srcs draws lane s t
      res (.perm c x f) 2 [f.va.val, f.vb.val] false (fun i => a (b i % n))
      ∧ (f.width = 0 → res (.lred c x f) 8 [f.va.val] false (fun i => if i = 0 then chain active else 0))
      ∧ (VecReady o x.val f [] →
          ∃ t fl data e p, exec (.vrand c x f) s = .next t ∧ FlightStep c.val x.val fl s t ∧ fl.due = o.cyc + 4
            ∧ fl.effs = [.vreg x.val f.vd.val data e p]
            ∧ (∀ i, i < n → mk.val.getLsbD i = true → elemAt (laneBits f) i data.toNat
                = (if f.width = 1 then draw i >>> 16 else draw i) % 2 ^ laneBits f)
            ∧ ((t.core c.val).ctx x.val).drawV = ((o.ctx x.val).drawV + 1) % 2 ^ 40)
      ∧ (VecReady o x.val f [f.va.val, f.vb.val] →
          ∃ t fl data e p, exec (.vSel c x f) s = .next t ∧ FlightStep c.val x.val fl s t ∧ fl.due = o.cyc + 2
            ∧ fl.effs = [.vreg x.val f.vd.val data e p]
            ∧ (∀ i, i < n → elemAt (laneBits f) i data.toNat = if mk.val.getLsbD i then a i else b i))
      ∧ (f.width = 0 → VecReady o x.val f [f.va.val] →
          ∃ t fl data e p, exec (.lmax c x f) s = .next t ∧ FlightStep c.val x.val fl s t ∧ fl.due = o.cyc + 8
            ∧ fl.effs = [.vreg x.val f.vd.val data e p]
            ∧ (∀ i, i < 32 → mk.val.getLsbD i = true → elemAt 32 i data.toNat
                = (narrow .fp32 .rne ((active.map val).foldl fmaxV (.inf true))).bits % 2 ^ 32))

/-- 04 R156, R157; 10 R307 to R309: the tone unit's operations on 32 FP32 lanes, 8 cycles each. Their function values are
the model's free values within the spec's bounds (log entry 12). -/
def ToneOps : Prop :=
  ∀ (c : CoreId) (x : CtxId) (f : VFields) (s : State),
    let o := s.core c.val
    let a := o.lane x.val f f.va
    let b := o.lane x.val f f.vb
    let val (n : Nat) : Val := Fmt.decode .fp32 n
    let diff (i : Nat) : Nat := (narrow .fp32 .rne (Val.add (val (a i)) (val (b i)).flip)).bits
    CanIssue c.val x.val s → f.width = 0 → f.rnd ≠ 3 → f.f16 = false →
      let res (i : Instr) (srcs : List Nat) (lane : Nat → Nat) : Prop := VecReady o x.val f srcs →
        ∃ t, exec i s = .next t ∧ VectorStep c.val x.val 8 f srcs false lane s t
      let one := [f.va.val]
      let two := [f.va.val, f.vb.val]
      res (.vExp c x f) one (fun i => tone .exp (a i)) ∧ res (.vExp2 c x f) one (fun i => tone .exp2 (a i))
        ∧ res (.vLn c x f) one (fun i => tone .ln (a i)) ∧ res (.rcp c x f) one (fun i => tone .rcp (a i))
        ∧ res (.rsq c x f) one (fun i => tone .rsq (a i))
        ∧ res (.rcpz c x f) one (fun i => if (val (a i)).isZero then 0 else tone .rcp (a i))
        ∧ res (.rscl c x f) two (fun i =>
            if (val (a i)).isNan || (val (b i)).isNan then 0x7FC00000
            else if Val.eq (val (a i)) (val (b i)) then 0x3F800000 else tone .exp (diff i))
        ∧ res (.pexp c x f) two (fun i =>
            if (val (a i)).isNan || (val (b i)).isNan then 0x7FC00000
            else if val (a i) = .inf true then 0 else tone .exp (diff i))

/-- 04 R151 to R154; 05 R168, R184: CVT reads the elements of format VB from the low bits of VA and packs those of format
VC into VD, rounded by RND or, in a gradient context, stochastically unless every value is exact. -/
def VectorConversion : Prop :=
  ∀ (c : CoreId) (x : CtxId) (f : VFields) (src dst : Fmt) (s : State),
    let o := s.core c.val
    let m := o.cfg.mirel
    let flush (g : Fmt) (n : Nat) : Nat := if m then g.flush n else n
    let st : Bool := if o.isGradient x.val then !src.subsetOf dst else decide (f.rnd = 1)
    let draw (i : Nat) : Nat := elemDraw o c.val x.val 0 (o.ctx x.val).drawV i
    let md (i : Nat) : Rmode :=
      if st then (if m then .mirel (draw i) else .stoch (draw i)) else if f.rnd = 2 then .rtz else .rne
    CanIssue c.val x.val s → f.rnd ≠ 3 → f.f16 = false → f.width.toNat ≤ 1 → Fmt.ofCode f.vb.val = some src →
      Fmt.ofCode f.vc.val = some dst → (f.width = 1 → src ≠ .fp32 ∧ dst ≠ .fp32) → VecReady o x.val f [f.va.val] →
      ∃ t fl data e p, exec (.cvt c x f) s = .next t ∧ FlightStep c.val x.val fl s t ∧ fl.due = o.cyc + 4
        ∧ fl.effs = [.vreg x.val f.vd.val data e p] ∧ fl.conv = true
        ∧ (∀ i, i < 1024 / laneBits f → (o.mreg x.val f.mask.val).val.getLsbD i = true → elemAt dst.bits i data.toNat
            = flush dst (narrow dst (md i)
                (src.decode (flush src (elemAt src.bits i (o.vreg x.val f.va.val).data.toNat)))).bits % 2 ^ dst.bits)
        ∧ ((t.core c.val).ctx x.val).drawV = (if st then ((o.ctx x.val).drawV + 1) % 2 ^ 40 else (o.ctx x.val).drawV)

/-- 05 R172: WUPD adds delta VA to each active weight with its remainder and rounds once; a NaN gives the canonical NaN with
remainder 0; lanes that are not active keep weight and remainder. -/
def WeightUpdate : Prop :=
  ∀ (c : CoreId) (x : CtxId) (f : VFields) (s : State),
    let o := s.core c.val
    let mk := o.mreg x.val f.mask.val
    let old := (o.vreg x.val f.vd.val).data.toNat
    let draw (i : Nat) : Nat := elemDraw o c.val x.val 0 (o.ctx x.val).drawV i
    let st : Bool := o.isGradient x.val || decide (f.rnd = 1)
    let md (i : Nat) : Rmode := if st then .stoch (draw i) else if f.rnd = 2 then .rtz else .rne
    let wt (i : Nat) : Nat := elemAt 16 i old
    let rm (i : Nat) : Nat := elemAt 8 (64 + i) old
    let delta (i : Nat) : Val := Fmt.decode .fp32 (o.lane x.val f f.va i)
    let sum (i : Nat) : Val := Val.add (Val.add (Fmt.decode .bf16 (wt i)) ((Val.ofInt (signed 8 (rm i))).shift (bfUlp (wt i) - 7)))
      (delta i)
    CanIssue c.val x.val s → f.rnd ≠ 3 → f.f16 = false → f.width = 0 → o.cfg.mirel = false →
      VecReady o x.val f [f.vd.val, f.va.val, f.vb.val] →
      ∃ t fl data e p, exec (.wupd c x f) s = .next t ∧ FlightStep c.val x.val fl s t ∧ fl.due = o.cyc + 8
        ∧ fl.effs = [.vreg x.val f.vd.val data e p]
        ∧ (∀ i, i < 32 →
            let w' := elemAt 16 i data.toNat
            let r' := elemAt 8 (64 + i) data.toNat
            (mk.val.getLsbD i = false → w' = wt i ∧ r' = rm i)
            ∧ (mk.val.getLsbD i = true → (sum i).isNan = true ∨ (delta i).isNan = true → w' = 0x7FC0 ∧ r' = 0)
            ∧ (mk.val.getLsbD i = true → (sum i).isNan = false → (delta i).isNan = false →
                let n := (narrow .bf16 (md i) (sum i)).bits
                w' = n % 2 ^ 16 ∧ (∀ sg m ex, (Val.add (sum i) (Fmt.decode .bf16 n).flip).shift (7 - bfUlp n) = .fin sg m ex →
                  r' = withSign .int8 sg (min 127 (toUnits .rne m ex 0)) % 2 ^ 8)))

/-- 03 R89, R99: VLD, VST and VSPLAT act on 32 lanes of 32 bits, and the lanes whose mask bit is 0 keep what the
destination held. -/
def VectorMoves : Prop :=
  ∀ (c : CoreId) (x : CtxId) (m : Fin 8) (vd sa : Reg4) (off : BitVec 11) (s : State),
    let o := s.core c.val
    let mk := o.mreg x.val m.val
    let a := o.sreg x.val sa.val
    let l := (a.val.toNat + off.toNat) % 2 ^ 32
    let ln := o.line l
    let v := o.vreg x.val vd.val
    let res (i : Instr) (cyc : Nat) (eff : Line → Bool → Bool → Eff) (new : Nat → Nat) (dst : Slot) : Prop :=
      ∃ t fl data e p, exec i s = .next t ∧ FlightStep c.val x.val fl s t ∧ fl.due = o.cyc + cyc ∧ fl.effs = [eff data e p]
        ∧ (∀ j, j < 32 → elemAt 32 j data.toNat = if mk.val.getLsbD j then new j
            else if dst.pres = .empty then elemAt 32 j (BitVec.ofNat 1024 (Config.freeValue s.free)).toNat
            else elemAt 32 j dst.data.toNat)
    CanIssue c.val x.val s → mk.pending = false →
      (o.isTimed x.val = true → mk.early = false ∧ a.early = false ∧ v.pres.isShaftTimed = false) →
      (v.pres.free = true → a.poison = false → l < 1984 → ln.pres.present = true →
        (o.isTimed x.val = true → ln.pres.isShaftTimed = false) →
        res (.vld c x m vd sa off) 3 (.vreg x.val vd.val) (fun j => elemAt 32 j ln.data.toNat) v)
      ∧ (v.pres.present = true → a.poison = false → l < 1984 → ln.pres.free = true → o.locked (l, 1) = false →
        (o.isTimed x.val = true → ln.pres.isShaftTimed = false) →
        res (.vst c x m vd sa off) 3 (.line l) (fun j => elemAt 32 j v.data.toNat) ln)
      ∧ (v.pres.free = true →
        res (.vsplat c x m vd sa) 2 (.vreg x.val vd.val) (fun _ => a.val.toNat) v)

/-- Float operations and compares of the vector slot. -/
def Obligations.VectorFloatsAndCompares : Prop := VectorFloatOps ∧ VectorCompares

/-- Operations that move lanes, registers and lines. -/
def Obligations.VectorLanesAndMoves : Prop := VectorLaneOps ∧ VectorMoves

/-- Tone operations, conversions and the weight update. -/
def Obligations.TonesAndConversions : Prop := ToneOps ∧ VectorConversion ∧ WeightUpdate
/-! ### The cube slot -/

/-- Operation `op` on descriptor `d` breaks no rule and is ready: the class of the cubes is the context's, they are idle,
the lines it reads are present and those it writes are free (03 R85, R88, R89; 04 R146). -/
def CubeReady (o : Core) (x : Nat) (op : CubeOp) (d : Desc) : Prop :=
  d.legal op o.cfg.mirel = true ∧ o.cfg.cubesTimed = o.isTimed x ∧ o.cubeBusy = false
    ∧ (∀ r ∈ d.reads op ++ d.writes op, r.1 + r.2 ≤ 1984)
    ∧ (∀ r ∈ d.reads op, ∀ l ∈ linesOf r, (o.line l).pres.present = true)
    ∧ (∀ r ∈ d.writes op, (∀ l ∈ linesOf r, (o.line l).pres.free = true) ∧ o.locked r = false)
    ∧ (o.isTimed x = true → ∀ r ∈ d.reads op ++ d.writes op, ∀ l ∈ linesOf r, (o.line l).pres.isShaftTimed = false)

/-- 03 R89, R100; 04 R145, R146, R148, R160: a cube-slot operation occupies the one unit for its cycles with its sources
locked and its destination lines PENDING, and reads its descriptor at issue. A stochastic CONV advances its draw counter. -/
def CubeOpsOccupyTheUnit : Prop :=
  ∀ (c : CoreId) (x : CtxId) (td : Fin 8) (rnd : BitVec 2) (d : Desc) (s : State),
    let o := s.core c.val
    let depth (mv : Bool) : Nat :=
      let w := max (fmtBits d.aFmt) (fmtBits d.bFmt)
      if mv then (if fmtBits d.bFmt ≤ 8 then 4 else 2) else if w ≤ 6 then 8 else if w ≤ 8 then 4 else 2
    let steps (mv : Bool) : Nat := (d.k + depth mv - 1) / depth mv
    let panel (mv : Bool) : Nat := if o.cfg.mirel then 8 * steps mv else max (steps mv) 8
    CanIssue c.val x.val s → decodeDesc (o.td x.val td.val) = some d → rnd ≠ 3 →
      let res (i : Instr) (op : CubeOp) (cycles draws : Nat) : Prop := CubeReady o x.val op d →
        ∃ t fl j, exec i s = .next t ∧ OnlyCore c.val s t
          ∧ Issued x.val ((o.ctx x.val).ptr + 1) 0 .run o (t.core c.val)
          ∧ (t.core c.val).flights = o.flights ++ [fl] ∧ fl.id = o.nextId ∧ fl.ctx = x.val ∧ fl.due = o.cyc + cycles
          ∧ fl.locks = d.reads op ∧ fl.cube = some j ∧ j.op = op ∧ j.desc = d ∧ j.td = td.val ∧ j.rnd = rnd ∧ j.runs = 0
          ∧ (∀ l, (t.core c.val).line l = if (d.writes op).any (fun r => decide (r.1 ≤ l) && decide (l < r.1 + r.2))
              then { o.line l with pres := .pending } else o.line l)
          ∧ (t.core c.val).sregs = o.sregs ∧ (t.core c.val).vregs = o.vregs ∧ (t.core c.val).mregs = o.mregs
          ∧ (t.core c.val).tds = o.tds ∧ (t.core c.val).shq = o.shq
          ∧ ((t.core c.val).ctx x.val).drawC = (if draws = 0 then (o.ctx x.val).drawC
              else ((o.ctx x.val).drawC + draws) % 2 ^ 40)
      res (.tile c x td rnd) .tile (6 + d.m + d.n / 32 * (d.m / 8) * panel false + d.m) 0
        ∧ res (.tileZ c x td rnd) .tileZ (6 + d.n / 32 * (d.m / 8) * panel false + d.m) 0
        ∧ res (.mv c x td rnd) .mv (6 + 8 + d.n / 32 * panel true + 8) 0
        ∧ res (.mvZ c x td rnd) .mvZ (6 + d.n / 32 * panel true + 8) 0
        ∧ res (.conv c x td rnd) .conv (d.m * d.n / 32 + 6)
            (if (if o.isGradient x.val then decide (d.outFmt ≠ 0) else decide (rnd = 1)) then (d.m * d.n + 63) / 64 else 0)

/-- 05 R180, R181: at a tile run's last drain an overflow leads to a retake of a TILE.Z, twice at the most and within the
reserve; a run that is kept writes its result and frees the unit. -/
def TileRunEnds : Prop :=
  ∀ (c : CoreId) (id : Nat) (f : Flight) (j : CubeJob) (s : State),
    let o := s.core c.val
    let r := regionOf c.val
    let n := j.desc.cycles j.op o.cfg.mirel
    let out := runOut o f j
    inFix s = false → o.flights.find? (fun g => decide (g.id = id)) = some f → f.cube = some j → j.op ≠ .conv →
      ∃ t, exec (.cubeRunEnd c id) s = .next t
        ∧ (out.ovf = true → j.op = .tileZ → o.cfg.reserve ≠ 0 → o.cfg.mirel = false → j.runs < 2 → n ≤ o.reserveLeft →
          (t.core c.val).reserveLeft = o.reserveLeft - n
          ∧ (∃ g ∈ (t.core c.val).flights, g.id = id ∧ g.due = f.due + n ∧ g.cube = some { j with runs := j.runs + 1 })
          ∧ (t.core c.val).tray = o.tray
          ∧ rd R.TWR_RGN_RETAKE_CNT r t = min (rd R.TWR_RGN_RETAKE_CNT r s + 1) (2 ^ R.TWR_RGN_RETAKE_CNT.w - 1)
          ∧ rd R.TWR_RGN_ARITH_ACC_OVF r t % 2 = 1)
        ∧ (out.ovf = false →
          (∀ g ∈ (t.core c.val).flights, g.id ≠ id)
          ∧ (j.op = .tileZ → mgetD j.td 0 ((t.core c.val).ctx f.ctx).scales = (o.cfg.step * j.runs : Nat))
          ∧ (t.core c.val).tray = (landLines o out.lines f.early f.poison).tray)

/-- The cube slot: what issues, and how a tile run ends. -/
def Obligations.CubeOperations : Prop := CubeOpsOccupyTheUnit ∧ TileRunEnds
/-! ### Completion, the move slot, the shaft slot -/

/-- 01 R26; 03 R89: before the fix window an operation in flight completes: it leaves the list, and its destination becomes
EARLY or FULL with the data and poison it carries. -/
def Obligations.OperationCompletes : Prop :=
  ∀ (c : CoreId) (id : Nat) (errs : List GErr) (f : Flight) (e : Eff) (s : State),
    let o := s.core c.val
    inFix s = false → o.flights.find? (fun g => decide (g.id = id)) = some f → f.cube = none → f.effs = [e] →
      ∃ t, exec (.operationComplete c id errs) s = .next t
        ∧ (t.core c.val).flights = o.flights.filter (fun g => decide (g.id ≠ id))
        ∧ (match e with
          | .vreg x r d early p =>
            (t.core c.val).vreg x r = ⟨d, if early then .early else .full, p⟩ ∧ (t.core c.val).tray = o.tray
              ∧ (t.core c.val).mregs = o.mregs
          | .line l d early p =>
            (t.core c.val).line l = ⟨d, if early then .early else .full, p⟩ ∧ (∀ k, k ≠ l → (t.core c.val).line k = o.line k)
              ∧ (t.core c.val).vregs = o.vregs ∧ (t.core c.val).mregs = o.mregs
          | .mask x m v early p =>
            (t.core c.val).mreg x m = (if m = 0 then o.mreg x 0 else ⟨v, early, p, false⟩)
              ∧ (t.core c.val).tray = o.tray ∧ (t.core c.val).vregs = o.vregs
          | .outSlot k d early p =>
            (t.core c.val).line (1984 + k) = ⟨d, if early then .early else .full, p⟩
              ∧ (t.core c.val).vregs = o.vregs ∧ (t.core c.val).mregs = o.mregs)
        ∧ (t.core c.val).sregs = o.sregs ∧ (t.core c.val).ctxs = o.ctxs ∧ t.shafts = s.shafts ∧ t.mem = s.mem

/-- 03 R102: OUT and OUTL fill an outbound slot from a vector register or a tray line, and TAKE and TAKEL move an inbound
slot, which becomes EMPTY at once, into one. Each takes 3 cycles. -/
def MailboxMoves : Prop :=
  ∀ (c : CoreId) (x : CtxId) (k : Fin 32) (reg : Reg4) (off : BitVec 11) (s : State),
    let o := s.core c.val
    let v := o.vreg x.val reg.val
    let b := o.sreg x.val reg.val
    let l := (b.val.toNat + off.toNat) % 2 ^ 32
    let ln := o.line l
    let inb := o.line (2016 + k.val)
    CanIssue c.val x.val s → o.cfg.loose = false →
      (o.isTimed x.val = true → v.pres = .full → (o.line (1984 + k.val)).pres = .empty →
        ∃ t, exec (.mOut c x k reg) s = .next t ∧ ∃ fl, FlightStep c.val x.val fl s t ∧ fl.due = o.cyc + 3
          ∧ fl.effs = [.outSlot k.val v.data false v.poison] ∧ ((t.core c.val).line (1984 + k.val)).pres = .pending)
      ∧ (o.isTimed x.val = true → b.poison = false → b.early = false → l < 1984 → ln.pres = .full →
          (o.line (1984 + k.val)).pres = .empty →
        ∃ t, exec (.outl c x k reg off) s = .next t ∧ ∃ fl, FlightStep c.val x.val fl s t ∧ fl.due = o.cyc + 3
          ∧ fl.effs = [.outSlot k.val ln.data false ln.poison] ∧ ((t.core c.val).line (1984 + k.val)).pres = .pending)
      ∧ (inb.pres = .full → v.pres.free = true → (o.isTimed x.val = true → v.pres.isShaftTimed = false) →
        ∃ t fl, exec (.mTake c x k reg) s = .next t ∧ OnlyCore c.val s t
          ∧ Issued x.val ((o.ctx x.val).ptr + 1) 0 .run o (t.core c.val)
          ∧ (t.core c.val).flights = o.flights ++ [fl] ∧ fl.due = o.cyc + 3
          ∧ fl.effs = [.vreg x.val reg.val inb.data false inb.poison] ∧ ((t.core c.val).vreg x.val reg.val).pres = .pending
          ∧ ((t.core c.val).line (2016 + k.val)).pres = .empty
          ∧ (∀ m, m ≠ 2016 + k.val → (t.core c.val).line m = o.line m) ∧ (t.core c.val).sregs = o.sregs)
      ∧ (inb.pres = .full → b.poison = false → l < 1984 → ln.pres.free = true → o.locked (l, 1) = false →
          (o.isTimed x.val = true → b.early = false ∧ ln.pres.isShaftTimed = false) →
        ∃ t fl, exec (.takel c x k reg off) s = .next t ∧ OnlyCore c.val s t
          ∧ Issued x.val ((o.ctx x.val).ptr + 1) 0 .run o (t.core c.val)
          ∧ (t.core c.val).flights = o.flights ++ [fl] ∧ fl.due = o.cyc + 3
          ∧ fl.effs = [.line l inb.data b.early inb.poison] ∧ ((t.core c.val).line l).pres = .pending
          ∧ ((t.core c.val).line (2016 + k.val)).pres = .empty
          ∧ (∀ m, m ≠ 2016 + k.val → m ≠ l → (t.core c.val).line m = o.line m) ∧ (t.core c.val).sregs = o.sregs)

/-- 03 R120, R121: LPOST copies a line to the lowest EMPTY outbound slot and posts it for a plate-relative core; LTAKE takes the
oldest held arrival and its sender, EARLY where s[REG] is and with the message's poison. -/
def LooseMessages : Prop :=
  ∀ (c : CoreId) (x : CtxId) (dst reg : Reg4) (off : BitVec 11) (s : State),
    let o := s.core c.val
    let b := o.sreg x.val reg.val
    let l := (b.val.toNat + off.toNat) % 2 ^ 32
    let ln := o.line l
    CanIssue c.val x.val s → o.cfg.loose = true → b.poison = false → l < 1984 →
      (∀ k, ln.pres.present = true → k < 32 → (o.line (1984 + k)).pres = .empty →
          (∀ j, j < k → (o.line (1984 + j)).pres ≠ .empty) →
        ∃ t fl m, exec (.lpost c x dst reg off) s = .next t ∧ OnlyCore c.val s t
          ∧ Issued x.val ((o.ctx x.val).ptr + 1) 0 .run o (t.core c.val)
          ∧ (t.core c.val).posted = o.posted ++ [m] ∧ m.src = o.cfg.rel ∧ m.dst = (o.sreg x.val dst.val).val.toNat
          ∧ m.data = ln.data ∧ m.poison = (ln.poison || (o.sreg x.val dst.val).poison) ∧ m.slot = k
          ∧ (t.core c.val).flights = o.flights ++ [fl] ∧ fl.due = o.cyc + 3
          ∧ fl.effs = [.outSlot k ln.data (decide (ln.pres = .early) || b.early || (o.sreg x.val dst.val).early)
              (ln.poison || (o.sreg x.val dst.val).poison)]
          ∧ ((t.core c.val).line (1984 + k)).pres = .pending ∧ (t.core c.val).sregs = o.sregs)
      ∧ (∀ k src rest, o.held = (k, src) :: rest → ln.pres.free = true → o.locked (l, 1) = false → k < 32 →
        let inb := o.line (2016 + k)
        ∃ t fl, exec (.ltake c x dst reg off) s = .next t ∧ OnlyCore c.val s t
          ∧ Issued x.val ((o.ctx x.val).ptr + 1) 0 .run o (t.core c.val)
          ∧ (t.core c.val).held = rest ∧ ((t.core c.val).line (2016 + k)).pres = .empty
          ∧ (dst.val ≠ 0 → (t.core c.val).sreg x.val dst.val = ⟨BitVec.ofNat 32 src, b.early, inb.poison⟩)
          ∧ (t.core c.val).flights = o.flights ++ [fl] ∧ fl.due = o.cyc + 3
          ∧ fl.effs = [.line l inb.data b.early inb.poison] ∧ ((t.core c.val).line l).pres = .pending)

/-- A shaft request of `n` lines fits the budgets of the core's region (03 R109, 07 R224). -/
def BudgetOk (o : Core) (addr n : Nat) : Prop :=
  o.used + 1 ≤ min 64 o.cfg.requests
    ∧ (if addr < 0x8000000 then o.usedD + n * 128 ≤ o.cfg.bd ∧ o.usedS ≤ o.cfg.bs
        else o.usedD ≤ o.cfg.bd ∧ o.usedS + n * 128 ≤ o.cfg.bs)

/-- 03 R103, R107 to R110, R114: LD, ST and CODE queue one shaft request each, in issue order, charged to the budgets; LD's
lines become SHAFT_PENDING, and ST's stay locked. -/
def ShaftRequests : Prop :=
  ∀ (c : CoreId) (x : CtxId) (sa sb : Reg4) (n : Fin 64) (byp : Bool) (s : State),
    let o := s.core c.val
    let a := o.sreg x.val sa.val
    let b := o.sreg x.val sb.val
    let addr := a.val.toNat
    let line := b.val.toNat
    let count := n.val + 1
    let dram := decide (addr < 0x8000000)
    CanIssue c.val x.val s → a.poison = false → b.poison = false → (o.isTimed x.val = true → a.early = false ∧ b.early = false) →
      addr % 32 = 0 → (addr + count * 128 ≤ 0x8000000 ∨ 0x10000000 ≤ addr ∧ addr + count * 128 ≤ 0x10180000) →
      BudgetOk o addr count →
      let queued (t : State) (kind : ShKind) (dst : Nat) (by_ : Bool) : Prop :=
        OnlyCore c.val s t ∧ Issued x.val ((o.ctx x.val).ptr + 1) 0 .run o (t.core c.val)
          ∧ (t.core c.val).shq = o.shq ++ [⟨o.nextId, x.val, (o.ctx x.val).ptr, kind, addr, dst, count, 0, by_⟩]
          ∧ (t.core c.val).used = o.used + 1 ∧ (t.core c.val).usedD = o.usedD + (if dram then count * 128 else 0)
          ∧ (t.core c.val).usedS = o.usedS + (if dram then 0 else count * 128)
          ∧ (t.core c.val).sregs = o.sregs ∧ (t.core c.val).vregs = o.vregs ∧ (t.core c.val).flights = o.flights
      (line + count ≤ 1984 → (∀ l, line ≤ l → l < line + count → (o.line l).pres.free = true
            ∧ (o.isTimed x.val = true → (o.line l).pres.isShaftTimed = false)) → o.locked (line, count) = false →
        ∃ t, exec (.shLd c x sa sb n byp) s = .next t ∧ queued t .ld line byp
          ∧ (∀ l, (t.core c.val).line l = if line ≤ l ∧ l < line + count then { o.line l with pres := .shaftPending } else o.line l))
      ∧ (line + count ≤ 1984 → (∀ l, line ≤ l → l < line + count → (o.line l).pres.present = true
            ∧ (o.isTimed x.val = true → (o.line l).pres.isShaftTimed = false)) → nmHazard c.val (addr, count * 128) s = false →
        ∃ t, exec (.shSt c x sa sb n) s = .next t ∧ queued t .st line false ∧ (t.core c.val).tray = o.tray
          ∧ (t.core c.val).locked (line, count) = true)
      ∧ (line * 8 + count * 8 ≤ 2048 →
        ∃ t, exec (.shCode c x sa sb n) s = .next t ∧ queued t .code (line * 8) false ∧ (t.core c.val).tray = o.tray
          ∧ (t.core c.val).store = o.store)

/-- 03 R109; 08 R254, R257 to R261: NM sends the command that a tray line spells to the near-memory unit of its destination's
bank column, where it enters the queue once the core's earlier shaft requests are done; a malformed one, or one over the unit's
backlog, is a plate fault. -/
def NearMemoryRequests : Prop :=
  ∀ (c : CoreId) (x : CtxId) (sb : Reg4) (s : State),
    let o := s.core c.val
    let b := o.sreg x.val sb.val
    let ln := o.line b.val.toNat
    CanIssue c.val x.val s → b.poison = false → b.val.toNat < 1984 → ln.pres.present = true → ln.poison = false →
      (o.isTimed x.val = true → b.early = false ∧ ln.pres.isShaftTimed = false) →
      o.used + 1 ≤ min 64 o.cfg.requests → o.usedD ≤ o.cfg.bd → o.usedS ≤ o.cfg.bs →
        (∀ k, nmCheck c.val ln.data s = .ok k →
          ∃ t i, exec (.shNm c x sb) s = .next t ∧ Issued x.val ((o.ctx x.val).ptr + 1) 0 .run o (t.core c.val)
            ∧ i.core = some c.val ∧ i.ord = o.nmIssued
            ∧ (o.shq = [] → (s.shaft (posOf c.val)).waits = [] →
              (t.shaft (posOf c.val)).queue (bankCol k.dst)
                  = (s.shaft (posOf c.val)).queue (bankCol k.dst) ++ [.cmd (s.shaft (posOf c.val)).age k i 0 false]
                ∧ (t.shaft (posOf c.val)).waits = [])
            ∧ ((∃ q ∈ o.shq, q.id < o.nextId) → (bankCol k.dst, NmWork.cmd 0 k i 0 false) ∈ (t.shaft (posOf c.val)).waits)
            ∧ (t.core c.val).used = o.used + 1 ∧ (t.core c.val).nmIssued = o.nmIssued + 1 ∧ (t.core c.val).tray = o.tray
            ∧ (∀ d, d ≠ c.val → t.core d = s.core d) ∧ t.mem = s.mem)
        ∧ (∀ e, nmCheck c.val ln.data s = .error e →
          exec (.shNm c x sb) s = .next (plateFault c.val x.val (o.ctx x.val).ptr o.cyc e s))

/-- 03 R111 to R113; 08 R265: the fences make their context wait until what they wait for is done; CINV drops the read-cache
lines of its range at once. -/
def FencesAndInvalidation : Prop :=
  ∀ (c : CoreId) (x : CtxId) (sa : Reg4) (n : Fin 64) (s : State),
    let o := s.core c.val
    let a := o.sreg x.val sa.val
    let len := (n.val + 1) * 4096
    CanIssue c.val x.val s →
      (o.isTimed x.val = false →
        ∃ t, exec (.fenceShaft c x) s = .next t ∧ OnlyCore c.val s t
          ∧ Issued x.val ((o.ctx x.val).ptr + 1) 0 .run o (t.core c.val) ∧ (t.core c.val).still = o.still
          ∧ ((t.core c.val).ctx x.val).wait = .shaft o.nextId (o.ctx x.val).ptr)
      ∧ (o.isTimed x.val = false → a.poison = false →
        ∃ t dests, exec (.fenceNm c x sa n) s = .next t ∧ OnlyCore c.val s t
          ∧ Issued x.val ((o.ctx x.val).ptr + 1) 0 .run o (t.core c.val) ∧ (t.core c.val).still = o.still
          ∧ ((t.core c.val).ctx x.val).wait = .nm o.nmIssued a.val.toNat len (o.ctx x.val).ptr dests)
      ∧ (a.poison = false → (o.isTimed x.val = true → a.early = false) →
        ∃ t, exec (.cinv c x sa n) s = .next t ∧ OnlyCore c.val s t
          ∧ Issued x.val ((o.ctx x.val).ptr + 1) 0 .run o (t.core c.val)
          ∧ (t.core c.val).still = { o.still with cache := (t.core c.val).cache }
          ∧ (∀ set line poison ad, (ad, line, poison) ∈ mgetD set [] (t.core c.val).cache
              ↔ (ad, line, poison) ∈ mgetD set [] o.cache ∧ ¬(a.val.toNat ≤ ad + 127 ∧ ad < a.val.toNat + len)))

/-- 03 R111, R112; 08 R265: a fence that waits completes once its requests, or its commands and the chunks that run in its
range, are done; the context may then go on. -/
def FencesComplete : Prop :=
  ∀ (c : CoreId) (x : CtxId) (s : State),
    let o := s.core c.val
    let sh := s.shaft (posOf c.val)
    inFix s = false →
    (∀ before b, (o.ctx x.val).wait = .shaft before b → (∀ q ∈ o.shq, q.ctx = x.val → before ≤ q.id) →
      ∃ t, exec (.fenceShaftDone c x) s = .next t ∧ OnlyCore c.val s t
        ∧ t.core c.val = o.setCtx x.val { o.ctx x.val with wait := .none })
    ∧ (∀ upTo a len b dests, (o.ctx x.val).wait = .nm upTo a len b dests →
        (∀ age cmd by_ done ab, NmWork.cmd age cmd by_ done ab ∈ sh.works ++ sh.fin → by_.core = some c.val → upTo ≤ by_.ord) →
        (∀ r ∈ runningRanges sh, meets (a, len) r = false) →
      ∃ t, exec (.fenceNmDone c x) s = .next t ∧ OnlyCore c.val s t
        ∧ ((t.core c.val).ctx x.val).wait = .none
        ∧ (∀ set line poison ad, (ad, line, poison) ∈ mgetD set [] (t.core c.val).cache →
            ¬(a ≤ ad + 127 ∧ ad < a + len)))

/-- Mailbox, loose-message and shaft operations of a bundle. -/
def Obligations.SlotRequests : Prop := MailboxMoves ∧ LooseMessages ∧ ShaftRequests ∧ NearMemoryRequests

/-- Fences and invalidations, and when a fence lets its context go on. -/
def Obligations.Fences : Prop := FencesAndInvalidation ∧ FencesComplete

/-! ### The issue stage, shaft loads, the declared cycles, the tick -/

/-- Nothing keeps context y of a core from issuing its next bundle `b` in cycle `cyc` (03 R84, R88, R126, R557). -/
def CouldIssue (o : Core) (y cyc : Nat) (b : Bundle) : Prop :=
  (o.ctx y).mode = .run ∧ (o.ctx y).readyAt ≤ cyc ∧ (o.ctx y).wait = .none ∧ (o.ctx y).delay ≤ cyc ∧ fetch o y = some b
    ∧ ready o y b = true

/-- Place of context y in the round robin that goes on after context `last` (03 R84). -/
def rrPlace (last y : Nat) : Nat := (y + 16 - (last + 1) % 16) % 16

/-- Context x, with its bundle `b`, is the one whose turn it is in cycle `cyc`: the first ready timed context in order after
the last timed one that issued; a free one in the same way, only where no timed one is ready (03 R84). -/
def HasTurn (o : Core) (cyc x : Nat) (b : Bundle) : Prop :=
  x < 16 ∧ CouldIssue o x cyc b
    ∧ (o.isTimed x = true → ∀ y b', y < 16 → y ≠ x → o.isTimed y = true → CouldIssue o y cyc b' →
        rrPlace o.lastTimed x < rrPlace o.lastTimed y)
    ∧ (o.isTimed x = false → ∀ y b', y < 16 → y ≠ x → CouldIssue o y cyc b' →
        o.isTimed y = false ∧ rrPlace o.lastFree x < rrPlace o.lastFree y)

/-- 01 R26; 03 R83, R84, R126, R557: in a cycle before the fix window the lowest context whose next bundle breaks a rule faults;
else the context whose turn it is issues its whole bundle; where none is ready the cycle passes; a tray word that fails its parity
delays the bundle by 4 cycles and is counted. Rules checked at issue count for a bundle that would otherwise issue (`goes`). -/
def Obligations.BundleIssueOrder : Prop :=
  ∀ (c : CoreId) (par : List TrayParity) (goes : Nat → Bool) (s : State),
    let o := s.core c.val
    let cyc := o.cyc
    (∀ x, goes x = true ↔ ∃ b, HasTurn o cyc x b ∧ parityHits o x b par = []) →
    inFix s = false → o.on = true → o.stopped = false → cyc < o.cfg.cycles →
      (∀ x cause ptr, x < 16 → nextFault c.val x cyc (goes x) s = some (cause, ptr) →
          (∀ y, y < x → nextFault c.val y cyc (goes y) s = none) →
        exec (.bundleIssue c cyc par) s = .next (plateFault c.val x ptr cyc cause s))
      ∧ ((∀ y, y < 16 → nextFault c.val y cyc (goes y) s = none) →
          (∀ x b, HasTurn o cyc x b →
            (parityHits o x b par = [] →
              exec (.bundleIssue c cyc par) s = .next (commit c.val x cyc b s)
              ∧ ((commit c.val x cyc b s).core c.val).lastTimed = (if o.isTimed x then x else o.lastTimed)
              ∧ ((commit c.val x cyc b s).core c.val).lastFree = (if o.isTimed x then o.lastFree else x))
            ∧ (∀ p, parityHits o x b par = [p] → p.fails = false →
              ∃ t, exec (.bundleIssue c cyc par) s = .next t
                ∧ ((t.core c.val).ctx x) = { o.ctx x with delay := cyc + 4 } ∧ (t.core c.val).cyc = cyc + 1
                ∧ (t.core c.val).tray = o.tray
                ∧ t = bump R.TWR_RGN_TRAY_RETRY (regionOf c.val) 1 { s with cores := t.cores }))
          ∧ ((∀ y b, y < 16 → ¬CouldIssue o y cyc b) →
            exec (.bundleIssue c cyc par) s = .next (s.setCore c.val { o with cyc := cyc + 1 })))

/-- 01 R32; 03 R108, R110, R113; 07 R224, R241; 08 R264: the next line of the load at the head of a core's requests lands EARLY:
from the read cache where the line is held, else from memory, with poison where a unit of the line is delivered as poison; a
bypassing load leaves the cache as it was. The request goes once its last line has landed. Outside the loads' window, or behind a
refreshing layer or a running chunk, nothing lands. -/
def ShaftLoadLands : Prop :=
  ∀ (c : CoreId) (errs : List GErr) (q : ShReq) (rest : List ShReq) (s : State),
    let o := s.core c.val
    let p := posOf c.val
    let a := q.addr + 128 * q.done
    let held := (mgetD (a / 128 % 64) [] o.cache).find? (fun w => decide (w.1 = a))
    o.shq = q :: rest → q.kind = .ld → (∀ r ∈ rest, r.id ≠ q.id) →
      let free : Prop := ∀ r ∈ runningDests (s.shaft p), meets (a, 128) r = false
      let opens : Prop := inWindow s = true ∨ inSlot s = true ∧ (s.shaft p).lent = true
      let shut : Prop := a < 0x8000000 ∧ layerShut p (a / 0x400000 % 4) s = true
      let hit : Prop := a < 0x8000000 ∧ q.bypass = false ∧ held ≠ none
      let landed (t : State) (l : Line) (poison : Bool) : Prop :=
        (t.core c.val).line (q.line + q.done) = ⟨l, .early, poison⟩
          ∧ (∀ k, k ≠ q.line + q.done → (t.core c.val).line k = o.line k)
          ∧ (t.core c.val).shq = (if q.done + 1 = q.count then rest else { q with done := q.done + 1 } :: rest)
          ∧ (t.core c.val).ctxs = o.ctxs ∧ (t.core c.val).sregs = o.sregs ∧ (t.core c.val).vregs = o.vregs
      (∀ l poison, free → opens → a < 0x8000000 → q.bypass = false → held = some (a, l, poison) →
        ∃ t, exec (.shaftLoadLand c errs) s = .next t ∧ t.mem = s.mem ∧ t.free = s.free ∧ t.regs = s.regs
          ∧ (∀ d, d ≠ c.val → t.core d = s.core d) ∧ landed t l poison)
      ∧ (free → opens → ¬hit → ¬shut →
        ∃ t, exec (.shaftLoadLand c errs) s = .next t ∧ landed t (readLine p a s) (!(checkUnits p .core errs (unitsOf a 128) s).1.isEmpty)
          ∧ (q.bypass = true ∨ 0x8000000 ≤ a → (t.core c.val).cache = o.cache)
          ∧ (q.bypass = false → a < 0x8000000 →
            (mgetD (a / 128 % 64) [] (t.core c.val).cache).head?
              = some (a, readLine p a s, !(checkUnits p .core errs (unitsOf a 128) s).1.isEmpty)))
      ∧ ((¬free ∨ ¬opens ∨ (¬hit ∧ shut)) → exec (.shaftLoadLand c errs) s = .next s)

/-- 03 R117, R129: when a region's cycle counter reaches its declared cycles, every lit core that has left a context running
or an operation uncompleted faults; the last completion cycle is shown; a finished core stands as it was. -/
def DeclaredCyclesEnd : Prop :=
  ∀ (r : RegionId) (s : State),
    (∃ c ∈ regionCores r.val, (s.core c).on = true) →
      ∃ t, exec (.declaredCyclesEnd r) s = .next t ∧ t.mem = s.mem
        ∧ (∀ c ∈ regionCores r.val, (s.core c).on = true → unfinished (s.core c) ≠ none → (t.core c).stopped = true)
        ∧ (∀ c, (c ∉ regionCores r.val ∨ (s.core c).on = false ∨ unfinished (s.core c) = none) → t.core c = s.core c)
        ∧ ((∀ c ∈ regionCores r.val, (s.core c).on = true → unfinished (s.core c) = none) →
          t = wr R.TWR_RGN_CYCLES_LAST_DONE r.val
            (((regionCores r.val).filter (fun c => (s.core c).on)).foldl (fun m c => max m (s.core c).doneCyc) 0) s)

/-- 03 R119 to R122; 06 R213, R214: a loose slot departs with the oldest posted message for its partner, whose outbound slot becomes
EMPTY; it is delivered at the third tick after. Within a half it waits for that tick; to another half it starts the first of its
lagged crossings. A fenced core sends poison in its place. A message for a hole is dropped and counted; with none, nothing
changes. -/
def LooseDepartures : Prop :=
  ∀ (c : CoreId) (k : Fin 8) (s : State),
    let o := s.core c.val
    let off := (8 * o.slice + k.val) % 2 ^ o.cfg.looseM
    let dest := c.val - o.cfg.rel + (o.cfg.rel ^^^ off)
    let mine (m : LooseMsg) : Bool := decide (m.dst = o.cfg.rel ^^^ off) && (o.line (1984 + m.slot)).pres.present
    let sent (m : LooseMsg) : LooseMsg :=
      { m with k := k.val, due := s.frame + 3, id := s.fab.looseNext, path := loosePath c.val dest, row := rowOf c.val, fly := false }
    let onWay (m : LooseMsg) (t : State) : Prop :=
      (loosePath c.val dest = [] →
        t.fab = { s.fab with looseNext := s.fab.looseNext + 1, loose := s.fab.loose ++ [(dest, sent m)] })
      ∧ (∀ h r, loosePath c.val dest = h :: r → crossUp h (rowOf c.val) s = true →
        t.fab.loose = s.fab.loose ++ [(dest, (sent m).onto h r)]
          ∧ (h < 8 → mgetD (seamKey (h / 2) (rowOf c.val) (h % 2)) [] t.fab.seams
              = mgetD (seamKey (h / 2) (rowOf c.val) (h % 2)) [] s.fab.seams
                ++ [⟨true, m.poison, 0, colOf dest, m.data, some s.fab.looseNext⟩]))
      ∧ (∀ h r, loosePath c.val dest = h :: r → crossUp h (rowOf c.val) s = false →
        t.fab = { s.fab with looseNext := s.fab.looseNext + 1 })
    o.on = true → o.cfg.loose = true → off ≠ 0 → isHole c.val s = false →
      (fenced c.val s = false → ∀ pre m post, o.posted = pre ++ m :: post → (∀ q ∈ pre, mine q = false) → mine m = true →
          (∀ q ∈ pre ++ post, q.ord ≠ m.ord) →
        ∃ t, exec (.looseDeparture c k) s = .next t
          ∧ (t.core c.val).posted = pre ++ post
          ∧ (t.core c.val).line (1984 + m.slot) = ⟨(o.line (1984 + m.slot)).data, .empty, false⟩
          ∧ (∀ l, l ≠ 1984 + m.slot → (t.core c.val).line l = o.line l)
          ∧ (isHole dest s = false → onWay m t)
          ∧ (isHole dest s = true → t.fab = s.fab
              ∧ rd R.TWR_RGN_LOOSE_DROP (regionOf c.val) t
                = min (rd R.TWR_RGN_LOOSE_DROP (regionOf c.val) s + 1) (2 ^ R.TWR_RGN_LOOSE_DROP.w - 1)))
      ∧ (fenced c.val s = true →
        ∃ t m, exec (.looseDeparture c k) s = .next t ∧ m.poison = true ∧ onWay m t ∧ t.cores = s.cores
          ∧ rd R.HALF_POISON_OUT (halfOf c.val) t
            = min (rd R.HALF_POISON_OUT (halfOf c.val) s + 1) (2 ^ R.HALF_POISON_OUT.w - 1))
      ∧ (fenced c.val s = false → (∀ m ∈ o.posted, mine m = false) → exec (.looseDeparture c k) s = .next s)

/-- 01 R12, R25: a tick closes the exposure, not before its length is over: the frame number goes up by one and the time of
the tick is the timebase from which the next exposure counts. With no tick running there is none. -/
def Obligations.TickAdvancesTheFrame : Prop :=
  ∀ (env : TickEnv) (s : State),
    (inService s = true → s.acts = [] →
      ∃ t, exec (.tick env) s = .next t ∧ t.frame = (s.frame + 1) % 2 ^ 64
        ∧ t.tickBase = max s.timebase (s.tickBase + rd R.GLB_EXP_CUR_LEN 0 s) ∧ t.timebase = t.tickBase)
    ∧ (inService s = false → s.boot.edge = false → exec (.tick env) s = .next s)

/-- Loads that land, declared cycles that end, loose messages that leave. -/
def Obligations.EngineEvents : Prop := ShaftLoadLands ∧ DeclaredCyclesEnd ∧ LooseDepartures

/-! ### The fabric and fenced cores -/

/-- Entry `e` of route set `set` is the one numbered `idx` at core c's router, and it applies in this slice (06 R190). -/
def EntryApplies (c idx set : Nat) (e : RouteEntry) (s : State) : Prop :=
  let o := s.core c
  let k := s.plate o.cfg.plate
  ∃ m, k.img = some m ∧ (entriesOf c s)[idx]? = some (set, e) ∧ o.on = true ∧ k.job.isSome = true
    ∧ o.slice % max 1 m.period = e.phase ∧ governs c set e k m s = true

/-- 03 R104, R105; 06 R190, R191, R193, R197: a route entry takes a flit from an outbound slot, which becomes EMPTY, or from a
mesh port, and drives it onto a mesh port, where the next router finds it one cycle later, onto a seam link, or into an
inbound slot. A departure from a slot that is not FULL is a SCHEDULE_MISS, an arrival at one that is not EMPTY a
MAILBOX_OVERRUN whose flit is discarded; an empty flit leaves its slot as it was. -/
def RouteEntries : Prop :=
  ∀ (c : CoreId) (idx set : Nat) (e : RouteEntry) (s : State),
    let o := s.core c.val
    let out := o.line (1984 + e.slot)
    let inb := o.line (2016 + e.slot)
    EntryApplies c.val idx set e s → deadCore c.val s = false →
      (∀ d port, e.inp = 0 → meshNext c.val e.out = some (d, port) → out.pres = .full →
        ∃ t, exec (.routeEntry c idx) s = .next t
          ∧ mgetD (wireKey d port (e.cycle + 1)) Flit.none t.fab.wires = ⟨true, out.poison, 0, 0, out.data, none⟩
          ∧ (t.core c.val).line (1984 + e.slot) = ⟨out.data, .empty, false⟩
          ∧ (∀ l, l ≠ 1984 + e.slot → (t.core c.val).line l = o.line l)
          ∧ t = { s with cores := t.cores, fab := t.fab })
      ∧ (∀ d port, e.inp = 0 → meshNext c.val e.out = some (d, port) → out.pres ≠ .full →
        ∃ t, exec (.routeEntry c idx) s = .next t
          ∧ t = { plateFault c.val 0 0 e.cycle .scheduleMiss s with fab := t.fab }
          ∧ (mgetD (wireKey d port (e.cycle + 1)) Flit.none t.fab.wires).valid = false)
      ∧ (∀ d port, 1 ≤ e.inp → e.inp ≤ 5 → meshNext c.val e.out = some (d, port) →
        ∃ t, exec (.routeEntry c idx) s = .next t ∧ t = { s with fab := t.fab }
          ∧ mgetD (wireKey d port (e.cycle + 1)) Flit.none t.fab.wires
              = mgetD (wireKey c.val e.inp e.cycle) Flit.none s.fab.wires)
      ∧ (1 ≤ e.inp → e.inp ≤ 5 → e.out = 0 →
        let f := mgetD (wireKey c.val e.inp e.cycle) Flit.none s.fab.wires
        f.valid = true →
          (inb.pres = .empty → ∃ t, exec (.routeEntry c idx) s = .next t
            ∧ (t.core c.val).line (2016 + e.slot) = ⟨f.data, .full, f.poison⟩
            ∧ (∀ l, l ≠ 2016 + e.slot → (t.core c.val).line l = o.line l)
            ∧ t = { s with cores := t.cores, fab := t.fab })
          ∧ (inb.pres ≠ .empty → ∃ t, exec (.routeEntry c idx) s = .next t
            ∧ t = { plateFault c.val 0 0 e.cycle .mailboxOverrun s with fab := t.fab }))
      ∧ (1 ≤ e.inp → e.inp ≤ 5 → e.out = 0 →
        (mgetD (wireKey c.val e.inp e.cycle) Flit.none s.fab.wires).valid = false →
          ∃ t, exec (.routeEntry c idx) s = .next t ∧ t = { s with fab := t.fab })
      ∧ (e.inp = 0 → e.out = 5 → colOf c.val = 0 → out.pres = .full →
          seamUp (towerOf c.val) (rowOf c.val) (halfOf c.val % 2) s = true →
        let k := seamKey (towerOf c.val) (rowOf c.val) (halfOf c.val % 2)
        ∃ t, exec (.routeEntry c idx) s = .next t
          ∧ mgetD k [] t.fab.seams = mgetD k [] s.fab.seams ++ [⟨true, out.poison, e.slot, e.dcol, out.data, none⟩]
          ∧ (t.core c.val).line (1984 + e.slot) = ⟨out.data, .empty, false⟩ ∧ t.mem = s.mem)

/-- 06 R214, R215: the router of a fenced core or of a hole sends poison at its departures and absorbs its arrivals; both are
counted, and the core stays as it was. -/
def DeadCoreRoutes : Prop :=
  ∀ (c : CoreId) (idx set d port : Nat) (e : RouteEntry) (s : State),
    let h := halfOf c.val
    EntryApplies c.val idx set e s → deadCore c.val s = true →
      (e.inp = 0 → meshNext c.val e.out = some (d, port) →
        ∃ t, exec (.routeEntry c idx) s = .next t ∧ t = { bump R.HALF_POISON_OUT h 1 s with fab := t.fab }
          ∧ mgetD (wireKey d port (e.cycle + 1)) Flit.none t.fab.wires = Flit.bad)
      ∧ (1 ≤ e.inp → e.inp ≤ 5 → e.out = 0 → (mgetD (wireKey c.val e.inp e.cycle) Flit.none s.fab.wires).valid = true →
        ∃ t, exec (.routeEntry c idx) s = .next t ∧ t = { bump R.HALF_FENCE_DROP h 1 s with fab := t.fab })

/-- 06 R195, R198, R200, R206, R213: the oldest flit of a seam link or of a bridge's landing queue is written into the shadow
slot it names, or, of a loose message, into the loose shelf; a seam flit with a parity error lands as poison and is counted,
and a bridge flit returns its credit and its place. -/
def LaggedFlitsLand : Prop :=
  ∀ (s : State),
    (∀ (tw : TowerId) (row : Fin 32) (d : Fin 2) (f : Flit) (rest : List Flit),
      let k := seamKey tw.val row.val d.val
      let dst := coreAt (tw.val * 2 + (1 - d.val)) row.val f.dcol
      mgetD k [] s.fab.seams = f :: rest →
        (f.loose = none → f.valid = true → deadCore dst s = false →
          (∃ t, exec (.laggedFlitLand (.seam tw row d) false) s = .next t
            ∧ mgetD k [] t.fab.seams = rest ∧ mgetD f.dslot Slot.empty (t.core dst).shadow = ⟨f.data, .full, f.poison⟩
            ∧ (t.core dst).tray = (s.core dst).tray ∧ t = { s with cores := t.cores, fab := t.fab })
          ∧ (∃ t, exec (.laggedFlitLand (.seam tw row d) true) s = .next t
            ∧ mgetD k [] t.fab.seams = rest ∧ (mgetD f.dslot Slot.empty (t.core dst).shadow).poison = true
            ∧ (t.core dst).tray = (s.core dst).tray
            ∧ rd R.SEAM_PARITY tw.val t = min (rd R.SEAM_PARITY tw.val s + 1) (2 ^ R.SEAM_PARITY.w - 1)))
        ∧ (∀ id, f.loose = some id →
          ∃ t, exec (.laggedFlitLand (.seam tw row d) false) s = .next t ∧ t = { s with fab := t.fab }
            ∧ mgetD k [] t.fab.seams = rest
            ∧ t.fab.loose = s.fab.loose.map (fun x =>
                if x.2.id = id then (x.1, { x.2 with fly := false, poison := f.poison, data := f.data }) else x)))
    ∧ (∀ (b : Fin 6) (d : Fin 2) (parity : Bool) (f : BrgFlit) (rest : List BrgFlit),
      let q := s.brg b.val d.val
      let dst := brgDest b.val d.val f
      q.landq = f :: rest → f.flit.loose = none → f.flit.valid = true → deadCore dst s = false → q.sendq.length ≤ 1024 →
        ∃ t, exec (.laggedFlitLand (.bridge b d) parity) s = .next t
          ∧ t.brg b.val d.val = { q with landq := rest, sendq := q.sendq.eraseP (fun g => decide (g.seq = f.seq)) }
          ∧ mgetD f.flit.dslot Slot.empty (t.core dst).shadow = ⟨f.flit.data, .full, f.flit.poison⟩
          ∧ rd (R.BRG_BUF_OCC d.val) b.val t = (rd (R.BRG_BUF_OCC d.val) b.val s - 1) % 2 ^ (R.BRG_BUF_OCC d.val).w
          ∧ rd (R.BRG_CRD_OUT d.val) b.val t = (rd (R.BRG_CRD_OUT d.val) b.val s - 1) % 2 ^ (R.BRG_CRD_OUT d.val).w)

/-- 06 R206: a bridge flit that arrives in sequence with a good CRC joins the landing queue and takes a place of the buffer, which
holds 4 flits of each tap; any other is discarded and counted, to be sent again. A good flit for which there is no place stays where
it was (the model's choice: log entry 138). -/
def BridgeArrivals : Prop :=
  ∀ (b : Fin 6) (d : Fin 2) (seq : Fin 2048) (good : Bool) (f : BrgFlit) (s : State),
    let q := s.brg b.val d.val
    let room : Prop := q.landq.length < 64 ∧ (q.landq.filter (fun g => decide (g.tap = f.tap))).length < 4
    (q.sendq.take 1024).find? (fun g => decide (g.seq = seq.val)) = some f → q.landq.any (fun g => decide (g.seq = seq.val)) = false →
      (good = true → seq.val = q.expect → room →
        ∃ t, exec (.bridgeFlitArrival b d seq good) s = .next t
          ∧ t.brg b.val d.val = { q with landq := q.landq ++ [f], expect := (seq.val + 1) % 2048 }
          ∧ t.cores = s.cores ∧ rd (R.BRG_BUF_FREE d.val) b.val t = (rd (R.BRG_BUF_FREE d.val) b.val s - 1) % 2 ^ (R.BRG_BUF_FREE d.val).w
          ∧ rd (R.BRG_BUF_OCC d.val) b.val t
            = min (rd (R.BRG_BUF_OCC d.val) b.val s + 1) (2 ^ (R.BRG_BUF_OCC d.val).w - 1))
      ∧ (good = true → seq.val = q.expect → ¬room → exec (.bridgeFlitArrival b d seq good) s = .next s)
      ∧ (good = false ∨ seq.val ≠ q.expect →
        ∃ t, exec (.bridgeFlitArrival b d seq good) s = .next t ∧ t.fab = s.fab ∧ t.cores = s.cores
          ∧ rd (R.BRG_REPLAY d.val) b.val t = min (rd (R.BRG_REPLAY d.val) b.val s + 1) (2 ^ (R.BRG_REPLAY d.val).w - 1))

/-- The action `a` waits for the next tick, or, in the fix window, for the tick after (00 R7). -/
def Queued (a : TickAct) (s t : State) : Prop :=
  if inFix s then t.late = s.late ++ [a] ∧ t.acts = s.acts else t.acts = s.acts ++ [a] ∧ t.late = s.late

/-- 06 R216; 19 R511, R512: a core that fails its checks is fenced at once: its FENCED bit is set, its operations are
abandoned and its fence is made at the next tick; a fenced core changes nothing more. A router that is lost takes its half
out of service at the next tick. -/
def Obligations.FailedCoresAndRouters : Prop :=
  ∀ (s : State), inService s = true →
    (∀ c : CoreId, fenced c.val s = false →
      ∃ t, exec (.coreCheckFail c) s = .next t ∧ fenced c.val t = true
        ∧ (∀ d : CoreId, d ≠ c → fenced d.val t = fenced d.val s ∧ t.core d.val = s.core d.val)
        ∧ t.core c.val = { s.core c.val with stopped := true, flights := [], shq := [] }
        ∧ mget c.val t.fences = some 1 ∧ TickAct.fence c.val 0 ∈ t.acts ++ t.late ∧ t.mem = s.mem)
    ∧ (∀ c : CoreId, fenced c.val s = true → exec (.coreCheckFail c) s = .next s)
    ∧ (∀ (h : HalfId) (row : Fin 32) (col : Fin 16), flag R.HALF_FABRIC_LOST h.val s = false →
      ∃ t, exec (.routerLost h row col) s = .next t ∧ TickAct.halfLost h.val row.val col.val ∈ t.acts ++ t.late
        ∧ t.cores = s.cores ∧ t.fab = s.fab ∧ t.mem = s.mem)

/-- Route entries, and those of dead cores. -/
def Obligations.Routing : Prop := RouteEntries ∧ DeadCoreRoutes

/-- Flits that land over the mesh and over the bridges. -/
def Obligations.FabricArrivals : Prop := LaggedFlitsLand ∧ BridgeArrivals

/-! ### The shafts: host slots, refresh, correction, scrubbing, checkers, the row bus -/

/-- The device has sent `k`: it left, or waits for credits behind those before it (15 R434). -/
def Sent (k : AbaPkt) (t : State) : Prop := k ∈ t.aba.txq ++ t.aba.out.map (fun x => x.pkt)

/-- Every unit that [a, a + n) meets is stored clean, and none of its reads fails (07 R231). -/
def CleanRange (p a n : Nat) (s : State) : Prop :=
  (s.shaft p).untrusted = false ∧ ∀ u ∈ unitsOf a n, storedPoison p u s = false ∧ unwrittenBad p u s = false

/-- Every unit that [a, a + n) meets was clean when the tick that opened the exposure fixed it (01 R30; 07 R231): a host write of
this exposure keeps what it replaces. -/
def CleanFixed (p a n : Nat) (s : State) : Prop :=
  (s.shaft p).untrusted = false ∧ ∀ u ∈ unitsOf a n,
    match mget u (s.shaft p).undo with
    | none => storedPoison p u s = false ∧ unwrittenBad p u s = false
    | some (_, bad) => bad = false

/-- 01 R29, R30, R32; 07 R228, R229; 15 R436: in a host slot that no plate uses, the access at the head of the queue is served if
it fits the slot: a read answers the bytes as the tick that opened the exposure fixed them, a write of whole units stores its bytes
and nothing else, and leaves what the tick fixed to be read; each ends with one completion and leaves the queue. One for a hole, or
over a lost shaft, moves no data. Out of its slot nothing is served. -/
def Obligations.HostSlots : Prop :=
  ∀ (p : PosId) (q : HReq) (s : State),
    let k := s.shaft p.val
    inService s = true → s.aba.held = [] → k.hostq = [q] → q.src = .host → q.last = true →
      (inSlot s = true → k.lent = false → hostStop p.val q s = none → k.slotNs + hostTime q ≤ 50400 → k.slotGran < 2 →
        (q.write = false → kvView q.core q.addr false s = .stored → CleanFixed p.val q.addr q.len s →
          ∃ t, exec (.hostSlot p []) s = .next t ∧ (t.shaft p.val).hostq = []
            ∧ Sent (.memCpl q.tag 0 (s.frame % 2 ^ 32) ((upFrom q.addr q.len).map (fun a => fixedByte p.val a s))) t
            ∧ t.mem = s.mem ∧ t.cores = s.cores ∧ t.marks = s.marks)
        ∧ (q.write = true → hostWaits p.val q s = false → partials q.addr q.len = [] → q.data.length = q.len →
            q.addr + q.len ≤ 2 ^ 29 → (q.addr + q.len ≤ 0x8000000 ∨ 0x8000000 ≤ q.addr) →
          ∃ t, exec (.hostSlot p []) s = .next t ∧ (t.shaft p.val).hostq = []
            ∧ Sent (.memCpl q.tag 0 (s.frame % 2 ^ 32) []) t
            ∧ (∀ i b, q.data[i]? = some b → readByte p.val (q.addr + i) t = b)
            ∧ (∀ p' a, a < 2 ^ 29 → ¬(p' = p.val ∧ q.addr ≤ a ∧ a < q.addr + q.len) → readByte p' a t = readByte p' a s)
            ∧ (∀ u ∈ unitsOf q.addr q.len, storedPoison p.val u t = false)
            ∧ (∀ a, a < 2 ^ 29 → fixedByte p.val a t = fixedByte p.val a s)))
      ∧ (∀ st, inSlot s = true → k.lent = false → hostStop p.val q s = some st →
          ∃ t, exec (.hostSlot p []) s = .next t ∧ (t.shaft p.val).hostq = []
            ∧ Sent (.memCpl q.tag st (s.frame % 2 ^ 32) []) t ∧ t.mem = s.mem ∧ t.cores = s.cores)
      ∧ (inSlot s = false ∨ k.lent = true → exec (.hostSlot p []) s = .next s)

/-- 01 R37; 07 R241: from 200 ns to 400 ns REFRESH refreshes the next 128 rows of every bank of the first layer in rotation, and in
a hot tower of the second one, once in an exposure. -/
def RefreshRotates : Prop :=
  ∀ s : State, inService s = true →
    (inRefresh s = true → s.refAt ≠ some s.frame → rd R.GLB_REFRESH_FIRST 0 s < 4 → rd R.GLB_REFRESH_SECOND 0 s < 4 →
      ∃ t, exec .refresh s = .next t ∧ t = { s with refRows := t.refRows, refAt := some s.frame }
        ∧ (∀ tw layer, tw < 4 → layer < 4 → mgetD (tw * 4 + layer) 0 t.refRows
            = if layer = rd R.GLB_REFRESH_FIRST 0 s
                  ∨ (layer = rd R.GLB_REFRESH_SECOND 0 s ∧ (rd R.GLB_REFRESH_HOT 0 s).testBit tw = true)
              then (mgetD (tw * 4 + layer) 0 s.refRows + 128) % 2048 else mgetD (tw * 4 + layer) 0 s.refRows)
        ∧ exec .refresh t = .next t)
    ∧ (inRefresh s = false → exec .refresh s = .next s)

/-- The granule that layer l's scrubbing takes next (07 R239). -/
def ScrubHead (p l : Nat) (s : State) : Option Nat := scrubNext (s.shaft p).touch l (mgetD l 0 (s.shaft p).scrubs)

/-- 07 R231, R234, R239: the scrubber reads the line of stack SRAM that its position names, in an idle cycle, and one granule in
every DRAM layer whose port is idle, and goes on; what it reads stays as it is stored, and a word that it finds correctable is
counted and waits to be written back. A write-back of a corrected unit, in an idle cycle, changes no data. -/
def ScrubberAndWriteBack : Prop :=
  ∀ (p : PosId) (s : State),
    let k := s.shaft p.val
    let l := rd R.SHF_SCRUB_POS_LINE p.val s
    let a := 0x10000000 + 128 * l
    inService s = true →
      (flag R.SHF_SCRUB_CTRL_EN p.val s = true → sramIdle p.val s = true →
          scrubDue k.scrubS (2 ^ rd R.SHF_SCRUB_CTRL_SRATE p.val s) 1260 s = true → l < 12287 → CleanRange p.val a 128 s →
        (∃ t, exec (.scrubRead p true none) s = .next t ∧ rd R.SHF_SCRUB_POS_LINE p.val t = l + 1
          ∧ (t.shaft p.val).scrubS = some s.timebase ∧ (t.shaft p.val).backs = k.backs ∧ t.mem = s.mem ∧ t.marks = s.marks)
        ∧ ∀ (e : GErr) (i : Nat), i < 16 → e.addr = a + 8 * i → e.corr = true →
          ∃ t, exec (.scrubRead p true (some e)) s = .next t ∧ rd R.SHF_SCRUB_POS_LINE p.val t = l + 1
            ∧ rd R.SHF_SRAM_CORR p.val t = min (rd R.SHF_SRAM_CORR p.val s + 1) (2 ^ R.SHF_SRAM_CORR.w - 1)
            ∧ e.addr ∈ (t.shaft p.val).backs ∧ t.mem = s.mem ∧ t.marks = s.marks)
      ∧ (flag R.SHF_SCRUB_CTRL_EN p.val s = true → k.touch ≠ 0 →
          scrubDue k.scrubD (2 ^ rd R.SHF_SCRUB_CTRL_DRATE p.val s) 1050 s = true → k.untrusted = false →
          (∀ i g, i < 4 → ScrubHead p.val i s = some g →
            storedPoison p.val (g * 32) s = false ∧ unwrittenBad p.val (g * 32) s = false) →
          (∃ i g, i < 4 ∧ ScrubHead p.val i s = some g
            ∧ (portIdle p.val i s = false ∨ scrubNext k.touch i (g + 1) ≠ none)) →
        ∃ t, exec (.scrubRead p false none) s = .next t ∧ t.mem = s.mem ∧ t.marks = s.marks
          ∧ (t.shaft p.val).scrubD = some s.timebase
          ∧ ∀ i, i < 4 → mgetD i 0 (t.shaft p.val).scrubs = match ScrubHead p.val i s with
            | some g => if portIdle p.val i s then g + 1 else mgetD i 0 k.scrubs
            | none => mgetD i 0 k.scrubs)
      ∧ (flag R.SHF_SCRUB_CTRL_EN p.val s = false → ∀ sram e, exec (.scrubRead p sram e) s = .next s)
      ∧ (∀ b rest, k.backs = b :: rest →
        ((if isDram b then portIdle p.val (layerOf b) s else sramIdle p.val s) = true →
          ∃ t, exec (.correctedWriteBack p) s = .next t ∧ (t.shaft p.val).backs = rest ∧ t.mem = s.mem ∧ t.marks = s.marks
            ∧ (isDram b = true → (t.shaft p.val).touch.testBit (b / 65536) = true))
        ∧ ((if isDram b then portIdle p.val (layerOf b) s else sramIdle p.val s) = false →
          exec (.correctedWriteBack p) s = .next s))

/-- 07 R237: SHF_TEST.RUN starts a run of 10,000 vectors with DONE clear; its first batch takes 1,024 in the first dark frame after,
one batch in each, and none in a lit one; a run that ends without a wrong outcome passes both halves. -/
def CheckerTests : Prop :=
  ∀ (p : PosId) (s : State),
    (flag (H.EN .shf) p.val s = true →
      ∃ t, exec (.checkerTestRun p) s = .next t ∧ (t.shaft p.val).check = some ⟨some s.frame, 10000, 0, 0⟩
        ∧ rd R.SHF_TEST_DONE p.val t = 0 ∧ t.mem = s.mem ∧ t.cores = s.cores)
    ∧ (inService s = true → ∀ (k : ChkRun), (s.shaft p.val).check = some k →
        (flag R.GLB_EXP_DARK 0 s = false ∨ k.last = some s.frame → ∀ a b, exec (.checkerBatch p a b) s = .next s)
        ∧ (flag R.GLB_EXP_DARK 0 s = true → k.last ≠ some s.frame →
          (1024 < k.left → exec (.checkerBatch p 0 0) s = .next
            (s.setShaft p.val { s.shaft p.val with check := some ⟨some s.frame, k.left - 1024, k.dram, k.sram⟩ }))
          ∧ (k.left ≤ 1024 → k.dram = 0 → k.sram = 0 → ∃ t, exec (.checkerBatch p 0 0) s = .next t
            ∧ (t.shaft p.val).check = none ∧ rd R.SHF_TEST_DONE p.val t = 1 ∧ rd R.SHF_TEST_DRAM_PASS p.val t = 1
            ∧ rd R.SHF_TEST_SRAM_PASS p.val t = 1 ∧ rd R.SHF_TEST_FAILED p.val t = 0 ∧ t.mem = s.mem)
          ∧ (∀ n, 0 < n → n ≤ min 1024 k.left → k.dram = 0 → k.sram = 0 →
            ∃ t, exec (.checkerBatch p n 0) s = .next t ∧ (t.shaft p.val).untrustedNext = true)))

/-- 02 R77: a transfer of the row bus copies the next 4 KiB granule of a tower's evacuation, byte for byte, and nothing else;
it waits while a chunk runs at either end, and while the port at either end is not free. -/
def RowBusCopies : Prop :=
  ∀ (tw : TowerId) (e : Evac) (s : State),
    let p := posOf (coreAt (tw.val * 2 + e.half) e.row e.src)
    let q := posOf (coreAt (tw.val * 2 + e.half) e.row e.dst)
    let src := e.saddr + 4096 * e.done
    let dst := e.daddr + 4096 * e.done
    inService s = true → mget tw.val s.evacs = some e → e.done < e.len →
      ((s.shaft p).runs = [] → (s.shaft q).runs = [] → portIdle p (layerOf src) s = true → portIdle q (layerOf dst) s = true → p ≠ q → s.snap.on = false → dst % 32 = 0 →
          src + 4096 ≤ 0x8000000 → dst + 4096 ≤ 0x8000000 →
        ∃ t, exec (.rowBusTransfer tw) s = .next t
          ∧ rd R.TWR_EVAC_DONE tw.val t = (e.done + 1) % 2 ^ R.TWR_EVAC_DONE.w
          ∧ mget tw.val t.evacs = some { e with done := e.done + 1 }
          ∧ (∀ i, i < 4096 → readByte q (dst + i) t = readByte p (src + i) s)
          ∧ (∀ r a, a < 2 ^ 29 → ¬(r = q ∧ dst ≤ a ∧ a < dst + 4096) → readByte r a t = readByte r a s)
          ∧ (∀ i, i < 128 → storedPoison q (dst + 32 * i) t
              = (storedPoison p (src + 32 * i) s || unwrittenBad p (src + 32 * i) s)))
      ∧ ((s.shaft p).runs ≠ [] ∨ (s.shaft q).runs ≠ [] ∨ portIdle p (layerOf src) s = false ∨ portIdle q (layerOf dst) s = false →
          exec (.rowBusTransfer tw) s = .next s)

/-- Refresh, scrubbing, write-back, checker tests, and the row bus. -/
def Obligations.MemoryUpkeep : Prop := RefreshRotates ∧ ScrubberAndWriteBack ∧ CheckerTests ∧ RowBusCopies

/-! ### Near-memory operations and chunks -/

/-- The command that a row's operands spell (08 R251). -/
def nmCmdOf (op : NmOp) (a : NmArgs) : NmCmd :=
  ⟨op, a.fmt.toNat, a.fmt2.toNat, a.rnd.toNat, a.w1.toNat, a.dst.toNat, a.srca.toNat, a.srcb.toNat, a.srcc.toNat,
    a.count.toNat, a.imm0.toNat, a.imm1.toNat⟩

/-- Item e of an operand as memory holds it: in word layout its bits follow one another, in bit-plane layout bit j of the 256
items of a group lies in granule j of the group (08 R249, R250). -/
def itemAt (p : Nat) (o : Opd) (e : Nat) (s : State) : Nat :=
  ((upFrom 0 o.bits).map (fun j =>
    let k := if o.plane then (e / 256 * o.bits + j) * 256 + e % 256 else e * o.bits + j
    if (readByte p (o.addr + k / 8) s).getLsbD (k % 8) then 2 ^ j else 0)).sum

/-- The command is not malformed, every page it touches has the layout it takes, its sources are clean and no snapshot runs
(08 R248, R254, R262, R266; 13 R390). -/
def NmReady (p : Nat) (k : NmCmd) (s : State) : Prop :=
  nmBad k = false ∧ layoutsOk p 0 k.count k s = true ∧ s.snap.on = false
    ∧ ∀ o ∈ srcOpds k, CleanRange p (o.range 0 k.count).1 (o.range 0 k.count).2 s

/-- A command of core c's position p is complete within its bound: it is counted there, with the tick that reports it, and in the
core where its plate issued it (08 R262, R263, R269). -/
def NmReported (p c : Nat) (s t : State) : Prop :=
  rd R.SHF_NM_DONE p t = min (rd R.SHF_NM_DONE p s + 1) (2 ^ R.SHF_NM_DONE.w - 1)
    ∧ rd R.SHF_NM_LAST p t = (s.frame + 1) % 2 ^ R.SHF_NM_LAST.w ∧ rd R.SHF_NM_LATE p t = rd R.SHF_NM_LATE p s
    ∧ (∀ d, d ≠ c → t.core d = s.core d)
    ∧ t.core c = { s.core c with nmIssued := (s.core c).nmIssued + 1,
                                 nmDone := (s.core c).nmDone + (if (s.core c).cfg.since ≤ s.frame then 1 else 0) }

/-- The command's destination holds the values `val`, stored clean, and every other byte of memory is as it was. -/
def NmWrote (p : Nat) (k : NmCmd) (val : Nat → Nat) (s t : State) : Prop :=
  let d := dstOpd k
  (∀ e, e < k.count / d.per → itemAt p d e t = val e % 2 ^ d.bits)
    ∧ (∀ q x, x < 2 ^ 29 → ¬(q = p ∧ k.dst ≤ x ∧ x < k.dst + (d.range 0 k.count).2) → readByte q x t = readByte q x s)
    ∧ (∀ u ∈ unitsOf k.dst (d.range 0 k.count).2, storedPoison p u t = false)

/-- 08 R248 to R257: the near-memory operations, each over all its elements. -/
def NearMemoryOperations : Prop :=
  ∀ (p : PosId) (c : Nat) (a : NmArgs) (s : State),
    let f := nmFmt a.fmt.toNat
    let md : Rmode := if a.rnd.toNat = 2 then .rtz else .rne
    let fp (v : Val) : Nat := (narrow f md v).bits
    let int (i : Int) : Nat := if f = .int8 then (max (-128) (min 127 i) % 256).toNat else (i % 2 ^ 32).toNat
    let sg (x : Nat) : Int := signed f.bits x
    let w := a.w1.toNat + 1
    let i0 := a.imm0.toNat
    let i1 := a.imm1.toNat
    coreOfPos p.val = some c → a.errs = [] →
      let res (i : Instr) (op : NmOp) (val : Nat → Nat → Nat → Nat → Nat) : Prop :=
        let k := nmCmdOf op a
        let src (j e : Nat) : Nat := match (srcOpds k)[j]? with
          | some o => itemAt p.val o e s
          | none => 0
        NmReady p.val k s → ∃ t, exec i s = .next t
          ∧ NmWrote p.val k (fun e => val e (src 0 e) (src 1 e) (src 2 e)) s t ∧ NmReported p.val c s t
      res (.nmAdd p a) .add (fun _ x y _ => if f.isInt then int (sg x + sg y) else fp (Val.add (f.decode x) (f.decode y)))
        ∧ res (.nmMul p a) .mul (fun _ x y _ => if f.isInt then int (sg x * sg y) else fp (Val.mul (f.decode x) (f.decode y)))
        ∧ res (.fma p a) .fma (fun _ x y z => if f.isInt then int (sg x * sg y + sg z)
            else fp (Val.add (Val.mul (f.decode x) (f.decode y)) (f.decode z)))
        ∧ res (.axpby p a) .axpby (fun _ x y _ =>
            fp (Val.add (Val.mul (Fmt.decode .fp32 i0) (f.decode x)) (Val.mul (Fmt.decode .fp32 i1) (f.decode y))))
        ∧ res (.scale p a) .scale (fun _ x _ _ => if f.isInt then int (signed 32 i0 * sg x)
            else fp (Val.mul (Fmt.decode .fp32 i0) (f.decode x)))
        ∧ res (.nmMax p a) .max (fun _ x y _ => if f.isInt then int (max (sg x) (sg y)) else fp (fmaxV (f.decode x) (f.decode y)))
        ∧ res (.nmMin p a) .min (fun _ x y _ => if f.isInt then int (min (sg x) (sg y)) else fp (fminV (f.decode x) (f.decode y)))
        ∧ res (.cmplt p a) .cmplt (fun _ x y _ =>
            if (if f.isInt then decide (sg x < sg y) else Val.lt (f.decode x) (f.decode y)) then 1 else 0)
        ∧ res (.cmpeq p a) .cmpeq (fun _ x y _ =>
            if (if f.isInt then decide (sg x = sg y) else Val.eq (f.decode x) (f.decode y)) then 1 else 0)
        ∧ res (.nmXor p a) .xor (fun _ x y _ => x ^^^ y)
        ∧ res (.nmFill p a) .fill (fun _ _ _ _ => i0)
        ∧ res (.nmCopy p a) .copy (fun _ x _ _ => x)
        ∧ res (.relu p a) .relu (fun _ x _ _ => fp (fmaxV (f.decode x) (.fin false 0 0)))
        ∧ res (.gelu p a) .gelu (fun _ x _ _ => (narrow f .rne (nmAct true (f.decode x))).bits)
        ∧ res (.silu p a) .silu (fun _ x _ _ => (narrow f .rne (nmAct false (f.decode x))).bits)
        ∧ res (.nmCvt p a) .cvt (fun e x _ _ =>
            let m : Rmode := if (s.core c).isGradient a.ctx.val || decide (a.rnd.toNat = 1) then
                .stoch (drawOf (s.core c).cfg.seed (2 ^ 63 + (s.core c).slice * 2 ^ 8 + a.q.val) c 0 0 0 e)
              else md
            (narrow (nmFmt a.fmt2.toNat) m (f.decode x)).bits)
        ∧ res (.plane p a) .plane (fun _ x _ _ => x)
        ∧ res (.unplane p a) .unplane (fun _ x _ _ => if i0.testBit 0 then (signed w x % 2 ^ 32).toNat else x)
        ∧ res (.padd p a) .padd (fun _ x y _ => x + y)
        ∧ res (.psub p a) .psub (fun _ x y _ => x + 2 ^ w - y)
        ∧ res (.pcmplt p a) .pcmplt (fun _ x y _ =>
            if (if i0.testBit 0 then decide (signed w x < signed w y) else decide (x < y)) then 1 else 0)
        ∧ res (.pcmplti p a) .pcmplti (fun _ x _ _ =>
            if (if i0.testBit 0 then decide (signed w x < signed 32 i1) else decide (x < i1)) then 1 else 0)
        ∧ res (.pand p a) .pand (fun _ x y _ => x &&& y)
        ∧ res (.por p a) .por (fun _ x y _ => x ||| y)
        ∧ res (.pxor p a) .pxor (fun _ x y _ => x ^^^ y)
        ∧ (let k := nmCmdOf .pcount a
           NmReady p.val k s → ∃ t, exec (.pcount p a) s = .next t
            ∧ NmWrote p.val k (fun g => ((upFrom (256 * g) 256).map (fun e => itemAt p.val (srcOpd k k.srca) e s)).sum) s t
            ∧ NmReported p.val c s t)

/-- 08 R248, R252: SETLAYOUT sets the layout bits of `count` pages from its own and no other; memory stays as it was. -/
def SetlayoutWritesLayoutBits : Prop :=
  ∀ (p : PosId) (c : Nat) (a : NmArgs) (s : State),
    let k := nmCmdOf .setlayout a
    let first := a.dst.toNat / 65536
    coreOfPos p.val = some c → nmBad k = false →
      ∃ t, exec (.setlayout p a) s = .next t ∧ t = { s with regs := t.regs, shafts := t.shafts, cores := t.cores }
        ∧ NmReported p.val c s t
        ∧ ∀ pg, pg < 2048 → layoutOf p.val pg t
          = if first ≤ pg ∧ pg < first + a.count.toNat then a.imm0.getLsbD 0 else layoutOf p.val pg s

/-- 08 R254, R258, R262: a malformed command is a plate fault with NM_COMMAND; one whose first pages have the wrong layout is
aborted before it reads or writes anything, which is counted, and completes so. -/
def NearMemoryStops : Prop :=
  ∀ (p : PosId) (c : Nat) (a : NmArgs) (s : State), coreOfPos p.val = some c →
    ∀ (op : NmOp) (i : Instr), (op, i) ∈ [(.add, .nmAdd p a), (.mul, .nmMul p a), (.fma, .fma p a), (.axpby, .axpby p a),
        (.scale, .scale p a), (.max, .nmMax p a), (.min, .nmMin p a), (.cmplt, .cmplt p a), (.cmpeq, .cmpeq p a),
        (.xor, .nmXor p a), (.fill, .nmFill p a), (.copy, .nmCopy p a), (.relu, .relu p a), (.gelu, .gelu p a),
        (.silu, .silu p a), (.cvt, .nmCvt p a), (.plane, .plane p a), (.unplane, .unplane p a), (.padd, .padd p a),
        (.psub, .psub p a), (.pcmplt, .pcmplt p a), (.pcmplti, .pcmplti p a), (.pand, .pand p a), (.por, .por p a),
        (.pxor, .pxor p a), (.pcount, .pcount p a)] →
      let k := nmCmdOf op a
      (nmBad k = true → exec i s = .next (plateFault c a.ctx.val a.bundle.val a.cyc.toNat .nmCommand s))
      ∧ (nmBad k = false → layoutsOk p.val 0 (chunkLen k 0) k s = false →
        ∃ t, exec i s = .next t ∧ t.mem = s.mem ∧ t.marks = s.marks ∧ NmReported p.val c s t
          ∧ rd R.SHF_NM_ABORT p.val t = min (rd R.SHF_NM_ABORT p.val s + 1) (2 ^ R.SHF_NM_ABORT.w - 1))

/-- 08 R259, R260, R262, R263, R267: a unit starts the next chunk of its oldest entry once the rules let it, with its ports held; a
chunk that ends has moved its command on and freed them; a command whose chunks are over completes, with its reported
tick shown, and leaves the queue. -/
def NearMemoryChunks : Prop :=
  ∀ (p : PosId) (u : UnitId) (s : State),
    let sh := s.shaft p.val
    inService s = true →
      (∀ age k b d x time, nextWork p.val u.val s = some (.cmd age k b d x) →
          mayStart p.val u.val time (.cmd age k b d x) s = true → layoutsOk p.val d (chunkLen k d) k s = true →
        exec (.nmChunkStart p u time) s = .next (s.setShaft p.val { sh with
          runs := mput u.val ⟨age, portLayers (fun l => chunkGranules k d (chunkLen k d) l), d, chunkLen k d, b.core.isNone⟩ sh.runs,
          remoteUsed := sh.remoteUsed + (if b.core.isNone then portTime p.val (fun l => chunkGranules k d (chunkLen k d) l) s else 0) }))
      ∧ (∀ time, (nextWork p.val u.val s = none ∨ ∃ w, nextWork p.val u.val s = some w ∧ mayStart p.val u.val time w s = false) →
        exec (.nmChunkStart p u time) s = .next s)
      ∧ (∀ errs run age k b d x, mget u.val sh.runs = some run → sh.running u.val run = some (.cmd age k b d x) →
        ∃ t, exec (.nmChunkEnd p u errs) s = .next t ∧ mget u.val (t.shaft p.val).runs = none
          ∧ t.mem = (runElems p.val run.first run.n k b errs s).mem
          ∧ t.marks = (runElems p.val run.first run.n k b errs s).marks
          ∧ (∀ w, w ∈ (t.shaft p.val).queue u.val ↔ ∃ v ∈ sh.queue u.val,
              w = if v.age = age then .cmd age k b (d + run.n) x else v)
          ∧ rd R.SHF_NM_CHUNKS p.val t = min (rd R.SHF_NM_CHUNKS p.val s + 1) (2 ^ R.SHF_NM_CHUNKS.w - 1))
      ∧ (∀ age k b d x, ripe p.val u.val s = some (.cmd age k b d x) →
        ∃ t, exec (.nmCommandComplete p u) s = .next t ∧ t.mem = s.mem
          ∧ (∀ w, w ∈ (t.shaft p.val).queue u.val ↔ w ∈ sh.queue u.val ∧ w.age ≠ age)
          ∧ rd R.SHF_NM_LAST p.val t = (s.frame + 1) % 2 ^ R.SHF_NM_LAST.w
          ∧ rd R.SHF_NM_DONE p.val t = min (rd R.SHF_NM_DONE p.val s + 1) (2 ^ R.SHF_NM_DONE.w - 1)
          ∧ rd R.SHF_NM_LATE p.val t = (if b.core.isSome = true ∧ b.frame + b.k < s.frame + 1 then
              min (rd R.SHF_NM_LATE p.val s + 1) (2 ^ R.SHF_NM_LATE.w - 1) else rd R.SHF_NM_LATE p.val s))

/-- 08 R267: an arriving granule joins the queue of the unit of its bank column; a remote chunk of one granule stores it whole,
adds its eight FP32 values to the target's, or XORs it into the target, poison with poison. -/
def RemoteChunks : Prop :=
  ∀ (p : PosId) (u : UnitId) (s : State),
    let sh := s.shaft p.val
    inService s = true →
      (∀ g : RemoteGran, sh.inbox < 2048 → sh.queue (bankCol (g.addr.toNat / 32 * 32)) = [] →
        ∃ t, exec (.remoteGranuleArrival p g) s = .next t ∧ (t.shaft p.val).inbox = sh.inbox + 1 ∧ t.mem = s.mem
          ∧ (t.shaft p.val).queue (bankCol (g.addr.toNat / 32 * 32))
            = [.remote sh.age g.kind [⟨g.addr.toNat / 32 * 32, g.data, g.poison, none⟩]])
      ∧ (∀ run age kind (g : RGran), mget u.val sh.runs = some run → sh.running u.val run = some (.remote age kind [g]) →
          s.snap.on = false → g.addr % 32 = 0 → g.addr + 32 ≤ 0x8000000 →
          let old : BitVec 256 := BitVec.ofNat 256 (leNat (readBytes p.val g.addr 32 s))
          let sum (i : Nat) : Nat := (narrow .fp32 .rne
            (Val.add (Fmt.decode .fp32 (elemAt 32 i old.toNat)) (Fmt.decode .fp32 (elemAt 32 i g.data.toNat)))).bits
          let ended (i : Instr) (poison : Bool) (ok : BitVec 256 → Prop) : Prop := ∃ t, exec i s = .next t
            ∧ ok (BitVec.ofNat 256 (leNat (readBytes p.val g.addr 32 t))) ∧ storedPoison p.val g.addr t = poison
            ∧ (∀ q x, x < 2 ^ 29 → ¬(q = p.val ∧ g.addr ≤ x ∧ x < g.addr + 32) → readByte q x t = readByte q x s)
            ∧ mget u.val (t.shaft p.val).runs = none ∧ (t.shaft p.val).inbox = sh.inbox - 1 ∧ t.cores = s.cores
          (kind = .write → ended (.nmWrite p u []) g.poison (fun v => v = g.data))
          ∧ (kind = .racc → CleanRange p.val g.addr 32 s →
            ended (.racc p u []) g.poison (fun v => ∀ i, i < 8 → elemAt 32 i v.toNat = sum i % 2 ^ 32))
          ∧ (kind = .xacc → CleanRange p.val g.addr 32 s → ended (.xacc p u []) g.poison (fun v => v = old ^^^ g.data)))

/-- Commands of a near-memory unit, and those that it stops on. -/
def Obligations.NearMemoryCommands : Prop := NearMemoryOperations ∧ SetlayoutWritesLayoutBits ∧ NearMemoryStops

/-- Chunks of a near-memory unit, its own and remote. -/
def Obligations.NearMemoryWork : Prop := NearMemoryChunks ∧ RemoteChunks

/-! ### The KV page ledger -/

/-- Event `e` was raised once on its page: counted, and its severity shown (19 R509). -/
def RaisedOn (e : Ev) (pg : Pg) (i : Nat) (s t : State) : Prop :=
  rd (H.EVT_CNT pg) i t = min (rd (H.EVT_CNT pg) i s + 1) (2 ^ (H.EVT_CNT pg).w - 1)
    ∧ (rd (H.SEV pg) i t).testBit e.sev.code = true

/-- The ledger's operations and their commands. -/
def kvRows (q : KvReq) : List (KvOp × Instr) :=
  [(.open_, .kvOpen q), (.append, .kvAppend q), (.fix, .kvFix q), (.clear, .kvClear q), (.fork, .kvFork q), (.free, .kvFree q),
    (.fadeq, .kvFadeq q), (.refill, .kvRefill q), (.fadehit, .kvFadehit q), (.quota, .kvQuota q), (.stat, .kvStat q)]

/-- A request is received: it waits in its place for the tick, and the host's sets BUSY. Nothing else changes. -/
def KvReceived (q : KvReq) (s t : State) : Prop :=
  t = { s with regs := t.regs, kv := { s.kv with ins := insertIn ⟨s.timebase, srcRank q.src, false, q⟩ s.kv.ins } }
    ∧ rd R.KVL_CMD_STAT_BUSY 0 t = (if q.src = .host then 1 else rd R.KVL_CMD_STAT_BUSY 0 s)
    ∧ ∀ f i, Fld.key f i ≠ R.KVL_CMD_STAT_BUSY.key 0 → rd f i t = rd f i s

/-- A request goes before those of its own timebase tick that rank after it, the host's first and windows by core, and after
every other one. -/
def KvInPlace (x : KvIn) (l : List KvIn) : Prop :=
  ∃ a b, l = a ++ b ∧ insertIn x l = a ++ x :: b
    ∧ (∀ y ∈ a, ¬(y.late = false ∧ y.time = x.time ∧ x.rank < y.rank))
    ∧ ∀ y, b.head? = some y → y.late = false ∧ y.time = x.time ∧ x.rank < y.rank

/-- 09 R282, R286: a command of the ledger is received in order, and nothing takes effect before the tick; there the first 4,096
take their turns and the rest is deferred, each counted once; one behind a waiting command that names its handle is held. -/
def KvReceipt : Prop :=
  ∀ (q : KvReq) (s : State),
    (∀ op i, (op, i) ∈ kvRows q →
      (inService s = true → flag R.KVL_CTRL 0 s = true → ∃ t, exec i s = .next t ∧ KvReceived (kvWithOp q op) s t)
      ∧ (inService s = false ∨ flag R.KVL_CTRL 0 s = false → exec i s = .next s))
    ∧ (∀ x l, KvInPlace x l)
    ∧ (∀ tk, ∃ z : State, kvTakes tk s = (s.kv.ins.take 4096).foldl (fun z x => kvTurn x.req tk z) z
      ∧ z = { s with regs := z.regs, kv := { s.kv with ins := (s.kv.ins.drop 4096).map (fun x => { x with late := true }) } }
      ∧ rd R.KVL_DEFER 0 z = min (rd R.KVL_DEFER 0 s + ((s.kv.ins.drop 4096).filter (fun x => !x.late)).length) (2 ^ R.KVL_DEFER.w - 1))
    ∧ (∀ tk, kvBlocked q s.kv.waits = true →
        kvTurn q tk s = { s with kv := { s.kv with waits := s.kv.waits ++ [⟨q, .held, []⟩] } })

/-- The command's turn has come and its reserved fields are 0 (09 R283, R286). -/
def KvGoes (op : KvOp) (q : KvReq) (s : State) : Prop :=
  kvBlocked (kvWithOp q op) s.kv.waits = false ∧ kvReservedOk op (kvWithOp q op) = true

/-- The command takes effect at tick `tk`. -/
def kvAt (op : KvOp) (q : KvReq) (tk : Nat) (s : State) : State := kvTurn (kvWithOp q op) tk s

/-- The command is answered: one response with the request's tag and the tick, after the writes made for it (09 R285, R286). -/
def KvResponds (op : KvOp) (q : KvReq) (status word1 r0 r1 tk : Nat) (s t : State) : Prop :=
  t.kv.resps = s.kv.resps ++ [⟨q.src, op.code, status, bitsAt q.w0.toNat 16 16, word1, r0, r1, tk, t.kv.nextWrite⟩]
    ∧ t.kv.ins = s.kv.ins ∧ t.kv.waits = s.kv.waits ∧ t.cores = s.cores

/-- Answered, with no byte of memory changed. -/
def KvAnswers (op : KvOp) (q : KvReq) (status word1 r0 r1 tk : Nat) (s t : State) : Prop :=
  KvResponds op q status word1 r0 r1 tk s t ∧ t.mem = s.mem

/-- Sequences other than `i` are as they were. -/
def OtherSeqs (i : Nat) (s t : State) : Prop := ∀ j, j ≠ i → t.kvSeq j = s.kvSeq j

/-- The two lengths that a refused command returns, if its operation returns them (09 R284). -/
def kvLens (op : KvOp) (w1 : Nat) (s : State) : Nat × Nat :=
  match kvHandle w1 s with
  | some (_, k) => if op.lengths then (k.fixed, k.lat) else (0, 0)
  | none => (0, 0)

/-- 09 R275, R284, R289, R295 to R297: commands on a handle that need no frames, with their answers. -/
def KvHandleCommands : Prop :=
  ∀ (q : KvReq) (i : Nat) (k : KvSeq) (tk : Nat) (s : State),
    let w1 := q.w1.toNat
    let sh := kvShift (seqPool k s) s
    kvHandle w1 s = some (i, k) → q.arg1 = 0 →
      (KvGoes .fix q s → k.lat = k.fixed →
        let t := kvAt .fix q tk s
        KvAnswers .fix q 0x02 w1 k.fixed k.lat tk s t ∧ t.kvSeq i = some { k with last := tk } ∧ OtherSeqs i s t)
      ∧ (KvGoes .fix q s → k.fixed < k.lat →
        let t := kvAt .fix q tk s
        let n := min q.arg0.toNat (k.lat - k.fixed)
        OtherSeqs i s t ∧ KvAnswers .fix q (if n < q.arg0.toNat then 0x03 else 0) w1 (k.fixed + n) k.lat tk s t
          ∧ ∃ k', t.kvSeq i = some k' ∧ k'.fixed = k.fixed + n ∧ k'.lat = k.lat ∧ k'.last = tk
            ∧ (keysRise k.blks = true → ∀ b blk, mget b k.blks = some blk → mget b k'.blks
                = some (if blk.cls = .latent ∧ b * 2 ^ sh < k.fixed + n then { blk with cls := .live } else blk)))
      ∧ (KvGoes .clear q s → q.arg0 = 0 →
        let t := kvAt .clear q tk s
        OtherSeqs i s t ∧ KvAnswers .clear q 0 w1 k.fixed k.fixed tk s t
          ∧ ∃ k', t.kvSeq i = some k' ∧ k'.lat = k.fixed ∧ k'.fixed = k.fixed ∧ k'.last = tk
            ∧ k'.blks = k.blks.filter (fun b => decide (b.1 * 2 ^ sh < k.fixed)))
      ∧ (KvGoes .stat q s → q.arg0 = 0 →
        let t := kvAt .stat q tk s
        KvAnswers .stat q 0 w1 k.fixed k.lat tk s t ∧ t.kvSeq i = some { k with last := tk } ∧ OtherSeqs i s t)
      ∧ (KvGoes .fadeq q s → ∀ f ∈ s.kv.fades, f.idx = i → q.arg0.toNat < f.start + f.len →
          (∀ g ∈ s.kv.fades, g.idx = i → q.arg0.toNat < g.start + g.len → g = f ∨ f.start < g.start) →
        let t := kvAt .fadeq q tk s
        KvAnswers .fadeq q 0 w1 f.start f.len tk s t ∧ OtherSeqs i s t)
      ∧ (KvGoes .fadeq q s → (∀ g ∈ s.kv.fades, g.idx = i → g.start + g.len ≤ q.arg0.toNat) →
        let t := kvAt .fadeq q tk s
        KvAnswers .fadeq q 0x04 w1 0 0 tk s t ∧ OtherSeqs i s t)
      ∧ (KvGoes .fadehit q s →
        let t := kvAt .fadehit q tk s
        KvAnswers .fadehit q 0 w1 0 0 tk s t ∧ RaisedOn .kvFadedRead .kvl 0 s t ∧ OtherSeqs i s t)
      ∧ (KvGoes .free q s → q.arg0 = 0 →
        let t := kvAt .free q tk s
        KvAnswers .free q 0 w1 0 0 tk s t ∧ t.kvSeq i = some { k with blks := [], tabs := [], closing := true } ∧ OtherSeqs i s t
          ∧ (∀ f, f ∈ t.kv.fades ↔ f ∈ s.kv.fades ∧ f.idx ≠ i) ∧ kvHandle w1 t = none)

/-- 09 R275, R284, R285, R297: a command on a handle that is not open is answered BAD_HANDLE, and one with a reserved field
BAD_COMMAND, and neither changes a sequence; OPEN gives the lowest free index (entry 22); QUOTA is for the host alone, and for a
holder that is enabled. -/
def KvOpenAndRefusals : Prop :=
  ∀ (q : KvReq) (tk : Nat) (s : State),
    let w1 := q.w1.toNat
    (∀ op ∈ [KvOp.append, .fix, .clear, .fork, .free, .fadeq, .refill, .fadehit, .stat],
        KvGoes op q s → kvHandle w1 s = none →
        let t := kvAt op q tk s
        KvAnswers op q 0x10 w1 0 0 tk s t ∧ t.kv.seqs = s.kv.seqs)
      ∧ (∀ op, kvBlocked (kvWithOp q op) s.kv.waits = false → kvReservedOk op (kvWithOp q op) = false →
        let t := kvAt op q tk s
        KvAnswers op q 0x18 w1 (kvLens op w1 s).1 (kvLens op w1 s).2 tk s t ∧ t.kv.seqs = s.kv.seqs)
      ∧ (∀ i, KvGoes .open_ q s → w1 < 256 → q.arg1.toNat < 256 → bitsAt q.arg1.toNat 2 2 = 0 → bitsAt q.arg1.toNat 4 4 ≤ 10 →
          flag (R.KVL_HOLDER_CFG_EN w1) 0 s = true →
          flag (R.KVL_POOL_CFG0_EN (rd (R.KVL_HOLDER_CFG_POOL w1) 0 s)) 0 s = true →
          (rd (R.KVL_POOL_CFG0_TOWERS (rd (R.KVL_HOLDER_CFG_POOL w1) 0 s)) 0 s).testBit (bitsAt q.arg1.toNat 0 2) = true →
          i < 262144 → mhas i s.kv.seqs = false → (∀ j, j < i → mhas j s.kv.seqs = true) →
        let t := kvAt .open_ q tk s
        KvAnswers .open_ q 0 (i + mgetD i 0 s.kv.gens * 2 ^ 18) 0 0 tk s t ∧ OtherSeqs i s t
          ∧ ∃ k, t.kvSeq i = some k ∧ k.holder = w1 ∧ k.w = bitsAt q.arg1.toNat 4 4 ∧ k.fixed = 0 ∧ k.lat = 0 ∧ k.blks = []
            ∧ k.closing = false ∧ k.last = tk ∧ towerOf k.base = bitsAt q.arg1.toNat 0 2)
      ∧ (KvGoes .quota q s → q.src = .host → w1 < 256 → q.arg0.toNat < 2 ^ 24 → q.arg1 = 0 →
        let t := kvAt .quota q tk s
        t.kv.seqs = s.kv.seqs
          ∧ (flag (R.KVL_HOLDER_CFG_EN w1) 0 s = false → KvAnswers .quota q 0x18 w1 0 0 tk s t ∧ t.regs = s.regs)
          ∧ (flag (R.KVL_HOLDER_CFG_EN w1) 0 s = true → KvAnswers .quota q 0 w1 0 0 tk s t
            ∧ rd (R.KVL_HOLDER_CFG_QUOTA w1) 0 t = q.arg0.toNat
            ∧ (rd (R.KVL_HOLDER_USE_USED w1) 0 t ≤ q.arg0.toNat ↔ rd (R.KVL_HOLDER_USE_OVER w1) 0 t = 0)))
      ∧ (∀ c n, KvGoes .quota q s → q.src = .window c n →
        let t := kvAt .quota q tk s
        KvAnswers .quota q 0x19 w1 0 0 tk s t ∧ t.kv.seqs = s.kv.seqs)

/-- The blocks of a sequence that an allocation enters: LIVE or LATENT on their cores, with entries in the tables there. -/
def BlocksIn (k : KvSeq) (cls : KvCls) (bs : List (Nat × Nat)) : Prop :=
  ∀ x ∈ bs, ∃ b, mget x.1 k.blks = some b ∧ b.core = x.2 ∧ b.cls = cls ∧ b.inTab = true

/-- 09 R279, R287, R289, R291, R295: commands that need frames. APPEND granted at once grows the lengths and enters its blocks; one
that must wait for faded frames keeps what it was granted; one refused changes no sequence and returns the lengths. FORK opens a
sequence that shares the blocks of a prefix and its faded ranges; REFILL gives a faded block LIVE frames. -/
def KvAllocations : Prop :=
  ∀ (q : KvReq) (i : Nat) (k : KvSeq) (tk : Nat) (s : State),
    let p := seqPool k s
    let sh := kvShift p s
    let d := kvDepth p s
    let w1 := q.w1.toNat
    let n := q.arg0.toNat
    kvHandle w1 s = some (i, k) →
      (∀ bs, KvGoes .append q s → 0 < n → n ≤ 2 ^ 32 → q.arg1 = 0 → (isLatent q = false → k.lat ≤ k.fixed) →
          k.lat + n ≤ 2 ^ 48 → appendBlocks k q s = some bs → sharedTail k sh s = none → countOver k d bs = false →
        let t := kvAt .append q tk s
        let g := kvGrant p k.holder i (blockNeeds k d bs) s
        (∀ got, g = .now got → OtherSeqs i s t
          ∧ ∃ k', t.kvSeq i = some k' ∧ k'.lat = k.lat + n ∧ k'.fixed = (if isLatent q then k.fixed else k.lat + n)
            ∧ k'.last = tk ∧ KvAnswers .append q 0 w1 k'.fixed k'.lat tk s t
            ∧ BlocksIn k' (if isLatent q then .latent else .live) bs)
        ∧ (∀ vs got, g = .fade vs got → t.kvSeq i = some k ∧ t.kv.resps = s.kv.resps ∧ t.mem = s.mem
          ∧ t.kv.waits = s.kv.waits ++ [⟨kvWithOp q .append, .fading t.kv.nextWrite, got⟩]
          ∧ ∀ x ∈ got, kvFrameNo x.1.core x.2 ∈ t.kv.resv)
        ∧ (∀ st, g = .refuse st → t.kv.seqs = s.kv.seqs ∧ KvAnswers .append q st w1 k.fixed k.lat tk s t
          ∧ RaisedOn .kvRefused .kvl 0 s t))
      ∧ (∀ j got, KvGoes .fork q s → q.arg1.toNat < 256 → flag (R.KVL_HOLDER_CFG_EN q.arg1.toNat) 0 s = true →
          rd (R.KVL_HOLDER_CFG_POOL q.arg1.toNat) 0 s = p → k.lat ≤ k.fixed → 0 < n → n ≤ k.fixed → freeIndex s = some j →
          (forkFades k j (ceilDiv n (2 ^ sh)) sh s.kv.fades).length ≤ fadeMax →
          kvGrant p q.arg1.toNat i (forkNeeds k (ceilDiv n (2 ^ sh)) d) s = .now got →
        let t := kvAt .fork q tk s
        t.kvSeq i = some { k with last := tk } ∧ t.kv.fades = forkFades k j (ceilDiv n (2 ^ sh)) sh s.kv.fades
          ∧ (∀ l, l ≠ i → l ≠ j → t.kvSeq l = s.kvSeq l)
          ∧ ∃ f, t.kvSeq j = some f ∧ f.fixed = n ∧ f.lat = n ∧ f.holder = q.arg1.toNat ∧ f.base = k.base ∧ f.w = k.w
            ∧ f.last = tk ∧ f.blks = k.blks.filter (fun b => decide (b.1 < ceilDiv n (2 ^ sh)))
            ∧ KvAnswers .fork q 0 (j + f.gen * 2 ^ 18) n n tk s t)
      ∧ (∀ blk ns got, KvGoes .refill q s → q.arg1 = 0 → mget (n / 2 ^ sh) k.blks = some blk → blk.cls = .faded →
          refillNeeds k d (n / 2 ^ sh) blk s = some ns → kvGrant p k.holder i ns s = .now got →
        let t := kvAt .refill q tk s
        OtherSeqs i s t ∧ KvResponds .refill q 0 w1 0 0 tk s t
          ∧ t.kv.fades = cutFade i (n / 2 ^ sh * 2 ^ sh) (2 ^ sh) s.kv.fades
          ∧ ∃ k' c, t.kvSeq i = some k' ∧ (if blk.inTab then some blk.core else kvPlace k (n / 2 ^ sh) s) = some c
            ∧ mget (n / 2 ^ sh) k'.blks = some ⟨c, gotData got (n / 2 ^ sh), true, .live⟩)

/-- The engine's read of the 2 KiB at `base` of core c heads its shaft's host-slot queue in the slot, and the core's memory can be
reached; `z` is the state with the request taken off the queue. -/
def WindowHead (k : WinKind) (c base : Nat) (s z : State) : Prop :=
  let p := posOf c
  let h := s.shaft p
  ∃ rest, h.hostq = ⟨.window k, 0, false, c, base, 2048, [], true⟩ :: rest ∧ inSlot s = true ∧ h.lent = false
    ∧ isHole c s = false ∧ (s.shaft (pathOf p s)).lost = false ∧ h.slotNs + 10240 ≤ 50400 ∧ h.slotGran < 2 ∧ CleanFixed p base 2048 s
    ∧ z = s.setShaft p { h with hostq := rest, slotNs := h.slotNs + 10240, slotGran := h.slotGran + 1 }

/-- The 2 KiB at `base` of core c as the opening tick fixed them. -/
def windowBytes (c base : Nat) (s : State) : List Byte := (upFrom base 2048).map (fun a => fixedByte (posOf c) a s)

/-- 09 R272, R282, R292, R297, R300, R301: a served read of a ledger window receives its new requests in order, or overruns; an
append's entries move to its copies once they are made; a configuration word waits for the tick, where it is taken or rejected; the
bucket sorter samples. -/
def KvEngine : Prop :=
  ∀ (s : State), inService s = true →
    (∀ (c : CoreId),
      (∀ s₁, WindowHead .ledger c.val ledgerBase s s₁ → isLedgerCore c.val s = true → flag R.KVL_CTRL 0 s = true →
        let d := windowBytes c.val ledgerBase s
        let head := leNat (d.take 4)
        let tail := mgetD c.val 0 s.kv.tails
        let n := (head + 2 ^ 32 - tail) % 2 ^ 32
        let s₂ : State := { s₁ with kv := { s₁.kv with tails := mput c.val head s.kv.tails } }
        (n ≤ 63 → exec (.ledgerWindowRead c) s
          = .next ((upFrom 0 n).foldl (fun z i => kvReceive (windowReq c.val ((tail + i) % 2 ^ 32) d) z) s₂))
        ∧ (63 < n → ∃ t, exec (.ledgerWindowRead c) s = .next t ∧ RaisedOn .kvWindowOverrun .kvl 0 s t
            ∧ mgetD c.val 0 t.kv.tails = head ∧ t.kv.seqs = s.kv.seqs ∧ t.kv.ins = s.kv.ins
            ∧ t.kv.writes = s.kv.writes ++ [⟨s.kv.nextWrite, c.val, 0x1017F800, leBytes 4 head⟩]))
      ∧ (∀ rest, (s.shaft (posOf c.val)).hostq = ⟨.window .ledger, 0, false, c.val, ledgerBase, 2048, [], true⟩ :: rest →
          inSlot s = true → (s.shaft (posOf c.val)).lent = false →
          isHole c.val s = true ∨ (s.shaft (pathOf (posOf c.val) s)).lost = true →
        exec (.ledgerWindowRead c) s
          = .next (s.setShaft (posOf c.val) { s.shaft (posOf c.val) with hostq := rest })))
    ∧ (∀ idx w f r, s.kv.waits[idx]? = some w → w.stage = .copying f true r → copiesDone w s = true →
        exec (.copyOnWriteSwitch idx) s
          = .next { s with kv := { s.kv with waits := s.kv.waits.set idx { w with stage := .copying f true true } } })
    ∧ (∀ w f i k tk blk, w.stage = .copying f true true → kvLost w s = false → kvOp w.req = some .append →
        kvNames w.req = some i → s.kvSeq i = some k →
        mget (k.lat / 2 ^ kvShift (seqPool k s) s) k.blks = some blk →
        (∀ x ∈ gotBlocks w.got, x.1 ≠ k.lat / 2 ^ kvShift (seqPool k s) s) →
      let t := kvWake w tk s
      OtherSeqs i s t ∧ t.kv.resps.length = s.kv.resps.length + 1 ∧ t.mem = s.mem
        ∧ ∃ k', t.kvSeq i = some k' ∧ k'.lat = k.lat + w.req.arg0.toNat ∧ k'.last = tk
          ∧ mget (k.lat / 2 ^ kvShift (seqPool k s) s) k'.blks
            = some { blk with pages := gotCopies w.got (k.lat / 2 ^ kvShift (seqPool k s) s), cls := .live })
    ∧ (∀ (p : Fin 16) (cfg0 cfg1 : Word), flag (H.EN .kvl) 0 s = true → s.late = [] →
      ∃ t, exec (.poolConfig p cfg0 cfg1) s = .next t ∧ t.kv = s.kv
        ∧ ∀ f v, (f, v) ∈ [(R.KVL_POOL_CFG0_EN p.val, bitsAt cfg0.toNat 0 1), (R.KVL_POOL_CFG0_TOWERS p.val, bitsAt cfg0.toNat 1 4),
            (R.KVL_POOL_CFG0_PAGE_LO p.val, bitsAt cfg0.toNat 5 11), (R.KVL_POOL_CFG0_PAGE_HI p.val, bitsAt cfg0.toNat 16 11),
            (R.KVL_POOL_CFG1_TOK_SHIFT p.val, bitsAt cfg1.toNat 0 4), (R.KVL_POOL_CFG1_DEPTH p.val, bitsAt cfg1.toNat 4 6),
            (R.KVL_POOL_CFG1_TOK_BYTES p.val, bitsAt cfg1.toNat 12 12)] →
          rd f 0 t = rd f 0 s ∧ withActs (t.acts ++ t.late) f 0 (rd f 0 t) % 2 ^ f.w = v)
    ∧ (∀ (p : Fin 16) (cfg0 cfg1 : Nat),
        let used := rd (R.KVL_POOL_LIVE p.val) 0 s + rd (R.KVL_POOL_LATENT p.val) 0 s + rd (R.KVL_POOL_FADED p.val) 0 s
        let lo := bitsAt cfg0 5 11
        let hi := bitsAt cfg0 16 11
        let bad := poolReserved lo hi (bitsAt cfg0 1 4) s || poolOverlaps p.val lo hi (bitsAt cfg0 1 4) s || decide (hi < lo)
        let t := poolConfig p.val cfg0 cfg1 s
        t.kv = s.kv ∧ (used ≠ 0 → RaisedOn .kvPoolBusy .kvl 0 s t) ∧ (used = 0 → bad = true → RaisedOn .kvPoolConfig .kvl 0 s t)
        ∧ (used ≠ 0 ∨ bad = true → ∀ f ∈ [R.KVL_POOL_CFG0_EN p.val, R.KVL_POOL_CFG0_PAGE_LO p.val, R.KVL_POOL_FREE p.val],
          rd f 0 t = rd f 0 s)
        ∧ (used = 0 → bad = false →
          (∀ f v, (f, v) ∈ [(R.KVL_POOL_CFG0_EN p.val, bitsAt cfg0 0 1), (R.KVL_POOL_CFG0_PAGE_LO p.val, lo),
              (R.KVL_POOL_CFG0_PAGE_HI p.val, hi), (R.KVL_POOL_CFG1_DEPTH p.val, bitsAt cfg1 4 6)] → rd f 0 t = v)
          ∧ (∀ f ∈ [R.KVL_POOL_FREE p.val, R.KVL_POOL_TOTAL p.val], rd f 0 t
              = ((upFrom 0 4096).filter (fun c => poolOnCore p.val c t && kvUsable c s)).length * (hi + 1 - lo))
          ∧ rd (R.KVL_POOL_RETIRED p.val) 0 t = 0))
    ∧ (∀ (h : Fin 256) (cfg : Word), flag (H.EN .kvl) 0 s = true → s.late = [] →
      ∃ t, exec (.holderConfig h cfg) s = .next t ∧ t.kv = s.kv
        ∧ ∀ f v, (f, v) ∈ [(R.KVL_HOLDER_CFG_POOL h.val, bitsAt cfg.toNat 0 4), (R.KVL_HOLDER_CFG_EN h.val, bitsAt cfg.toNat 4 1),
            (R.KVL_HOLDER_CFG_QUOTA h.val, bitsAt cfg.toNat 8 24)] →
          rd f 0 t = rd f 0 s ∧ withActs (t.acts ++ t.late) f 0 (rd f 0 t) % 2 ^ f.w = v)
    ∧ (flag R.KVL_BUCKET_CTRL_EN 0 s = true → rd R.KVL_BUCKET_N 0 s ≠ 0 → s.frame % rd R.KVL_BUCKET_N 0 s = 0 →
      (s.kv.round = none → ∃ t, exec .bucketSample s = .next t ∧ t.mem = s.mem ∧ t.cores = s.cores
        ∧ t.kv.writes.length = s.kv.writes.length + 256
        ∧ t.kv.round = some ⟨s.frame, sorterPage s, sorterCore s, rd R.KVL_BUCKET_CTRL_NB 0 s + 1,
            ((sampleLens s).filter (fun l => decide (0 < l.2.1))).map (fun l => (l.1, l.2.2)), .lengths t.kv.nextWrite⟩)
      ∧ (∀ r, s.kv.round = some r → r.gen ≠ s.frame → ∃ t, exec .bucketSample s = .next t ∧ t.kv = s.kv
        ∧ RaisedOn .kvBucketLate .kvl 0 s t))

/-- Receipt, commands on handles, openings and refusals. -/
def Obligations.KvHandles : Prop := KvReceipt ∧ KvHandleCommands ∧ KvOpenAndRefusals

/-- Allocations and the ledger engine. -/
def Obligations.KvPages : Prop := KvAllocations ∧ KvEngine

/-! ### Reduction channels -/

/-- The device is not in Dim, where a timer's expiry waits for the first resumed tick (18 R501). -/
def Awake (s : State) : Prop := rd R.BOOT_STAT_STATE 0 s ≠ 11

/-- Ports carry traffic: ticks run, start-up has come to TRAIN, or the device is in Dim (18 R488, R499). -/
def Linked (s : State) : Prop :=
  inService s = true ∨ (4 ≤ rd R.BOOT_STAT_STATE 0 s ∧ rd R.BOOT_STAT_STATE 0 s ≤ 6) ∨ rd R.BOOT_STAT_STATE 0 s = 11

/-- A flit of type `t` passes the link's checks on port p: the port is UP, the CRC is good, the header is of the type, with a class
that the type has and, for a sequenced one, that the port's role carries (11 R326 to R329, R350). -/
def FlitGood (p t : Nat) (w : RayWords) (s : State) : Prop :=
  rayUp p s = true ∧ crcGood w = true ∧ w.type = t ∧ w.bits 7 1 = 0 ∧ typeCls t w.cls = true
    ∧ (if t ≤ 6 then roleCarries p (clsOf w.cls) s = true else w.crd = 0)

/-- A sequenced flit that is the next expected, with room for it in its class's buffer, if it occupies one. -/
def FlitNext (p t : Nat) (w : RayWords) (s : State) : Prop :=
  FlitGood p t w s ∧ w.seq = (s.port p).rxSeq ∧ (t ≤ 4 → classFull p (decide (w.cls = 1)) s = false)

/-- The state once the link has taken the flit; what that is, RayLinkTakes states. -/
def linkTake (p t : Nat) (w : RayWords) (s : State) : State := (rayRx p t w s).2

/-- 12 R359 to R364: the engine reads a seal window's new requests in order, or overruns; SEALs gather at the leader, which fixes
the roster of a bucket with the ranks that sealed it, for the next tick; a member keeps a ROSTER for the next tick. -/
def Obligations.SealsAndRosters : Prop :=
  ∀ (s : State), inService s = true →
    (∀ (core : CoreId) s₁, WindowHead .seal core.val 0x1017E000 s s₁ →
        (∃ c, c < 64 ∧ flag R.RED_CTRL_EN c s = true ∧ redBase c s = core.val) →
      let d := windowBytes core.val 0x1017E000 s
      let head := leNat (d.take 4)
      let tail := mgetD core.val 0 s.red.sealTails
      let n := (head + 2 ^ 32 - tail) % 2 ^ 32
      let s' : State := { s₁ with red := { s.red with sealTails := mput core.val head s.red.sealTails } }
      (n ≤ 63 → exec (.sealWindowRead core) s
        = .next ((upFrom 0 n).foldl (fun z i => sealTake core.val ((tail + i) % 2 ^ 32) d z) s'))
      ∧ (63 < n → ∃ t, exec (.sealWindowRead core) s = .next t ∧ t.red = s'.red
          ∧ t.kv.writes = s.kv.writes ++ [⟨s.kv.nextWrite, core.val, 0x1017E800, leBytes 4 head⟩]))
    ∧ (∀ (p : PortId) (w : RayWords) (ch : ChanId) (rank : Fin 64) (seq w0 : Word), FlitNext p.val 6 w s →
      let k := s.chan ch.val
      let l := mgetD seq.toNat [] k.heard
      k.fixed.contains seq.toNat = false → (∀ e ∈ l, e.1 ≠ rank.val) →
        exec (.redSeal ⟨p, w⟩ ch rank (seq, w0)) s = .next
          ((linkTake p.val 6 w s).setChan ch.val { k with heard := mput seq.toNat (l ++ [(rank.val, w0.toNat)]) k.heard }))
    ∧ (∀ (ch : ChanId) (q : Nat) (l : List (Nat × Nat)),
      let k := s.chan ch.val
      redLeader ch.val s = redRank ch.val s → keysRise k.heard = true → mget q k.heard = some l →
      (∀ r, r < 64 → (redMembers ch.val s).testBit r = true → ∃ w0, (r, w0) ∈ l) →
        ∃ t m, exec (.rosterFix ch) s = .next t ∧ m ∈ (t.chan ch.val).rosters ∧ m.seq = BitVec.ofNat 32 q
          ∧ (∀ r, r < 64 → m.ranks.getLsbD r = (redMembers ch.val s).testBit r)
          ∧ (m.mismatch = true ↔ ∃ e ∈ l, e.2 ≠ (l.headD (0, 0)).2)
          ∧ mget q (t.chan ch.val).heard = none ∧ q ∈ (t.chan ch.val).fixed ∧ t.mem = s.mem)
    ∧ (∀ (p : PortId) (w : RayWords) (ch : ChanId) (m : RosterMsg), FlitNext p.val 6 w s →
        exec (.redRoster ⟨p, w⟩ (ch, m)) s = .next
          ((linkTake p.val 6 w s).setChan ch.val { s.chan ch.val with rosters := (s.chan ch.val).rosters ++ [m] }))

/-- 12 R366 to R368, R371 to R374: a PULL is answered with the segment; a contribution whose flits have come on its rank's
port (`segTaken`) is held until its turn, if it is awaited, and given up otherwise; a share's samples are compared once it has
been applied; the leader rules once every owner has checked; a VERDICT converts, reduces again, or fences the channel. -/
def ReductionMessages : Prop :=
  ∀ (ch : ChanId) (p : PortId) (w : RayWords) (s : State), inService s = true →
    let c := ch.val
    let z := linkTake p.val 6 w s
    (∀ (m : PullMsg) b d q s', FlitNext p.val 6 w s → s.bkt c m.seq.toNat = some b → readSrc c b m.seg.toNat z = (d, q, s') →
      exec (.redPull ⟨p, w⟩ (.chan ch, m)) s = .next (sendSeg c m.rank.val 0 m.tag.toNat b.seq m.seg.toNat 32 d q s'))
    ∧ (∀ (m : SegMsg),
      let port := rd (R.RED_ROUTE_PORT m.rank.val) c s
      (segTaken port c 0 32 m s = none → exec (.contribution ch m) s = .next s)
      ∧ (∀ s', segTaken port c 0 32 m s = some s' →
        ((∀ b, s.bkt c m.seq.toNat = some b → b.pulls.contains (m.rank.val, m.seg.toNat) = false) →
          exec (.contribution ch m) s = .next (takeRed port 33 s'))
        ∧ (∀ b, s.bkt c m.seq.toNat = some b → b.pulls.contains (m.rank.val, m.seg.toNat) = true → m.poison = 0 →
          exec (.contribution ch m) s = .next (redPump c (s'.setBkt c
            { b with pulls := b.pulls.erase (m.rank.val, m.seg.toNat), held := b.held ++ [m] })))))
    ∧ (∀ (j : Fin 64) b, redActive c s = some b → b.phase = .apply → (b.myShares (redRank c s)).contains j.val = true →
      b.checked.contains j.val = false → shareApplied c b j.val s = true →
      (∃ i ∈ b.myShares (redRank c s), i ≠ j.val ∧ b.checked.contains i = false) →
      let ms := b.mirror.filter (fun e => decide (b.share (redSpan c s) (e.1 / 1024) = j.val))
      let run := ms.filter (fun e => !sampleSkips e.2)
      let bad := run.any (fun e => !samplePasses (accElem c b e.1 s) (ranksOf (b.roster.getD 0)).length e.2)
      ∃ t, exec (.mirrorCheck ch j) s = .next t ∧ t.mem = s.mem
        ∧ t.red = (s.setBkt c { b with checked := b.checked ++ [j.val], miss := b.miss || bad }).red
        ∧ rd R.RED_MIRROR_SAMPLES c t = min (rd R.RED_MIRROR_SAMPLES c s + run.length) (2 ^ R.RED_MIRROR_SAMPLES.w - 1)
        ∧ rd R.RED_MIRROR_SKIP c t = min (rd R.RED_MIRROR_SKIP c s + (ms.length - run.length)) (2 ^ R.RED_MIRROR_SKIP.w - 1))
    ∧ (∀ (rank : Fin 64) (seq : Word) (pass : Bool) b, FlitNext p.val 6 w s → s.bkt c seq.toNat = some b →
      let l := (mgetD seq.toNat [] (s.chan c).checks).filter (fun e => decide (e.1 ≠ rank.val)) ++ [(rank.val, pass)]
      let noted := z.setChan c { s.chan c with checks := mput seq.toNat l (s.chan c).checks }
      ((redLeader c s ≠ redRank c s ∨ ∃ r ∈ ranksOf (b.roster.getD 0), ∀ e ∈ l, e.1 ≠ r) →
        exec (.redCheck ⟨p, w⟩ ch rank (seq, pass)) s = .next noted)
      ∧ (redLeader c s = redRank c s → (∀ r ∈ ranksOf (b.roster.getD 0), ∃ e ∈ l, e.1 = r) →
        ∃ s', exec (.redCheck ⟨p, w⟩ ch rank (seq, pass)) s = .next (verdictRx c seq.toNat
            (if l.all (fun e => e.2) then .pass else if b.misses = 0 then .rereduce else .fence) s')
          ∧ s'.chan c = { noted.chan c with checks := mdel seq.toNat (noted.chan c).checks } ∧ s'.regs = z.regs ∧ s'.mem = s.mem))
    ∧ (∀ (seq : Word) b, FlitNext p.val 6 w s → s.bkt c seq.toNat = some b → b.phase ≠ .spread →
      (∃ t b', exec (.redVerdict ⟨p, w⟩ ch (seq, .pass)) s = .next t ∧ t.bkt c seq.toNat = some b' ∧ b'.phase = .spread
        ∧ b'.conv = b.mySegs (redSpan c s) (redRank c s))
      ∧ (∃ t b', exec (.redVerdict ⟨p, w⟩ ch (seq, .rereduce)) s = .next t ∧ t.bkt c seq.toNat = some b' ∧ b'.misses = b.misses + 1
        ∧ rd R.RED_REREDUCE c t = min (rd R.RED_REREDUCE c s + 1) (2 ^ R.RED_REREDUCE.w - 1))
      ∧ (∃ t, exec (.redVerdict ⟨p, w⟩ ch (seq, .fence)) s = .next t ∧ rd R.RED_STAT_STATE c t = 2 ∧ (t.chan c).bkts = []))

/-- 12 R369, R370: a result segment whose flits have come on its owner's port passes to its shaft as 32-byte writes into RES, if the
shaft has room, and is given up if it is not awaited; once every one is written, the bucket completes: its tally closes, its slot is
freed, and its record goes to the seal's response slot. -/
def ReductionResults : Prop :=
  ∀ (ch : ChanId) (s : State), inService s = true →
    let c := ch.val
    (∀ (m : SegMsg) b, s.bkt c m.seq.toNat = some b →
      let w := redBits b.outFmt
      let port := rd (R.RED_ROUTE_PORT m.rank.val) c s
      let p := posOf (segCore c m.seg.toNat s)
      (segTaken port c 1 w m s = none → exec (.resultSegment ch m) s = .next s)
      ∧ (∀ s', segTaken port c 1 w m s = some s' →
        (b.got.contains m.seg.toNat = true ∨ b.resHeld.any (fun x => decide (x.seg = m.seg)) = true ∨ b.segs ≤ m.seg.toNat →
          exec (.resultSegment ch m) s = .next (takeRed port (1 + w) s'))
        ∧ (b.got.contains m.seg.toNat = false → m.seg.toNat < b.segs → b.resHeld = [] →
          (2048 < (s.shaft p).inbox + 4 * w → exec (.resultSegment ch m) s = .next (s'.setBkt c { b with resHeld := [m] }))
          ∧ ((s.shaft p).inbox + 4 * w ≤ 2048 → ∃ t, exec (.resultSegment ch m) s = .next t
            ∧ t.bkt c m.seq.toNat
              = some { b with got := b.got ++ [m.seg.toNat], poison := b.poison || decide (m.poison ≠ 0) }
            ∧ (t.shaft p).inbox = (s.shaft p).inbox + 4 * w ∧ t.mem = s.mem
            ∧ t.shafts = ((upFrom 0 (4 * w)).foldl (fun z i => remoteArrive p .write
                ⟨b.res + segOff c m.seg.toNat s * 128 * w + 32 * i, BitVec.ofNat 256 (m.data.toNat >>> (256 * i)),
                  m.poison.getLsbD (i / 4), some (resKey c m.seq.toNat, m.seg.toNat)⟩ z) s).shafts))))
    ∧ (∀ (seq : Word) b, s.bkt c seq.toNat = some b → b.roster.isSome = true → b.segs ≤ b.got.length →
        openTags (resKey c seq.toNat) s = [] →
      ∃ t, exec (.bucketComplete ch seq) s = .next t
        ∧ (t.chan c).bkts = (s.chan c).bkts.filter (fun x => decide (x.seq ≠ b.seq))
        ∧ rd R.RED_DONE_SEQ c t = b.seq % 2 ^ R.RED_DONE_SEQ.w
        ∧ rd R.RED_BUCKETS c t = min (rd R.RED_BUCKETS c s + 1) (2 ^ R.RED_BUCKETS.w - 1)
        ∧ rd (R.RED_TALLY_EXP (seq.toNat % 8)) c t = 0 ∧ rd (R.RED_TALLY_RCV (seq.toNat % 8)) c t = 0
        ∧ rd (R.RED_TALLY_DROP (seq.toNat % 8)) c t = 0 ∧ rd (R.RED_TALLY_OUT (seq.toNat % 8)) c t = 0
        ∧ t.kv.writes.length = s.kv.writes.length + 2 ∧ t.mem = s.mem)
    ∧ (∀ (seq : Word) b, s.bkt c seq.toNat = some b → (b.roster = none ∨ b.got.length < b.segs ∨ openTags (resKey c seq.toNat) s ≠ []) →
      exec (.bucketComplete ch seq) s = .next s)

/-- 12 R371, R374 to R376: a timeout drops the rank it waits for: at the leader a revised roster, or a roster of those that
sealed, is made for the next tick; at an owner the rank is left out of distribution. A lost leader leaves the members and
the next rank leads. Partners' caps are noted; UNFENCE waits for the tick; the collective hold ends. -/
def ReductionFailures : Prop :=
  ∀ (ch : ChanId) (s : State), Awake s →
    let c := ch.val
    (∀ q : Word, redLeader c s = redRank c s → mhas q.toNat (s.chan c).heard = true →
      ∃ t m, exec (.redTimeout ch (.seals q)) s = .next t ∧ m ∈ (t.chan c).rosters ∧ m.seq = q
        ∧ mget q.toNat (t.chan c).heard = none ∧ q.toNat ∈ (t.chan c).fixed)
    ∧ (∀ (q : Word) (r : Fin 64) b ro, s.bkt c q.toNat = some b → b.roster = some ro → b.phase ≠ .spread → ro.testBit r.val = true →
        redLeader c s = redRank c s →
      let m : RosterMsg := ⟨q, BitVec.ofNat 64 (ro - 2 ^ r.val), BitVec.ofNat 64 (2 ^ r.val), false⟩
      (b.pulls.any (fun x => decide (x.1 = r.val)) = true →
        ∃ t, exec (.redTimeout ch (.pull q r)) s = .next t ∧ (t.chan c).rosters = (s.chan c).rosters ++ [m])
      ∧ ((mgetD q.toNat [] (s.chan c).checks).any (fun e => decide (e.1 = r.val)) = false →
        ∃ t, exec (.redTimeout ch (.check q r)) s = .next t ∧ (t.chan c).rosters = (s.chan c).rosters ++ [m])
      ∧ (∀ (p : PortId) (w : RayWords), inService s = true → FlitNext p.val 6 w s →
        ∃ t, exec (.redTimeout ch (.report ⟨p, w⟩ q r)) s = .next t ∧ (t.chan c).rosters = (s.chan c).rosters ++ [m]))
    ∧ (∀ (q : Word) (r : Fin 64) b, s.bkt c q.toNat = some b →
      ∃ t, exec (.redTimeout ch (.send q r)) s = .next t ∧ RaisedOn .redTimeout .red c s t
        ∧ t.red = (s.setBkt c { b with gone := b.gone ||| 2 ^ r.val }).red)
    ∧ (redLeader c s ≠ redRank c s → (∃ r, r < 64 ∧ (redMembers c s).testBit r = true) → (s.chan c).bkts = [] →
      ∃ t, exec (.leaderLost ch) s = .next t
        ∧ (∀ r, r < 64 → (redMembers c t).testBit r = ((redMembers c s).testBit r && decide (r ≠ redLeader c s)))
        ∧ rd R.RED_STAT_LEADER c t = redLeader c t % 2 ^ R.RED_STAT_LEADER.w)
    ∧ (∀ (p : PortId) (w : RayWords) (rank : Fin 64) (frame : Word), inService s = true → FlitNext p.val 6 w s →
      ∃ t, exec (.capNotice ⟨p, w⟩ ch (rank, frame)) s = .next t ∧ rd R.RED_CAP_NOTE_RANK c t = rank.val
        ∧ rd R.RED_CAP_NOTE_FRAME_LO c t = frame.toNat % 2 ^ R.RED_CAP_NOTE_FRAME_LO.w ∧ RaisedOn .redCapNotice .red c s t)
    ∧ (flag (H.EN .red) c s = true →
      ∃ t, exec (.redUnfence ch) s = .next t ∧ Queued (.redUnfence c) s t ∧ t.regs = s.regs ∧ t.red = s.red)
    ∧ (s.red.hold.isSome = true →
      exec .collectiveHoldEnd s = .next (wr R.APT_STAT_HOLD 0 0 { s with red := { s.red with hold := none } }))

/-- Reduction messages, results and failures. -/
def Obligations.Reductions : Prop := ReductionMessages ∧ ReductionResults ∧ ReductionFailures

/-! ### Parity groups and snapshots -/

/-- 13 R382 to R386: the parity engine reads its window; CLEARED, contributions, DONE, COMMIT, losses and rebuilds of a group. -/
def Obligations.ParityMessages : Prop :=
  ∀ (gr : GrpId) (p : PortId) (w : RayWords) (s : State), inService s = true →
    let z := linkTake p.val 6 w s
    let g := gr.val
    let k := s.grp g
    (∀ (c : CoreId) s₁, WindowHead .parity c.val 0x1017D000 s s₁ →
        (∃ g, g < 4 ∧ flag (R.PAR_CFG_EN g) 0 s = true ∧ parBase g s = c.val) →
      let d := windowBytes c.val 0x1017D000 s
      let head := leNat (d.take 4)
      let tail := mgetD c.val 0 s.red.parTails
      let n := (head + 2 ^ 32 - tail) % 2 ^ 32
      let s' : State := { s₁ with red := { s.red with parTails := mput c.val head s.red.parTails } }
      (n ≤ 63 → exec (.parityWindowRead c) s
        = .next ((upFrom 0 n).foldl (fun z i => parTake c.val ((tail + i) % 2 ^ 32) d z) s'))
      ∧ (63 < n → ∃ t, exec (.parityWindowRead c) s = .next t ∧ t.red = s'.red ∧ RaisedOn .parWindowOverrun .par 0 s t))
    ∧ (∀ (rank : Fin 16) (gen : Word), FlitNext p.val 6 w s → gen.toNat = k.gen → k.cleared.contains rank.val = false →
        parState g s ≠ 3 → k.posted = none →
      exec (.cleared ⟨p, w⟩ gr (rank, gen)) s = .next (z.setGrp g { k with cleared := k.cleared ++ [rank.val] }))
    ∧ (∀ (m : SegMsg),
      let port := parPort g m.rank.val s
      (segTaken port (64 + g) 2 32 m s = none → exec (.parityContribution gr m) s = .next s)
      ∧ (∀ s', segTaken port (64 + g) 2 32 m s = some s' →
        (m.seq.toNat ≠ k.gen ∨ parState g s ≠ 1 ∨ parSegs g s ≤ m.seg.toNat ∨ k.got.contains (m.rank.val, m.seg.toNat) = true →
          exec (.parityContribution gr m) s = .next (takeRed port 33 s'))
        ∧ (m.seq.toNat = k.gen → parState g s = 1 → m.seg.toNat < parSegs g s →
            k.got.contains (m.rank.val, m.seg.toNat) = false →
          ∃ t, exec (.parityContribution gr m) s = .next t ∧ (t.grp g).got = k.got ++ [(m.rank.val, m.seg.toNat)]
            ∧ t.mem = s.mem)))
    ∧ (∀ (rank : Fin 16) (gen : Word), FlitNext p.val 6 w s → gen.toNat = k.gen → parLeader g s = parRank g s →
        k.dones.contains rank.val = false →
      ((∃ r ∈ ranksOf k.present, r ≠ rank.val ∧ r ∉ k.dones) →
        exec (.parDone ⟨p, w⟩ gr (rank, gen)) s = .next (z.setGrp g { k with dones := k.dones ++ [rank.val] }))
      ∧ ((∀ r ∈ ranksOf k.present, r = rank.val ∨ r ∈ k.dones) → parState g s = 1 →
        ∃ t, exec (.parDone ⟨p, w⟩ gr (rank, gen)) s = .next t
          ∧ t.grp g = { k with dones := k.dones ++ [rank.val], commit := some gen.toNat }))
    ∧ (∀ gen : Word, FlitNext p.val 6 w s → gen.toNat = k.gen → parState g s = 1 →
      exec (.parCommit ⟨p, w⟩ (gr, gen)) s = .next (z.setGrp g { k with commit := some gen.toNat }))
    ∧ (∀ rank : Fin 16, k.present.testBit rank.val = true →
      (parState g s = 1 → ∃ t, exec (.parityLoss gr rank) s = .next t ∧ parState g t = 2
        ∧ rd (R.PAR_STAT_LOST g) 0 t = rank.val % 2 ^ (R.PAR_STAT_LOST g).w ∧ RaisedOn .parLoss .par 0 s t
        ∧ t.grp g = { k with present := k.present - 2 ^ rank.val, commit := none, held := [] })
      ∧ (parState g s = 2 ∨ parState g s = 3 → ∃ t, exec (.parityLoss gr rank) s = .next t ∧ parState g t = 4
        ∧ (t.grp g).rebuild = none ∧ (t.grp g).pulls = []))
    ∧ (∀ gen : Word, flag (H.EN .par) 0 s = true → flag (R.PAR_CFG_EN g) 0 s = true → parState g s ≠ 4 →
      ∃ t, exec (.parRebuild gr gen) s = .next t
        ∧ t.grp g = { k with present := 2 ^ parG g s - 1, rebuildAt := some gen.toNat, mine := true } ∧ t.mem = s.mem)
    ∧ (∀ gen : Word, FlitNext p.val 6 w s → parState g s = 1 ∨ parState g s = 2 ∨ parState g s = 3 →
      exec (.rebuild ⟨p, w⟩ (gr, gen)) s = .next (z.setGrp g { k with rebuildAt := some gen.toNat }))
    ∧ (∀ (m : SegMsg) gen s', segTaken (parPort g m.rank.val s) (64 + g) 3 32 m s = some s' → k.rebuild = some gen →
        k.mine = true → k.pulls.contains (m.rank.val, m.tag.toNat, m.seg.toNat) = true → m.poison = 0 →
      ∃ t, exec (.rebuildSegment gr m) s = .next t ∧ (t.grp g).pulls = k.pulls.erase (m.rank.val, m.tag.toNat, m.seg.toNat)
        ∧ t.mem = s.mem)
    ∧ (∀ m : PullMsg, FlitNext p.val 6 w s → parState g s = 3 → m.seq.toNat = rd (R.PAR_COMMIT g) 0 s →
      exec (.redPull ⟨p, w⟩ (.group gr, m)) s
        = .next (parSendSeg g m.rank.val 3 m.tag.toNat m.seq.toNat m.tag.toNat m.seg.toNat
          (z.setGrp g { k with newcomer := some m.rank.val })))

/-- 13 R389 to R392: a write of SNAP_AT arms a snapshot or refuses it; a page of a running snapshot is copied whole before its
first write, or piece by piece in the background, into a stage slot; copied pages drain to the host; CANCEL ends it. -/
def Obligations.Snapshots : Prop :=
  ∀ (s : State),
    (∀ frame : Word, flag (H.EN .snap) 0 s = true → flag (H.APPLY .snap) 0 s = false → s.snap.on = false →
      (snapBadSet s = false → snapNoReserve s = false → ∃ t, exec (.snapshotArm frame) s = .next t
        ∧ t.snap = { s.snap with armed := some frame.toNat } ∧ rd R.SNAP_STAT_STATE 0 t = 1 ∧ rd R.SNAP_AT 0 t = frame.toNat)
      ∧ (snapBadSet s = true → ∃ t, exec (.snapshotArm frame) s = .next t ∧ t.snap = { s.snap with armed := none }
        ∧ rd R.SNAP_STAT_STATE 0 t = 5 ∧ rd R.SNAP_STAT_CAUSE 0 t = 2 ∧ RaisedOn .snapRefused .snap 0 s t)
      ∧ (snapBadSet s = false → snapNoReserve s = true → ∃ t, exec (.snapshotArm frame) s = .next t
        ∧ t.snap = { s.snap with armed := none } ∧ rd R.SNAP_STAT_STATE 0 t = 5 ∧ rd R.SNAP_STAT_CAUSE 0 t = 3))
    ∧ (∀ (c : CoreId) (pg : Fin 2048), inService s = true → s.snap.on = true → protectedPage c.val pg.val s = true →
      let p := posOf c.val
      let n := mgetD c.val 0 s.snap.firsts
      let from_ := pg.val * 65536
      (∀ slot, mget (snapKey c.val pg.val) s.snap.pages = none → freeStage c.val s = some slot → n < (s.core c.val).cfg.ps →
          s.snap.stage + slot < 2048 → s.snap.stage + slot ≠ pg.val →
        let dest := (s.snap.stage + slot) * 65536
        ∃ t, exec (.firstWriteCopy c pg) s = .next t
          ∧ mget (snapKey c.val pg.val) t.snap.pages = some ⟨slot, 16, false⟩ ∧ mgetD c.val 0 t.snap.firsts = n + 1
          ∧ (∀ i, i < 65536 → readByte p (dest + i) t = readByte p (from_ + i) s)
          ∧ (∀ q x, x < 2 ^ 29 → ¬(q = p ∧ dest ≤ x ∧ x < dest + 65536) → readByte q x t = readByte q x s)
          ∧ rd R.SNAP_TOUCHED 0 t = min (rd R.SNAP_TOUCHED 0 s + 1) (2 ^ R.SNAP_TOUCHED.w - 1))
      ∧ ((s.core c.val).cfg.ps ≤ n → ∃ t, exec (.firstWriteCopy c pg) s = .next t ∧ t.snap.on = false ∧ t.snap.pages = []
          ∧ rd R.SNAP_STAT_STATE 0 t = 4 ∧ rd R.SNAP_STAT_CAUSE 0 t = 1 ∧ t.mem = s.mem)
      ∧ (∀ errs slot pieces, copierPage c.val s = some pg.val →
          ((mget (snapKey c.val pg.val) s.snap.pages = some ⟨slot, pieces, false⟩ ∧ pieces < 16)
            ∨ (mget (snapKey c.val pg.val) s.snap.pages = none ∧ pieces = 0 ∧ (slotsUsed c.val s).length + 4 ≤ s.snap.count
              ∧ freeStage c.val s = some slot)) →
          portIdle p (pageLayer pg.val) s = true → portIdle p (pageLayer (s.snap.stage + slot)) s = true →
          s.snap.stage + slot < 2048 → s.snap.stage + slot ≠ pg.val →
        let dest := (s.snap.stage + slot) * 65536 + 4096 * pieces
        ∃ t, exec (.backgroundCopy (c, errs)) s = .next t
          ∧ mget (snapKey c.val pg.val) t.snap.pages = some ⟨slot, pieces + 1, false⟩
          ∧ rd R.SNAP_COPIED 0 t = (if pieces + 1 = 16 then min (rd R.SNAP_COPIED 0 s + 1) (2 ^ R.SNAP_COPIED.w - 1)
            else rd R.SNAP_COPIED 0 s)
          ∧ (∀ i, i < 4096 → readByte p (dest + i) t = readByte p (from_ + 4096 * pieces + i) s)
          ∧ (∀ q x, x < 2 ^ 29 → ¬(q = p ∧ dest ≤ x ∧ x < dest + 4096) → readByte q x t = readByte q x s)))
    ∧ (∀ (c : CoreId) k q, inService s = true → s.snap.on = true →
        s.snap.pages.find? (fun e => decide (e.1 / 2048 = c.val) && decide (e.2.pieces = 16) && !e.2.drained) = some (k, q) →
        flag R.SNAP_CTRL_DEST 0 s = false →
        (∀ i, i < 16 → dmaOk true (rd R.SNAP_DEST 0 s + (imageOffset c.val (k % 2048) s.snap.descs 0 0).1 + 4096 * i) 4096 s = true) →
      ∃ t, exec (.snapshotDrain c) s = .next t ∧ mget k t.snap.pages = some { q with drained := true }
        ∧ rd R.SNAP_DRAINED 0 t = min (rd R.SNAP_DRAINED 0 s + 1) (2 ^ R.SNAP_DRAINED.w - 1) ∧ t.mem = s.mem
        ∧ ∀ i, i < 16 → Sent (.dmaWr (rd R.SNAP_DEST 0 s + (imageOffset c.val (k % 2048) s.snap.descs 0 0).1 + 4096 * i)
            (readBytes (posOf c.val) ((s.snap.stage + q.slot) * 65536 + 4096 * i) 4096 s)) t)
    ∧ (flag (H.EN .snap) 0 s = true → s.snap.on = true ∨ s.snap.armed.isSome = true →
      ∃ t, exec .snapshotCancel s = .next t ∧ t.snap = { s.snap with on := false, armed := none, pages := [] }
        ∧ rd R.SNAP_STAT_STATE 0 t = 4 ∧ rd R.SNAP_STAT_CAUSE 0 t = 4 ∧ RaisedOn .snapCancel .snap 0 s t ∧ t.mem = s.mem)

/-! ### Ray ports and the sync group -/

/-- What the link does on taking a sequenced flit of type `t`: it is numbered, acknowledged flits leave the replay buffer, it
occupies its class's buffer, and its credits return, clipped to those outstanding (11 R326 to R328). Beside that port, its
registers and the records of events nothing changes. -/
def LinkTook (p t : Nat) (w : RayWords) (s z : State) : Prop :=
  let k := s.port p
  let held := t ≤ 4
  let out := rd R.RAY_CRD_OUT p s
  z = { s with ray := z.ray, regs := z.regs, evt := z.evt, lastEv := z.lastEv }
    ∧ (∀ q, q ≠ p → z.port q = s.port q)
    ∧ z.port p = { (rayAck p w.ack s).port p with
        rxSeq := (w.seq + 1) % 4096, starved := (z.port p).starved,
        occMain := if held ∧ w.cls ≠ 1 then k.occMain + 1 else k.occMain,
        occRed := if held ∧ w.cls = 1 then k.occRed + 1 else k.occRed }
    ∧ (held → rd R.RAY_BUF_OCC p z = min (rd R.RAY_BUF_OCC p s + 1) (2 ^ R.RAY_BUF_OCC.w - 1))
    ∧ rd R.RAY_CRD_AVAIL p z = min (rd R.RAY_CRD_AVAIL p s + min w.crd out) (2 ^ R.RAY_CRD_AVAIL.w - 1)
    ∧ rd R.RAY_CRD_OUT p z = (out - w.crd) % 2 ^ R.RAY_CRD_OUT.w
    ∧ rd R.RAY_CRD_CLIP p z = (if out < w.crd then min (rd R.RAY_CRD_CLIP p s + (w.crd - out)) (2 ^ R.RAY_CRD_CLIP.w - 1)
        else rd R.RAY_CRD_CLIP p s)
    ∧ ∀ f k, f.pg = .red ∨ f.pg = .par → rd f k z = rd f k s

/-- A NAK of code `code` for the flit waits to be sent; it is counted and raised (11 R350), on its own unless the flit was taken
first and its credits were clipped. -/
def Nakked (p code : Nat) (w : RayWords) (s t : State) : Prop :=
  (t.port p).ctl = (s.port p).ctl ++ [⟨.ctrl, 0, none, .nak code w.seq⟩] ∧ (t.port p).viol = (s.port p).viol + 1
    ∧ rd R.RAY_NAK_TX p t = min (rd R.RAY_NAK_TX p s + 1) (2 ^ R.RAY_NAK_TX.w - 1)
    ∧ ((code ≠ 3 ∧ code ≠ 4) ∨ w.crd ≤ rd R.RAY_CRD_OUT p s → RaisedOn .rayNak .ray p s t)
    ∧ t.mem = s.mem ∧ t.cores = s.cores

/-- The sequenced flits of types 0 to 6, and the commands of the first six and of one management message. -/
def seqRows (p : PortId) (w : RayWords) (src : BitVec 16) (epoch : Word) (ch : ChanId) (m : RosterMsg) : List (Nat × Instr) :=
  [(0, .rayData p w.head w.pay), (1, .rayEmpty p w), (3, .arrData p w.head w.pay), (4, .epochMark p w src epoch), (5, .rayCredit p w),
    (6, .redRoster ⟨p, w⟩ (ch, m))]

/-- 11 R325 to R328, R350: a sequenced flit that is the next expected is taken; one with a bad CRC, one that is malformed or
that the port's role does not carry, and one for a full buffer are answered NAK; one out of order asks for replay, or is a
repeat and dropped; a port that is not UP takes nothing. -/
def RayLinkTakes : Prop :=
  ∀ (p : PortId) (w : RayWords) (s : State), Linked s →
    let q := s.port p.val
    let d := (w.seq + 4096 - q.rxSeq) % 4096
    (∀ t, t ≤ 6 → FlitNext p.val t w s → (rayRx p.val t w s).1 = true ∧ LinkTook p.val t w s (linkTake p.val t w s))
    ∧ ∀ (src : BitVec 16) (epoch : Word) (ch : ChanId) (m : RosterMsg) t i, (t, i) ∈ seqRows p w src epoch ch m →
      (rayUp p.val s = false → exec i s = .next s)
      ∧ (rayUp p.val s = true → crcGood w = false → ∃ z, exec i s = .next z ∧ Nakked p.val 1 w s z ∧ (z.port p.val).rxSeq = q.rxSeq)
      ∧ (rayUp p.val s = true → crcGood w = true →
          (w.type ≠ t ∨ w.bits 7 1 ≠ 0 ∨ typeCls t w.cls = false ∨ roleCarries p.val (clsOf w.cls) s = false) →
        ∃ z, exec i s = .next z ∧ Nakked p.val 2 w s z ∧ (z.port p.val).rxSeq = q.rxSeq)
      ∧ (FlitGood p.val t w s → w.seq = q.rxSeq → t ≤ 4 → classFull p.val (decide (w.cls = 1)) s = true →
        ∃ z, exec i s = .next z ∧ Nakked p.val 5 w s z ∧ (z.port p.val).rxSeq = q.rxSeq)
      ∧ (FlitGood p.val t w s → 0 < d →
        ∃ z, exec i s = .next z ∧ (z.port p.val).rxSeq = q.rxSeq ∧ z.regs = s.regs
          ∧ (z.port p.val).ctl = q.ctl ++ (if d < 2048 then [⟨.ctrl, 0, none, .replayReq q.rxSeq⟩] else []))

/-- 11 R326, R332 to R336, R350: a mesh flit in order is held for the release of its due frame, or for the channels if it is RED;
handed to its transit port; or late and counted, unless its release has been missed; one without a stream is answered NAK. -/
def RayMeshFlits : Prop :=
  ∀ (p : PortId) (w : RayWords) (s : State), Linked s →
    let q := s.port p.val
    let n := tagFrame w.tag s
    ∀ (i : Instr) (ty : Nat) (f : Flit),
      (i, ty, f) ∈ [(Instr.rayData p w.head w.pay, 0, (⟨true, w.poison, 0, 0, w.pay, none⟩ : Flit)), (.rayEmpty p w, 1, Flit.none)] →
      FlitNext p.val ty w s →
      (∀ x hops, streamOf p.val w.stream n s = some (x, hops) → x % 2 = 0 →
        let due := n + 1 + hops
        (w.cls = 1 → ∃ t, exec i s = .next t ∧ (t.port p.val).redHeld = q.redHeld + 1
          ∧ (t.port p.val).redq = q.redq ++ [(w.stream, f)] ∧ (t.port p.val).rx = q.rx)
        ∧ (w.cls = 0 → q.missed.contains (w.stream, due) = true →
          ∃ t, exec i s = .next t ∧ (t.port p.val).rx = q.rx ∧ (t.port p.val).occMain = q.occMain
            ∧ (t.port p.val).missed = q.missed.erase (w.stream, due) ∧ rd R.RAY_LATE p.val t = rd R.RAY_LATE p.val s)
        ∧ (w.cls = 0 → q.missed.contains (w.stream, due) = false →
          (groupFrame s ≤ due → ∃ t, exec i s = .next t ∧ (t.port p.val).rx = q.rx ++ [⟨false, w.stream, due, f⟩]
            ∧ (t.port p.val).rxSeq = (w.seq + 1) % 4096 ∧ (t.port p.val).occMain = q.occMain + 1
            ∧ rd R.RAY_BUF_OCC p.val t = min (rd R.RAY_BUF_OCC p.val s + 1) (2 ^ R.RAY_BUF_OCC.w - 1)
            ∧ t.cores = s.cores ∧ t.mem = s.mem)
          ∧ (due < groupFrame s → ∃ t, exec i s = .next t ∧ (t.port p.val).rx = q.rx ∧ (t.port p.val).occMain = q.occMain
            ∧ rd R.RAY_LATE p.val t = min (rd R.RAY_LATE p.val s + 1) (2 ^ R.RAY_LATE.w - 1))))
      ∧ (∀ x hops, streamOf p.val w.stream n s = some (x, hops) → x % 2 = 1 →
        ∃ t, exec i s = .next t ∧ (t.port (bitsAt x 1 5)).transit = (s.port (bitsAt x 1 5)).transit
          ++ [⟨p.val, n + hops, ⟨if w.cls = 1 then .red else .slot, bitsAt x 6 5, some w.tag, .mesh f⟩⟩])
      ∧ (streamOf p.val w.stream n s = none →
        ∃ t, exec i s = .next t ∧ (t.port p.val).rx = q.rx ∧ Nakked p.val 3 w s t)

/-- 11 R327, R328, R340: the link's own flits: credits return, clipped to those outstanding; an acknowledged flit leaves the
replay buffer with all before it; NAK and REPLAY_REQ start a resend; the leader's beacon is adopted, and a joining member takes
its frame; a proposal is merged at the leader; a beacon from the wrong side is answered NAK. -/
def Obligations.RayControlFlits : Prop :=
  ∀ (p : PortId) (w : RayWords) (s : State), Linked s →
    let q := s.port p.val
    let r := ((rayAck p.val w.ack s).port p.val).replay
    let f := bitsAt w.pay.toNat 0 64
    let len := bitsAt w.pay.toNat 64 16
    (FlitNext p.val 5 w s → ∃ t, exec (.rayCredit p w) s = .next t ∧ LinkTook p.val 5 w s t)
    ∧ (FlitGood p.val 7 w s → ∀ pre x post, q.replay = pre ++ (w.ack, x) :: post → (∀ g ∈ pre, g.1 ≠ w.ack) →
        ∃ t, exec (.rayAckOnly p w) s = .next t ∧ t = { s with ray := t.ray } ∧ (t.port p.val).replay = post)
    ∧ (FlitGood p.val 8 w s → r ≠ [] → ∀ (said : BitVec 20) (rest : BitVec 1004), w.pay = rest ++ said →
        ∃ t, exec (.rayNak p w.head said rest) s = .next t ∧ (t.port p.val).replay = r
        ∧ (t.port p.val).resend = r.length ∧ RaisedOn .rayReplay .ray p.val s t)
    ∧ (FlitGood p.val 9 w s → ∀ pre x post, r = pre ++ (bitsAt w.pay.toNat 0 12, x) :: post →
        (∀ g ∈ pre, g.1 ≠ bitsAt w.pay.toNat 0 12) →
        ∃ t, exec (.rayReplayReq p w.head w.pay) s = .next t ∧ (t.port p.val).replay = r ∧ (t.port p.val).resend = post.length + 1)
    ∧ (FlitGood p.val 10 w s → ∀ (k : BitVec 4) (test : Bool),
      let said : Agreed := ⟨len, k.toNat, test⟩
      (towardLeader p.val s = true → (∀ g, s.sync.beacon = some g → g < f) →
        ∃ t, exec (.beacon p w (false, k, test)) s = .next t
          ∧ t.sync = { s.sync with beacon := some f, delay := bitsAt w.pay.toNat 80 32, heard := true,
                                   adopted := mput (f + syncD s - 1) said s.sync.adopted }
          ∧ (flag R.GLB_SYNC_STAT_JOINING 0 s = false → t.regs = s.regs)
          ∧ (flag R.GLB_SYNC_STAT_JOINING 0 s = true → flag R.GLB_SYNC_STAT_JOINING 0 t = false
            ∧ syncLevel t = s.img.level % 2 ^ R.GLB_SYNC_LEVEL.w ∧ groupFrame t = (f - 1) % 2 ^ R.GLB_GROUP_FRAME.w))
      ∧ (towardLeader p.val s = false → isLeader s = true →
        ∃ t, exec (.beacon p w (true, k, test)) s = .next t ∧ t.regs = s.regs
          ∧ mgetD f ⟨0, 0, false⟩ t.sync.proposals = Agreed.max said (mgetD f ⟨0, 0, false⟩ s.sync.proposals))
      ∧ (∀ proposal, proposal = towardLeader p.val s →
        ∃ t, exec (.beacon p w (proposal, k, test)) s = .next t ∧ t.sync = s.sync ∧ Nakked p.val 6 w s t))

/-- 11 R324, R344 to R346, R350: array flits in order: a descriptor opens a transfer, or is answered NAK if it breaks the
limits; one for another device goes on; data for this device join the inbound buffer of its shaft; a mark waits for the transfers
before it. Epochs close in order. A codeword that the FEC cannot correct is counted. What a descriptor's payload spells is the
model's free value (entry 23), so that its clauses hold for whichever descriptor it is. -/
def RayArrayFlits : Prop :=
  ∀ (p : PortId) (w : RayWords) (s : State), Linked s →
    let q := s.port p.val
    exec (.arrDesc p w.head w.pay) s = .next (arrDescRx p.val w (arrDescOf w.pay) s)
    ∧ (∀ d, q.rxArr = [] →
      let t := arrDescRx p.val w d s
      (FlitNext p.val 2 w s → descOk d s = true → d.dev.toNat = devId s →
        (t.port p.val).cur = some ⟨some d, (d.granules + 3) / 4, 0⟩
          ∧ (t.port p.val).rxArr = [] ∧ (t.port p.val).occMain = q.occMain ∧ (t.port p.val).rxSeq = (w.seq + 1) % 4096)
      ∧ (FlitNext p.val 2 w s → descOk d s = true → d.dev.toNat ≠ devId s → ∀ z, onward p.val s = some z → arrRoom z s = true →
        (t.port p.val).rxArr = []
          ∧ (t.port z).arrq = (s.port z).arrq ++ [⟨.array, w.stream, some w.tag, .desc d⟩])
      ∧ (FlitNext p.val 2 w s → descOk d s = false →
        (t.port p.val).cur = some ⟨none, (d.granules + 3) / 4, 0⟩ ∧ Nakked p.val 4 w s t))
    ∧ (q.rxArr = [] →
      (FlitNext p.val 3 w s → ∀ e left at_, q.cur = some ⟨some e, left, at_⟩ → e.dev.toNat = devId s →
          (s.shaft (posOf e.core)).inbox + 4 ≤ 2048 →
        ∃ t, exec (.arrData p w.head w.pay) s = .next t
          ∧ (t.shaft (posOf e.core)).inbox = (s.shaft (posOf e.core)).inbox + min 4 (e.granules - at_)
          ∧ (t.port p.val).cur = (if left ≤ 1 then none else some ⟨some e, left - 1, at_ + 4⟩) ∧ t.mem = s.mem)
      ∧ (FlitNext p.val 4 w s → ∀ (src : BitVec 16) (e : Word),
        (src.toNat ≠ devId s → (∀ z, onward p.val s = some z → arrRoom z s = true) →
          ∃ t, exec (.epochMark p w src e) s = .next t
            ∧ (t.port p.val).marks = q.marks ++ [(src.toNat / 512, e.toNat, s.sync.xfer + 1)])
        ∧ (src.toNat = devId s →
          ∃ t, exec (.epochMark p w src e) s = .next t ∧ (t.port p.val).marks = q.marks ∧ (t.port p.val).rxArr = [])))
    ∧ (∀ e : Word, flag (H.EN .ray) p.val s = true →
      (rayZ p.val s = true → q.epoch < e.toNat → exec (.epochClose p e) s = .next (s.setPort p.val { q with
          epoch := e.toNat,
          arrq := q.arrq ++ [⟨.array, 0, none, .mark (devId s) e.toNat⟩] }))
      ∧ (rayZ p.val s = true → e.toNat ≤ q.epoch →
        ∃ t, exec (.epochClose p e) s = .next t ∧ t.ray = s.ray ∧ RaisedOn .epochOrder .ray p.val s t)
      ∧ (rayZ p.val s = false → exec (.epochClose p e) s = .next s))
    ∧ exec (.fecUncorrectableCodeword (some p)) s = .next (bump R.RAY_FEC_UNCORR p.val 1 s)
    ∧ exec (.fecUncorrectableCodeword none) s = .next (bump R.ABA_FEC_UNCORR 0 1 s)

/-- 11 R325, R327, R328, R335, R336: a port that is UP sends unsequenced flits first, then resends with the number and the credits
of the first sending, then its next flit with the next sequence number and the credits it owes, for a credit; a transit flit leaves
in its frame before the fix window, or is late and counted. -/
def RaySending : Prop :=
  ∀ (p : PortId) (s : State),
    let q := s.port p.val
    let ack := (q.rxSeq + 4095) % 4096
    (∀ f rest, Linked s → rayUp p.val s = true → q.ctl = [] → q.resend = 0 → dueTransit p.val s = none → q.sendq = f :: rest →
        mayFirst p.val f.cls s = true →
      ∃ t, exec (.raySend p) s = .next t ∧ (t.port p.val).sendq = rest ∧ (t.port p.val).txSeq = (q.txSeq + 1) % 4096
        ∧ (t.port p.val).replay = q.replay ++ [(q.txSeq, min q.owed 127, f.stamp s)] ∧ (t.port p.val).owed = q.owed - min q.owed 127
        ∧ (t.port p.val).wire = some (raySent (some q.txSeq) ack (min q.owed 127) (f.stamp s))
        ∧ (f.cls ≠ .ctrl → rd R.RAY_CRD_AVAIL p.val t = (rd R.RAY_CRD_AVAIL p.val s - 1) % 2 ^ R.RAY_CRD_AVAIL.w
          ∧ rd R.RAY_CRD_OUT p.val t = min (rd R.RAY_CRD_OUT p.val s + 1) (2 ^ R.RAY_CRD_OUT.w - 1)))
    ∧ (∀ f rest, Linked s → rayUp p.val s = true → q.ctl = [] → q.resend = 0 → dueTransit p.val s = none → q.sendq = f :: rest →
        mayFirst p.val f.cls s = false → exec (.raySend p) s = .next s)
    ∧ (∀ f rest, Linked s → rayUp p.val s = true → q.ctl = f :: rest →
      exec (.raySend p) s = .next (s.setPort p.val { q with ctl := rest, wire := some (raySent none ack 0 (f.stamp s)) }))
    ∧ (∀ pre n c f post, Linked s → rayUp p.val s = true → q.ctl = [] → q.replay = pre ++ (n, c, f) :: post →
        q.resend = post.length + 1 →
      ∃ t, exec (.raySend p) s = .next t ∧ (t.port p.val).resend = post.length ∧ (t.port p.val).replay = q.replay
        ∧ (t.port p.val).wire = some (raySent (some n) ack c f)
        ∧ rd R.RAY_REPLAY p.val t = min (rd R.RAY_REPLAY p.val s + 1) (2 ^ R.RAY_REPLAY.w - 1))
    ∧ (∀ x i, inService s = true → dueTransit p.val s = some x →
        (i = .transitForward p ∨ (i = .raySend p ∧ rayUp p.val s = true ∧ q.ctl = [] ∧ q.resend = 0)) →
      (inFix s = false → groupFrame s ≤ x.due → rayUp p.val s = true → mayFirst p.val x.flit.cls s = true →
        ∃ t, exec i s = .next t ∧ (t.port p.val).transit = q.transit.erase x
          ∧ (t.port p.val).wire.map (fun w => w.flit) = some (x.flit.stamp s))
      ∧ (inFix s = true ∨ x.due < groupFrame s →
        ∃ t, exec i s = .next t ∧ (t.port p.val).transit = q.transit.erase x ∧ (t.port p.val).wire = q.wire
          ∧ rd R.RAY_LATE x.inPort t = min (rd R.RAY_LATE x.inPort s + 1) (2 ^ R.RAY_LATE.w - 1)))

/-- 11 R330, R347 to R353; 18 R496: training to UP, degraded or failed, with the port's identity sent; retraining, fencing,
its end; DISABLE; a violation window counts starvation as one violation. After a change of a port the contact sheet is looked
at again, where it waits or is held (`sheetAgain`). -/
def RayTraining : Prop :=
  ∀ (p : PortId) (s : State),
    let st := rayState p.val s
    let q := s.port p.val
    let recent := q.retrains.filter (fun t => decide (s.timebase < t + 1000000000))
    let starving := !q.arrq.isEmpty && decide (rd R.RAY_CRD_AVAIL p.val s = 0)
    let viol := q.viol + (if q.starved && starving then 1 else 0)
    (∀ x : TrainRes, Linked s → st = 1 ∨ st = 3 →
      let narrow := x.width.toNat < rd R.RAY_CTRL_EXP_WIDTH p.val s + 1
      (x.width ≠ 0 → (x.latency.toNat ≤ 1500 ∨ 5 < rayRole p.val s) → wrongPartner p.val x s = false →
          (narrow → flag R.RAY_CTRL_STRICT p.val s = false ∨ s.released = false) →
        ∃ t, exec (.rayTraining p x) s = .next (sheetAgain t) ∧ rayState p.val t = 2 ∧ rd R.RAY_STAT_WIDTH p.val t = x.width.toNat
          ∧ rd R.RAY_LAT p.val t = x.latency.toNat ∧ rd R.RAY_STAT_PARTNER_ID p.val t = x.partner.toNat
          ∧ (rd R.RAY_STAT_DEGRADED p.val t = 1 ↔ narrow) ∧ (t.port p.val).known = true ∧ (t.port p.val).prole = x.role.toNat
          ∧ (t.port p.val).wire.map (fun w => w.flit)
            = some ⟨.ctrl, 0, some (groupFrame s % 16), .mgmt (.ident (devId s) p.val (rayRole p.val s))⟩
          ∧ (st = 1 → (t.port p.val).txSeq = 0 ∧ (t.port p.val).rxSeq = 0 ∧ rd R.RAY_CRD_AVAIL p.val t = 16384))
      ∧ (x.width ≠ 0 → (x.latency.toNat ≤ 1500 ∨ 5 < rayRole p.val s) → wrongPartner p.val x s = true →
        ∃ t, exec (.rayTraining p x) s = .next (sheetAgain t) ∧ rayState p.val t = 4 ∧ RaisedOn .rayFenced .ray p.val s t)
      ∧ (x.width = 0 ∨ (1500 < x.latency.toNat ∧ rayRole p.val s ≤ 5) →
        ∃ t, exec (.rayTraining p x) s = .next (sheetAgain t) ∧ rayState p.val t = 0 ∧ RaisedOn .rayTrainFail .ray p.val s t))
    ∧ (Awake s → st = 1 ∨ st = 3 → ∃ t, exec (.rayTrainLimit p) s = .next (sheetAgain t) ∧ rayState p.val t = 0
      ∧ RaisedOn .rayTrainFail .ray p.val s t)
    ∧ (Awake s → st = 0 → rayRole p.val s ≠ 0 → flag R.RAY_CTRL_DISABLE p.val s = false → 4 ≤ rd R.BOOT_STAT_STATE 0 s →
        rd R.BOOT_STAT_STATE 0 s ≠ 9 →
      exec (.rayTrainRetry p) s = .next (sheetAgain (wr R.RAY_STAT_STATE p.val 1 s)))
    ∧ (∀ i, (i = .retrain p ∧ flag (H.EN .ray) p.val s = true) ∨ (i = .partnerTraining p ∧ Linked s) → st = 2 →
      (recent.length < rd R.RAY_THRESH_RETRAINS p.val s → ∃ t, exec i s = .next t ∧ rayState p.val t = 3
        ∧ (t.port p.val).retrains = recent ++ [s.timebase] ∧ RaisedOn .rayRetrain .ray p.val s t)
      ∧ (rd R.RAY_THRESH_RETRAINS p.val s ≤ recent.length → ∃ t, exec i s = .next t ∧ rayState p.val t = 4
        ∧ RaisedOn .rayFenced .ray p.val s t))
    ∧ (Linked s → viol ≤ rd R.RAY_THRESH_VIOL p.val s →
      ∃ t, exec (.rayViolationWindow p) s = .next t ∧ (t.port p.val).viol = 0 ∧ (t.port p.val).starved = starving ∧ t.regs = s.regs)
    ∧ (Linked s → rd R.RAY_THRESH_VIOL p.val s < viol → st = 2 → recent.length < rd R.RAY_THRESH_RETRAINS p.val s →
      ∃ t, exec (.rayViolationWindow p) s = .next t ∧ (t.port p.val).viol = 0 ∧ rayState p.val t = 3)
    ∧ (flag (H.EN .ray) p.val s = true → st = 4 → rayRole p.val s ≠ 0 → flag R.RAY_CTRL_DISABLE p.val s = false →
        4 ≤ rd R.BOOT_STAT_STATE 0 s → rd R.BOOT_STAT_STATE 0 s ≠ 9 →
      exec (.unfence p) s = .next (wr R.RAY_STAT_STATE p.val 1 s))
    ∧ (flag (H.EN .ray) p.val s = true → (flag (H.APPLY .ray) p.val s && ticksRun s) = false →
      exec (.disable p false) s = .next (sheetAgain (wr R.RAY_CTRL_DISABLE p.val 0 s))
      ∧ ∃ t, exec (.disable p true) s = .next (sheetAgain t) ∧ flag R.RAY_CTRL_DISABLE p.val t = true
        ∧ rayState p.val t = (if st = 4 then 4 else 0))

/-- 01 R49, R54; 11 R338, R339, R342, R343: a SHUTTER edge ticks a board member; a member that has lost its group goes on as a
group of one; it rejoins, or gives up; a route-set swap is armed or late; the host view is held and released at ticks. -/
def Obligations.SyncGroup : Prop :=
  ∀ (s : State),
    (∀ (env : TickEnv) (skew : BitVec 8), inService s = true → isLeader s = false → syncLevel s ≠ 0 → s.acts = [] →
      ∃ t, exec (.shutterEdge false skew env) s = .next t ∧ t.frame = (s.frame + 1) % 2 ^ 64)
    ∧ (Awake s → syncLevel s ≠ 0 → isLeader s = false →
      ∃ t, exec .syncLoss s = .next t ∧ syncLevel t = 0 ∧ isLeader t = false ∧ RaisedOn .syncLost .glb 0 s t ∧ t.sync = s.sync)
    ∧ (flag (H.EN .glb) 0 s = true → syncLevel s = 0 → s.img.level ≠ 0 →
      ∃ t, exec .rejoin s = .next t ∧ flag R.GLB_SYNC_STAT_JOINING 0 t = true ∧ t.sync = { s.sync with beacon := none })
    ∧ (Awake s → flag R.GLB_SYNC_STAT_JOINING 0 s = true →
      ∃ t, exec .rejoinLimit s = .next t ∧ flag R.GLB_SYNC_STAT_JOINING 0 t = false ∧ syncLevel t = 0
        ∧ RaisedOn .rejoinFail .glb 0 s t)
    ∧ (∀ frame : Word, flag (H.EN .glb) 0 s = true → flag (H.APPLY .glb) 0 s = false →
      let d := (frame.toNat + 2 ^ 32 - groupFrame s % 2 ^ 32) % 2 ^ 32
      (0 < d → d < 2 ^ 31 → ∃ t, exec (.routeSwapArm frame) s = .next t ∧ t.sync = { s.sync with swapAt := some (groupFrame s + d) }
        ∧ rd R.GLB_ROUTE_AT 0 t = frame.toNat)
      ∧ (d = 0 ∨ 2 ^ 31 ≤ d → ∃ t, exec (.routeSwapArm frame) s = .next t ∧ t.sync = s.sync
        ∧ RaisedOn .routeSwapLate .glb 0 s t))
    ∧ (∀ on : Bool, flag (H.EN .glb) 0 s = true → flag (H.APPLY .glb) 0 s = false →
      ∃ t, exec (.viewHold on) s = .next t ∧ Queued (.viewHold on) s t ∧ rd R.GLB_VIEW_CTRL_HOLD 0 t = on.toNat ∧ t.view = s.view)
    ∧ (Awake s → flag R.GLB_VIEW_CTRL_HELD 0 s = true →
      ∃ t, exec .viewHoldExpiry s = .next t ∧ Queued (.viewHold false) s t ∧ rd R.GLB_VIEW_CTRL_HOLD 0 t = 0
        ∧ RaisedOn .viewHoldExpired .glb 0 s t)

/-- Flits that arrive: the link, mesh flits and array flits. -/
def Obligations.RayData : Prop := RayLinkTakes ∧ RayMeshFlits ∧ RayArrayFlits

/-- Flits that a port sends, and how it trains. -/
def Obligations.RayLinks : Prop := RaySending ∧ RayTraining

/-! ### Plates, rings and results (14 R397 to R424) -/

/-- The record of ring r's next completion can be written. -/
def RecordFits (r : Nat) (s : State) : Prop :=
  dmaOk true (rd R.RING_CQ r s + (s.ring r).cons % ringSize r s * 32) 32 s = true

/-- Entry e of ring r completed with a status and a cause (14 R416, R418): it has left the ring; its 32-byte record goes to
position CONS of the completion queue, if the DMA windows let it, and CONS counts. -/
def Completed (r : Nat) (e : REntry) (status cause : Nat) (s t : State) : Prop :=
  (t.ring r).queue = (s.ring r).queue.filter (fun x => decide (x.idx ≠ e.idx)) ∧ t.mem = s.mem
    ∧ (let a := rd R.RING_CQ r s + (s.ring r).cons % ringSize r s * 32
       RecordFits r s →
        Sent (.dmaWr a (recordBytes e ⟨status, cause, 0, 0, s.frame, (match mget e.tag s.apt.energy with
          | some n => n / 1000
          | none => 0), 0⟩)) t
        ∧ (t.ring r).cons = (s.ring r).cons + 1)

/-- Entry e of ring r is held, and nothing else of rings, plates and memory changed (14 R415). -/
def Held (r : Nat) (e : REntry) (s t : State) : Prop :=
  (t.ring r).queue = (s.ring r).queue.map (fun x => if x.idx = e.idx then { x with held := true } else x)
    ∧ t.plates = s.plates ∧ t.slots = s.slots ∧ t.mem = s.mem

/-- Entry e of ring r has started. -/
def Started (r : Nat) (e : REntry) (s t : State) : Prop :=
  (t.ring r).queue = (s.ring r).queue.map (fun x => if x.idx = e.idx then { x with started := true, held := false } else x)
    ∧ t.mem = s.mem

/-- Ring r runs and its engine comes to entry e, which has not started and which no BARRIER holds (14 R414, R415, R419). -/
def AtEntry (r op : Nat) (e : REntry) (s : State) : Prop :=
  inService s = true ∧ ringRuns r s = true ∧ (s.ring r).head = some e ∧ findEntry r e.idx s = some e ∧ e.op = op
    ∧ e.barrier = false ∧ e.buf = []

/-- 14 R401, R404, R408, R412, R413, R415: LOAD, UNLOAD, STOP, WAIT and SETLR entries: each starts, completes or is held. -/
def Obligations.RingEntries : Prop :=
  ∀ (r : RingId) (e : REntry) (s : State),
    let k := s.plate e.plate
    (AtEntry r.val 1 e s → failed s = false →
      (e.length = 0 ∨ 2 ^ 26 < e.length →
        ∃ t, exec (.plateLoad r) s = .next t ∧ Completed r.val e 0x13 2 s t ∧ t.plates = s.plates
          ∧ (RecordFits r.val s → RaisedOn .loadRefused .ring 0 s t))
      ∧ (let n := min e.length (4096 - e.addr % 4096)
         0 < e.length → e.length ≤ 2 ^ 26 → dmaOk false e.addr n s = true →
        ∃ t tag, exec (.plateLoad r) s = .next t ∧ Started r.val e s t ∧ t.aba.dmas = s.aba.dmas ++ [⟨tag, e.addr, n, .entry r.val e.idx⟩]
          ∧ Sent (.dmaRd tag e.addr n) t ∧ t.plates = s.plates))
    ∧ (AtEntry r.val 3 e s →
      (k.st = .free ∨ k.unload = true → ∃ t, exec (.plateUnload r) s = .next t ∧ Completed r.val e 0x10 0 s t ∧ t.plates = s.plates)
      ∧ (k.unload = false → (k.st = .loading ∨ (k.st ≠ .free ∧ k.job.isSome = true)) →
        ∃ t, exec (.plateUnload r) s = .next t ∧ Held r.val e s t)
      ∧ (k.unload = false → (k.st = .loaded ∨ k.st = .running) → k.job = none →
        ∃ t, exec (.plateUnload r) s = .next t ∧ Started r.val e s t ∧ Queued (.unload e.plate) s t
          ∧ t.plate e.plate = { k with unload := true, loader := some (r.val, e.idx, 0) }
          ∧ ∀ p, p ≠ e.plate → t.plate p = s.plate p))
    ∧ (AtEntry r.val 4 e s →
      ((∀ j, k.job = some j → j.tag ≠ e.tag) → ∃ t, exec (.plateStop r) s = .next t ∧ Completed r.val e 0x11 0 s t ∧ t.plates = s.plates)
      ∧ (∀ m j, k.img = some m → k.job = some j → j.tag = e.tag →
        ∃ t, exec (.plateStop r) s = .next t ∧ Queued (.stopPlate e.plate 2 0) s t
          ∧ (t.plate e.plate).job = some { j with stops := j.stops ++ [(r.val, e.idx)] } ∧ t.mem = s.mem))
    ∧ (AtEntry r.val 5 e s →
      let ahead := (waitValue e s + 2 ^ 32 - e.target) % 2 ^ 32
      (ahead < 2 ^ 31 → ∃ t, exec (.ringWait r) s = .next t ∧ Completed r.val e 0 0 s t ∧ t.plates = s.plates)
      ∧ (2 ^ 31 ≤ ahead → ∃ t, exec (.ringWait r) s = .next t ∧ Held r.val e s t))
    ∧ (AtEntry r.val 6 e s →
      (k.active = none ∨ k.unload = true → ∃ t, exec (.setlr r) s = .next t ∧ Completed r.val e 0x10 0 s t ∧ t.plates = s.plates)
      ∧ (let n := min (4 * lrCount e) (4096 - e.addr % 4096)
         k.active.isSome = true → k.unload = false → lrCount e ≠ 0 → dmaOk false e.addr n s = true →
        ∃ t tag, exec (.setlr r) s = .next t ∧ Started r.val e s t ∧ t.aba.dmas = s.aba.dmas ++ [⟨tag, e.addr, n, .entry r.val e.idx⟩]
          ∧ t.plates = s.plates))
    ∧ (Awake s → ringRuns r.val s = true → (s.ring r.val).head = some e → findEntry r.val e.idx s = some e → e.held = true →
        ∃ t, exec (.ringWaitTimeout r) s = .next t ∧ Completed r.val e 0x18 0 s t ∧ t.plates = s.plates
          ∧ (RecordFits r.val s → RaisedOn .ringWaitTimeout .ring 0 s t))
    ∧ (inService s = true → ringRuns r.val s = true → (s.ring r.val).head = some e → e.barrier = true →
        (s.ring r.val).queue.any (fun x => x.started) = true →
        ∀ op i, (op, i) ∈ [(1, Instr.plateLoad r), (2, .plateLaunch r), (3, .plateUnload r), (4, .plateStop r), (5, .ringWait r),
            (6, .setlr r)] → e.op = op →
          ∃ t, exec i s = .next t ∧ Held r.val e s t)

/-- 14 R405: a LAUNCH entry is checked in the order of R405 and stages its job, or is held while the plate's job runs, or
completes with the status of the first check that fails. -/
def Obligations.Launch : Prop :=
  ∀ (r : RingId) (e : REntry) (s : State), AtEntry r.val 2 e s → failed s = false →
    let k := s.plate e.plate
    let Refused (status : Nat) : Prop :=
      ∃ t, exec (.plateLaunch r) s = .next t ∧ Completed r.val e status 0 s t ∧ t.plates = s.plates ∧ t.slots = s.slots
        ∧ (RecordFits r.val s → RaisedOn .launchRefused .ring 0 s t)
    (k.img = none → Refused 0x10)
    ∧ (∀ m, k.img = some m →
      (k.active = none ∨ k.unload = true ∨ m.entries ≤ e.entry → Refused 0x10)
      ∧ (k.active.isSome = true → k.unload = false → e.entry < m.entries →
        (k.job.isSome = true → ∃ t, exec (.plateLaunch r) s = .next t ∧ Held r.val e s t)
        ∧ (k.job = none → testBars m s = false →
          (badHole m s = true → Refused 0x14)
          ∧ (badHole m s = false → linkShort m s = true → Refused 0x15)
          ∧ (badHole m s = false → linkShort m s = false → snapBars m s = true → Refused 0x16)
          ∧ (badHole m s = false → linkShort m s = false → snapBars m s = false → e.noSlot = false → slotBusy e.slot s = true →
              Refused 0x17)
          ∧ (badHole m s = false → linkShort m s = false → snapBars m s = false → (e.noSlot = true ∨ slotBusy e.slot s = false) →
            ∃ t j, exec (.plateLaunch r) s = .next t ∧ Started r.val e s t
              ∧ t.plate e.plate = { k with st := .running, job := some j }
              ∧ j.tag = e.tag ∧ j.entry = e.entry ∧ j.seed = e.addr ∧ j.args = e.args
              ∧ j.slot = (if e.noSlot then none else some e.slot)
              ∧ j.fill = fillCount m (16 * layerCount m) ∧ j.begun = false ∧ j.slices = 0 ∧ j.ring = r.val ∧ j.idx = e.idx
              ∧ (∀ p, p ≠ e.plate → t.plate p = s.plate p) ∧ t.slots = s.slots))))

/-- 14 R414, R419, R420, R422: a doorbell keeps the latest value and sets the pending bit; a service takes up to 8
entries of each sampled ring, and faults one whose index is over its size; a reset waits for the tick; a read of a FIXED
slot marks it read. -/
def Obligations.RingsAndSlots : Prop :=
  ∀ (s : State),
    (∀ (r : RingId) (v : Word), inService s = true → exec (.doorbell r v) s
      = .next (s.setRing r.val { s.ring r.val with bell := v.toNat, pend := true }))
    ∧ (∀ (r : Nat) (k : Ring), inService s = true → s.rings = [(r, k)] → k.sampled = true → ringRuns r s = true →
      (let ahead := (k.value + 2 ^ 32 - rd R.RING_CONS r s % 2 ^ 32) % 2 ^ 32
       let new := (k.value + 2 ^ 32 - k.fetched % 2 ^ 32) % 2 ^ 32
       (ringSize r s < ahead → ∃ t, exec .ringService s = .next t ∧ (t.ring r).faulted = some 1
          ∧ RaisedOn .ringFault .ring 0 s t ∧ t.aba = s.aba ∧ t.seqr.lastRing = r)
       ∧ (ahead ≤ ringSize r s → new = 0 → ∃ t, exec .ringService s = .next t ∧ t.aba = s.aba ∧ t.seqr.lastRing = r
          ∧ t.ring r = { k with sampled := false, pend := decide (k.bell ≠ k.value) })
       ∧ (let a := rd R.RING_BASE r s + k.fetched % ringSize r s * 128
          ahead ≤ ringSize r s → 0 < new → new ≤ ringSize r s → dmaOk false a 128 s = true →
          ∃ t tag, exec .ringService s = .next t ∧ t.seqr.lastRing = r
            ∧ t.ring r = { k with sampled := false, pend := decide (8 < new) || decide (k.bell ≠ k.value),
                                  fetched := k.fetched + min 8 new }
            ∧ t.aba.dmas = s.aba.dmas ++ [⟨tag, a, 128, .entries r k.fetched (min 8 new)⟩] ∧ Sent (.dmaRd tag a 128) t)))
    ∧ (∀ r : RingId, flag (H.EN .ring) 0 s = true →
      ∃ t, exec (.ringReset r) s = .next t ∧ t.ring r.val = { s.ring r.val with reset := true }
        ∧ TickAct.ringReset r.val ∈ t.acts ++ t.late
        ∧ (∀ e ∈ s.plates, ∀ m j, e.2.img = some m → e.2.job = some j → j.ring = r.val → .stopPlate e.1 2 0 ∈ t.acts ++ t.late)
        ∧ t.regs = s.regs ∧ t.plates = s.plates ∧ t.mem = s.mem)
    ∧ (∀ k : SlotId, let q := s.rslot k.val
      (q.st = .fixed → exec (.resultStatusRead k) s = .next (s.setRslot k.val { q with read := true }))
      ∧ (q.st ≠ .fixed → exec (.resultStatusRead k) s = .next s))

/-- 14 R423: an ACK equal to SEQ makes a FIXED slot CONSUMED when received. Any other ACK changes no slot, is counted in
RING_STALE_ACK and raises the NOTE EVT_SLOT_STALE_ACK on the RING page: its mark, its count and its record. -/
def Obligations.ResultAcks : Prop :=
  ∀ (k : SlotId) (seq : BitVec 24) (s : State),
    let q := s.rslot k.val
    (q.st = .fixed ∧ q.seq = seq.toNat → exec (.resultAck k seq) s = .next (s.setRslot k.val { q with st := .consumed }))
    ∧ (¬(q.st = .fixed ∧ q.seq = seq.toNat) →
      let counted := bump R.RING_STALE_ACK 0 1 s
      exec (.resultAck k seq) s = .next (raiseRec .slotStaleAck .ring 0 noTag false counted)
      ∧ Ev.slotStaleAck.sev = .note
      ∧ ∃ t, exec (.resultAck k seq) s = .next t ∧ t.slots = s.slots ∧ RaisedOn .slotStaleAck .ring 0 s t
        ∧ rd R.RING_STALE_ACK 0 t = min (rd R.RING_STALE_ACK 0 s + 1) (2 ^ R.RING_STALE_ACK.w - 1))

/-- 01 R21; 14 R402, R406, R407, R416; 05 R177: a loaded plate becomes active once its writes are served, its regions are on
and the length in force, every one adopted and the latest proposal cover them, and its LOAD completes OK; the fill exposures
prepare every core; a completed job's record is written, once for each. -/
def Obligations.PlateProgress : Prop :=
  ∀ (pl : PlateId) (m : Image) (s : State), inService s = true →
    let k := s.plate pl.val
    k.img = some m →
    (∀ r idx n, k.st = .loading → k.loader = some (r, idx, n) → kvServed n s = true →
        (∀ q ∈ m.recs, rd R.PDN_STAT_STATE q.region s = 2 ∧ coversAll (regionWish q (stopOf (q.region / 8) s) s) s = true
          ∧ regionWish q (stopOf (q.region / 8) s) s ≤ 10 * s.sync.own.len) →
      ∃ t, exec (.plateActivation pl) s = .next t ∧ t.plate pl.val = { k with st := .loaded, loader := none, active := some s.frame }
        ∧ (∀ e, findEntry r idx s = some e →
            (t.ring r).queue = (s.ring r).queue.filter (fun x => decide (x.idx ≠ idx)))
        ∧ (∀ p, p ≠ pl.val → t.plate p = s.plate p) ∧ t.mem = s.mem ∧ t.cores = s.cores)
    ∧ (∀ j, k.job = some j → j.begun = true → j.ready = false → j.fill ≠ 0 →
      ∃ t, exec (.jobFill pl) s = .next t ∧ (t.plate pl.val).job = some { j with ready := true }
        ∧ (∀ c, c ∉ m.cores → t.core c = s.core c) ∧ t.mem = s.mem
        ∧ (∀ c q, c ∈ m.cores → m.recOf c = some q → isHole c s = false → fenced c s = false →
            (t.core c).ctxs = jobCtxs m j ∧ (t.core c).stopped = false ∧ (t.core c).line m.argLine = argLine j
            ∧ (t.core c).reserveLeft = m.retakeReserve ∧ (t.core c).flights = [] ∧ (t.core c).store.length ≤ m.bundles))
    ∧ (∀ x rest, k.ended = x :: rest →
      ∃ t, exec (.jobComplete pl) s = .next t ∧ (t.plate pl.val).ended = rest ∧ (t.plate pl.val).job = k.job
        ∧ t.mem = s.mem ∧ t.cores = s.cores
        ∧ (∀ e, x.job.stops = [] → findEntry x.job.ring x.job.idx s = some e →
          (t.ring x.job.ring).queue = (s.ring x.job.ring).queue.filter (fun y => decide (y.idx ≠ x.job.idx))
          ∧ (RecordFits x.job.ring s →
            Sent (.dmaWr (rd R.RING_CQ x.job.ring s + (s.ring x.job.ring).cons % ringSize x.job.ring s * 32)
              (recordBytes e ⟨x.status, x.cause, x.job.seq, x.job.first.getD 0, x.frame, x.energy, x.job.slices⟩)) t)))

/-! ### The Aperture controller, power and heat (16 R447 to R466; 17 R473 to R482) -/

/-- The controller waits: braked, held, its point not yet in force for a sample (16 R452). -/
def ControllerWaits (s : State) : Prop :=
  flag R.APT_STAT_BRAKE 0 s = true ∨ s.apt.pin = true ∨ flag R.APT_STAT_HOLD 0 s = true ∨ s.apt.waiting = true
    ∨ s.timebase < s.apt.moved + 100000

/-- 12 R375; 16 R448, R452, R456, R463: an evaluation moves the target stop or the dark ratio one step against the cap; a
write of the cap, clamped to the grade, takes effect at the next tick; a completed ramp gives the voltage, from which a device
alone computes the next exposure's length anew (01 R20); PWR_BRAKE# acts from its tick, where a release and an assertion that
act at one tick cancel (the model's choice, entry 158); a telemetry record goes to the ring of its window, or is dropped. -/
def Obligations.ApertureController : Prop :=
  ∀ (s : State),
    let cap := rd R.APT_CAP 0 s
    let k := rd R.APT_STAT_LOCAL_K 0 s
    let top := rd R.APT_STAT_TARGET 0 s
    (∀ power : Nat, inService s = true →
      let sm := (power :: s.apt.samples).take 100
      let avg := average (sm.take (capWindow s))
      ∃ t, exec (.apertureEvaluation power) s = .next t ∧ t.apt.samples = sm
        ∧ rd R.APT_POWER_LAST 0 t = power % 2 ^ R.APT_POWER_LAST.w ∧ rd R.APT_POWER_WIN 0 t = avg % 2 ^ R.APT_POWER_WIN.w
        ∧ (ControllerWaits s → rd R.APT_STAT_TARGET 0 t = top ∧ rd R.APT_STAT_LOCAL_K 0 t = k)
        ∧ (¬ControllerWaits s →
          (cap < power →
            (mayDown s = true → rd R.APT_STAT_TARGET 0 t = (((liveHalves s).map (fun h => stopOf h s)).foldl max 0 - 1) % 2 ^ 4
              ∧ rd R.APT_STAT_LOCAL_K 0 t = k ∧ t.apt.moved = s.timebase)
            ∧ (mayDown s = false → k < 15 → rd R.APT_STAT_LOCAL_K 0 t = k + 1 ∧ rd R.APT_STAT_TARGET 0 t = top
              ∧ t.apt.moved = s.timebase)
            ∧ (mayDown s = false → 15 ≤ k → rd R.APT_STAT_LOCAL_K 0 t = k ∧ rd R.APT_STAT_TARGET 0 t = top
              ∧ t.apt.excess = s.apt.excess + 1))
          ∧ (100 * power ≤ 95 * cap → 100 * avg ≤ 95 * cap →
            (0 < k → rd R.APT_STAT_LOCAL_K 0 t = (k - 1) % 2 ^ 4 ∧ rd R.APT_STAT_TARGET 0 t = top)
            ∧ (k = 0 → flag R.APT_CTRL_FIXED 0 s = false → top < 8 → (∃ h ∈ liveHalves s, top < ceilOf h false s) →
              rd R.APT_STAT_TARGET 0 t = top + 1 ∧ rd R.APT_STAT_LOCAL_K 0 t = 0))))
    ∧ (∀ c : Nat, flag (H.EN .apt) 0 s = true →
      let v := min (c % 2048) (rd R.GLB_ID_GRADE_CAP 0 s)
      (ticksRun s = true → ∃ t, exec (.capChange c) s = .next t
        ∧ Queued (.write .apt 0 R.APT_CAP.off R.APT_CAP.lo R.APT_CAP.w v) s t ∧ rd R.APT_CAP 0 t = cap
        ∧ (rd R.GLB_ID_GRADE_CAP 0 s < c % 2048 → RaisedOn .gradeClamp .apt 0 s t))
      ∧ (ticksRun s = false → ∃ t, exec (.capChange c) s = .next t ∧ rd R.APT_CAP 0 t = v % 2 ^ R.APT_CAP.w))
    ∧ (∀ (h : HalfId) (w : Nat), inService s = true → mget h.val s.apt.ramp = some w →
      let a : Apt := if inFix s then { s.apt with late := mput h.val w s.apt.late, ramp := mdel h.val s.apt.ramp }
        else { s.apt with volt := mput h.val w s.apt.volt, ramp := mdel h.val s.apt.ramp }
      ∃ t, exec (.voltageRampDone h) s = .next t ∧ t.apt = a
        ∧ (syncLevel s ≠ 0 ∨ inFix s = true → t = { s with apt := a })
        ∧ (syncLevel s = 0 → inFix s = false → t.sync.own = ownProposal { s with apt := a }
          ∧ rd R.GLB_SYNC_LEN_PROPOSED 0 t = t.sync.own.len
          ∧ t = { s with apt := a, sync := { s.sync with own := t.sync.own }, regs := t.regs }))
    ∧ (awake s = true → s.apt.pin = false →
      ∃ t, exec .pwrBrakeAssert s = .next t ∧ RaisedOn .pwrBrake .apt 0 s t
        ∧ (s.apt.brakeOff ≠ some (actFrame s) → t.apt = { s.apt with pin := true, brakeOn := some (actFrame s) })
        ∧ (s.apt.brakeOff = some (actFrame s) → t.apt = { s.apt with pin := true, brakeOff := none }))
    ∧ (awake s = true → s.apt.pin = true →
      (s.apt.brakeOn ≠ some (actFrame s) →
        exec .pwrBrakeRelease s = .next { s with apt := { s.apt with pin := false, brakeOff := some (actFrame s) } })
      ∧ (s.apt.brakeOn = some (actFrame s) →
        exec .pwrBrakeRelease s = .next { s with apt := { s.apt with pin := false, brakeOn := none } }))
    ∧ (∀ smp : TelemSample, inService s = true →
      ∃ t, exec (.telemetrySample smp) s = .next t
        ∧ (∀ d, d < 106 → rd R.PDN_I_AVG d t = (smp.avg[d]?).getD 0 % 2 ^ R.PDN_I_AVG.w
          ∧ rd R.PDN_I_PEAK d t = (smp.peak[d]?).getD 0 % 2 ^ R.PDN_I_PEAK.w)
        ∧ t.mem = s.mem ∧ t.cores = s.cores
        ∧ (let prod := rd R.APT_TELEM_PROD 0 s
           let size := 2 ^ rd R.APT_TELEM_SIZE 0 s
           let w := rd R.APT_TELEM_WINDOW 0 s
           let full : Prop := (prod + 2 ^ 64 - rd R.APT_TELEM_CONS 0 s) % 2 ^ 64 = size
           (flag R.APT_TELEM_EN 0 s = false → t.aba = s.aba ∧ rd R.APT_TELEM_PROD 0 t = prod)
           ∧ (flag R.APT_TELEM_EN 0 s = true → full → t.aba = s.aba ∧ rd R.APT_TELEM_PROD 0 t = prod
              ∧ rd R.APT_TELEM_DROP 0 t = min (rd R.APT_TELEM_DROP 0 s + 1) (2 ^ R.APT_TELEM_DROP.w - 1))
           ∧ (flag R.APT_TELEM_EN 0 s = true → ¬full → flag (R.ABA_WIN_CTRL_EN w) 0 s = true →
              flag (R.ABA_WIN_CTRL_WRITE w) 0 s = true → (prod % size + 1) * 512 ≤ rd (R.ABA_WIN_SIZE w) 0 s →
              Sent (.dmaWr (rd (R.ABA_WIN_BASE w) 0 s + prod % size * 512) (telemRecord smp s)) t
                ∧ rd R.APT_TELEM_PROD 0 t = (prod + 1) % 2 ^ R.APT_TELEM_PROD.w)))

/-- 16 R460, R464 to R466: lost phases cap and then darken a region; an over-current trip opens its gate and fences its
cores; a wake ramps in 16 steps, held or deferred; one feed of two may be lost. -/
def Obligations.PowerDomains : Prop :=
  ∀ (s : State),
    (∀ r : RegionId, awake s = true →
      let n := min 6 (rd R.PDN_STAT_PHASES_LOST r.val s + 1)
      let c := if n = 1 then 6 else 4
      ∃ t, exec (.phaseLost r) s = .next t ∧ rd R.PDN_STAT_PHASES_LOST r.val t = n
        ∧ (n < 3 → RaisedOn .phaseLost .pdn r.val s t
          ∧ (7 ≤ rd R.BOOT_STAT_STATE 0 s → Queued (.write .pdn r.val 0x44 11 4 c) s t)
          ∧ (rd R.BOOT_STAT_STATE 0 s < 7 → rd R.PDN_STAT_PHASE_CEIL r.val t = c))
        ∧ (3 ≤ n → rd R.PDN_STAT_PHASE_CEIL r.val s ≠ 15 → RaisedOn .regionDark .pdn r.val s t
          ∧ rd R.PDN_STAT_PHASE_CEIL r.val t = 15 ∧ rd R.PDN_STAT_STATE r.val t = 0
          ∧ ∀ c ∈ regionCores r.val, fenced c t = true ∧ (t.core c).flights = (if fenced c s then (s.core c).flights else [])))
    ∧ (∀ r : RegionId, inService s = true →
      (rd R.PDN_STAT_STATE r.val s = 1 ∨ rd R.PDN_STAT_STATE r.val s = 2 →
        ∃ t, exec (.overCurrentTrip r) s = .next t ∧ RaisedOn .regionOc .pdn r.val s t ∧ rd R.PDN_STAT_STATE r.val t = 3
          ∧ ∀ c ∈ regionCores r.val, fenced c t = true)
      ∧ (rd R.PDN_STAT_STATE r.val s ≠ 1 → rd R.PDN_STAT_STATE r.val s ≠ 2 → exec (.overCurrentTrip r) s = .next s))
    ∧ (∀ d : DomainId, flag (H.EN .pdn) d.val s = true → flag (H.APPLY .pdn) d.val s = true → ticksRun s = true →
      ∃ t, exec (.regionWake d) s = .next t ∧ Queued (.write .pdn d.val 0x40 0 1 1) s t ∧ t.regs = s.regs)
    ∧ (∀ d : DomainId, flag (H.EN .pdn) d.val s = true → flag (H.APPLY .pdn) d.val s = false →
      let st := rd R.PDN_STAT_STATE d.val s
      let starts : Prop := d.val < 64 ∧ (st = 0 ∨ st = 3) ∧ rd R.PDN_STAT_PHASE_CEIL d.val s ≠ 15
      ∃ t, exec (.regionWake d) s = .next t ∧ rd R.PDN_CTRL d.val t = 1
        ∧ (starts → rd R.PDN_STAT_STATE d.val t = 1 ∧ rd R.PDN_STAT_STEP d.val t = 0 ∧ flag R.PDN_STAT_DEFERRED d.val t = false)
        ∧ (¬starts → rd R.PDN_STAT_STATE d.val t = st))
    ∧ (∀ (d : DomainId) (w : WakeSense), awake s = true → Awake s →
      let n := rd R.PDN_STAT_STEP d.val s + 1
      let held : Prop := rd R.PDN_STAT_STATE d.val s ≠ 1 ∨ flag R.PDN_STAT_DEFERRED d.val s = true ∨ rampHeld w s = true
      ∀ i, i ∈ [Instr.wakeRampStep d w, .wakeRetry d w] →
        (held → exec i s = .next s)
        ∧ (¬held → n < 16 → ∃ t, exec i s = .next t ∧ rd R.PDN_STAT_STEP d.val t = n ∧ rd R.PDN_STAT_STATE d.val t = 1
          ∧ t.acts = s.acts)
        ∧ (¬held → 16 ≤ n → ∃ t, exec i s = .next t ∧ rd R.PDN_STAT_STATE d.val t = 2 ∧ Queued (.wakeDone d.val) s t))
    ∧ (∀ d : DomainId, Awake s → rd R.PDN_STAT_STATE d.val s = 1 → flag R.PDN_STAT_DEFERRED d.val s = false →
      ∃ t, exec (.wakeLimit d) s = .next t ∧ flag R.PDN_STAT_DEFERRED d.val t = true ∧ RaisedOn .wakeDeferred .pdn d.val s t
        ∧ rd R.PDN_STAT_STEP d.val t = rd R.PDN_STAT_STEP d.val s)
    ∧ (∀ d : DomainId, awake s = true →
      (flag R.PDN_STAT_DEFERRED d.val s = false → exec (.wakeRestart d) s = .next s)
      ∧ (flag R.PDN_STAT_DEFERRED d.val s = true → inService s = true →
        ∃ t, exec (.wakeRestart d) s = .next t ∧ Queued (.write .pdn d.val 0x44 2 1 0) s t ∧ t.regs = s.regs)
      ∧ (flag R.PDN_STAT_DEFERRED d.val s = true → inService s = false →
        ∃ t, exec (.wakeRestart d) s = .next t ∧ flag R.PDN_STAT_DEFERRED d.val t = false ∧ t = { s with regs := t.regs }))
    ∧ (∀ b : Bool,
      let own := if b then R.APT_FEED_B_OK else R.APT_FEED_A_OK
      let other := if b then R.APT_FEED_A_OK else R.APT_FEED_B_OK
      (rd own 0 s = 0 → exec (.feedLost b) s = .next s)
      ∧ (rd own 0 s ≠ 0 → rd other 0 s ≠ 0 → ∃ t, exec (.feedLost b) s = .next t ∧ rd own 0 t = 0 ∧ rd other 0 t = rd other 0 s
        ∧ RaisedOn .feedLost .apt 0 s t)
      ∧ (rd own 0 s ≠ 0 → rd other 0 s = 0 → exec (.feedLost b) s = exec .bothFeedsLost s)
      ∧ (∃ t, exec (.feedRestored b) s = .next t ∧ rd own 0 t = 1 ∧ t = { s with regs := t.regs }))

/-- The device stands before start-up again, for a reset of a kind (18 R487; 21 R543): it runs nothing, memory holds nothing
known, and only the timebase, the SAFE page, the flash, OTP, the feeds and the queue last. -/
def StartsOver (kind last : Nat) (s t : State) : Prop :=
  rd R.BOOT_STAT_STATE 0 t = 0 ∧ rd R.BOOT_STAT_RESET_KIND 0 t = kind ∧ rd R.SAFE_DOWN 0 t = last
    ∧ t.cores = [] ∧ t.plates = [] ∧ t.rings = [] ∧ t.slots = [] ∧ t.mem = [] ∧ t.marks = [] ∧ t.acts = []
    ∧ t.timebase = s.timebase ∧ t.pending = s.pending ∧ t.sec.otp = s.sec.otp ∧ t.boot.fw = s.boot.fw ∧ t.boot.user = s.boot.user

/-- 16 R460; 17 R482; 18 R487; 22 R547, R549: MOD_RESET#, the loss of both feeds and a thermal trip take the device back to
start-up, or hold it there while SAFELIGHT runs; V_AUX takes the safelight with it; the loss of REFCLK is FATAL and drops
every link. -/
def Obligations.EndsOfService : Prop :=
  ∀ (s : State),
    (∀ cool : Bool,
      (s.boot.powered = true → s.boot.alive = false → rd R.BOOT_STAT_STATE 0 s = 0 →
        exec (.modResetAssert cool) s = .next { s with boot := { s.boot with reset := true } })
      ∧ (s.boot.powered = true → s.boot.alive = true ∨ rd R.BOOT_STAT_STATE 0 s ≠ 0 →
        ∃ t, exec (.modResetAssert cool) s = .next t ∧ t.boot.reset = true
        ∧ StartsOver 1 (if s.therm.trip && cool then 3 else 1) s t ∧ t.therm.trip = (s.therm.trip && !cool))
      ∧ (s.boot.powered = false → exec (.modResetAssert cool) s = .next s))
    ∧ (awake s = true → ∃ t, exec .bothFeedsLost s = .next t ∧ StartsOver 1 2 s t ∧ rd R.APT_FEED_A_OK 0 t = 0
        ∧ rd R.APT_FEED_B_OK 0 t = 0)
    ∧ (∀ (tw : TowerId) (n kind : Nat), tripKind n = some kind → awake s = true → s.therm.trip = false →
      ∃ t, exec (.thermtrip tw n) s = .next t ∧ StartsOver 1 3 s t ∧ t.therm.trip = true ∧ RaisedOn .thermtrip .safe 0 s t
        ∧ flag R.SAFE_TRIP_VALID 0 t = true
        ∧ (flag R.SAFE_TRIP_VALID 0 s = false → rd R.SAFE_TRIP_TOWER 0 t = tw.val ∧ rd R.SAFE_TRIP_SENSOR 0 t = n % 2 ^ R.SAFE_TRIP_SENSOR.w
          ∧ rd R.SAFE_TRIP_KIND 0 t = kind))
    ∧ (∃ t, exec .vAuxLost s = .next t ∧ rd R.BOOT_STAT_STATE 0 t = 0 ∧ t.boot.powered = false ∧ t.timebase = 0 ∧ t.mem = []
        ∧ t.cores = [] ∧ t.sec.otp = s.sec.otp ∧ t.boot.fw = s.boot.fw ∧ flag R.SAFE_TRIP_VALID 0 t = false)
    ∧ (awake s = true → ∃ t, exec .refclkLost s = .next t ∧ RaisedOn .refclkLost .safe 0 s t
        ∧ rd R.BOOT_STAT_STATE 0 t = 10 ∧ (s.released = true ∨ rd R.BOOT_STAT_STATE 0 s ≠ 10 → rd R.BOOT_STAT_CAUSE 0 t = 5)
        ∧ (∀ p, p < 18 → rayState p t = if rayState p s = 4 then 4 else 0) ∧ abaState t = 0)

/-- 01 R38; 17 R473, R475, R477, R479 to R481: sensor readings and failures, shadow temperatures, disagreement, and the steps of
the thermal ceiling and dark ratio. -/
def Obligations.Heat : Prop :=
  ∀ (s : State),
    (∀ (tw : TowerId) (vals : List Int), awake s = true →
      ∃ t, exec (.sensorRead tw vals) s = .next t ∧ t.mem = s.mem ∧ t.cores = s.cores
        ∧ ∀ i v, i < 116 → vals[i]? = some v → rd (R.THM_SENSOR_TEMP tw.val i) 0 t = tempBits v % 2 ^ 10
            ∧ (v < -80 ∨ 600 < v → flag (R.THM_SENSOR_FAIL tw.val i) 0 t = true)
            ∧ (-80 ≤ v → v ≤ 600 → flag (R.THM_SENSOR_FAIL tw.val i) 0 t = flag (R.THM_SENSOR_FAIL tw.val i) 0 s))
    ∧ (∀ (tw : TowerId) (energy : List (DomainId × Nat)), inService s = true →
      ∃ t, exec (.shadowCompute tw energy) s = .next t
        ∧ (∀ l q, l < 8 → q < 4 → shadowOf tw.val l q t = shadowAt tw.val q l (powerMap tw.val energy s) s)
        ∧ (∀ x l q, x ≠ tw.val → l < 8 → q < 4 → shadowOf x l q t = shadowOf x l q s) ∧ t.therm.dis = s.therm.dis)
    ∧ (∀ h : HalfId, inService s = true →
      let l := governing h.val 0 3 s
      let d := governing h.val 3 4 s
      let limit : Prop := atLeast l 105000000 = true ∨ atLeast d 95000000 = true
      let warm : Prop := ¬limit ∧ (atLeast l (logicThr s) = true ∨ atLeast d (dramThr s) = true)
      ∃ t, exec (.thermalEvaluation h) s = .next t ∧ (∀ x, x ≠ h.val → thmBase x t = thmBase x s)
        ∧ (limit → RaisedOn .thermalLimit .thm 0 s t ∧ thmBase h.val t = 0
          ∧ (stopOf h.val s = 0 → rd R.THM_STAT_K_TH 0 t = min 15 (rd R.THM_STAT_K_TH 0 s + 1)))
        ∧ (warm → thmBase h.val t = (if thmBase h.val s < stopOf h.val s then thmBase h.val s else stopOf h.val s - 1)
          ∧ (stopOf h.val s ≤ thmBase h.val s → s.therm.runs.contains h.val = false → RaisedOn .thermalThrottle .thm 0 s t))
        ∧ (¬limit → ¬warm → thmBase h.val t = thmBase h.val s ∧ rd R.THM_STAT_K_TH 0 t = rd R.THM_STAT_K_TH 0 s))
    ∧ (∀ (tw : TowerId) (l : Fin 8) (q : Fin 4), Awake s →
      let k := lqKey tw.val l.val q.val
      let h := halfOfQ tw.val q.val
      (inDis tw.val l.val q.val s = true → s.therm.low.contains k = true →
        ∃ t, exec (.shadowHoldExpiry tw l q) s = .next t ∧ t.therm.dis = s.therm.dis.filter (fun x => decide (x ≠ k)))
      ∧ (inDis tw.val l.val q.val s = false → s.therm.high.contains k = true →
        ∃ t, exec (.shadowHoldExpiry tw l q) s = .next t ∧ t.therm.dis = k :: s.therm.dis ∧ RaisedOn .sensorDisagree .thm 0 s t
          ∧ rd (R.THM_HALF_CEIL h) 0 t = min (thmCeil h s) (stopOf h s - 1) % 2 ^ (R.THM_HALF_CEIL h).w))
    ∧ (∀ h : HalfId, Awake s →
      let k := rd R.THM_STAT_K_TH 0 s
      (isCool h.val s = false → exec (.thmRecover h) s = .next s)
      ∧ (isCool h.val s = true → 0 < k → ∃ t, exec (.thmRecover h) s = .next t ∧ rd R.THM_STAT_K_TH 0 t = (k - 1) % 2 ^ 4
        ∧ thmBase h.val t = thmBase h.val s)
      ∧ (isCool h.val s = true → k = 0 → ∃ t, exec (.thmRecover h) s = .next t ∧ thmBase h.val t = min 8 (thmBase h.val s + 1)
        ∧ rd R.THM_STAT_K_TH 0 t = 0))
    ∧ (∀ tw : TowerId, Awake s → (rd R.GLB_REFRESH_HOT 0 s).testBit tw.val = true →
        (dramTemps tw.val s).all (fun v => decide (v ≤ 83000000)) = true →
      ∃ t, exec (.hotExit tw) s = .next t ∧ t = { s with therm := t.therm }
        ∧ t.therm.hotOut = (if s.therm.hotOut.testBit tw.val then s.therm.hotOut else s.therm.hotOut + 2 ^ tw.val))

/-! ### The Abaes host link (15 R429 to R442) -/

/-- The link takes the flits of a packet of type `t` in order (15 R432 to R434): it is UP, each flit's CRC is good and its header
right, its sequence number is the next expected, and the buffer has room for them. -/
def AbaNext (t : Nat) (w : RayWords) (more : List RayWords) (s : State) : Prop :=
  abaUp s = true ∧ (∀ x ∈ w :: more, crcGood x = true)
    ∧ (∀ x ∈ (w :: more).zipIdx, abaMalformed t (decide (x.2 = 0)) x.1 = false ∧ x.1.abaSeq = (s.aba.rxSeq + x.2) % 4096)
    ∧ (w :: more).length ≤ rd R.ABA_BUF_FREE 0 s

/-- 15 R435 to R437: register and memory requests that the link takes (`z`: the state once it has): a register read answers
its words, a register write applies them, or waits behind the memory writes before a doorbell; memory requests join their
shaft's host queue by granule, or are answered with the status that stops them. A packet with a bad CRC is answered NAK
and has no other effect. -/
def Obligations.HostRequests : Prop :=
  ∀ (w : RayWords) (more : List RayWords) (tag : BitVec 16) (s z : State),
    (abaRx 0 w more s = (true, z) →
      ∀ (addr : BitVec 26) (n : Nat),
        let a := addr.toNat
        let bad := descBad 0 w || !regLayout a n || tagBusy tag.toNat z
        (bad = true → ∃ t, exec (.regRd w more tag addr n) s = .next t ∧ Sent (.regCpl tag.toNat 4 []) t ∧ t.latches = s.latches)
        ∧ (bad = false → reqsFull z = true → ∃ t, exec (.regRd w more tag addr n) s = .next t ∧ Sent (.regCpl tag.toNat 3 []) t
          ∧ t.latches = s.latches)
        ∧ (bad = false → reqsFull z = false →
          (z.aba.held = [] → regStatus a z = 0 → ∃ t, exec (.regRd w more tag addr n) s = .next t
            ∧ Sent (.regCpl tag.toNat 0 (readWords a n z).1) t)
          ∧ (z.aba.held = [] → regStatus a z ≠ 0 → ∃ t, exec (.regRd w more tag addr n) s = .next t
            ∧ Sent (.regCpl tag.toNat (regStatus a z) (List.replicate n 0)) t ∧ t.latches = s.latches)
          ∧ (z.aba.held ≠ [] → ∃ t, exec (.regRd w more tag addr n) s = .next t
            ∧ t = { z with aba := { z.aba with
                    reqs := z.aba.reqs ++ [(tag.toNat, false)],
                    held := z.aba.held ++ [⟨[], .read tag.toNat a n⟩] } })))
    ∧ (abaRx 1 w more s = (true, z) →
      ∀ (addr : BitVec 26) (l : List Word),
        let a := addr.toNat
        let v := l.map (fun x => x.toNat)
        let bad := descBad 1 w || !regLayout a l.length || tagBusy tag.toNat z
        (bad = true ∨ (z.aba.held = [] ∧ bellWaits a z = [] ∧ regStatus a z ≠ 0) →
          ∃ t, exec (.regWr w more tag addr l) s = .next t ∧ t = { z with regs := t.regs }
            ∧ rd R.ABA_REG_IGNORED 0 t = min (rd R.ABA_REG_IGNORED 0 z + 1) (2 ^ R.ABA_REG_IGNORED.w - 1))
        ∧ (bad = false → z.aba.held = [] → bellWaits a z = [] → regStatus a z = 0 →
          exec (.regWr w more tag addr l) s = .next (v.zipIdx.foldl (fun x y => writeWordAt (a + 4 * y.2) y.1 x) z))
        ∧ (bad = false → (z.aba.held ≠ [] ∨ bellWaits a z ≠ []) →
          exec (.regWr w more tag addr l) s
            = .next { z with aba := { z.aba with held := z.aba.held ++ [⟨bellWaits a z, .write a v⟩] } }))
    ∧ (abaRx 3 w more s = (true, z) →
      ∀ (core : Nat) (addr : Word) (n : Nat),
        let a := addr.toNat
        let stop := memStop (descBad 3 w || decide (n = 0) || decide (65536 < n)) tag.toNat core a n z
        (∀ st, stop = some st → ∃ t, exec (.memRd w more tag core addr n) s = .next t
          ∧ Sent (.memCpl tag.toNat st (z.frame % 2 ^ 32) []) t ∧ t.shafts = s.shafts ∧ t.mem = s.mem)
        ∧ (stop = none → ∃ t, exec (.memRd w more tag core addr n) s = .next t
          ∧ (t.shaft (posOf core)).hostq = (s.shaft (posOf core)).hostq
              ++ (granules 18 a n).map (fun g => ⟨.host, tag.toNat, false, core, g.1, g.2, [], decide (g.1 + g.2 = a + n)⟩)
          ∧ t.aba.reqs = z.aba.reqs ++ [(tag.toNat, false)] ∧ t.mem = s.mem ∧ t.cores = s.cores))
    ∧ (∀ (core : Nat) (addr : Word) (d : List Byte), abaRx 4 w more s = (true, z) →
        let a := addr.toNat
        let stop := memStop (descBad 4 w || d.isEmpty || decide (4096 < a % 4096 + d.length)) tag.toNat core a d.length z
        (∀ st, stop = some st → ∃ t, exec (.memWr w more tag core addr d) s = .next t
          ∧ Sent (.memCpl tag.toNat st (z.frame % 2 ^ 32) []) t ∧ t.shafts = s.shafts ∧ t.mem = s.mem)
        ∧ (stop = none → ∃ t, exec (.memWr w more tag core addr d) s = .next t
          ∧ (t.shaft (posOf core)).hostq = (s.shaft (posOf core)).hostq ++ [⟨.host, tag.toNat, true, core, a, d.length, d, true⟩]
          ∧ t.aba.reqs = z.aba.reqs ++ [(tag.toNat, true)] ∧ t.mem = s.mem ∧ t.cores = s.cores))
    ∧ (abaUp s = true → crcGood w = false → ∀ (addr : BitVec 26) (n : Nat), ∃ t, exec (.regRd w more tag addr n) s = .next t
        ∧ Sent (.nak 1 w.abaSeq) t ∧ RaisedOn .abaNak .aba 0 s t ∧ t.aba.rxSeq = s.aba.rxSeq ∧ t.aba.reqs = s.aba.reqs
        ∧ t.mem = s.mem ∧ t.latches = s.latches)
    ∧ (∀ y : Nat, abaBare y = false → AbaNext y w more s →
        ∃ x, abaRx y w more s = (true, x) ∧ x.aba.rxSeq = (s.aba.rxSeq + more.length + 1) % 4096)

/-- A read of host memory failed (15 R439): it is counted, and what it was for is told: a ring's entries fault the ring. -/
def EntriesLost (r : Nat) (s t : State) : Prop :=
  rd R.ABA_DMA_ERR 0 t = min (rd R.ABA_DMA_ERR 0 s + 1) (2 ^ R.ABA_DMA_ERR.w - 1) ∧ RaisedOn .abaDmaError .aba 0 s t
    ∧ ((s.ring r).faulted = none → (t.ring r).faulted = some 3) ∧ (t.ring r).queue = (s.ring r).queue

/-- 14 R412, R414, R419; 15 R439: a DMA completion brings the bytes of the read that its tag names: ring entries join their
ring, or fault it; a plate image is checked and taken, or refused. A failed one, and one that times out, is counted and
raised; a stray tag is a violation. -/
def Obligations.DmaCompletions : Prop :=
  ∀ (w : RayWords) (more : List RayWords) (tag : BitVec 16) (status : Nat) (b : List Byte) (s z : State),
    let poison := (w :: more).any (fun x => x.abaPoison)
    (abaRx 8 w more s = (true, z) →
      ((∀ d ∈ z.aba.dmas, d.tag ≠ tag.toNat) →
        ∃ t, exec (.dmaCpl (w, more) tag status b) s = .next t ∧ t.aba.viol = z.aba.viol + 1
          ∧ rd R.ABA_VIOL 0 t = min (rd R.ABA_VIOL 0 z + 1) (2 ^ R.ABA_VIOL.w - 1) ∧ t.rings = z.rings ∧ t.mem = s.mem)
      ∧ (∀ d, z.aba.dmas.find? (fun x => decide (x.tag = tag.toNat)) = some d →
        (∀ r i n, d.purpose = .entries r i n → 0 < n →
          (status ≠ 0 ∨ poison = true ∨ b.length ≠ d.len → ∃ t, exec (.dmaCpl (w, more) tag status b) s = .next t ∧ EntriesLost r z t)
          ∧ (status = 0 → poison = false → b.length = d.len → ringRuns r z = true →
            ((entryOf i b).bad = true → ∃ t, exec (.dmaCpl (w, more) tag status b) s = .next t ∧ (t.ring r).faulted = some 2
              ∧ RaisedOn .ringFault .ring 0 z t ∧ (t.ring r).queue = (z.ring r).queue)
            ∧ ((entryOf i b).bad = false → ∃ t, exec (.dmaCpl (w, more) tag status b) s = .next t
              ∧ (t.ring r).queue = (z.ring r).queue ++ [entryOf i b]
              ∧ rd R.RING_PROD r t = min (rd R.RING_PROD r z + 1) (2 ^ R.RING_PROD.w - 1)
              ∧ rd R.RING_PEND r t = min (rd R.RING_PEND r z + 1) (2 ^ R.RING_PEND.w - 1))))
        ∧ (∀ r i e, d.purpose = .entry r i → findEntry r i z = some e → status = 0 → poison = false → b.length = d.len →
          (let y := setEntry r i (fun x => { x with buf := [] }) (endDma d z)
           let img := e.buf ++ b
           e.op = 1 → img.length = e.length →
            (∀ code, loadImage img e.plate y = .inl code → ∃ t, exec (.dmaCpl (w, more) tag status b) s = .next t
              ∧ t.plates = z.plates ∧ (t.ring r).queue.length < (z.ring r).queue.length)
            ∧ (∀ m, loadImage img e.plate y = .inr m → ∃ t, exec (.dmaCpl (w, more) tag status b) s = .next t
              ∧ (t.plate e.plate).st = .loading ∧ (t.plate e.plate).img = some m ∧ (t.plate e.plate).job = none
              ∧ (∀ p, p ≠ e.plate → t.plate p = z.plate p) ∧ t.mem = s.mem))
          ∧ (let img := e.buf ++ b
             e.op = 6 → img.length = 4 * lrCount e → (z.plate e.plate).active.isSome = true →
            ∃ t, exec (.dmaCpl (w, more) tag status b) s = .next t
              ∧ (∀ l, l < 1024 → mgetD l 0 (t.plate e.plate).lr = (if lrFirst e ≤ l ∧ l < lrFirst e + lrCount e
                  then field img (4 * (l - lrFirst e)) 4 else mgetD l 0 (z.plate e.plate).lr))))))
    ∧ (Awake s → ∀ d, s.aba.dmas.find? (fun x => decide (x.tag = tag.toNat)) = some d →
        ∀ r i n, d.purpose = .entries r i n → 0 < n →
          ∃ t, exec (.abaDmaTimeout tag) s = .next t ∧ EntriesLost r s t
            ∧ t.aba.dmas = s.aba.dmas.filter (fun x => decide (x.tag ≠ d.tag)))

/-- 15 R429 to R431, R434, R442: credits, acknowledgements and replays; training, its limit and its retries; retrains. -/
def Obligations.AbaesLink : Prop :=
  ∀ (w : RayWords) (s : State), s.aba.txq = [] →
    let st := abaState s
    let out := rd R.ABA_CRD_OUT 0 s
    let n := w.abaCrd
    let Resent (l : List AbaKept) (t : State) : Prop :=
      t.aba.out = s.aba.out ++ l.map (fun q => abaSent (some q.seq) ((s.aba.rxSeq + 4095) % 4096) q.crd q.pkt)
        ∧ rd R.ABA_REPLAY 0 t = min (rd R.ABA_REPLAY 0 s + (l.map (fun q => q.n)).sum) (2 ^ R.ABA_REPLAY.w - 1)
    (AbaNext 10 w [] s → ∃ t, exec (.abaCredit w) s = .next t
        ∧ rd R.ABA_CRD_AVAIL 0 t = min (rd R.ABA_CRD_AVAIL 0 s + min n out) (2 ^ R.ABA_CRD_AVAIL.w - 1)
        ∧ rd R.ABA_CRD_OUT 0 t = (out - min n out) % 2 ^ R.ABA_CRD_OUT.w
        ∧ (out < n → RaisedOn .abaCreditClip .aba 0 s t
          ∧ rd R.ABA_CRD_CLIP 0 t = min (rd R.ABA_CRD_CLIP 0 s + (n - min n out)) (2 ^ R.ABA_CRD_CLIP.w - 1)))
    ∧ (abaUp s = true → crcGood w = true →
      ∀ pre q post,
        let hit (x : AbaKept) : Bool := decide ((w.abaAck + 4096 - x.seq) % 4096 < x.n)
        s.aba.replay = pre ++ q :: post → (∀ x ∈ pre, hit x = false) → hit q = true →
        let r := if (q.seq + q.n + 4095) % 4096 = w.abaAck then post else q :: post
        (abaMalformed 11 true w = false → exec (.abaAckOnly w) s = .next { s with aba := { s.aba with replay := r } })
        ∧ (abaMalformed 12 true w = false → ∃ t, exec (.abaNak w) s = .next t ∧ t.aba.replay = r ∧ Resent r t)
        ∧ (abaMalformed 13 true w = false → ∀ first : BitVec 12, ∃ t, exec (.abaReplayReq w first) s = .next t ∧ t.aba.replay = r
          ∧ Resent (r.dropWhile (fun x => !decide ((first.toNat + 4096 - x.seq) % 4096 < x.n))) t))
    ∧ (Awake s → abaUp s = true → ∃ t, exec .abaAckLimit s = .next t ∧ t.aba.replay = s.aba.replay ∧ Resent s.aba.replay t)
    ∧ (∀ tr : AbaTrain, s.aba.sigHeld = [] →
      (st ≠ 1 → st ≠ 3 → exec (.abaTraining tr) s = .next s)
      ∧ ((st = 1 ∨ st = 3) → tr.width.val = 0 →
        ∃ t, exec (.abaTraining tr) s = .next t ∧ abaState t = 0 ∧ rd R.ABA_STAT_WIDTH 0 t = 0 ∧ RaisedOn .abaDown .aba 0 s t)
      ∧ ((st = 1 ∨ st = 3) → tr.width.val ≠ 0 →
        let narrow := decide (tr.width.val < rd R.ABA_CTRL_EXP_WIDTH 0 s + 1)
        ∃ t, exec (.abaTraining tr) s = .next t ∧ abaState t = 2 ∧ rd R.ABA_STAT_WIDTH 0 t = tr.width.val
          ∧ rd R.ABA_STAT_DEGRADED 0 t = narrow.toNat ∧ (narrow = true → RaisedOn .abaNarrow .aba 0 s t)
          ∧ (st = 1 → t.aba.txSeq = 0 ∧ t.aba.rxSeq = 0 ∧ t.aba.replay = [] ∧ rd R.ABA_CRD_AVAIL 0 t = 4096)
          ∧ (st = 3 → t.aba.txSeq = s.aba.txSeq ∧ t.aba.replay = s.aba.replay ∧ Resent s.aba.replay t)))
    ∧ (Awake s → (st = 1 ∨ st = 3) →
      (s.aba.width ≤ 1 → ∃ t, exec .abaTrainLimit s = .next t ∧ abaState t = 0 ∧ RaisedOn .abaDown .aba 0 s t)
      ∧ (1 < s.aba.width → exec .abaTrainLimit s = .next { s with aba := { s.aba with width := s.aba.width - 1 } }))
    ∧ (Awake s → st = 0 → 3 ≤ rd R.BOOT_STAT_STATE 0 s →
      ∃ t, exec .abaTrainRetry s = .next t ∧ abaState t = 1 ∧ t.aba = { s.aba with width := 4 })
    ∧ (let recent := s.aba.retrains.filter (fun t => decide (s.timebase < t + 1000000000))
       let Retrains (t : State) : Prop := abaState t = 3 ∧ t.aba.width = 4 ∧ t.aba.deferred = false
         ∧ t.aba.retrains = recent ++ [s.timebase] ∧ RaisedOn .abaRetrain .aba 0 s t
       let many := decide (rd R.ABA_THRESH_RETRAINS 0 s ≤ recent.length) && recent.any (fun t => decide (s.timebase < t + 100000000))
       (flag (H.EN .aba) 0 s = true → abaUp s = true → ∃ t, exec .abaRetrain s = .next t ∧ Retrains t)
       ∧ (s.aba.viol ≤ rd R.ABA_THRESH_VIOL 0 s → exec .abaViolationWindow s = .next { s with aba := { s.aba with viol := 0 } })
       ∧ (rd R.ABA_THRESH_VIOL 0 s < s.aba.viol → abaUp s = true →
         (many = false → ∃ t, exec .abaViolationWindow s = .next t ∧ Retrains t ∧ t.aba.viol = 0)
         ∧ (many = true → exec .abaViolationWindow s = .next { s with aba := { s.aba with viol := 0, deferred := true } }))
       ∧ (s.aba.deferred = true → abaUp s = true → ∃ t, exec .abaRetrainDeferred s = .next t ∧ Retrains t)
       ∧ (s.aba.deferred = false → exec .abaRetrainDeferred s = .next s))

/-! ### Start-up, tests, sleep and recovery (18 R486 to R504; 21 R542) -/

/-- 18 R488 to R491, R494 to R497: each phase of start-up does its work once its turn has come, and goes on to the next or
fails with its cause; TRAIN purges memory where the policy says so; a sheet that is complete and holds nothing back releases
the device, with the frame counter at 0, or one after the exposure that a Dark sleep closed. -/
def Obligations.StartUp : Prop :=
  ∀ (s : State),
    let st := rd R.BOOT_STAT_STATE 0 s
    (∀ ok : Bool,
      (st = 0 → s.boot.alive = false → ∃ t, exec (.bootSafelight ok) s = .next t ∧ t.boot.powered = true ∧ t.boot.alive = ok
        ∧ rd R.BOOT_STAT_STATE 0 t = (if ok then 0 else 10) ∧ (ok = false → rd R.BOOT_STAT_CAUSE 0 t = 1 ∧ t.boot.alert = true)
        ∧ (ok = true → rd R.APT_FEED_AUX_OK 0 t = 1 ∧ ∀ d, 76 ≤ d → d < 80 → rd R.PDN_STAT_STATE d t = 2))
      ∧ (st ≠ 0 ∨ s.boot.alive = true → exec (.bootSafelight ok) s = .next s))
    ∧ (∀ f : Fuses,
      (mayFuse s = true → f.ok = true → ∃ t, exec (.bootFuse f) s = .next t ∧ rd R.BOOT_STAT_STATE 0 t = 2
        ∧ rd R.GLB_ID_GRADE 0 t = f.gradeB.toNat ∧ rd R.GLB_ID_GRADE_STOP 0 t = (if f.gradeB then 6 else 8)
        ∧ t.sec.revoked = s.sec.otp.revoked ∧ t.sec.minSvn = s.sec.otp.minSvn ∧ t.sec.otp = s.sec.otp
        ∧ (∀ d, d < 64 → rd R.PDN_STAT_STATE d t = 2))
      ∧ (mayFuse s = true → f.ok = false → ∃ t, exec (.bootFuse f) s = .next t ∧ rd R.BOOT_STAT_STATE 0 t = 10
        ∧ rd R.BOOT_STAT_CAUSE 0 t = 2 ∧ RaisedOn .fuseFail .boot 0 s t)
      ∧ (mayFuse s = false → exec (.bootFuse f) s = .next s))
    ∧ (∀ r : StripRes,
      (st ≠ 2 → exec (.bootStrip r) s = .next s)
      ∧ (st = 2 → r.towers ≠ [] → ∃ t, exec (.bootStrip r) s = .next t ∧ rd R.BOOT_STAT_STATE 0 t = 10 ∧ rd R.BOOT_STAT_CAUSE 0 t = 4)
      ∧ (st = 2 → r.towers = [] → r.routers = [] → (∀ h, h < 8 → flag R.HALF_FABRIC_LOST h s = false) →
        ∃ t, exec (.bootStrip r) s = .next t ∧ rd R.BOOT_STAT_STATE 0 t = 3
          ∧ (r.checker = [] → ∀ p, p < 4352 → rd R.SHF_TEST_DONE p t = 1 ∧ rd R.SHF_TEST_DRAM_PASS p t = 1 ∧ rd R.SHF_TEST_SRAM_PASS p t = 1)
          ∧ (∀ hr col, r.cores = [(hr, col)] → r.checker = [] → r.march = [] → r.lanes = [] →
            plannedSkip (hr.val * 16) s = 31 → t.boot.skips = s.boot.skips ++ [(hr.val, col.val)])))
    ∧ (∀ fl : Flash,
      let fw := s.boot.fw.getD fl.fw
      (st ≠ 3 → exec (.loadPhase fl) s = .next s)
      ∧ (st = 3 → fwCheck fw s.sec.revoked s.sec.minSvn ≠ none →
        ∃ t, exec (.loadPhase fl) s = .next t ∧ rd R.BOOT_STAT_STATE 0 t = 9 ∧ rd R.ABA_STAT_RECOVERY 0 t = 1
          ∧ RaisedOn .fwInvalid .boot 0 s t ∧ abaState t = 1)
      ∧ (st = 3 → fwCheck fw s.sec.revoked s.sec.minSvn = none →
        (factoryOk fl.factory s.sec.revoked = false → ∃ t, exec (.loadPhase fl) s = .next t ∧ rd R.BOOT_STAT_STATE 0 t = 10
          ∧ rd R.BOOT_STAT_CAUSE 0 t = 3 ∧ RaisedOn .factoryPageInvalid .boot 0 s t)
        ∧ (factoryOk fl.factory s.sec.revoked = true → ∃ t, exec (.loadPhase fl) s = .next t ∧ rd R.BOOT_STAT_STATE 0 t = 4
          ∧ t.sec.key = signerOf fw ∧ t.sec.otp = s.sec.otp
          ∧ (userAbsent (s.boot.user.getD fl.user) = true →
            t.img = (takeImg ⟨[], cfgEnts fl.factory⟩ (takeFields ⟨[], cfgEnts fl.factory⟩)).1))))
    ∧ (st ≠ 4 ∨ s.boot.trained = true → exec .bootTrain s = .next s)
    ∧ (st = 4 → s.boot.trained = false →
      ∃ t, exec .bootTrain s = .next t ∧ t.boot.trained = true ∧ rd R.BOOT_STAT_STATE 0 t = 4
        ∧ (∀ p, p < 18 → rayRole p s ≠ 0 → flag R.RAY_CTRL_DISABLE p s = false → rayState p t = 1)
        ∧ (flag R.SEC_POLICY_PURGE 0 s = true → s.boot.resume = none →
          (∀ p a, p < 4352 → a < 2 ^ 29 → readByte p a t = 0) ∧ rd R.SEC_STAT_PURGED 0 t = 1 ∧ RaisedOn .purgeDone .sec 0 s t)
        ∧ (flag R.SEC_POLICY_PURGE 0 s = false ∨ s.boot.resume.isSome = true → t.mem = s.mem ∧ t.voids = s.voids))
    ∧ (let frame := (match s.boot.resume with
         | some f => f + 1
         | none => 0) % 2 ^ 64
       let Released (level : Nat) (t : State) : Prop := t.frame = frame ∧ syncLevel t = level ∧ t.tickBase = s.timebase
         ∧ rd R.BOOT_STAT_STATE 0 t = (if degraded t then 8 else 7) ∧ t.mem = s.mem
       (st = 4 → trainDone s = true → sheetDone s = false → ∃ t, exec .bootSheet s = .next t ∧ rd R.BOOT_STAT_STATE 0 t = 5)
       ∧ (st = 5 → sheetDone s = false → exec .bootSheet s = .next s)
       ∧ (s.boot.edge = false → (st = 5 ∧ sheetDone s = true) ∨ st = 6 →
         (sheetHolds s = true → ∃ t, exec .bootSheet s = .next t ∧ rd R.BOOT_STAT_STATE 0 t = 6 ∧ t.frame = s.frame)
         ∧ (sheetHolds s = false → s.img.level = 0 → ∃ t, exec .bootSheet s = .next t ∧ Released 0 t)
         ∧ (sheetHolds s = false → s.img.level ≠ 0 → leadsGroup s = true →
            ∃ t, exec .bootSheet s = .next t ∧ Released (s.img.level % 2 ^ R.GLB_SYNC_LEVEL.w) t ∧ isLeader t = true)
         ∧ (sheetHolds s = false → s.img.level ≠ 0 → leadsGroup s = false → s.sync.heard = true → s.boot.peerOver = false →
            ∃ t, exec .bootSheet s = .next t ∧ t.boot.edge = true ∧ t.frame = s.frame ∧ rd R.BOOT_STAT_STATE 0 t = st)
         ∧ (sheetHolds s = false → s.img.level ≠ 0 → leadsGroup s = false → s.boot.peerOver = true → st = 6 →
            ∃ t, exec .bootSheet s = .next t ∧ Released 0 t))
       ∧ (st = 5 → s.boot.edge = false →
         (sheetHolds s = true → ∃ t, exec .peerWaitExpiry s = .next t ∧ rd R.BOOT_STAT_STATE 0 t = 6)
         ∧ (sheetHolds s = false → (s.img.level = 0 ∨ sheetHeard s = false) →
           ∃ t, exec .peerWaitExpiry s = .next t ∧ Released 0 t)))

/-- Training a shaft's lanes finds a lane that had not failed before with its best trim at an end (02 R67, R69). -/
def LanesFail (p : Nat) (l : List LaneObs) (s : State) : Bool :=
  l.any (fun o => trimEnd o.best.val && !s.fab.tune.dead.contains (laneKey p o.lane.val))

/-- 02 R67; 18 R498: a requested test starts, completes at once where it names no tower, or is refused; each unit of it runs in a
dark frame, unless its checker has run a batch in it, and the last one ends it with its result; delay training fails where a
lane's best trim lies at an end; a march leaves its memory undefined. -/
def Obligations.RequestedTests : Prop :=
  ∀ (s : State),
    (∀ (force : Bool) (tw : BitVec 4) (code : Nat) (i : Instr),
      (code, i) ∈ [(1, Instr.checkerTest force tw), (2, .delayTrainingTest force tw), (3, .regulatorTest force tw),
        (4, .sramMarch force tw), (5, .dramMarch force tw)] → flag (H.EN .boot) 0 s = true →
      let barred := !s.released || (decide (4 ≤ code) && testBlocked tw.toNat s)
      (rd R.BOOT_TEST_STATUS 0 s = 1 → ∃ t, exec i s = .next t ∧ RaisedOn .testRefused .boot 0 s t ∧ t.boot = s.boot
        ∧ rd R.BOOT_TEST_STATUS 0 t = 1)
      ∧ (rd R.BOOT_TEST_STATUS 0 s ≠ 1 → barred = true → ∃ t, exec i s = .next t ∧ RaisedOn .testRefused .boot 0 s t ∧ t.boot = s.boot
        ∧ rd R.BOOT_TEST_STATUS 0 t = 3 ∧ rd R.BOOT_TEST_RESULT 0 t = 2)
      ∧ (rd R.BOOT_TEST_STATUS 0 s ≠ 1 → barred = false → tw = 0 → ∃ t, exec i s = .next t ∧ RaisedOn .testDone .boot 0 s t
        ∧ rd R.BOOT_TEST_STATUS 0 t = 2 ∧ rd R.BOOT_TEST_RESULT 0 t = 0)
      ∧ (rd R.BOOT_TEST_STATUS 0 s ≠ 1 → barred = false → tw ≠ 0 → ∃ t, exec i s = .next t
        ∧ t.boot = { s.boot with test := some ⟨code, tw.toNat, force, 0, false, false⟩ } ∧ rd R.BOOT_TEST_STATUS 0 t = 1
        ∧ t = { s with regs := t.regs, boot := t.boot }))
    ∧ (∀ (res : UnitRes) (k : Test), s.boot.test = some k → inService s = true → flag R.GLB_EXP_DARK 0 s = true →
      (testWaits k s = true → exec (.testUnit res) s = .next s) ∧
      (testWaits k s = false →
      let bad := if k.code = 1 then decide (res.dram + res.sram ≠ 0)
        else if k.code = 2 then LanesFail ((unitAt k).1 * 1088 + (unitAt k).2) res.lanes s
        else if k.code = 3 then decide (res.phases ≠ 0) else !res.march.isEmpty
      let more := decide (k.unit + 1 < (towersIn k.towers).length * unitsPer k.code)
      ∃ t, exec (.testUnit res) s = .next t
        ∧ (more = true → t.boot.test = some { k with unit := k.unit + 1, fails := k.fails || bad })
        ∧ (more = false → t.boot.test = none ∧ rd R.BOOT_TEST_STATUS 0 t = 2 ∧ rd R.BOOT_TEST_RESULT 0 t = (k.fails || bad).toNat)
        ∧ (let p := (unitAt k).1 * 1088 + (unitAt k).2
           (k.code = 4 → ∀ a, 0x10000000 ≤ a → a < 0x10180000 → mget (cellKey p a) t.mem = none)
           ∧ (k.code = 5 → ∀ a, a < 0x8000000 → mget (cellKey p a) t.mem = none))))
    ∧ (∀ res : UnitRes, (s.boot.test = none ∨ flag R.GLB_EXP_DARK 0 s = false) → exec (.testUnit res) s = .next s)

/-- 18 R499 to R504: a sleep request waits for the tick; a wake ends Dim at once; the timer or a signal, where it is enabled,
ends Dark. -/
def Obligations.SleepAndWake : Prop :=
  ∀ (s : State),
    (flag (H.EN .boot) 0 s = true → s.released = true →
      (∃ t, exec .sleepDim s = .next t ∧ Queued .sleepDim s t ∧ t.regs = s.regs)
      ∧ (∃ t, exec .sleepDark s = .next t ∧ Queued .sleepDark s t ∧ t.regs = s.regs))
    ∧ (flag (H.EN .boot) 0 s = true → s.released = false → exec .sleepDim s = .next s ∧ exec .sleepDark s = .next s)
    ∧ (flag (H.EN .boot) 0 s = true → rd R.BOOT_STAT_STATE 0 s = 11 →
      ∃ t, exec .wakeFromDim s = .next t ∧ rd R.BOOT_STAT_STATE 0 t = (if degraded s then 8 else 7)
        ∧ rd R.BOOT_STAT_RESET_KIND 0 t = 3 ∧ t.tickBase = s.timebase ∧ t.cores = s.cores ∧ t.mem = s.mem ∧ t.frame = s.frame
        ∧ t.acts = s.acts)
    ∧ (flag (H.EN .boot) 0 s = true → rd R.BOOT_STAT_STATE 0 s ≠ 11 → exec .wakeFromDim s = .next s)
    ∧ (∀ (i : Instr) (cause : Nat),
      ((i = .wakeTimerExpiry ∧ cause = 1 ∧ flag R.SAFE_WAKE_TIMER 0 s = true ∧ rd R.SAFE_WAKE_AT 0 s ≤ s.timebase)
        ∨ (i = .darkWakeSignal true ∧ cause = 2 ∧ flag R.SAFE_WAKE_SMBUS 0 s = true)
        ∨ (i = .darkWakeSignal false ∧ cause = 3 ∧ flag R.SAFE_WAKE_ABAES 0 s = true)) →
      (s.boot.resume.isSome = true → s.boot.woken = false → ∃ t, exec i s = .next t ∧ t.boot.woken = true
        ∧ rd R.SAFE_WAKE_CAUSE 0 t = cause ∧ rd R.SAFE_DOWN 0 t = 4 ∧ t.mem = s.mem)
      ∧ (s.boot.resume = none ∨ s.boot.woken = true → exec i s = .next s))
    ∧ (flag R.SAFE_WAKE_TIMER 0 s = false → exec .wakeTimerExpiry s = .next s)

/-- 21 R542: a recovery load is fetched from window 0 or taken over SMBus, verified, programmed and read back; it fails with
its cause, and a second one while it runs completes as BUSY. -/
def Obligations.RecoveryLoads : Prop :=
  ∀ (flashOk : Bool) (s : State), awake s = true →
    let Failed (cause : Nat) (t : State) : Prop := rd R.BOOT_RL_CTRL_STATUS 0 t = 3 ∧ rd R.BOOT_RL_CTRL_CAUSE 0 t = cause
      ∧ t.boot.rl = none ∧ RaisedOn .rlFail .boot 0 s t
    (flag (H.EN .boot) 0 s = true →
      let user := flag R.BOOT_RL_CTRL_TARGET 0 s
      let n := rd R.BOOT_RL_LEN 0 s
      let a := rd R.BOOT_RL_ADDR 0 s
      (s.boot.rl.isSome = true → ∃ t, exec (.recoveryLoad flashOk) s = .next t ∧ t.boot = s.boot
        ∧ rd R.BOOT_RL_CTRL_CAUSE 0 t = 1 ∧ RaisedOn .rlFail .boot 0 s t)
      ∧ (s.boot.rl = none → (n = 0 ∨ rlLimit user < n) → ∃ t, exec (.recoveryLoad flashOk) s = .next t ∧ Failed 2 t
        ∧ t.boot.fw = s.boot.fw ∧ t.boot.user = s.boot.user)
      ∧ (s.boot.rl = none → n ≠ 0 → n ≤ rlLimit user →
        (inWindow0 a (min 4096 n) s = false → ∃ t, exec (.recoveryLoad flashOk) s = .next t ∧ Failed 3 t)
        ∧ (inWindow0 a (min 4096 n) s = true → dmaOk false a (min 4096 n) s = true →
          ∃ t tg, exec (.recoveryLoad flashOk) s = .next t ∧ rd R.BOOT_RL_CTRL_STATUS 0 t = 1
            ∧ t.boot.rl = some ⟨user, false, 1, n, [], []⟩
            ∧ t.aba.dmas = s.aba.dmas ++ [⟨tg, a, min 4096 n, .recovery 1⟩] ∧ Sent (.dmaRd tg a (min 4096 n)) t)))
    ∧ (∀ (user : Bool) (b : List Byte),
      (s.boot.rl.isSome = true → ∃ t, exec (.smbusRecoveryLoad user b flashOk) s = .next t ∧ t.boot = s.boot
        ∧ rd R.BOOT_RL_CTRL_CAUSE 0 t = 1 ∧ RaisedOn .rlFail .boot 0 s t)
      ∧ (s.boot.rl = none →
        (b.length = 0 ∨ rlLimit user < b.length → ∃ t, exec (.smbusRecoveryLoad user b flashOk) s = .next t ∧ Failed 2 t)
        ∧ (b.length ≠ 0 → b.length ≤ rlLimit user →
          (∀ c, rlVerify user b s = some c → ∃ t, exec (.smbusRecoveryLoad user b flashOk) s = .next t ∧ Failed c t
            ∧ t.boot.fw = s.boot.fw ∧ t.boot.user = s.boot.user)
          ∧ (rlVerify user b s = none → flashOk = false → ∃ t, exec (.smbusRecoveryLoad user b flashOk) s = .next t ∧ Failed 7 t)
          ∧ (rlVerify user b s = none → flashOk = true → ∃ t, exec (.smbusRecoveryLoad user b flashOk) s = .next t
            ∧ (if user then t.boot.user = some b ∧ t.boot.fw = s.boot.fw else t.boot.fw = some b ∧ t.boot.user = s.boot.user)
            ∧ (rd R.BOOT_STAT_STATE 0 s = 9 → StartsOver 1 5 s { t with boot := { t.boot with fw := s.boot.fw, user := s.boot.user } })
            ∧ (rd R.BOOT_STAT_STATE 0 s ≠ 9 → rd R.BOOT_RL_CTRL_STATUS 0 t = 2 ∧ RaisedOn .rlDone .boot 0 s t)))))

/-! ### Events, fences and register pages (00 R4 to R9; 19 R506 to R517; 21 R534 to R538) -/

/-- 05 R174; 00 R4; 15 R435; 19 R509; 21 R536 to R538: a forced event marks its page and its record alone; soft reset, LOCK
and APPLY of a page; the latch of a high word; a write where no register is, to a disabled page, and to an error word. -/
def Obligations.RegisterPages : Prop :=
  ∀ (s : State),
    let Ignored (t : State) : Prop := t = { s with regs := t.regs }
      ∧ rd R.GLB_WR_IGNORED 0 t = min (rd R.GLB_WR_IGNORED 0 s + 1) (2 ^ R.GLB_WR_IGNORED.w - 1)
    (∀ (q : Pg) (i : Nat), i < q.count →
      (∀ (c : BitVec 16) (e : Ev), evOfCode c.toNat = some e → e ≠ .ringOverflow →
        ∃ t, exec (.eventForce q.num i c) s = .next t ∧ RaisedOn e q i s t ∧ rd R.BOOT_STAT_STATE 0 t = rd R.BOOT_STAT_STATE 0 s
          ∧ t.acts = s.acts ∧ t.plates = s.plates
          ∧ (evOn e q i s = true → 7 ≤ rd R.BOOT_STAT_STATE 0 s →
            t.evt = fileRec (evRec e q i noTag true s) (inFix s) s.evt))
      ∧ (∀ c : BitVec 16, (evOfCode c.toNat = none ∨ evOfCode c.toNat = some .ringOverflow) →
        ∃ t, exec (.eventForce q.num i c) s = .next t ∧ Ignored t)
      ∧ (q.sreset = true → ∃ t, exec (.softReset q.num i) s = .next t ∧ Queued (.softReset q i) s t ∧ t.regs = s.regs)
      ∧ (q.sreset = false → ∃ t, exec (.softReset q.num i) s = .next t ∧ Ignored t)
      ∧ (∃ t, exec (.pageLock q.num i) s = .next t ∧ flag (H.LOCK q) i t = true ∧ t = { s with regs := t.regs })
      ∧ (∀ on : Bool, ∃ t, exec (.pageApply q.num i on) s = .next t ∧ flag (H.APPLY q) i t = on ∧ t = { s with regs := t.regs }))
    ∧ (∀ (a : BitVec 26) (q : Pg) (i o : Nat), placeOf a.toNat = some (.page q i o) →
      (isLow q o = true → isHigh q o = false → exec (.lowWordRead a) s
        = .next { s with latches := mput (latchKey q i o) (regValue q i o s / 2 ^ 32) s.latches })
      ∧ (isLow q o = false → exec (.lowWordRead a) s = .next s))
    ∧ (∀ (r : RegionId) (sets : BitVec 16), flag (H.EN .rgn) r.val s = true →
      ∃ t, exec (.ratioWatchClear r sets) s = .next t ∧ Queued (.rwClr r.val sets.toNat) s t ∧ t.regs = s.regs)
    ∧ (∀ (a : BitVec 26) (w : Word),
      (regStatus a.toNat s ≠ 0 → ∃ t, exec (.registerWrite a w) s = .next t ∧ t = { s with regs := t.regs }
        ∧ rd R.ABA_REG_IGNORED 0 t = min (rd R.ABA_REG_IGNORED 0 s + 1) (2 ^ R.ABA_REG_IGNORED.w - 1))
      ∧ (∀ q i o, placeOf a.toNat = some (.page q i o) → regStatus a.toNat s = 0 →
        (0x40 ≤ o → flag (H.EN q) i s = false → ∃ t, exec (.registerWrite a w) s = .next t ∧ Ignored t)
        ∧ (o = 0x10 → w.toNat < 16 → ∃ t, exec (.registerWrite a w) s = .next t ∧ t = { s with regs := t.regs }
            ∧ rd (H.SEV q) i t = rd (H.SEV q) i s &&& (15 - w.toNat))
        ∧ (o = 0x14 → w.toNat < 4 → ∃ t, exec (.registerWrite a w) s = .next t ∧ t = { s with regs := t.regs }
            ∧ rd (H.EVT_EN q) i t = w.toNat)
        ∧ (q = .rgn → o = R.TWR_RGN_FAULT_VALID.off → flag (H.EN q) i s = true →
            w.toNat = 2 ^ R.TWR_RGN_FAULT_VALID.lo →
          ∃ t, exec (.registerWrite a w) s = .next t ∧ t = { s with regs := t.regs } ∧ flag R.TWR_RGN_FAULT_VALID i t = false
            ∧ ∀ f k, Fld.key f k ≠ R.TWR_RGN_FAULT_VALID.key i → rd f k t = rd f k s)))

/-- 02 R77; 19 R508, R512, R514, R517: queued records go to their ring oldest first; a fence and a re-seat wait for the tick; an
evacuation starts, or is refused with its cause, and ends after its last granule. -/
def Obligations.EventsAndFences : Prop :=
  ∀ (s : State),
    (∀ v : Fin 4, inService s = true →
      (evRingOpen v.val s = false → exec (.eventRecordWrite v) s = .next s)
      ∧ (∀ r l, evRingOpen v.val s = true → queueOf v.val s = r :: l →
          let w := rd (R.EVT_RING_CTRL_WINDOW v.val) 0 s
          let slot := rd (R.EVT_RING_PROD v.val) 0 s % 2 ^ rd (R.EVT_RING_CTRL_SIZE v.val) 0 s
          (flag (R.ABA_WIN_CTRL_EN w) 0 s = true → flag (R.ABA_WIN_CTRL_WRITE w) 0 s = true → (slot + 1) * 32 ≤ rd (R.ABA_WIN_SIZE w) 0 s →
            ∃ t, exec (.eventRecordWrite v) s = .next t ∧ Sent (.dmaWr (rd (R.ABA_WIN_BASE w) 0 s + slot * 32) (recBytes r)) t
              ∧ (∃ k, queueOf v.val t = l.drop k) ∧ t.mem = s.mem)
          ∧ (flag (R.ABA_WIN_CTRL_EN w) 0 s = false →
            ∃ t, exec (.eventRecordWrite v) s = .next t ∧ Queued (.ringOff v.val) s t ∧ queueOf v.val t = r :: l
              ∧ RaisedOn .abaDmaError .aba 0 s t)))
    ∧ (∀ (r : RegionId) (c : Fin 64), flag (H.EN .rgn) r.val s = true →
      ∃ t, exec (.fenceRequest r c) s = .next t ∧ Queued (.fence (regionCore r.val c.val) 8) s t ∧ t.regs = s.regs ∧ t.cores = s.cores)
    ∧ (∀ (tw : TowerId) (half : Fin 2) (row : Fin 32), flag (H.EN .twr) tw.val s = true →
      ∃ t, exec (.reseatRequest tw half row) s = .next t ∧ Queued (.reseat tw.val half.val row.val) s t
        ∧ rd R.TWR_RESEAT_HALF tw.val t = half.val ∧ rd R.TWR_RESEAT_ROW tw.val t = row.val ∧ t.cores = s.cores)
    ∧ (∀ tw : TowerId, flag (H.EN .twr) tw.val s = true →
      let e : Evac := ⟨rd R.TWR_EVAC_CTRL_HALF tw.val s, rd R.TWR_EVAC_CTRL_ROW tw.val s, rd R.TWR_EVAC_CTRL_SRC_COL tw.val s,
        rd R.TWR_EVAC_CTRL_DST_COL tw.val s, rd R.TWR_EVAC_SADDR tw.val s, rd R.TWR_EVAC_DADDR tw.val s, rd R.TWR_EVAC_LEN tw.val s, 0⟩
      (evacCause tw.val e s = none → ∃ t, exec (.evacuation tw) s = .next t ∧ mget tw.val t.evacs = some e
        ∧ rd R.TWR_EVAC_CTRL_STATUS tw.val t = 1 ∧ rd R.TWR_EVAC_DONE tw.val t = 0 ∧ t.mem = s.mem)
      ∧ (∀ k, evacCause tw.val e s = some k → ∃ t, exec (.evacuation tw) s = .next t ∧ t.evacs = s.evacs
        ∧ rd R.TWR_EVAC_CTRL_CAUSE tw.val t = k
        ∧ rd R.TWR_EVAC_CTRL_STATUS tw.val t = (if mhas tw.val s.evacs then rd R.TWR_EVAC_CTRL_STATUS tw.val s else 3)))
    ∧ (∀ (tw : TowerId) (e : Evac), inService s = true → mget tw.val s.evacs = some e → e.len ≤ e.done →
      ∃ t, exec (.evacuationDone tw) s = .next t ∧ mget tw.val t.evacs = none ∧ rd R.TWR_EVAC_CTRL_STATUS tw.val t = 2
        ∧ RaisedOn .evacDone .twr tw.val s t ∧ t.mem = s.mem)

/-! ### Security and attestation (20 R522 to R530) -/

/-- 20 R522, R523, R529, R530: OTP is programmed once by its owner, and its minimum SVN and its revocations only grow; a
nonce serves one response; a response unlocks at the next tick, or is denied and counted, 8 times at most. -/
def Obligations.OwnerKeysAndDebug : Prop :=
  ∀ (s : State), flag (H.EN .sec) 0 s = true →
    (∀ readBack : Bool,
      (s.released = true → s.sec.otp.owner = none →
        ∃ t, exec (.ownerProgram 0x4F574E52 readBack) s = .next t ∧ Queued .ownerSet s t
          ∧ t.sec = { s.sec with otp := { s.sec.otp with owner := some (ownerHash s), spoiled := !readBack } }
          ∧ RaisedOn (if readBack then .ownerSet else .ownerProgFail) .sec 0 s t)
      ∧ (∀ w : Word, (w ≠ 0x4F574E52 ∨ s.released = false ∨ s.sec.otp.owner.isSome = true) →
        exec (.ownerProgram w readBack) s = .next s))
    ∧ (let n := max s.sec.otp.minSvn (rd R.SEC_STAT_FW_SVN 0 s)
       (flag R.SEC_STAT_FW_VALID 0 s = true → ∃ t, exec .svnCommit s = .next t ∧ t.sec = { s.sec with otp := { s.sec.otp with minSvn := n } }
         ∧ rd R.SEC_STAT_MIN_SVN 0 t = n % 2 ^ R.SEC_STAT_MIN_SVN.w)
       ∧ (flag R.SEC_STAT_FW_VALID 0 s = false → exec .svnCommit s = .next s))
    ∧ (∀ keys : BitVec 4,
      (keys ≠ 0 → flag R.SEC_STAT_FW_VALID 0 s = true → keys.toNat.testBit s.sec.key = false →
        ∃ t, exec (.keyRevoke keys) s = .next t
          ∧ t.sec = { s.sec with otp := { s.sec.otp with revoked := s.sec.otp.revoked ||| keys.toNat } }
          ∧ rd R.SEC_STAT_REVOKED 0 t = (s.sec.otp.revoked ||| keys.toNat) % 2 ^ R.SEC_STAT_REVOKED.w
          ∧ RaisedOn .keyRevoked .sec 0 s t)
      ∧ (keys = 0 ∨ flag R.SEC_STAT_FW_VALID 0 s = false ∨ keys.toNat.testBit s.sec.key = true →
        exec (.keyRevoke keys) s = .next s))
    ∧ (∀ level : Fin 4,
      (debugBarred s = true → ∃ t, exec (.nonceReq level) s = .next t ∧ rd R.SEC_DBG_CTRL_RESULT 0 t = 3 ∧ t.sec = s.sec)
      ∧ (debugBarred s = false → ∃ t, exec (.nonceReq level) s = .next t ∧ rd R.SEC_DBG_CTRL_LEVEL 0 t = level.val
        ∧ rd R.SEC_DBG_CTRL_RESULT 0 t = 0 ∧ t.sec = { s.sec with nonce := some (Config.freeValue s.free % 2 ^ 256) }
        ∧ (∀ i, i < 8 → rd (R.SEC_DBG_NONCE i) 0 t = bitsAt (Config.freeValue s.free % 2 ^ 256) (32 * i) 32)
        ∧ t.free = s.free + 1))
    ∧ (let level := rd R.SEC_DBG_CTRL_LEVEL 0 s
       let unlocks : Prop := ∃ n, s.sec.nonce = some n ∧ ((level = 1 ∧ ownerUnlock (debugDigest n level s) s = true)
         ∨ (level = 2 ∧ vendorUnlock (debugDigest n level s) s = true))
       (debugBarred s = true → ∃ t, exec .secSubmit s = .next t ∧ rd R.SEC_DBG_CTRL_RESULT 0 t = 3 ∧ t.sec = s.sec ∧ t.acts = s.acts)
       ∧ (debugBarred s = false → unlocks → ∃ t, exec .secSubmit s = .next t ∧ Queued (.debugOn level) s t
         ∧ rd R.SEC_DBG_CTRL_RESULT 0 t = 1 ∧ t.sec.nonce = none ∧ RaisedOn .debugUnlock .sec 0 s t)
       ∧ (debugBarred s = false → ¬unlocks → ∃ t, exec .secSubmit s = .next t ∧ rd R.SEC_DBG_CTRL_RESULT 0 t = 2
         ∧ rd R.SEC_DBG_CTRL_FAILS 0 t = rd R.SEC_DBG_CTRL_FAILS 0 s + 1 ∧ t.sec.nonce = none ∧ t.acts = s.acts
         ∧ rd R.SEC_STAT_DEBUG 0 t = rd R.SEC_STAT_DEBUG 0 s ∧ RaisedOn .debugDenied .sec 0 s t))

/-- A request of an endpoint's connection was answered (20 R525, R527): one reply, and the request joins the transcript. -/
def Replied (m : SpdmMsg) (stage : Nat) (b : SpdmBody) (s t : State) : Prop :=
  mget (connOf m) t.sec.replies = some b ∧ spdmConn m t = ⟨stage, (spdmConn m s).script ++ m.body⟩
    ∧ t.sec.otp = s.sec.otp ∧ (m.smbus = true → t.regs = s.regs)
    ∧ (m.smbus = false → rd R.SEC_MCTP_CTRL_RX_READY 0 t = 1)

/-- 20 R525 to R528: while the responder serves an endpoint, GET_VERSION opens its connection, GET_CAPABILITIES and
NEGOTIATE_ALGORITHMS carry it on in that order, and the other requests are answered once it is negotiated; one out of order
and one that is not supported are answered ERROR. The error codes and the places of the capability bits are PRESUMED
(DSP0274), not the spec's. -/
def Obligations.SpdmResponder : Prop :=
  ∀ (m : SpdmMsg) (s : State), spdmServes m s = true →
    let k := spdmConn m s
    (∃ t, exec (.getVersion m) s = .next t ∧ mget (connOf m) t.sec.replies = some .version ∧ spdmConn m t = ⟨1, m.body⟩
        ∧ t.sec.otp = s.sec.otp)
    ∧ (k.stage = 1 → ∃ t, exec (.getCapabilities m) s = .next t ∧ Replied m 2 (.capabilities 22 15) s t)
    ∧ (k.stage = 2 → ∃ t, exec (.negotiateAlgorithms m) s = .next t ∧ Replied m 3 .algorithms s t)
    ∧ (k.stage ≠ 1 → ∃ t, exec (.getCapabilities m) s = .next t ∧ Replied m k.stage (.error 4) s t)
    ∧ (k.stage ≠ 2 → ∃ t, exec (.negotiateAlgorithms m) s = .next t ∧ Replied m k.stage (.error 4) s t)
    ∧ (let all := Config.sha384 ((upFrom 1 6).flatMap (fun i => leBytes 48 (measurement i s)))
       let bs := measBlocks m.idx s
       let d := Config.sha384 (bs.flatMap (fun b => leBytes 48 b.2))
       ∀ i b, (i, b) ∈ [(Instr.getDigests m, SpdmBody.digests 0), (.getCertificate m, .certificate m.off m.len),
          (.spdmChallenge m, .challenge all (spdmSign m all s)),
          (.getMeasurements m, .measurements bs (if m.signed then some (spdmSign m d s) else none))] →
        (3 ≤ k.stage → ∃ t, exec i s = .next t ∧ Replied m 3 b s t)
        ∧ (k.stage < 3 → ∃ t, exec i s = .next t ∧ Replied m k.stage (.error 4) s t))
    ∧ (∃ t, exec (.unsupportedRequest m) s = .next t ∧ Replied m k.stage (.error 7) s t)

/-! ### The whole block -/

/-- 01 R44; 03 R127, R128, R558: a plate fault of a core whose job is not yet stopping stops the core, invalidates the staging of
its plate, ends the job with FAULT at the next tick, and is recorded in its region, if no record is held there but one of the
same cycle and a higher core, and raised. -/
def Obligations.PlateFaults : Prop :=
  ∀ (c ctx bundle cyc : Nat) (cause : Cause) (s : State) (j : Job) (m : Image),
    let p := (s.core c).cfg.plate
    let r := regionOf c
    let t := plateFault c ctx bundle cyc cause s
    (s.plate p).job = some j → j.stopping = none → (s.plate p).img = some m →
      (t.core c).stopped = true ∧ (∀ d, d ≠ c → t.core d = s.core d)
        ∧ t.plate p = { s.plate p with job := some { j with stopping := some (1, cause.code) } }
        ∧ (∀ q, q ≠ p → t.plate q = s.plate q) ∧ t.mem = s.mem ∧ RaisedOn cause.ev .rgn r s t
        ∧ rd R.TWR_RGN_MISS r t = (if cause.isMiss then min (rd R.TWR_RGN_MISS r s + 1) (2 ^ R.TWR_RGN_MISS.w - 1)
            else rd R.TWR_RGN_MISS r s)
        ∧ (∀ q, q < 64 → m.regions.testBit q = true → (q, actFrame s) ∈ t.seqr.dark)
        ∧ (flag R.TWR_RGN_FAULT_VALID r s = false ∨ laterCore c cyc s = true →
          flag R.TWR_RGN_FAULT_VALID r t = true ∧ rd R.TWR_RGN_FAULT_CORE r t = coreInRegion c % 2 ^ R.TWR_RGN_FAULT_CORE.w
            ∧ rd R.TWR_RGN_FAULT_CONTEXT r t = ctx % 2 ^ R.TWR_RGN_FAULT_CONTEXT.w
            ∧ rd R.TWR_RGN_FAULT_CAUSE r t = cause.code ∧ rd R.TWR_RGN_FAULT_BUNDLE r t = bundle % 2 ^ R.TWR_RGN_FAULT_BUNDLE.w
            ∧ rd R.TWR_RGN_FAULT_CYC_CYCLE r t = cyc % 2 ^ R.TWR_RGN_FAULT_CYC_CYCLE.w
            ∧ rd R.TWR_RGN_FAULT_CYC_FRAME_LO r t = s.frame % 2 ^ R.TWR_RGN_FAULT_CYC_FRAME_LO.w)
        ∧ (flag R.TWR_RGN_FAULT_VALID r s = true → laterCore c cyc s = false → rd R.TWR_RGN_FAULT_CAUSE r t = rd R.TWR_RGN_FAULT_CAUSE r s
            ∧ rd R.TWR_RGN_FAULT_CORE r t = rd R.TWR_RGN_FAULT_CORE r s)

/-- 18 R501: a timer that expires in Dim acts at the first resumed tick. -/
def Obligations.TimersInDim : Prop :=
  ∀ (s : State) (ch : ChanId) (w : RedWait) (p : PortId) (d : DomainId) (sn : WakeSense) (tw : TowerId) (l : Fin 8) (q : Fin 4)
      (h : HalfId) (r : RingId) (tag : BitVec 16), rd R.BOOT_STAT_STATE 0 s = 11 →
    ∀ (i : Instr) (x : Timer), (i, x) ∈ [(Instr.viewHoldExpiry, Timer.viewHold), (.hotExit tw, .hotExit tw.val),
        (.shadowHoldExpiry tw l q, .shadowHold tw.val l.val q.val), (.thmRecover h, .thmRecover h.val),
        (.wakeRetry d sn, .wakeRetry d.val sn), (.wakeLimit d, .wakeLimit d.val), (.collectiveHoldEnd, .collectiveHold),
        (.leaderLost ch, .leaderLost ch.val), (.redTimeout ch w, .redTimeout ch.val w), (.ringWaitTimeout r, .ringWait r.val),
        (.rayTrainLimit p, .rayTrainLimit p.val), (.rayTrainRetry p, .rayTrainRetry p.val), (.abaTrainLimit, .abaTrainLimit),
        (.abaTrainRetry, .abaTrainRetry), (.abaAckLimit, .abaAckLimit), (.abaDmaTimeout tag, .dma tag.toNat),
        (.syncLoss, .syncLoss), (.rejoinLimit, .rejoin)] →
      ∃ t, exec i s = .next t ∧ Queued (.expire x) s t ∧ t = { s with acts := t.acts, late := t.late }

/-- 00 R8, 14 R420, 18 R486: the state after a cold power-on. The frame counter, the timebase and the counters are 0, every
result slot is CONSUMED with SEQ 0, every plate number is free, no register has been written, and nothing waits. -/
def Obligations.ResetState : Prop :=
  let s := State.reset
  (∀ f i, rd f i s = f.dflt) ∧ s.frame = 0 ∧ s.timebase = 0 ∧ rd R.BOOT_STAT_STATE 0 s = 0 ∧ rd R.BOOT_STAT_RESET_KIND 0 s = 0
    ∧ (∀ k, (s.rslot k).st = .consumed ∧ (s.rslot k).seq = 0) ∧ (∀ p, (s.plate p).st = .free) ∧ (∀ r, (s.ring r).queue = [])
    ∧ (∀ c x, (s.core c).ctx x = Ctx.halted) ∧ s.pending = [] ∧ s.acts = [] ∧ s.late = [] ∧ s.sec.otp.owner = none

/-- The state after reset is sound. -/
def Obligations.ResetIsSound : Prop := State.reset.Inv

/-- Every command answers a next state, whatever the state: none faults, none is refused; and none touches the queue, gives
back a free value, clears an OTP bit, lets the last tick stand after now, or breaks the canonical form of memory. -/
def Obligations.EveryCommandKeeps : Prop := ∀ (i : Instr) (s : State), ∃ t, exec i s = .next t ∧ Keeps s t

/-- Every step keeps a sound state sound. -/
def Obligations.StepKeepsInv : Prop := ∀ s t : State, s.Inv → step s = .next t → t.Inv
end

