-- ==== Sys2Proof/Laws/Maps.lean ====
section
/-! SUPPORT. The laws of the sparse maps: a read after a write, and the order of the keys. -/
namespace Sys2Proof.Machine

variable {β : Type}

@[simp] theorem mget_nil (k : Nat) : mget k ([] : SMap β) = none := rfl

@[simp] theorem mget_mput_same (k : Nat) (v : β) (m : SMap β) : mget k (mput k v m) = some v := by
  induction m with
  | nil => simp [mput, mget]
  | cons e r ih =>
    obtain ⟨a, b⟩ := e
    simp only [mput]
    split
    · simp [mget]
    · split
      · simp [mget]
      · rename_i h _
        simp [mget, h, ih]

theorem mget_mput_of_ne {j k : Nat} (h : j ≠ k) (v : β) (m : SMap β) : mget j (mput k v m) = mget j m := by
  induction m with
  | nil => simp [mput, mget, h]
  | cons e r ih =>
    obtain ⟨a, b⟩ := e
    simp only [mput]
    split
    · rename_i hk
      subst hk
      simp [mget, h]
    · split
      · simp [mget, h]
      · simp only [mget, ih]

theorem mget_mput (j k : Nat) (v : β) (m : SMap β) : mget j (mput k v m) = if j = k then some v else mget j m := by
  split
  · rename_i h
    rw [h, mget_mput_same]
  · exact mget_mput_of_ne ‹_› v m

@[simp] theorem mgetD_mput_same (k : Nat) (d v : β) (m : SMap β) : mgetD k d (mput k v m) = v := by
  simp [mgetD]

theorem mgetD_mput_of_ne {j k : Nat} (h : j ≠ k) (d v : β) (m : SMap β) : mgetD j d (mput k v m) = mgetD j d m := by
  simp [mgetD, mget_mput_of_ne h]

theorem mget_mdel_same (k : Nat) (m : SMap β) : mget k (mdel k m) = none := by
  induction m with
  | nil => rfl
  | cons e r ih =>
    obtain ⟨a, b⟩ := e
    simp only [mdel, List.filter_cons] at ih ⊢
    split
    · rename_i h
      have h' : k ≠ a := by
        intro he
        subst he
        simp at h
      simp only [mget, if_neg h']
      exact ih
    · exact ih

theorem mget_mdel_of_ne {j k : Nat} (h : j ≠ k) (m : SMap β) : mget j (mdel k m) = mget j m := by
  induction m with
  | nil => rfl
  | cons e r ih =>
    obtain ⟨a, b⟩ := e
    simp only [mdel, List.filter_cons] at ih ⊢
    split
    · simp only [mget]
      rw [ih]
    · rename_i h'
      have ha : a = k := by simpa using h'
      subst ha
      simp only [mget, if_neg h]
      exact ih

/-- Every key of a map is above `k`. -/
def Above (k : Nat) (m : SMap β) : Prop := ∀ e ∈ m, k < e.1

theorem keysRise_cons {a : Nat × β} {m : SMap β} : keysRise (a :: m) = true ↔ Above a.1 m ∧ keysRise m = true := by
  induction m generalizing a with
  | nil => simp [keysRise, Above]
  | cons b r ih =>
    simp only [keysRise, Bool.and_eq_true, decide_eq_true_eq]
    constructor
    · intro h
      refine ⟨?_, h.2⟩
      intro e he
      rcases List.mem_cons.mp he with rfl | he
      · exact h.1
      · exact Nat.lt_trans h.1 ((ih.mp h.2).1 e he)
    · intro h
      exact ⟨h.1 b (List.mem_cons_self ..), h.2⟩

theorem mem_mput {k : Nat} {v : β} {m : SMap β} {e : Nat × β} (h : e ∈ mput k v m) : e = (k, v) ∨ e ∈ m := by
  induction m with
  | nil =>
    simp [mput] at h
    exact .inl h
  | cons a r ih =>
    obtain ⟨x, y⟩ := a
    simp only [mput] at h
    split at h
    · rcases List.mem_cons.mp h with rfl | h
      · exact .inl rfl
      · exact .inr (List.mem_cons_of_mem _ h)
    · split at h
      · rcases List.mem_cons.mp h with rfl | h
        · exact .inl rfl
        · exact .inr h
      · rcases List.mem_cons.mp h with rfl | h
        · exact .inr (List.mem_cons_self ..)
        · rcases ih h with h | h
          · exact .inl h
          · exact .inr (List.mem_cons_of_mem _ h)

/-- A write keeps the keys rising. -/
theorem keysRise_mput {k : Nat} {v : β} {m : SMap β} (h : keysRise m = true) : keysRise (mput k v m) = true := by
  induction m with
  | nil => rfl
  | cons a r ih =>
    obtain ⟨x, y⟩ := a
    have hr := keysRise_cons.mp h
    simp only [mput]
    split
    · rename_i hk
      subst hk
      exact keysRise_cons.mpr ⟨hr.1, hr.2⟩
    · split
      · rename_i hlt
        refine keysRise_cons.mpr ⟨?_, h⟩
        intro e he
        rcases List.mem_cons.mp he with rfl | he
        · exact hlt
        · exact Nat.lt_trans hlt (hr.1 e he)
      · refine keysRise_cons.mpr ⟨?_, ih hr.2⟩
        intro e he
        rcases mem_mput he with rfl | he
        · simp only
          omega
        · exact hr.1 e he

/-- Entries left out keep the keys rising. -/
theorem keysRise_filter {p : Nat × β → Bool} {m : SMap β} (h : keysRise m = true) : keysRise (m.filter p) = true := by
  induction m with
  | nil => rfl
  | cons a r ih =>
    have hr := keysRise_cons.mp h
    rw [List.filter_cons]
    split
    · refine keysRise_cons.mpr ⟨?_, ih hr.2⟩
      intro e he
      exact hr.1 e (List.mem_filter.mp he).1
    · exact ih hr.2

theorem keysRise_mdel {k : Nat} {m : SMap β} (h : keysRise m = true) : keysRise (mdel k m) = true := keysRise_filter h

end Sys2Proof.Machine
end

