-- ==== Sys2Proof/Laws/Ops.lean ====
section
/-! SUPPORT. The laws of the named operations: registers, cores and units, memory and its canonical form. -/
namespace Sys2Proof.Machine

/-! ### Registers -/

@[simp] theorem rd_wr_same (f : Fld) (i v : Nat) (s : State) : rd f i (wr f i v s) = v % 2 ^ f.w := by
  simp [rd, wr]

theorem rd_wr_of_ne {f g : Fld} {i j : Nat} (h : f.key i ≠ g.key j) (v : Nat) (s : State) :
    rd f i (wr g j v s) = rd f i s := by
  simp [rd, wr, mgetD_mput_of_ne h]

theorem rd_congr {f : Fld} {i : Nat} {s t : State} (h : t.regs = s.regs) : rd f i t = rd f i s := by
  simp [rd, h]

@[simp] theorem rd_setCore (f : Fld) (i c : Nat) (k : Core) (s : State) : rd f i (s.setCore c k) = rd f i s := rfl
@[simp] theorem rd_setPlate (f : Fld) (i p : Nat) (k : Plate) (s : State) : rd f i (s.setPlate p k) = rd f i s := rfl
@[simp] theorem rd_setRing (f : Fld) (i r : Nat) (k : Ring) (s : State) : rd f i (s.setRing r k) = rd f i s := rfl
@[simp] theorem rd_setRslot (f : Fld) (i r : Nat) (k : RSlot) (s : State) : rd f i (s.setRslot r k) = rd f i s := rfl

/-- What queueing an action for a tick can do. -/
theorem later_cases (a : TickAct) (s : State) :
    later a s = { s with late := s.late ++ [a] } ∧ inFix s = true
      ∨ later a s = { s with acts := s.acts ++ [a] } ∧ inFix s = false := by
  unfold later
  cases h : inFix s <;> simp

@[simp] theorem later_regs (a : TickAct) (s : State) : (later a s).regs = s.regs := by
  rcases later_cases a s with ⟨h, -⟩ | ⟨h, -⟩ <;> rw [h]

@[simp] theorem rd_later (f : Fld) (i : Nat) (a : TickAct) (s : State) : rd f i (later a s) = rd f i s :=
  rd_congr (later_regs a s)

/-! ### Cores, plates, rings, result slots -/

@[simp] theorem core_setCore_same (s : State) (c : Nat) (k : Core) : (s.setCore c k).core c = k := by
  simp [State.core, State.setCore]
theorem core_setCore_of_ne {c d : Nat} (h : d ≠ c) (s : State) (k : Core) : (s.setCore c k).core d = s.core d := by
  simp [State.core, State.setCore, mgetD_mput_of_ne h]
@[simp] theorem plate_setPlate_same (s : State) (p : Nat) (k : Plate) : (s.setPlate p k).plate p = k := by
  simp [State.plate, State.setPlate]
@[simp] theorem ring_setRing_same (s : State) (r : Nat) (k : Ring) : (s.setRing r k).ring r = k := by
  simp [State.ring, State.setRing]
@[simp] theorem rslot_setRslot_same (s : State) (r : Nat) (k : RSlot) : (s.setRslot r k).rslot r = k := by
  simp [State.rslot, State.setRslot]
@[simp] theorem core_wr (f : Fld) (i v c : Nat) (s : State) : (wr f i v s).core c = s.core c := rfl
@[simp] theorem plate_wr (f : Fld) (i v p : Nat) (s : State) : (wr f i v s).plate p = s.plate p := rfl
@[simp] theorem ring_wr (f : Fld) (i v r : Nat) (s : State) : (wr f i v s).ring r = s.ring r := rfl
@[simp] theorem rslot_wr (f : Fld) (i v k : Nat) (s : State) : (wr f i v s).rslot k = s.rslot k := rfl

/-! ### Memory -/

theorem cellKey_inj {p q a b : Nat} (ha : a < 2 ^ 29) (hb : b < 2 ^ 29) : cellKey p a = cellKey q b ↔ p = q ∧ a = b := by
  unfold cellKey
  omega

/-- A byte written is the byte read. -/
theorem readByte_writeByte_same (p a : Nat) (b : Byte) (s : State) : readByte p a (writeByte p a b s) = b := by
  unfold writeByte
  split
  · rename_i h
    simp [readByte, mget_mdel_same, h.1, h.2]
  · simp [readByte]

/-- A byte written leaves every other byte alone. -/
theorem readByte_writeByte_of_ne {p q a x : Nat} (h : cellKey q x ≠ cellKey p a) (b : Byte) (s : State) :
    readByte q x (writeByte p a b s) = readByte q x s := by
  unfold writeByte
  split
  · simp [readByte, mget_mdel_of_ne h]
  · simp [readByte, mget_mput_of_ne h]

theorem Memory.wf_iff {mem : SMap Byte} {voids : List Void} :
    Memory.wf mem voids = true ↔ keysRise mem = true ∧ ∀ e ∈ mem, ¬(voidOf e.1 voids = none ∧ e.2 = 0) := by
  simp [Memory.wf, Decidable.imp_iff_not_or]

/-- A write of one byte keeps the canonical form. -/
theorem writeByte_wf {p a : Nat} {b : Byte} {s : State} (h : Memory.wf s.mem s.voids = true) :
    Memory.wf (writeByte p a b s).mem (writeByte p a b s).voids = true := by
  rw [Memory.wf_iff] at h
  unfold writeByte
  split
  · refine Memory.wf_iff.mpr ⟨keysRise_mdel h.1, ?_⟩
    intro e he
    exact h.2 e (List.mem_filter.mp he).1
  · rename_i hn
    refine Memory.wf_iff.mpr ⟨keysRise_mput h.1, ?_⟩
    intro e he
    rcases mem_mput he with rfl | he
    · exact hn
    · exact h.2 e he

/-- Bytes forgotten keep the canonical form. -/
theorem forgetRange_wf {p a n : Nat} {s : State} (h : Memory.wf s.mem s.voids = true) :
    Memory.wf (forgetRange p a n s).mem (forgetRange p a n s).voids = true := by
  rw [Memory.wf_iff] at h
  refine Memory.wf_iff.mpr ⟨keysRise_filter h.1, ?_⟩
  intro e he
  have hm := List.mem_filter.mp he
  have h2 := h.2 e hm.1
  simp only [forgetRange, voidOf]
  have : ¬(cellKey p a ≤ e.1 ∧ e.1 < cellKey p (a + n)) := by
    have := hm.2
    simp only [Bool.not_eq_true', Bool.and_eq_false_iff, decide_eq_false_iff_not] at this
    omega
  simp [this]
  simpa using h2

end Sys2Proof.Machine
end

