-- ==== Sys2Proof/Laws/Issue.lean ====
section
/-! SUPPORT. What issuing a bundle can do: the registers and contexts of a core, and the one way to the commit of a
bundle. -/
namespace Sys2Proof.Machine

/-! ### Registers and contexts of a core -/

@[simp] theorem ctx_setCtx_same (o : Core) (x : Nat) (k : Ctx) : (o.setCtx x k).ctx x = k := by
  simp [Core.ctx, Core.setCtx]
theorem ctx_setCtx_of_ne {x y : Nat} (h : y ≠ x) (o : Core) (k : Ctx) : (o.setCtx x k).ctx y = o.ctx y := by
  simp [Core.ctx, Core.setCtx, mgetD_mput_of_ne h]
@[simp] theorem sreg_zero (o : Core) (x : Nat) : o.sreg x 0 = ⟨0, false, false⟩ := by simp [Core.sreg]
theorem sreg_setSreg_same {r : Nat} (h : r ≠ 0) (o : Core) (x : Nat) (v : SReg) : (o.setSreg x r v).sreg x r = v := by
  simp [Core.sreg, Core.setSreg, h]
theorem sreg_setSreg_of_ne {x r y q : Nat} (h : y * 16 + q ≠ x * 16 + r) (o : Core) (v : SReg) :
    (o.setSreg x r v).sreg y q = o.sreg y q := by
  unfold Core.setSreg
  split
  · rfl
  · simp [Core.sreg, mgetD_mput_of_ne h]
@[simp] theorem vreg_setVreg_same (o : Core) (x r : Nat) (v : Slot) : (o.setVreg x r v).vreg x r = v := by
  simp [Core.vreg, Core.setVreg]
@[simp] theorem line_setLine_same (o : Core) (l : Nat) (v : Slot) : (o.setLine l v).line l = v := by
  simp [Core.line, Core.setLine]
theorem line_setLine_of_ne {l m : Nat} (h : m ≠ l) (o : Core) (v : Slot) : (o.setLine l v).line m = o.line m := by
  simp [Core.line, Core.setLine, mgetD_mput_of_ne h]

@[simp] theorem setCtx_setSreg_ctx (o : Core) (x r y : Nat) (v : SReg) : (o.setSreg x r v).ctx y = o.ctx y := by
  unfold Core.setSreg
  split <;> rfl

/-! ### Issue -/

/-- A slot issued alone, with the issue stage read from the core as it stands. -/
theorem issueSlot_eq (c x : Nat) (b : Bundle) (s : State) :
    issueSlot c x b s =
      if inFix s || !(s.core c).mayIssue (s.core c).cyc || !(s.core c).hasNext x (s.core c).cyc then s
      else
        match bundleCause c x ((s.core c).unheld x (s.core c).cyc && ready (s.core c) x b) b s with
        | some cause => plateFault c x ((s.core c).ctx x).ptr (s.core c).cyc cause s
        | none => if (s.core c).unheld x (s.core c).cyc && ready (s.core c) x b then commit c x (s.core c).cyc b s else s := rfl

/-- A bundle that may issue, once it is asked whether it faults and whether it is ready. -/
theorem issueSlot_can {c x : Nat} {b : Bundle} {s : State} (h : CanIssue c x s) :
    issueSlot c x b s =
      match bundleCause c x (ready (s.core c) x b) b s with
      | some cause => plateFault c x ((s.core c).ctx x).ptr (s.core c).cyc cause s
      | none => if ready (s.core c) x b then commit c x (s.core c).cyc b s else s := by
  obtain ⟨h0, h1, h2, h3, h4, h5, h6, h7⟩ := h
  have hm : (s.core c).mayIssue (s.core c).cyc = true := by simp [Core.mayIssue, h1, h2, h3]
  have hn : (s.core c).hasNext x (s.core c).cyc = true := by simp [Core.hasNext, h4, h6]
  have hu : (s.core c).unheld x (s.core c).cyc = true := by simp [Core.unheld, h5, h7]
  rw [issueSlot_eq, h0, hm, hn, hu]
  rfl

/-- A bundle that breaks no rule, is ready and meets no fault at issue is committed. -/
theorem issueSlot_commit {c x : Nat} {b : Bundle} {s : State} (h : CanIssue c x s)
    (he : earlyFaults (s.core c) x ((s.core c).ctx x).ptr b = []) (hr : ready (s.core c) x b = true)
    (hi : issueCause c x b s = none) : issueSlot c x b s = commit c x (s.core c).cyc b s := by
  simp [issueSlot_can h, bundleCause, he, hr, hi]

/-- A bundle with a fault that it meets before it is ready takes the plate fault of its lowest cause. -/
theorem issueSlot_fault {c x : Nat} {b : Bundle} {s : State} {cause : Cause} {l : List Cause} (h : CanIssue c x s)
    (he : earlyFaults (s.core c) x ((s.core c).ctx x).ptr b = cause :: l)
    (hi : ∀ i, ready (s.core c) x b = true → issueCause c x b s = some i → cause.code ≤ i.code) :
    issueSlot c x b s = plateFault c x ((s.core c).ctx x).ptr (s.core c).cyc cause s := by
  have hb : bundleCause c x (ready (s.core c) x b) b s = some cause := by
    unfold bundleCause
    rw [he]
    cases hr : ready (s.core c) x b
    · rfl
    · cases hc : issueCause c x b s with
      | none => rfl
      | some i => simpa using fun hl => absurd (hi i hr hc) (Nat.not_le.mpr hl)
  rw [issueSlot_can h, hb]

/-- A bundle that is not ready stays where it is. -/
theorem issueSlot_wait {c x : Nat} {b : Bundle} {s : State}
    (he : earlyFaults (s.core c) x ((s.core c).ctx x).ptr b = []) (hr : ready (s.core c) x b = false) :
    issueSlot c x b s = s := by
  simp [issueSlot_eq, bundleCause, he, hr]

/-- A scalar register written changes the scalar registers only. -/
theorem setSreg_eq (o : Core) (x r : Nat) (v : SReg) : ∃ m, o.setSreg x r v = { o with sregs := m } := by
  unfold Core.setSreg
  split
  · exact ⟨o.sregs, rfl⟩
  · exact ⟨_, rfl⟩

/-- What a committed bundle leaves: the core after its slots, with the context moved on and the issue stage a cycle
further; a bundle with NM or FENCE.NM does more. -/
theorem commit_eq (c x cyc : Nat) (b : Bundle) (s : State) (h : ∀ t, shaftSide c x b (s.core c) t = t) :
    ∃ w, w = (doSlots c x ((s.core c).ctx x).ptr cyc b (s.core c) s.free).1
      ∧ commit c x cyc b s
        = { s with free := (doSlots c x ((s.core c).ctx x).ptr cyc b (s.core c) s.free).2 }.setCore c
            { advance (s.core c) x ((s.core c).ctx x).ptr cyc b w with
              cyc := cyc + 1, doneCyc := max w.doneCyc cyc,
              lastTimed := if (s.core c).isTimed x then x else w.lastTimed,
              lastFree := if (s.core c).isTimed x then w.lastFree else x } := by
  refine ⟨_, rfl, ?_⟩
  simp only [commit, h]
  split <;> rfl

/-- What the issue stage shows of it. -/
theorem issued_of_advance {o w : Core} {x ptr cyc : Nat} {b : Bundle} (hc : ∀ y, y ≠ x → w.ctx y = o.ctx y)
    (hs : (w.ctx x).scales = (o.ctx x).scales) (ht : w.lastTimed = o.lastTimed) (hf : w.lastFree = o.lastFree)
    (hy : cyc = o.cyc) (d : Nat) :
    Issued x (nextPtr o x ptr b) b.stall
      (if b.halt then .halted else if b.end_ then .ended else .run) o
      { advance o x ptr cyc b w with
        cyc := cyc + 1, doneCyc := d, lastTimed := if o.isTimed x then x else w.lastTimed,
        lastFree := if o.isTimed x then w.lastFree else x } := by
  have hx : ∀ k, Core.ctx { w.setCtx x k with
      cyc := cyc + 1, doneCyc := d, lastTimed := if o.isTimed x then x else w.lastTimed,
      lastFree := if o.isTimed x then w.lastFree else x } x = k := fun k => ctx_setCtx_same w x k
  refine ⟨by rw [hy], ?_, ?_, ?_, ?_, ?_, ?_, ?_⟩
  · simp only [advance]
    rw [hx]
  · simp only [advance]
    rw [hx, hy]
  · simp only [advance]
    rw [hx]
  · simp only [advance]
    rw [hx, ← hs]
  · intro y h
    rw [← hc y h]
    exact ctx_setCtx_of_ne h w _
  · intro h
    simp [h, hf]
  · intro h
    simp [h, ht]

/-- A scalar operation on its own that is ready and breaks no rule, and writes `v` to `sd`: all that it does. -/
theorem issueScalar_step {c x sd : Nat} {v : SReg} {op : ScSlot} {s : State} (h : CanIssue c x s)
    (he : earlyFaults (s.core c) x ((s.core c).ctx x).ptr { Bundle.nops with sc := op } = [])
    (hr : ready (s.core c) x { Bundle.nops with sc := op } = true) (hd : sd < 16)
    (hw : doScalar (s.core c) c x ((s.core c).ctx x).ptr (s.core c).cyc op (s.core c, s.free)
      = ((s.core c).setSreg x sd v, s.free)) :
    ScalarStep c x sd (nextPtr (s.core c) x ((s.core c).ctx x).ptr { Bundle.nops with sc := op })
      (Bundle.stall { Bundle.nops with sc := op }) v s (issueScalar c x op s) := by
  have hi : issueCause c x { Bundle.nops with sc := op } s = none := by
    simp [issueCause, Bundle.nops, budgetBad, isRequest]
  obtain ⟨w, hw', hc⟩ := commit_eq c x (s.core c).cyc { Bundle.nops with sc := op } s (fun t => rfl)
  have hd' : doSlots c x ((s.core c).ctx x).ptr (s.core c).cyc { Bundle.nops with sc := op } (s.core c) s.free
      = ((s.core c).setSreg x sd v, s.free) := by
    simpa [doSlots, Bundle.nops, doShaft, doMove, doCube, doVector] using hw
  rw [hd'] at hw' hc
  simp only at hw' hc
  obtain ⟨m, hm⟩ := setSreg_eq (s.core c) x sd v
  rw [issueScalar, issueSlot_commit h he hr hi, hc]
  refine ⟨⟨rfl, fun d hd => core_setCore_of_ne hd _ _⟩, rfl, ?_, ?_, ?_, ?_⟩
  · rw [core_setCore_same]
    have k : ∀ y, w.ctx y = (s.core c).ctx y := by
      intro y
      rw [hw', hm]
      rfl
    exact issued_of_advance (fun y _ => k y) (by rw [k]) (by rw [hw', hm]) (by rw [hw', hm]) rfl _
  · rw [core_setCore_same, hw', hm]
    rfl
  · intro y r hy hr' hn
    rw [core_setCore_same, hw']
    have hk : y * 16 + r ≠ x * 16 + sd := by omega
    exact sreg_setSreg_of_ne hk _ _
  · rw [core_setCore_same, hw']
    show ((s.core c).setSreg x sd v).sreg x sd = _
    split
    · rename_i h0
      rw [h0]
      exact sreg_zero _ _
    · exact sreg_setSreg_same ‹_› _ _ _

/-- An operation put in flight touches its destinations, the list of those in flight and the next number only. -/
theorem addFlight_ctxs (w : Core) (f : Flight) : (addFlight w f).ctxs = w.ctxs ∧ (addFlight w f).lastTimed = w.lastTimed
    ∧ (addFlight w f).lastFree = w.lastFree ∧ (addFlight w f).cyc = w.cyc := by
  unfold addFlight
  suffices ∀ (l : List Eff) (w : Core), let r := l.foldl (fun w e =>
      match e with
      | .vreg x r _ _ _ => w.setVreg x r { w.vreg x r with pres := .pending }
      | .line l _ _ _ => w.setLine l { w.line l with pres := .pending }
      | .mask x m _ _ _ => w.setMreg x m { w.mreg x m with pending := true }
      | .outSlot k _ _ _ => w.setLine (outLine k) { w.line (outLine k) with pres := .pending }) w
      r.ctxs = w.ctxs ∧ r.lastTimed = w.lastTimed ∧ r.lastFree = w.lastFree ∧ r.cyc = w.cyc from this _ _
  intro l
  induction l with
  | nil => intro w; exact ⟨rfl, rfl, rfl, rfl⟩
  | cons e r ih =>
    intro w
    simp only [List.foldl_cons]
    have := ih (match e with
      | .vreg x r _ _ _ => w.setVreg x r { w.vreg x r with pres := .pending }
      | .line l _ _ _ => w.setLine l { w.line l with pres := .pending }
      | .mask x m _ _ _ => w.setMreg x m { w.mreg x m with pending := true }
      | .outSlot k _ _ _ => w.setLine (outLine k) { w.line (outLine k) with pres := .pending })
    simp only at this
    rw [this.1, this.2.1, this.2.2.1, this.2.2.2]
    cases e with
    | vreg | line | outSlot => exact ⟨rfl, rfl, rfl, rfl⟩
    | mask x m v e p =>
      simp only [Core.setMreg]
      split <;> exact ⟨rfl, rfl, rfl, rfl⟩

/-- A bundle that puts one operation in flight and does nothing else: all that it does. -/
theorem issueSlot_flight {c x fr : Nat} {b : Bundle} {fl : Flight} {s : State} (h : CanIssue c x s)
    (he : earlyFaults (s.core c) x ((s.core c).ctx x).ptr b = []) (hr : ready (s.core c) x b = true)
    (hi : issueCause c x b s = none) (hs : ∀ t, shaftSide c x b (s.core c) t = t) (hst : b.stall = 0)
    (hb : branchTo (s.core c) x ((s.core c).ctx x).ptr b.sc = none) (he1 : b.end_ = false) (he2 : b.halt = false)
    (k : Ctx) (hk : k.scales = ((s.core c).ctx x).scales)
    (hd : doSlots c x ((s.core c).ctx x).ptr (s.core c).cyc b (s.core c) s.free
      = ((addFlight (s.core c) fl).setCtx x k, fr) ∨
      doSlots c x ((s.core c).ctx x).ptr (s.core c).cyc b (s.core c) s.free = (addFlight (s.core c) fl, fr)
        ∧ k = (s.core c).ctx x)
    (hf : fl.ctx = x ∧ fl.bundle = ((s.core c).ctx x).ptr ∧ fl.cube = none ∧ fl.locks = []) :
    FlightStep c x fl s (issueSlot c x b s) ∧ (((issueSlot c x b s).core c).ctx x).drawV = k.drawV
      ∧ (((issueSlot c x b s).core c).ctx x).drawC = k.drawC ∧ (issueSlot c x b s).free = fr := by
  obtain ⟨w, hw', hc⟩ := commit_eq c x (s.core c).cyc b s hs
  have ha := addFlight_ctxs (s.core c) fl
  have hfr : (doSlots c x ((s.core c).ctx x).ptr (s.core c).cyc b (s.core c) s.free).2 = fr := by
    rcases hd with hd | ⟨hd, -⟩ <;> rw [hd]
  rw [hfr] at hc
  have hw1 : ∃ m, w = { addFlight (s.core c) fl with ctxs := m } ∧ (∀ y, y ≠ x → w.ctx y = (s.core c).ctx y)
      ∧ w.ctx x = k := by
    rcases hd with hd | ⟨hd, hk'⟩
    · refine ⟨_, by rw [hw', hd]; rfl, ?_, by rw [hw', hd]; exact ctx_setCtx_same _ _ _⟩
      intro y hy
      rw [hw', hd]
      simp only
      rw [ctx_setCtx_of_ne hy, Core.ctx, ha.1]
      rfl
    · refine ⟨(addFlight (s.core c) fl).ctxs, by rw [hw', hd], ?_, ?_⟩
      · intro y _
        rw [hw', hd, Core.ctx, ha.1]
        rfl
      · rw [hw', hd, Core.ctx, ha.1, hk']
        rfl
  obtain ⟨m, hm, hne, hx⟩ := hw1
  rw [issueSlot_commit h he hr hi, hc]
  have hI := issued_of_advance (o := s.core c) (w := w) (x := x) (ptr := ((s.core c).ctx x).ptr) (cyc := (s.core c).cyc)
    (b := b) hne (by rw [hx, hk]) (by rw [hm]; exact ha.2.1) (by rw [hm]; exact ha.2.2.1) rfl
    (max w.doneCyc (s.core c).cyc)
  rw [hst, he1, he2] at hI
  have hn : nextPtr (s.core c) x ((s.core c).ctx x).ptr b = ((s.core c).ctx x).ptr + 1 := by
    simp [nextPtr, hb]
  rw [hn] at hI
  refine ⟨⟨⟨rfl, fun d hd => core_setCore_of_ne hd _ _⟩, ?_, ?_, hf⟩, ?_, ?_, rfl⟩
  · rw [core_setCore_same]
    exact hI
  · rw [core_setCore_same, hm]
    rfl
  · rw [core_setCore_same]
    show (Core.ctx (w.setCtx x _) x).drawV = _
    rw [ctx_setCtx_same]
    simp only [hx]
  · rw [core_setCore_same]
    show (Core.ctx (w.setCtx x _) x).drawC = _
    rw [ctx_setCtx_same]
    simp only [hx]

end Sys2Proof.Machine
end

