-- ==== Sys2Proof/Laws/Keeps.lean ====
section
/-! SUPPORT. What no command may do (`Keeps`, Safety.lean) is kept by every operation of
registers, events, cores and units, the shafts and near-memory work:
from a state that kept it since `o0`, the operation answers one that did. -/
namespace Sys2Proof.Machine

theorem OtpGrows.rfl' (a : Otp) : OtpGrows a a := ⟨fun _ h => h, Nat.le_refl _, fun _ h => h⟩
theorem OtpGrows.trans {a b c : Otp} (h : OtpGrows a b) (k : OtpGrows b c) : OtpGrows a c :=
  ⟨fun i x => k.1 i (h.1 i x), Nat.le_trans h.2.1 k.2.1, fun x y => k.2.2 x (h.2.2 x y)⟩

theorem Keeps.refl (s : State) : Keeps s s :=
  ⟨rfl, Nat.le_refl _, id, id, id, OtpGrows.rfl' _⟩
theorem Keeps.trans {a b c : State} (h : Keeps a b) (k : Keeps b c) : Keeps a c :=
  ⟨k.pending.trans h.pending, Nat.le_trans h.free k.free, fun x => k.time (h.time x), fun x => k.mem (h.mem x),
    fun x => k.voids (h.voids x), h.otp.trans k.otp⟩
/-- An update of fields that no rule of `Keeps` speaks of. -/
theorem Keeps.upd {o0 s t : State} (h : Keeps o0 s) (e1 : t.pending = s.pending) (e2 : s.free ≤ t.free)
    (e3 : t.timebase = s.timebase) (e4 : t.tickBase = s.tickBase) (e5 : t.mem = s.mem) (e6 : t.voids = s.voids)
    (e7 : t.sec.otp = s.sec.otp) : Keeps o0 t :=
  h.trans ⟨e1, e2, by rw [e3, e4]; exact id, by unfold State.memOk; rw [e5, e6]; exact id,
    fun k v hv n e => Nat.le_trans (k v (e6 ▸ hv) n e) e2, by rw [e7]; exact OtpGrows.rfl' _⟩
/-- A record update of fields that no rule of `Keeps` speaks of. -/
theorem Keeps.mk_ {o0 s : State} {free : Nat} {regs : SMap Nat} {rof : SMap Nat} {view : SMap Nat} {seqRof : Nat}
    {seqView : Nat} {latches : SMap Nat} {lastEv : SMap Ev} {acts : List TickAct} {late : List TickAct} {evt :
    EvtSt} {aba : Aba} {marks : SMap Bool} {shafts : SMap Shaft} {snap : Snap} {cores : SMap Core} {plates : SMap
    Plate} {rings : SMap Ring} {slots : SMap RSlot} {kv : Kv} {seqr : Sequencer} {fab : Fabric} {ray :
    SMap RayPort} {sync : Sync} {img : ImgVals} {red : Red} {apt : Apt} {therm : Therm} {boot : Boot} {evacs : SMap
    Evac} {fences : SMap Nat} {stretch : SMap Nat} {refRows : SMap Nat} {refAt : Option Nat} {sec : Sec} (h : Keeps
    o0 s) (hf : s.free ≤ free) (hs : sec.otp = s.sec.otp) :
    Keeps o0 (State.mk s.pending free s.timebase s.tickBase regs rof view seqRof seqView latches lastEv acts late
    evt aba s.mem marks s.voids shafts snap cores plates rings slots kv seqr fab ray sync img red apt therm
    boot evacs fences stretch refRows refAt sec) := Keeps.upd h rfl hf rfl rfl rfl rfl hs
/-- A tick: the same, and the last tick is now. -/
theorem Keeps.tick_ {o0 s : State} {t : Nat} {regs : SMap Nat} {rof : SMap Nat} {view : SMap Nat} {seqRof : Nat}
    {seqView : Nat} {latches : SMap Nat} {lastEv : SMap Ev} {acts : List TickAct} {late : List TickAct} {evt :
    EvtSt} {aba : Aba} {marks : SMap Bool} {shafts : SMap Shaft} {snap : Snap} {cores : SMap Core} {plates : SMap
    Plate} {rings : SMap Ring} {slots : SMap RSlot} {kv : Kv} {seqr : Sequencer} {fab : Fabric} {ray :
    SMap RayPort} {sync : Sync} {img : ImgVals} {red : Red} {apt : Apt} {therm : Therm} {boot : Boot} {evacs : SMap
    Evac} {fences : SMap Nat} {stretch : SMap Nat} {refRows : SMap Nat} {refAt : Option Nat} {sec : Sec} (h : Keeps
    o0 s) (hs : sec.otp = s.sec.otp) :
    Keeps o0 (State.mk s.pending s.free t t regs rof view seqRof seqView latches lastEv acts late evt aba s.mem
    marks s.voids shafts snap cores plates rings slots kv seqr fab ray sync img red apt therm boot evacs
    fences stretch refRows refAt sec) :=
  h.trans ⟨rfl, Nat.le_refl _, fun _ => Nat.le_refl _, id, id, by show OtpGrows s.sec.otp sec.otp; rw [hs]; exact OtpGrows.rfl' _⟩
/-! Steps of the proofs that follow: branches, folds, let-bound states and functions, pairs. -/

theorem Keeps.ite {o0 a b : State} {c : Prop} [Decidable c] (h1 : Keeps o0 a) (h2 : Keeps o0 b) : Keeps o0 (if c
    then a else b) := by
  split <;> assumption
theorem Keeps.foldl {α : Type} {o0 s : State} {f : State → α → State} {l : List α} (h : Keeps o0 s)
    (hf : ∀ z x, Keeps o0 z → Keeps o0 (f z x)) : Keeps o0 (l.foldl f s) := by
  induction l generalizing s with
  | nil => exact h
  | cons a l ih => exact ih (hf _ _ h)
theorem Keeps.cut {P : Prop} {o0 z : State} (h1 : Keeps o0 z) (h2 : Keeps o0 z → P) : P := h2 h1
theorem Keeps.pair {α : Type _} {o0 : State} {p : α × State} {k : α → State → State} (h1 : Keeps o0 p.2)
    (h2 : ∀ a z, Keeps o0 z → Keeps o0 (k a z)) : Keeps o0 (match (generalizing := false) p with | (a, z) => k a z) :=
  h2 _ _ h1
theorem Keeps.pair2 {α β : Type _} {o0 : State} {p : α × State} {k : α → State → β × State} (h1 : Keeps o0 p.2)
    (h2 : ∀ a z, Keeps o0 z → Keeps o0 (k a z).2) : Keeps o0 (match (generalizing := false) p with | (a, z) => k a z).2 :=
  h2 _ _ h1
theorem Keeps.ite2 {α : Type _} {o0 : State} {a b : α × State} {c : Prop} [Decidable c] (h1 : Keeps o0 a.2)
    (h2 : Keeps o0 b.2) : Keeps o0 (if c then a else b).2 := by
  split <;> assumption
theorem Keeps.fn {P : Prop} {o0 : State} {f : State → State} (h1 : ∀ s, Keeps o0 s → Keeps o0 (f s)) (h2 : (∀ s,
    Keeps o0 s → Keeps o0 (f s)) → P) : P := h2 h1
theorem Keeps.fn1 {α : Type _} {P : Prop} {o0 : State} {f : α → State → State} (h1 : ∀ a s, Keeps o0 s → Keeps o0 (f
    a s))
   (h2 : (∀ a s, Keeps o0 s → Keeps o0 (f a s)) → P) : P := h2 h1
theorem Keeps.snd {α : Type _} {o0 s : State} {a : α} (h : Keeps o0 s) : Keeps o0 (a, s).2 := h
theorem Keeps.snd2 {α β : Type _} {o0 s : State} {a : α} {b : β} (h : Keeps o0 s) : Keeps o0 (a, b, s).2.2 := h
theorem Keeps.fn2 {α β : Type _} {P : Prop} {o0 : State} {f : α → β → State → State} (h1 : ∀ a b s, Keeps o0 s →
    Keeps o0 (f a b s))
   (h2 : (∀ a b s, Keeps o0 s → Keeps o0 (f a b s)) → P) : P := h2 h1
theorem Keeps.fnp {α β : Type _} {P : Prop} {o0 : State} {f : α → State → β × State} (h1 : ∀ a s, Keeps o0 s → Keeps
    o0 (f a s).2)
   (h2 : (∀ a s, Keeps o0 s → Keeps o0 (f a s).2) → P) : P := h2 h1
theorem Keeps.eqv {α : Type _} {o0 s : State} {p : α × State} {a : α} (e : p = (a, s)) (h : Keeps o0 p.2) : Keeps o0
    s := by
  rw [e] at h; exact h
theorem Keeps.eqv2 {α β : Type _} {o0 s : State} {p : α × β × State} {a : α} {b : β} (e : p = (a, b, s)) (h : Keeps
    o0 p.2.2) : Keeps o0 s := by
  rw [e] at h; exact h
theorem Keeps.app {o0 s : State} {f : State → State} (hf : ∀ s, Keeps o0 s → Keeps o0 (f s)) (h : Keeps o0 s) :
    Keeps o0 (f s) := hf s h
theorem Keeps.app1 {α : Type _} {a : α} {o0 s : State} {f : α → State → State} (hf : ∀ a s, Keeps o0 s → Keeps o0 (f
    a s)) (h : Keeps o0 s) :
    Keeps o0 (f a s) := hf a s h
theorem Keeps.app2 {α β : Type _} {a : α} {b : β} {o0 s : State} {f : α → β → State → State} (hf : ∀ a b s, Keeps o0
    s → Keeps o0 (f a b s))
    (h : Keeps o0 s) : Keeps o0 (f a b s) := hf a b s h
theorem Keeps.appp {α β : Type _} {a : α} {o0 s : State} {f : α → State → β × State} (hf : ∀ a s, Keeps o0 s → Keeps
    o0 (f a s).2)
    (h : Keeps o0 s) : Keeps o0 (f a s).2 := hf a s h
theorem Keeps.sec {P : Prop} (_z : Sec) (h : P) : P := h
theorem Keeps.foldl2 {α β : Type _} {o0 : State} {p : β × State} {f : β × State → α → β × State} {l : List α} (h :
    Keeps o0 p.2)
    (hf : ∀ z x, Keeps o0 z.2 → Keeps o0 (f z x).2) : Keeps o0 (l.foldl f p).2 := by
  induction l generalizing p with
  | nil => exact h
  | cons a l ih => exact ih (hf _ _ h)

theorem keeps_wr {o0 : State} {f : Fld} {i v : Nat} {s : State} (hk : Keeps o0 s) : Keeps o0 (wr f i v s) := by
  unfold wr
  repeat' with_reducible first
    | assumption | exact Nat.le_refl _ | rfl | apply Keeps.mk_

theorem keeps_bump {o0 : State} {f : Fld} {i n : Nat} {s : State} (hk : Keeps o0 s) : Keeps o0 (bump f i n s) := by
  unfold bump
  repeat' with_reducible first
    | assumption | exact Nat.le_refl _ | apply keeps_wr

theorem keeps_drop {o0 : State} {f : Fld} {i n : Nat} {s : State} (hk : Keeps o0 s) : Keeps o0 (drop f i n s) := by
  unfold drop
  repeat' with_reducible first
    | assumption | exact Nat.le_refl _ | apply keeps_wr

theorem keeps_orIn {o0 : State} {f : Fld} {i v : Nat} {s : State} (hk : Keeps o0 s) : Keeps o0 (orIn f i v s) := by
  unfold orIn
  repeat' with_reducible first
    | assumption | exact Nat.le_refl _ | apply keeps_wr

theorem keeps_fresh {o0 : State} {s : State} (hk : Keeps o0 s) : Keeps o0 (State.fresh s).2 := by
  unfold State.fresh
  repeat' with_reducible first
    | assumption | exact Nat.le_refl _ | exact Nat.le_add_right _ _ | rfl | refine Keeps.snd ?_
    | refine Keeps.snd2 ?_ | apply Keeps.mk_

theorem keeps_beforeFix {o0 : State} {f : State → State} (hf : ∀ s, Keeps o0 s → Keeps o0 (f s)) {s : State}
    (hk : Keeps o0 s) : Keeps o0 (beforeFix f s) := by
  unfold beforeFix
  repeat' with_reducible first
    | assumption | exact Nat.le_refl _ | apply hf | apply Keeps.ite

theorem keeps_served {o0 : State} {f : State → State} (hf : ∀ s, Keeps o0 s → Keeps o0 (f s)) {s : State}
    (hk : Keeps o0 s) : Keeps o0 (served f s) := by
  unfold served
  repeat' with_reducible first
    | assumption | exact Nat.le_refl _ | apply hf | apply Keeps.ite

theorem keeps_linked {o0 : State} {f : State → State} (hf : ∀ s, Keeps o0 s → Keeps o0 (f s)) {s : State}
    (hk : Keeps o0 s) : Keeps o0 (linked f s) := by
  unfold linked
  repeat' with_reducible first
    | assumption | exact Nat.le_refl _ | apply hf | apply Keeps.ite

theorem keeps_later {o0 : State} {a : TickAct} {s : State} (hk : Keeps o0 s) : Keeps o0 (later a s) := by
  unfold later
  repeat' first
    | with_reducible (first
      | assumption | exact Nat.le_refl _ | apply Keeps.ite | apply Keeps.ite2 | rfl)
    | split
    | with_reducible apply Keeps.mk_

theorem keeps_evMark {o0 : State} {e : Ev} {pg : Pg} {i : Nat} {s : State} (hk : Keeps o0 s) : Keeps o0
    (evMark e pg i s) := by
  unfold evMark
  repeat' first
    | with_reducible (first
      | assumption | exact Nat.le_refl _)
    | ((try lift_lets -underBinder); intro z; first
      | (refine Keeps.cut (o0 := o0) (z := z) ?_ (fun hz => ?_); subst z; rotate_left; clear_value z)
      | (refine Keeps.fn (o0 := o0) (f := z) ?_ (fun hz => ?_); subst z; intro z hz; rotate_left; clear_value z)
      | (refine Keeps.fn1 (o0 := o0) (f := z) ?_ (fun hz => ?_); subst z; intro a z hz; rotate_left; clear_value z)
      | (refine Keeps.fn2 (o0 := o0) (f := z) ?_ (fun hz => ?_); subst z; intro a b z hz; rotate_left; clear_value z)
      | (refine Keeps.fnp (o0 := o0) (f := z) ?_ (fun hz => ?_); subst z; intro a z hz; rotate_left; clear_value z)
      | (refine Keeps.sec z ?_; subst z)
      | (clear_value z)
      | (skip))
    | with_reducible (first
      | apply keeps_bump | apply keeps_orIn | rfl | apply Keeps.mk_)

theorem keeps_raiseRec {o0 : State} {e : Ev} {pg : Pg} {i tag : Nat} {forced : Bool} {s : State} (hk : Keeps o0 s) :
    Keeps o0 (raiseRec e pg i tag forced s) := by
  unfold raiseRec
  repeat' first
    | with_reducible (first
      | assumption | exact Nat.le_refl _)
    | ((try lift_lets -underBinder); intro z; first
      | (refine Keeps.cut (o0 := o0) (z := z) ?_ (fun hz => ?_); subst z; rotate_left; clear_value z)
      | (clear_value z)
      | (skip))
    | with_reducible (first
      | apply Keeps.ite | apply Keeps.ite2 | apply keeps_evMark | rfl)
    | split
    | with_reducible apply Keeps.mk_

theorem keeps_stopAll {o0 : State} {s : State} {status cause : Nat} (hk : Keeps o0 s) : Keeps o0
    (stopAll s status cause) := by
  unfold stopAll
  repeat' with_reducible first
    | assumption | exact Nat.le_refl _ | apply Keeps.ite | apply Keeps.ite2 | apply keeps_later
    | refine Keeps.foldl ?_ (fun z x hz => ?_)

theorem keeps_fatal {o0 : State} {s : State} (hk : Keeps o0 s) : Keeps o0 (fatal s) := by
  unfold fatal
  repeat' with_reducible first
    | assumption | exact Nat.le_refl _ | apply Keeps.ite | apply Keeps.ite2 | apply keeps_wr | apply keeps_stopAll

theorem keeps_raiseTag {o0 : State} {e : Ev} {pg : Pg} {i tag : Nat} {s : State} (hk : Keeps o0 s) : Keeps o0
    (raiseTag e pg i tag s) := by
  unfold raiseTag
  repeat' first
    | with_reducible (first
      | assumption | exact Nat.le_refl _)
    | ((try lift_lets -underBinder); intro z; first
      | (refine Keeps.cut (o0 := o0) (z := z) ?_ (fun hz => ?_); subst z; rotate_left; clear_value z)
      | (refine Keeps.fn (o0 := o0) (f := z) ?_ (fun hz => ?_); subst z; intro z hz; rotate_left; clear_value z)
      | (refine Keeps.fn1 (o0 := o0) (f := z) ?_ (fun hz => ?_); subst z; intro a z hz; rotate_left; clear_value z)
      | (refine Keeps.fn2 (o0 := o0) (f := z) ?_ (fun hz => ?_); subst z; intro a b z hz; rotate_left; clear_value z)
      | (refine Keeps.fnp (o0 := o0) (f := z) ?_ (fun hz => ?_); subst z; intro a z hz; rotate_left; clear_value z)
      | (refine Keeps.sec z ?_; subst z)
      | (clear_value z)
      | (skip))
    | with_reducible (first
      | apply Keeps.ite | apply Keeps.ite2 | apply keeps_raiseRec | apply keeps_fatal)

theorem keeps_raise {o0 : State} {e : Ev} {pg : Pg} {i : Nat} {s : State} (hk : Keeps o0 s) : Keeps o0
    (raise e pg i s) := by
  unfold raise
  repeat' with_reducible first
    | assumption | exact Nat.le_refl _ | apply keeps_raiseTag

theorem keeps_raiseN {o0 : State} {e : Ev} {pg : Pg} {i n : Nat} {s : State} (hk : Keeps o0 s) : Keeps o0 (raiseN e pg i n s) := by
  induction n generalizing s with
  | zero => exact hk
  | succ n ih => exact ih (keeps_raise hk)

theorem keeps_ledgerFail {o0 : State} {ledger inst left right : Nat} {s : State} (hk : Keeps o0 s) : Keeps o0
    (ledgerFail ledger inst left right s) := by
  unfold ledgerFail
  repeat' first
    | with_reducible (first
      | assumption | exact Nat.le_refl _)
    | ((try lift_lets -underBinder); intro z; first
      | (refine Keeps.cut (o0 := o0) (z := z) ?_ (fun hz => ?_); subst z; rotate_left; clear_value z)
      | (refine Keeps.fn (o0 := o0) (f := z) ?_ (fun hz => ?_); subst z; intro z hz; rotate_left; clear_value z)
      | (refine Keeps.fn1 (o0 := o0) (f := z) ?_ (fun hz => ?_); subst z; intro a z hz; rotate_left; clear_value z)
      | (refine Keeps.fn2 (o0 := o0) (f := z) ?_ (fun hz => ?_); subst z; intro a b z hz; rotate_left; clear_value z)
      | (refine Keeps.fnp (o0 := o0) (f := z) ?_ (fun hz => ?_); subst z; intro a z hz; rotate_left; clear_value z)
      | (refine Keeps.sec z ?_; subst z)
      | (clear_value z)
      | (skip))
    | with_reducible (first
      | apply Keeps.ite | apply Keeps.ite2 | apply keeps_wr | apply keeps_bump | apply keeps_raise)

theorem keeps_setCore {o0 : State} {s : State} {c : Nat} {k : Core} (hk : Keeps o0 s) : Keeps o0
    (State.setCore s c k) := by
  unfold State.setCore
  repeat' with_reducible first
    | assumption | exact Nat.le_refl _ | rfl | apply Keeps.mk_

theorem keeps_setPlate {o0 : State} {s : State} {p : Nat} {k : Plate} (hk : Keeps o0 s) : Keeps o0
    (State.setPlate s p k) := by
  unfold State.setPlate
  repeat' with_reducible first
    | assumption | exact Nat.le_refl _ | rfl | apply Keeps.mk_

theorem keeps_setRing {o0 : State} {s : State} {r : Nat} {k : Ring} (hk : Keeps o0 s) : Keeps o0
    (State.setRing s r k) := by
  unfold State.setRing
  repeat' with_reducible first
    | assumption | exact Nat.le_refl _ | rfl | apply Keeps.mk_

theorem keeps_setRslot {o0 : State} {s : State} {k : Nat} {v : RSlot} (hk : Keeps o0 s) : Keeps o0
    (State.setRslot s k v) := by
  unfold State.setRslot
  repeat' with_reducible first
    | assumption | exact Nat.le_refl _ | rfl | apply Keeps.mk_

theorem keeps_recordFault {o0 : State} {c ctx bundle cyc : Nat} {cause : Cause} {s : State} (hk : Keeps o0 s) :
    Keeps o0 (recordFault c ctx bundle cyc cause s) := by
  unfold recordFault
  repeat' first
    | with_reducible (first
      | assumption | exact Nat.le_refl _)
    | ((try lift_lets -underBinder); intro z; first
      | (clear_value z)
      | (skip))
    | with_reducible (first
      | apply Keeps.ite | apply Keeps.ite2 | apply keeps_wr)

theorem keeps_invalidate {o0 : State} {n r : Nat} {s : State} (hk : Keeps o0 s) : Keeps o0 (invalidate n r s) := by
  unfold invalidate
  repeat' first
    | with_reducible (first
      | assumption | exact Nat.le_refl _ | apply Keeps.ite | apply Keeps.ite2 | rfl)
    | split
    | with_reducible apply Keeps.mk_

theorem keeps_invalidatePlate {o0 : State} {n : Nat} {m : Image} {s : State} (hk : Keeps o0 s) : Keeps o0
    (invalidatePlate n m s) := by
  unfold invalidatePlate
  repeat' with_reducible first
    | assumption | exact Nat.le_refl _ | apply keeps_invalidate | refine Keeps.foldl ?_ (fun z x hz => ?_)

theorem keeps_plateFaultAt {o0 : State} {n c ctx bundle cyc : Nat} {cause : Cause} {s : State} (hk : Keeps o0 s) :
    Keeps o0 (plateFaultAt n c ctx bundle cyc cause s) := by
  unfold plateFaultAt
  repeat' first
    | with_reducible (first
      | assumption | exact Nat.le_refl _)
    | ((try lift_lets -underBinder); intro z; first
      | (refine Keeps.cut (o0 := o0) (z := z) ?_ (fun hz => ?_); subst z; rotate_left; clear_value z)
      | (clear_value z)
      | (skip))
    | with_reducible (first
      | apply Keeps.ite | apply Keeps.ite2 | apply keeps_bump | apply keeps_raiseTag | apply keeps_setCore
      | apply keeps_setPlate | apply keeps_recordFault | apply keeps_invalidatePlate)
    | refine Keeps.pair ?_ (fun a z hz => ?_)
    | refine Keeps.pair2 ?_ (fun a z hz => ?_)
    | with_reducible rfl
    | split

theorem keeps_plateFault {o0 : State} {c ctx bundle cyc : Nat} {cause : Cause} {s : State} (hk : Keeps o0 s) :
    Keeps o0 (plateFault c ctx bundle cyc cause s) := by
  unfold plateFault
  repeat' with_reducible first
    | assumption | exact Nat.le_refl _ | apply keeps_plateFaultAt

theorem keeps_writeByte {o0 : State} {p a : Nat} {b : Byte} {s : State} (hk : Keeps o0 s) : Keeps o0 (writeByte p a b s) := by
  refine hk.trans ⟨?_, ?_, ?_, fun h => ?_, ?_, ?_⟩
  iterate 3 (unfold writeByte; split <;> first | rfl | exact Nat.le_refl _ | exact id)
  · exact writeByte_wf h
  all_goals (unfold writeByte; split <;> first | exact id | exact OtpGrows.rfl' _)

theorem keeps_writeBytes {o0 : State} {p a : Nat} {l : List Byte} {s : State} (hk : Keeps o0 s) : Keeps o0 (writeBytes p a l s) := by
  induction l generalizing a s with
  | nil => exact hk
  | cons b l ih => exact ih (keeps_writeByte hk)

theorem keeps_forgetRange {o0 : State} {p a n : Nat} {s : State} (hk : Keeps o0 s) : Keeps o0 (forgetRange p a n s) := by
  refine hk.trans ⟨rfl, Nat.le_add_right _ _, id, fun h => forgetRange_wf h, fun h v hv m e => ?_, OtpGrows.rfl' _⟩
  simp only [forgetRange, List.mem_cons] at hv ⊢
  rcases hv with rfl | hv
  · cases e; exact Nat.le_refl _
  · exact Nat.le_succ_of_le (h v hv m e)

theorem keeps_setShaft {o0 : State} {s : State} {p : Nat} {k : Shaft} (hk : Keeps o0 s) : Keeps o0
    (State.setShaft s p k) := by
  unfold State.setShaft
  repeat' with_reducible first
    | assumption | exact Nat.le_refl _ | rfl | apply Keeps.mk_

theorem keeps_setTherm {o0 : State} {f : Therm → Therm} {s : State} (hk : Keeps o0 s) : Keeps o0
    (setTherm f s) := by
  unfold setTherm
  repeat' with_reducible first
    | assumption | exact Nat.le_refl _ | rfl | apply Keeps.mk_

theorem keeps_shaftBytes {o0 : State} {p n : Nat} {s : State} (hk : Keeps o0 s) : Keeps o0 (shaftBytes p n s) := by
  unfold shaftBytes
  repeat' with_reducible first
    | assumption | exact Nat.le_refl _ | apply keeps_setTherm

theorem keeps_errLog {o0 : State} {p a kind pos : Nat} {src : ErrSrc} {s : State} (hk : Keeps o0 s) : Keeps o0
    (errLog p a kind pos src s) := by
  unfold errLog
  repeat' with_reducible first
    | assumption | exact Nat.le_refl _ | apply Keeps.ite | apply Keeps.ite2 | apply keeps_wr

theorem keeps_touchPage {o0 : State} {p a : Nat} {s : State} (hk : Keeps o0 s) : Keeps o0 (touchPage p a s) := by
  unfold touchPage
  repeat' first
    | with_reducible (first
      | assumption | exact Nat.le_refl _)
    | ((try lift_lets -underBinder); intro z; first
      | (clear_value z)
      | (skip))
    | with_reducible (first
      | apply Keeps.ite | apply Keeps.ite2 | apply keeps_bump | apply keeps_setShaft)

theorem keeps_markUnit {o0 : State} {p a : Nat} {poison : Bool} {s : State} (hk : Keeps o0 s) : Keeps o0
    (markUnit p a poison s) := by
  unfold markUnit
  repeat' first
    | with_reducible (first
      | assumption | exact Nat.le_refl _ | apply Keeps.ite | apply Keeps.ite2 | rfl)
    | split
    | with_reducible apply Keeps.mk_

theorem keeps_storeUnit {o0 : State} {p a : Nat} {bytes : List Byte} {poison : Bool} {s : State} (hk : Keeps o0 s) :
    Keeps o0 (storeUnit p a bytes poison s) := by
  unfold storeUnit
  repeat' first
    | with_reducible (first
      | assumption | exact Nat.le_refl _)
    | ((try lift_lets -underBinder); intro z; first
      | (refine Keeps.cut (o0 := o0) (z := z) ?_ (fun hz => ?_); subst z; rotate_left; clear_value z)
      | (clear_value z)
      | (skip))
    | with_reducible (first
      | apply keeps_writeBytes | apply keeps_setShaft | apply keeps_shaftBytes | apply keeps_touchPage
      | apply keeps_markUnit)

theorem keeps_uncorrect {o0 : State} {p a pos : Nat} {src : ErrSrc} {s : State} (hk : Keeps o0 s) : Keeps o0
    (uncorrect p a pos src s) := by
  unfold uncorrect
  repeat' first
    | with_reducible (first
      | assumption | exact Nat.le_refl _)
    | ((try lift_lets -underBinder); intro z; first
      | (refine Keeps.cut (o0 := o0) (z := z) ?_ (fun hz => ?_); subst z; rotate_left; clear_value z)
      | (refine Keeps.fn (o0 := o0) (f := z) ?_ (fun hz => ?_); subst z; intro z hz; rotate_left; clear_value z)
      | (refine Keeps.fn1 (o0 := o0) (f := z) ?_ (fun hz => ?_); subst z; intro a z hz; rotate_left; clear_value z)
      | (refine Keeps.fn2 (o0 := o0) (f := z) ?_ (fun hz => ?_); subst z; intro a b z hz; rotate_left; clear_value z)
      | (refine Keeps.fnp (o0 := o0) (f := z) ?_ (fun hz => ?_); subst z; intro a z hz; rotate_left; clear_value z)
      | (refine Keeps.sec z ?_; subst z)
      | (clear_value z)
      | (skip))
    | with_reducible (first
      | apply Keeps.ite | apply Keeps.ite2 | apply keeps_bump | apply keeps_raise | apply keeps_errLog
      | apply keeps_touchPage | apply keeps_markUnit)

theorem keeps_correct {o0 : State} {p a pos : Nat} {src : ErrSrc} {s : State} (hk : Keeps o0 s) : Keeps o0
    (correct p a pos src s) := by
  unfold correct
  repeat' first
    | with_reducible (first
      | assumption | exact Nat.le_refl _)
    | ((try lift_lets -underBinder); intro z; first
      | (refine Keeps.cut (o0 := o0) (z := z) ?_ (fun hz => ?_); subst z; rotate_left; clear_value z)
      | (clear_value z)
      | (skip))
    | with_reducible (first
      | apply Keeps.ite | apply Keeps.ite2 | apply keeps_bump | apply keeps_raise | apply keeps_setShaft
      | apply keeps_errLog)

theorem keeps_poisonSeen {o0 : State} {p a : Nat} {src : ErrSrc} {s : State} (hk : Keeps o0 s) : Keeps o0
    (poisonSeen p a src s) := by
  unfold poisonSeen
  repeat' first
    | with_reducible (first
      | assumption | exact Nat.le_refl _ | apply keeps_bump | apply keeps_raise | apply keeps_errLog)
    | refine Keeps.pair ?_ (fun a z hz => ?_)
    | refine Keeps.pair2 ?_ (fun a z hz => ?_)
    | with_reducible rfl
    | split

theorem keeps_checkUnit {o0 : State} {p a : Nat} {src : ErrSrc} {errs : List GErr} {s : State} (hk : Keeps o0 s) :
    Keeps o0 (checkUnit p a src errs s).2 := by
  unfold checkUnit
  repeat' first
    | with_reducible (first
      | assumption | exact Nat.le_refl _)
    | ((try lift_lets -underBinder); intro z; first
      | (refine Keeps.cut (o0 := o0) (z := z) ?_ (fun hz => ?_); subst z; rotate_left; clear_value z)
      | (refine Keeps.fn (o0 := o0) (f := z) ?_ (fun hz => ?_); subst z; intro z hz; rotate_left; clear_value z)
      | (refine Keeps.fn1 (o0 := o0) (f := z) ?_ (fun hz => ?_); subst z; intro a z hz; rotate_left; clear_value z)
      | (refine Keeps.fn2 (o0 := o0) (f := z) ?_ (fun hz => ?_); subst z; intro a b z hz; rotate_left; clear_value z)
      | (refine Keeps.fnp (o0 := o0) (f := z) ?_ (fun hz => ?_); subst z; intro a z hz; rotate_left; clear_value z)
      | (refine Keeps.sec z ?_; subst z)
      | (clear_value z)
      | (skip))
    | with_reducible (first
      | exact Nat.le_add_right _ _ | apply Keeps.ite | apply Keeps.ite2 | apply keeps_shaftBytes
      | apply keeps_uncorrect | apply keeps_correct | apply keeps_poisonSeen)
    | refine Keeps.pair ?_ (fun a z hz => ?_)
    | refine Keeps.pair2 ?_ (fun a z hz => ?_)
    | with_reducible rfl
    | split
    | with_reducible (first
      | refine Keeps.snd ?_ | refine Keeps.snd2 ?_)
    | refine Keeps.eqv (by with_reducible assumption) ?_
    | refine Keeps.eqv2 (by with_reducible assumption) ?_
    | with_reducible apply Keeps.mk_

theorem keeps_checkUnits {o0 : State} {p : Nat} {src : ErrSrc} {errs : List GErr} {l : List Nat} {s : State} (hk : Keeps o0 s) :
    Keeps o0 (checkUnits p src errs l s).2 := by
  induction l generalizing s with
  | nil => exact hk
  | cons a l ih => exact ih (keeps_checkUnit hk)

theorem keeps_copyGranules {o0 : State} {p src dst : Nat} {errs : List GErr} {is : List Nat} {s : State}
    (hk : Keeps o0 s) : Keeps o0 (copyGranules p src dst errs is s) := by
  unfold copyGranules
  repeat' with_reducible first
    | assumption | exact Nat.le_refl _ | apply keeps_storeUnit | apply keeps_checkUnit
    | refine Keeps.foldl ?_ (fun z x hz => ?_)

theorem keeps_copyPage {o0 : State} {c pg slot done : Nat} {s : State} (hk : Keeps o0 s) : Keeps o0
    (copyPage c pg slot done s) := by
  unfold copyPage
  repeat' first
    | with_reducible (first
      | assumption | exact Nat.le_refl _)
    | ((try lift_lets -underBinder); intro z; first
      | (refine Keeps.cut (o0 := o0) (z := z) ?_ (fun hz => ?_); subst z; rotate_left; clear_value z)
      | (clear_value z)
      | (skip))
    | with_reducible (first
      | apply keeps_bump | apply keeps_copyGranules | rfl | apply Keeps.mk_)

theorem keeps_snapCancel {o0 : State} {cause : Nat} {s : State} (hk : Keeps o0 s) : Keeps o0
    (snapCancel cause s) := by
  unfold snapCancel
  repeat' first
    | with_reducible (first
      | assumption | exact Nat.le_refl _)
    | ((try lift_lets -underBinder); intro z; first
      | (refine Keeps.cut (o0 := o0) (z := z) ?_ (fun hz => ?_); subst z; rotate_left; clear_value z)
      | (clear_value z)
      | (skip))
    | with_reducible (first
      | apply keeps_wr | apply keeps_raise | rfl | apply Keeps.mk_)

theorem keeps_snapHook {o0 : State} {p a : Nat} {s : State} (hk : Keeps o0 s) : Keeps o0 (snapHook p a s) := by
  unfold snapHook
  repeat' first
    | with_reducible (first
      | assumption | exact Nat.le_refl _)
    | ((try lift_lets -underBinder); intro z; first
      | (refine Keeps.cut (o0 := o0) (z := z) ?_ (fun hz => ?_); subst z; rotate_left; clear_value z)
      | (clear_value z)
      | (skip))
    | with_reducible (first
      | exact Nat.le_add_right _ _ | apply Keeps.ite | apply Keeps.ite2 | apply keeps_bump | apply keeps_copyPage
      | apply keeps_snapCancel)
    | refine Keeps.pair ?_ (fun a z hz => ?_)
    | refine Keeps.pair2 ?_ (fun a z hz => ?_)
    | with_reducible rfl
    | split
    | refine Keeps.eqv (by with_reducible assumption) ?_
    | refine Keeps.eqv2 (by with_reducible assumption) ?_
    | with_reducible apply Keeps.mk_

theorem keeps_writeUnit {o0 : State} {p a : Nat} {bytes : List Byte} {poison : Bool} {s : State} (hk : Keeps o0 s) :
    Keeps o0 (writeUnit p a bytes poison s) := by
  unfold writeUnit
  repeat' with_reducible first
    | assumption | exact Nat.le_refl _ | apply keeps_storeUnit | apply keeps_snapHook

theorem keeps_coreReadLine {o0 : State} {p a : Nat} {errs : List GErr} {s : State} (hk : Keeps o0 s) : Keeps o0
    (coreReadLine p a errs s).2.2 := by
  unfold coreReadLine
  repeat' with_reducible first
    | assumption | exact Nat.le_refl _ | apply keeps_checkUnits

theorem keeps_coreWriteLine {o0 : State} {p a : Nat} {l : Line} {poison : Bool} {s : State} (hk : Keeps o0 s) :
    Keeps o0 (coreWriteLine p a l poison s) := by
  unfold coreWriteLine
  repeat' first
    | with_reducible (first
      | assumption | exact Nat.le_refl _)
    | ((try lift_lets -underBinder); intro z; first
      | (clear_value z)
      | (skip))
    | with_reducible (first
      | apply keeps_writeUnit | refine Keeps.foldl ?_ (fun z x hz => ?_))

theorem keeps_writeBack {o0 : State} {p : Nat} {s : State} (hk : Keeps o0 s) : Keeps o0 (writeBack p s) := by
  unfold writeBack
  repeat' first
    | with_reducible (first
      | assumption | exact Nat.le_refl _)
    | ((try lift_lets -underBinder); intro z; first
      | (clear_value z)
      | (skip))
    | with_reducible (first
      | apply Keeps.ite | apply Keeps.ite2 | apply keeps_setShaft | apply keeps_shaftBytes | apply keeps_touchPage)
    | refine Keeps.pair ?_ (fun a z hz => ?_)
    | refine Keeps.pair2 ?_ (fun a z hz => ?_)
    | with_reducible rfl
    | split

theorem keeps_enqueue {o0 : State} {p u : Nat} {f : Nat → NmWork} {s : State} (hk : Keeps o0 s) : Keeps o0
    (enqueue p u f s) := by
  unfold enqueue
  repeat' first
    | with_reducible (first
      | assumption | exact Nat.le_refl _)
    | ((try lift_lets -underBinder); intro z; first
      | (clear_value z)
      | (skip))
    | with_reducible apply keeps_setShaft

theorem keeps_darkroom {o0 : State} {p : Nat} {c : NmCmd} {s : State} (hk : Keeps o0 s) : Keeps o0
    (darkroom p c s) := by
  unfold darkroom
  repeat' with_reducible first
    | assumption | exact Nat.le_refl _ | apply keeps_enqueue

theorem keeps_enterNow {o0 : State} {c : Nat} {s : State} (hk : Keeps o0 s) : Keeps o0 (enterNow c s) := by
  unfold enterNow
  repeat' first
    | with_reducible (first
      | assumption | exact Nat.le_refl _)
    | ((try lift_lets -underBinder); intro z; first
      | (clear_value z)
      | (skip))
    | with_reducible (first
      | apply keeps_setShaft | apply keeps_enqueue | refine Keeps.foldl ?_ (fun z x hz => ?_))

theorem keeps_nmEnter {o0 : State} {c x : Nat} {k : NmCmd} {core : Core} {s : State} (hk : Keeps o0 s) : Keeps o0
    (nmEnter c x k core s) := by
  unfold nmEnter
  repeat' first
    | with_reducible (first
      | assumption | exact Nat.le_refl _)
    | ((try lift_lets -underBinder); intro z; first
      | (clear_value z)
      | (skip))
    | with_reducible (first
      | apply keeps_setShaft | apply keeps_enterNow)

theorem keeps_readOpd {o0 : State} {p f n : Nat} {errs : List GErr} {o : Opd} {s : State} (hk : Keeps o0 s) :
    Keeps o0 (readOpd p f n errs o s).2 := by
  unfold readOpd
  repeat' with_reducible first
    | assumption | exact Nat.le_refl _ | apply keeps_checkUnits

theorem keeps_readOpds {o0 : State} {p f n : Nat} {errs : List GErr} {l : List Opd} {s : State} (hk : Keeps o0 s) :
    Keeps o0 (readOpds p f n errs l s).2 := by
  induction l generalizing s with
  | nil => exact hk
  | cons a l ih => exact ih (keeps_readOpd hk)

theorem keeps_putGranules {o0 : State} {p a bits : Nat} {poisoned : Nat → Bool} {ks : List Nat} {s : State}
    (hk : Keeps o0 s) : Keeps o0 (putGranules p a bits poisoned ks s) := by
  unfold putGranules
  repeat' with_reducible first
    | assumption | exact Nat.le_refl _ | apply keeps_writeUnit | refine Keeps.foldl ?_ (fun z x hz => ?_)

theorem keeps_nmPoison {o0 : State} {p n : Nat} {s : State} (hk : Keeps o0 s) : Keeps o0 (nmPoison p n s) := by
  unfold nmPoison
  repeat' with_reducible first
    | assumption | exact Nat.le_refl _ | apply Keeps.ite | apply Keeps.ite2 | apply keeps_bump | apply keeps_raise

theorem keeps_setLayout {o0 : State} {p pg : Nat} {v : Bool} {s : State} (hk : Keeps o0 s) : Keeps o0
    (setLayout p pg v s) := by
  unfold setLayout
  repeat' first
    | with_reducible (first
      | assumption | exact Nat.le_refl _)
    | ((try lift_lets -underBinder); intro z; first
      | (clear_value z)
      | (skip))
    | with_reducible apply keeps_wr

theorem keeps_runElems {o0 : State} {p f n : Nat} {c : NmCmd} {b : NmIssuer} {errs : List GErr} {s : State}
    (hk : Keeps o0 s) : Keeps o0 (runElems p f n c b errs s) := by
  unfold runElems
  repeat' first
    | with_reducible (first
      | assumption | exact Nat.le_refl _)
    | ((try lift_lets -underBinder); intro z; first
      | (clear_value z)
      | (skip))
    | with_reducible (first
      | apply Keeps.ite | apply Keeps.ite2 | apply keeps_bump | apply keeps_readOpds | apply keeps_putGranules
      | apply keeps_nmPoison | apply keeps_setLayout)

theorem keeps_nmAbort {o0 : State} {p : Nat} {s : State} (hk : Keeps o0 s) : Keeps o0 (nmAbort p s) := by
  unfold nmAbort
  repeat' with_reducible first
    | assumption | exact Nat.le_refl _ | apply keeps_bump | apply keeps_raise

theorem keeps_runChunks {o0 : State} {p : Nat} {c : NmCmd} {b : NmIssuer} {errs : List GErr} {k f : Nat} {s : State} (hk : Keeps o0 s) :
    Keeps o0 (runChunks p c b errs k f s) := by
  induction k generalizing f s with
  | zero => exact hk
  | succ k ih =>
    unfold runChunks
    split
    · exact hk
    · split
      · exact keeps_nmAbort hk
      · exact ih (keeps_bump (keeps_runElems hk))

theorem keeps_nmReport {o0 : State} {p : Nat} {w : NmWork} {s : State} (hk : Keeps o0 s) : Keeps o0
    (nmReport p w s) := by
  unfold nmReport
  repeat' first
    | with_reducible (first
      | assumption | exact Nat.le_refl _)
    | ((try lift_lets -underBinder); intro z; first
      | (refine Keeps.cut (o0 := o0) (z := z) ?_ (fun hz => ?_); subst z; rotate_left; clear_value z)
      | (clear_value z)
      | (skip))
    | with_reducible (first
      | apply Keeps.ite | apply Keeps.ite2 | apply keeps_wr | apply keeps_bump | apply keeps_raise
      | apply keeps_setCore | apply keeps_setShaft)
    | refine Keeps.pair ?_ (fun a z hz => ?_)
    | refine Keeps.pair2 ?_ (fun a z hz => ?_)
    | with_reducible rfl
    | split

theorem keeps_nmComplete {o0 : State} {p u : Nat} {w : NmWork} {s : State} (hk : Keeps o0 s) : Keeps o0
    (nmComplete p u w s) := by
  unfold nmComplete
  repeat' first
    | with_reducible (first
      | assumption | exact Nat.le_refl _ | apply keeps_setShaft | apply keeps_nmReport)
    | refine Keeps.pair ?_ (fun a z hz => ?_)
    | refine Keeps.pair2 ?_ (fun a z hz => ?_)
    | with_reducible rfl
    | split

theorem keeps_nmStart {o0 : State} {p u t : Nat} {s : State} (hk : Keeps o0 s) : Keeps o0 (nmStart p u t s) := by
  unfold nmStart
  repeat' first
    | with_reducible (first
      | assumption | exact Nat.le_refl _)
    | ((try lift_lets -underBinder); intro z; first
      | (clear_value z)
      | (skip))
    | with_reducible (first
      | apply Keeps.ite | apply Keeps.ite2 | apply keeps_setShaft | apply keeps_nmAbort | apply keeps_nmComplete)
    | refine Keeps.pair ?_ (fun a z hz => ?_)
    | refine Keeps.pair2 ?_ (fun a z hz => ?_)
    | with_reducible rfl
    | split

theorem keeps_applyGran {o0 : State} {p : Nat} {kind : RemKind} {errs : List GErr} {g : RGran} {s : State}
    (hk : Keeps o0 s) : Keeps o0 (applyGran p kind errs g s).2 := by
  unfold applyGran
  repeat' first
    | with_reducible (first
      | assumption | exact Nat.le_refl _)
    | ((try lift_lets -underBinder); intro z; first
      | (refine Keeps.cut (o0 := o0) (z := z) ?_ (fun hz => ?_); subst z; rotate_left; clear_value z)
      | (refine Keeps.fn (o0 := o0) (f := z) ?_ (fun hz => ?_); subst z; intro z hz; rotate_left; clear_value z)
      | (refine Keeps.fn1 (o0 := o0) (f := z) ?_ (fun hz => ?_); subst z; intro a z hz; rotate_left; clear_value z)
      | (refine Keeps.fn2 (o0 := o0) (f := z) ?_ (fun hz => ?_); subst z; intro a b z hz; rotate_left; clear_value z)
      | (refine Keeps.fnp (o0 := o0) (f := z) ?_ (fun hz => ?_); subst z; intro a z hz; rotate_left; clear_value z)
      | (refine Keeps.sec z ?_; subst z)
      | (clear_value z)
      | (skip))
    | with_reducible (first
      | apply Keeps.ite | apply Keeps.ite2 | apply keeps_bump | apply keeps_checkUnit | apply keeps_writeUnit)
    | refine Keeps.pair ?_ (fun a z hz => ?_)
    | refine Keeps.pair2 ?_ (fun a z hz => ?_)
    | with_reducible rfl
    | split

theorem keeps_applyGrans {o0 : State} {p : Nat} {kind : RemKind} {errs : List GErr} {l : List RGran} {n : Nat} {s : State}
    (hk : Keeps o0 s) : Keeps o0 (applyGrans p kind errs l n s).2 := by
  induction l generalizing n s with
  | nil => exact hk
  | cons a l ih => exact ih (keeps_applyGran hk)

theorem keeps_runRemote {o0 : State} {p : Nat} {kind : RemKind} {errs : List GErr} {gs : List RGran} {s : State}
    (hk : Keeps o0 s) : Keeps o0 (runRemote p kind errs gs s) := by
  unfold runRemote
  repeat' with_reducible first
    | assumption | exact Nat.le_refl _ | apply keeps_nmPoison | apply keeps_applyGrans

theorem keeps_remoteArrive {o0 : State} {p : Nat} {kind : RemKind} {g : RGran} {s : State} (hk : Keeps o0 s) :
    Keeps o0 (remoteArrive p kind g s) := by
  unfold remoteArrive
  repeat' first
    | with_reducible (first
      | assumption | exact Nat.le_refl _)
    | ((try lift_lets -underBinder); intro z; first
      | (refine Keeps.cut (o0 := o0) (z := z) ?_ (fun hz => ?_); subst z; rotate_left; clear_value z)
      | (clear_value z)
      | (skip))
    | with_reducible (first
      | apply Keeps.ite | apply Keeps.ite2 | apply keeps_setShaft | apply keeps_enqueue)
    | refine Keeps.pair ?_ (fun a z hz => ?_)
    | refine Keeps.pair2 ?_ (fun a z hz => ?_)
    | with_reducible rfl
    | split

theorem keeps_chunkEnd {o0 : State} {p u : Nat} {kind : Option RemKind} {errs : List GErr} {s : State}
    (hk : Keeps o0 s) : Keeps o0 (chunkEnd p u kind errs s) := by
  unfold chunkEnd
  repeat' first
    | with_reducible (first
      | assumption | exact Nat.le_refl _)
    | ((try lift_lets -underBinder); intro z; first
      | (refine Keeps.cut (o0 := o0) (z := z) ?_ (fun hz => ?_); subst z; rotate_left; clear_value z)
      | (refine Keeps.fn (o0 := o0) (f := z) ?_ (fun hz => ?_); subst z; intro z hz; rotate_left; clear_value z)
      | (clear_value z)
      | (skip))
    | with_reducible (first
      | exact Nat.le_add_right _ _ | apply Keeps.ite | apply Keeps.ite2 | apply keeps_bump | apply keeps_setShaft
      | apply keeps_runElems | apply keeps_runRemote)
    | refine Keeps.pair ?_ (fun a z hz => ?_)
    | refine Keeps.pair2 ?_ (fun a z hz => ?_)
    | with_reducible rfl
    | split
    | refine Keeps.eqv (by with_reducible assumption) ?_
    | refine Keeps.eqv2 (by with_reducible assumption) ?_
    | refine Keeps.app (by with_reducible assumption) ?_

theorem keeps_nmDone {o0 : State} {p u : Nat} {s : State} (hk : Keeps o0 s) : Keeps o0 (nmDone p u s) := by
  unfold nmDone
  repeat' first
    | with_reducible (first
      | assumption | exact Nat.le_refl _ | apply keeps_nmComplete)
    | refine Keeps.pair ?_ (fun a z hz => ?_)
    | refine Keeps.pair2 ?_ (fun a z hz => ?_)
    | with_reducible rfl
    | split

theorem keeps_nmRow {o0 : State} {op : NmOp} {p : Nat} {a : NmArgs} {s : State} (hk : Keeps o0 s) : Keeps o0
    (nmRow op p a s) := by
  unfold nmRow
  repeat' first
    | with_reducible (first
      | assumption | exact Nat.le_refl _)
    | ((try lift_lets -underBinder); intro z; first
      | (refine Keeps.cut (o0 := o0) (z := z) ?_ (fun hz => ?_); subst z; rotate_left; clear_value z)
      | (clear_value z)
      | (skip))
    | with_reducible (first
      | apply Keeps.ite | apply Keeps.ite2 | apply keeps_setCore | apply keeps_plateFault | apply keeps_runChunks
      | apply keeps_nmReport)
    | refine Keeps.pair ?_ (fun a z hz => ?_)
    | refine Keeps.pair2 ?_ (fun a z hz => ?_)
    | with_reducible rfl
    | split

end Sys2Proof.Machine
end

