-- ==== Sys2Proof/Laws/KeepsCore.lean ====
section
/-! SUPPORT. What no command may do (`Keeps`, Safety.lean) is kept by every operation of
the cores and the fabric:
from a state that kept it since `o0`, the operation answers one that did. -/
namespace Sys2Proof.Machine

theorem keeps_raiseTagN {o0 : State} {e : Ev} {pg : Pg} {i tag n : Nat} {s : State} (hk : Keeps o0 s) :
    Keeps o0 (raiseTagN e pg i tag n s) := by
  induction n generalizing s with
  | zero => exact hk
  | succ n ih => exact ih (keeps_raiseTag hk)

theorem keeps_setArith {o0 : State} {r n : Nat} {s : State} (hk : Keeps o0 s) : Keeps o0 (setArith r n s) := by
  unfold setArith
  repeat' first
    | with_reducible (first
      | assumption | exact Nat.le_refl _)
    | ((try lift_lets -underBinder); intro z; first
      | (refine Keeps.cut (o0 := o0) (z := z) ?_ (fun hz => ?_); subst z; rotate_left; clear_value z)
      | (refine Keeps.fn (o0 := o0) (f := z) ?_ (fun hz => ?_); subst z; intro z hz; rotate_left; clear_value z)
      | (refine Keeps.fn1 (o0 := o0) (f := z) ?_ (fun hz => ?_); subst z; intro a z hz; rotate_left; clear_value z)
      | (refine Keeps.fn2 (o0 := o0) (f := z) ?_ (fun hz => ?_); subst z; intro a b z hz; rotate_left; clear_value z)
      | (refine Keeps.fnp (o0 := o0) (f := z) ?_ (fun hz => ?_); subst z; intro a z hz; rotate_left; clear_value z)
      | (refine Keeps.sec z ?_; subst z)
      | (clear_value z)
      | (skip))
    | with_reducible (first
      | apply Keeps.ite | apply Keeps.ite2 | apply keeps_wr | apply keeps_orIn)

theorem keeps_coreEvent {o0 : State} {e : Ev} {c : Nat} {s : State} (hk : Keeps o0 s) : Keeps o0
    (coreEvent e c s) := by
  unfold coreEvent
  repeat' with_reducible first
    | assumption | exact Nat.le_refl _ | apply keeps_raiseTag

theorem keeps_report {o0 : State} {c : Nat} {conv : Bool} {f : Flg} {s : State} (hk : Keeps o0 s) : Keeps o0
    (report c conv f s) := by
  unfold report
  repeat' first
    | with_reducible (first
      | assumption | exact Nat.le_refl _)
    | ((try lift_lets -underBinder); intro z; first
      | (refine Keeps.cut (o0 := o0) (z := z) ?_ (fun hz => ?_); subst z; rotate_left; clear_value z)
      | (clear_value z)
      | (skip))
    | with_reducible (first
      | apply Keeps.ite | apply Keeps.ite2 | apply keeps_bump | apply keeps_raiseTagN | apply keeps_setArith
      | apply keeps_coreEvent)

theorem keeps_addRw {o0 : State} {c : Nat} {u : RwUpd} {s : State} (hk : Keeps o0 s) : Keeps o0 (addRw c u s) := by
  unfold addRw
  repeat' first
    | with_reducible (first
      | assumption | exact Nat.le_refl _)
    | ((try lift_lets -underBinder); intro z; first
      | (refine Keeps.cut (o0 := o0) (z := z) ?_ (fun hz => ?_); subst z; rotate_left; clear_value z)
      | (clear_value z)
      | (skip))
    | with_reducible (first
      | apply Keeps.ite | apply Keeps.ite2 | apply keeps_wr | apply keeps_bump | apply keeps_coreEvent)
    | refine Keeps.pair ?_ (fun a z hz => ?_)
    | refine Keeps.pair2 ?_ (fun a z hz => ?_)
    | with_reducible rfl
    | split

theorem keeps_shaftSide {o0 : State} {c x : Nat} {b : Bundle} {o : Core} {s : State} (hk : Keeps o0 s) : Keeps o0
    (shaftSide c x b o s) := by
  unfold shaftSide
  repeat' first
    | with_reducible (first
      | assumption | exact Nat.le_refl _)
    | ((try lift_lets -underBinder); intro z; first
      | (clear_value z)
      | (skip))
    | with_reducible (first
      | apply keeps_setCore | apply keeps_nmEnter)
    | refine Keeps.pair ?_ (fun a z hz => ?_)
    | refine Keeps.pair2 ?_ (fun a z hz => ?_)
    | with_reducible rfl
    | split

theorem kept_free (d : Slot) (n : Nat) : n ≤ (kept d n).2 := by
  unfold kept; split
  · exact Nat.le_add_right _ _
  · exact Nat.le_refl _
theorem keptIf_free (b : Bool) (d : Slot) (v : Line) (n : Nat) : n ≤ (if b = true then kept d n else (v, n)).2 := by
  split
  · exact kept_free d n
  · exact Nat.le_refl _
theorem doScalar_free (o : Core) (c x ptr cyc : Nat) (b : ScSlot) (w : Work) : w.2 ≤ (doScalar o c x ptr cyc b w).2 := by
  cases b <;> first | exact Nat.le_refl _ | exact kept_free _ _
theorem doVector_free (o : Core) (c x ptr cyc : Nat) (b : VSlot) (w : Work) : w.2 ≤ (doVector o c x ptr cyc b w).2 := by
  cases b
  case op op f =>
    unfold doVector
    dsimp only
    split
    · exact Nat.le_succ_of_le (keptIf_free _ _ _ _)
    · exact keptIf_free _ _ _ _
  all_goals first | exact Nat.le_refl _ | exact keptIf_free _ _ _ _
theorem doCube_free (o : Core) (x ptr cyc : Nat) (b : CSlot) (w : Work) : w.2 ≤ (doCube o x ptr cyc b w).2 := by
  cases b
  · exact Nat.le_refl _
  · unfold doCube; split
    · exact Nat.le_refl _
    · split <;> exact Nat.le_refl _
theorem doMove_free (o : Core) (x ptr cyc : Nat) (b : MSlot) (w : Work) : w.2 ≤ (doMove o x ptr cyc b w).2 := by
  cases b <;> first
    | exact Nat.le_refl _
    | (unfold doMove; dsimp only; split <;> exact Nat.le_refl _)
theorem doShaft_free (o : Core) (x ptr : Nat) (b : ShSlot) (w : Work) : w.2 ≤ (doShaft o x ptr b w).2 := by
  cases b <;> exact Nat.le_refl _
theorem doSlots_free (c x ptr cyc : Nat) (b : Bundle) (o : Core) (n : Nat) : n ≤ (doSlots c x ptr cyc b o n).2 :=
  Nat.le_trans (doScalar_free o c x ptr cyc b.sc (o, n)) <| Nat.le_trans (doVector_free o c x ptr cyc b.v _) <|
    Nat.le_trans (doCube_free o x ptr cyc b.cube _) <| Nat.le_trans (doMove_free o x ptr cyc b.mv _) (doShaft_free o x ptr b.sh _)
theorem keeps_commit {o0 : State} {c x cyc : Nat} {b : Bundle} {s : State} (hk : Keeps o0 s) : Keeps o0 (commit c x cyc b s) :=
  keeps_shaftSide (keeps_setCore (Keeps.mk_ hk (doSlots_free c x _ cyc b _ s.free) rfl))

theorem keeps_issueBundle {o0 : State} {c x cyc : Nat} {b : Bundle} {s : State} (hk : Keeps o0 s) : Keeps o0
    (issueBundle c x cyc b s) := by
  unfold issueBundle
  repeat' first
    | with_reducible (first
      | assumption | exact Nat.le_refl _)
    | ((try lift_lets -underBinder); intro z; first
      | (clear_value z)
      | (skip))
    | with_reducible (first
      | apply Keeps.ite | apply Keeps.ite2 | apply keeps_plateFault | apply keeps_commit)
    | refine Keeps.pair ?_ (fun a z hz => ?_)
    | refine Keeps.pair2 ?_ (fun a z hz => ?_)
    | with_reducible rfl
    | split

theorem keeps_issueSlot {o0 : State} {c x : Nat} {b : Bundle} {s : State} (hk : Keeps o0 s) : Keeps o0
    (issueSlot c x b s) := by
  unfold issueSlot
  repeat' with_reducible first
    | assumption | exact Nat.le_refl _ | apply keeps_issueBundle

theorem keeps_issueScalar {o0 : State} {c x : Nat} {o : ScSlot} {s : State} (hk : Keeps o0 s) : Keeps o0
    (issueScalar c x o s) := by
  unfold issueScalar
  repeat' with_reducible first
    | assumption | exact Nat.le_refl _ | apply keeps_issueSlot

theorem keeps_issueVector {o0 : State} {c x : Nat} {o : VSlot} {s : State} (hk : Keeps o0 s) : Keeps o0
    (issueVector c x o s) := by
  unfold issueVector
  repeat' with_reducible first
    | assumption | exact Nat.le_refl _ | apply keeps_issueSlot

theorem keeps_trayRetry {o0 : State} {c : Nat} {p : TrayParity} {s : State} (hk : Keeps o0 s) : Keeps o0
    (trayRetry c p s) := by
  unfold trayRetry
  repeat' first
    | with_reducible (first
      | assumption | exact Nat.le_refl _)
    | ((try lift_lets -underBinder); intro z; first
      | (refine Keeps.cut (o0 := o0) (z := z) ?_ (fun hz => ?_); subst z; rotate_left; clear_value z)
      | (clear_value z)
      | (skip))
    | with_reducible (first
      | apply Keeps.ite | apply Keeps.ite2 | apply keeps_bump | apply keeps_setCore | apply keeps_coreEvent)

theorem keeps_issueCycle {o0 : State} {c cyc : Nat} {par : List TrayParity} {s : State} (hk : Keeps o0 s) : Keeps o0
    (issueCycle c cyc par s) := by
  unfold issueCycle
  repeat' first
    | with_reducible (first
      | assumption | exact Nat.le_refl _)
    | ((try lift_lets -underBinder); intro z; first
      | (refine Keeps.cut (o0 := o0) (z := z) ?_ (fun hz => ?_); subst z; rotate_left; clear_value z)
      | (clear_value z)
      | (skip))
    | with_reducible (first
      | apply Keeps.ite | apply Keeps.ite2 | apply keeps_setCore | apply keeps_plateFault | apply keeps_issueBundle
      | apply keeps_trayRetry | refine Keeps.foldl ?_ (fun z x hz => ?_)
      | refine Keeps.foldl2 ?_ (fun z x hz => ?_))
    | refine Keeps.pair ?_ (fun a z hz => ?_)
    | refine Keeps.pair2 ?_ (fun a z hz => ?_)
    | with_reducible rfl
    | split

theorem keeps_landCube {o0 : State} {c : Nat} {f : Flight} {o : CubeOut} {s : State} (hk : Keeps o0 s) : Keeps o0
    (landCube c f o s) := by
  unfold landCube
  repeat' first
    | with_reducible (first
      | assumption | exact Nat.le_refl _)
    | ((try lift_lets -underBinder); intro z; first
      | (clear_value z)
      | (skip))
    | with_reducible apply keeps_setCore

theorem keeps_setScale {o0 : State} {c : Nat} {f : Flight} {j : CubeJob} {s : State} (hk : Keeps o0 s) : Keeps o0
    (setScale c f j s) := by
  unfold setScale
  repeat' first
    | with_reducible (first
      | assumption | exact Nat.le_refl _)
    | ((try lift_lets -underBinder); intro z; first
      | (clear_value z)
      | (skip))
    | with_reducible (first
      | apply Keeps.ite | apply Keeps.ite2 | apply keeps_setCore)

theorem keeps_runEnds {o0 : State} {c : Nat} {f : Flight} {j : CubeJob} {s : State} (hk : Keeps o0 s) : Keeps o0
    (runEnds c f j s) := by
  unfold runEnds
  repeat' first
    | with_reducible (first
      | assumption | exact Nat.le_refl _)
    | ((try lift_lets -underBinder); intro z; first
      | (refine Keeps.cut (o0 := o0) (z := z) ?_ (fun hz => ?_); subst z; rotate_left; clear_value z)
      | (clear_value z)
      | (skip))
    | with_reducible (first
      | apply Keeps.ite | apply Keeps.ite2 | apply keeps_bump | apply keeps_setCore | apply keeps_setArith
      | apply keeps_coreEvent | apply keeps_report | apply keeps_landCube | apply keeps_setScale)
    | refine Keeps.pair ?_ (fun a z hz => ?_)
    | refine Keeps.pair2 ?_ (fun a z hz => ?_)
    | with_reducible rfl
    | split

theorem keeps_flightEnds {o0 : State} {c : Nat} {f : Flight} {s : State} (hk : Keeps o0 s) : Keeps o0
    (flightEnds c f s) := by
  unfold flightEnds
  repeat' first
    | with_reducible (first
      | assumption | exact Nat.le_refl _)
    | ((try lift_lets -underBinder); intro z; first
      | (refine Keeps.cut (o0 := o0) (z := z) ?_ (fun hz => ?_); subst z; rotate_left; clear_value z)
      | (clear_value z)
      | (skip))
    | with_reducible (first
      | apply Keeps.ite | apply Keeps.ite2 | apply keeps_setCore | apply keeps_report | apply keeps_addRw
      | apply keeps_landCube | apply keeps_runEnds | refine Keeps.foldl ?_ (fun z x hz => ?_)
      | refine Keeps.foldl2 ?_ (fun z x hz => ?_))
    | refine Keeps.pair ?_ (fun a z hz => ?_)
    | refine Keeps.pair2 ?_ (fun a z hz => ?_)
    | with_reducible rfl
    | split

theorem keeps_pathMoved {o0 : State} {p a n : Nat} {s : State} (hk : Keeps o0 s) : Keeps o0
    (pathMoved p a n s) := by
  unfold pathMoved
  repeat' first
    | with_reducible (first
      | assumption | exact Nat.le_refl _)
    | ((try lift_lets -underBinder); intro z; first
      | (clear_value z)
      | (skip))
    | with_reducible (first
      | apply Keeps.ite | apply Keeps.ite2 | apply keeps_setShaft)

theorem keeps_loadLand {o0 : State} {c : Nat} {errs : List GErr} {s : State} (hk : Keeps o0 s) : Keeps o0
    (loadLand c errs s) := by
  unfold loadLand
  repeat' first
    | with_reducible (first
      | assumption | exact Nat.le_refl _)
    | ((try lift_lets -underBinder); intro z; first
      | (refine Keeps.cut (o0 := o0) (z := z) ?_ (fun hz => ?_); subst z; rotate_left; clear_value z)
      | (refine Keeps.fn2 (o0 := o0) (f := z) ?_ (fun hz => ?_); subst z; intro a b z hz; rotate_left; clear_value z)
      | (clear_value z)
      | (skip))
    | with_reducible (first
      | apply Keeps.ite | apply Keeps.ite2 | apply keeps_setCore | apply keeps_coreReadLine | apply keeps_enterNow
      | apply keeps_pathMoved)
    | refine Keeps.pair ?_ (fun a z hz => ?_)
    | refine Keeps.pair2 ?_ (fun a z hz => ?_)
    | with_reducible rfl
    | split
    | refine Keeps.eqv (by with_reducible assumption) ?_
    | refine Keeps.eqv2 (by with_reducible assumption) ?_
    | refine Keeps.app (by with_reducible assumption) ?_
    | refine Keeps.app1 (by with_reducible assumption) ?_
    | refine Keeps.app2 (by with_reducible assumption) ?_

theorem keeps_resultHook {o0 : State} {c a n : Nat} {s : State} (hk : Keeps o0 s) : Keeps o0
    (resultHook c a n s) := by
  unfold resultHook
  repeat' first
    | with_reducible (first
      | assumption | exact Nat.le_refl _)
    | ((try lift_lets -underBinder); intro z; first
      | (clear_value z)
      | (skip))
    | with_reducible (first
      | apply Keeps.ite | apply Keeps.ite2 | apply keeps_bump | apply keeps_setRslot)
    | refine Keeps.pair ?_ (fun a z hz => ?_)
    | refine Keeps.pair2 ?_ (fun a z hz => ?_)
    | with_reducible rfl
    | split

theorem keeps_storeDone {o0 : State} {c : Nat} {q : ShReq} {s : State} (hk : Keeps o0 s) : Keeps o0
    (storeDone c q s) := by
  unfold storeDone
  repeat' first
    | with_reducible (first
      | assumption | exact Nat.le_refl _)
    | ((try lift_lets -underBinder); intro z; first
      | (refine Keeps.cut (o0 := o0) (z := z) ?_ (fun hz => ?_); subst z; rotate_left; clear_value z)
      | (clear_value z)
      | (skip))
    | with_reducible (first
      | apply keeps_setCore | apply keeps_coreWriteLine | apply keeps_enterNow | apply keeps_pathMoved
      | apply keeps_resultHook | refine Keeps.foldl ?_ (fun z x hz => ?_))

theorem keeps_codeDone {o0 : State} {c : Nat} {q : ShReq} {errs : List GErr} {s : State} (hk : Keeps o0 s) :
    Keeps o0 (codeDone c q errs s) := by
  unfold codeDone
  repeat' first
    | with_reducible (first
      | assumption | exact Nat.le_refl _)
    | ((try lift_lets -underBinder); intro z; first
      | (refine Keeps.cut (o0 := o0) (z := z) ?_ (fun hz => ?_); subst z; rotate_left; clear_value z)
      | (clear_value z)
      | (skip))
    | with_reducible (first
      | apply keeps_setCore | apply keeps_coreReadLine | apply keeps_enterNow | apply keeps_pathMoved
      | refine Keeps.foldl ?_ (fun z x hz => ?_))

theorem keeps_operationComplete {o0 : State} {c id : Nat} {errs : List GErr} {s : State} (hk : Keeps o0 s) :
    Keeps o0 (operationComplete c id errs s) := by
  unfold operationComplete
  repeat' first
    | with_reducible (first
      | assumption | exact Nat.le_refl _)
    | ((try lift_lets -underBinder); intro z; first
      | (clear_value z)
      | (skip))
    | with_reducible (first
      | apply Keeps.ite | apply Keeps.ite2 | apply keeps_flightEnds | apply keeps_storeDone | apply keeps_codeDone)
    | refine Keeps.pair ?_ (fun a z hz => ?_)
    | refine Keeps.pair2 ?_ (fun a z hz => ?_)
    | with_reducible rfl
    | split

theorem keeps_cubeRunEnds {o0 : State} {c id : Nat} {s : State} (hk : Keeps o0 s) : Keeps o0
    (cubeRunEnds c id s) := by
  unfold cubeRunEnds
  repeat' first
    | with_reducible (first
      | assumption | exact Nat.le_refl _ | apply Keeps.ite | apply Keeps.ite2 | apply keeps_runEnds)
    | refine Keeps.pair ?_ (fun a z hz => ?_)
    | refine Keeps.pair2 ?_ (fun a z hz => ?_)
    | with_reducible rfl
    | split

theorem keeps_fenceShaftDone {o0 : State} {c x : Nat} {s : State} (hk : Keeps o0 s) : Keeps o0
    (fenceShaftDone c x s) := by
  unfold fenceShaftDone
  repeat' first
    | with_reducible (first
      | assumption | exact Nat.le_refl _)
    | ((try lift_lets -underBinder); intro z; first
      | (clear_value z)
      | (skip))
    | with_reducible (first
      | apply Keeps.ite | apply Keeps.ite2 | apply keeps_setCore)
    | refine Keeps.pair ?_ (fun a z hz => ?_)
    | refine Keeps.pair2 ?_ (fun a z hz => ?_)
    | with_reducible rfl
    | split

theorem keeps_fenceNmDone {o0 : State} {c x : Nat} {s : State} (hk : Keeps o0 s) : Keeps o0
    (fenceNmDone c x s) := by
  unfold fenceNmDone
  repeat' first
    | with_reducible (first
      | assumption | exact Nat.le_refl _)
    | ((try lift_lets -underBinder); intro z; first
      | (clear_value z)
      | (skip))
    | with_reducible (first
      | apply Keeps.ite | apply Keeps.ite2 | apply keeps_setCore | refine Keeps.foldl ?_ (fun z x hz => ?_)
      | refine Keeps.foldl2 ?_ (fun z x hz => ?_))
    | refine Keeps.pair ?_ (fun a z hz => ?_)
    | refine Keeps.pair2 ?_ (fun a z hz => ?_)
    | with_reducible rfl
    | split

theorem keeps_cyclesEnd {o0 : State} {r : Nat} {s : State} (hk : Keeps o0 s) : Keeps o0 (cyclesEnd r s) := by
  unfold cyclesEnd
  repeat' first
    | with_reducible (first
      | assumption | exact Nat.le_refl _)
    | ((try lift_lets -underBinder); intro z; first
      | (refine Keeps.cut (o0 := o0) (z := z) ?_ (fun hz => ?_); subst z; rotate_left; clear_value z)
      | (clear_value z)
      | (skip))
    | with_reducible (first
      | apply Keeps.ite | apply Keeps.ite2 | apply keeps_wr | apply keeps_plateFault
      | refine Keeps.foldl ?_ (fun z x hz => ?_) | refine Keeps.foldl2 ?_ (fun z x hz => ?_))
    | refine Keeps.pair ?_ (fun a z hz => ?_)
    | refine Keeps.pair2 ?_ (fun a z hz => ?_)
    | with_reducible rfl
    | split

theorem keeps_departFlit {o0 : State} {c k cycle : Nat} {s : State} (hk : Keeps o0 s) : Keeps o0
    (departFlit c k cycle s).2 := by
  unfold departFlit
  repeat' first
    | with_reducible (first
      | assumption | exact Nat.le_refl _)
    | ((try lift_lets -underBinder); intro z; first
      | (clear_value z)
      | (skip))
    | with_reducible (first
      | apply Keeps.ite | apply Keeps.ite2 | apply keeps_bump | apply keeps_setCore | apply keeps_plateFault)

theorem keeps_absorb {o0 : State} {c : Nat} {s : State} (hk : Keeps o0 s) : Keeps o0 (absorb c s) := by
  unfold absorb
  repeat' with_reducible first
    | assumption | exact Nat.le_refl _ | apply keeps_bump

theorem keeps_arriveAt {o0 : State} {n c k cycle : Nat} {f : Flit} {s : State} (hk : Keeps o0 s) : Keeps o0
    (arriveAt n c k cycle f s) := by
  unfold arriveAt
  repeat' first
    | with_reducible (first
      | assumption | exact Nat.le_refl _)
    | ((try lift_lets -underBinder); intro z; first
      | (clear_value z)
      | (skip))
    | with_reducible (first
      | apply Keeps.ite | apply Keeps.ite2 | apply keeps_setCore | apply keeps_plateFaultAt | apply keeps_absorb)

theorem keeps_arriveFlit {o0 : State} {c k cycle : Nat} {f : Flit} {s : State} (hk : Keeps o0 s) : Keeps o0
    (arriveFlit c k cycle f s) := by
  unfold arriveFlit
  repeat' with_reducible first
    | assumption | exact Nat.le_refl _ | apply keeps_arriveAt

theorem keeps_shadowFlit {o0 : State} {c k : Nat} {f : Flit} {s : State} (hk : Keeps o0 s) : Keeps o0
    (shadowFlit c k f s) := by
  unfold shadowFlit
  repeat' first
    | with_reducible (first
      | assumption | exact Nat.le_refl _)
    | ((try lift_lets -underBinder); intro z; first
      | (clear_value z)
      | (skip))
    | with_reducible (first
      | apply Keeps.ite | apply Keeps.ite2 | apply keeps_setCore | apply keeps_absorb)

theorem keeps_swapCore {o0 : State} {c : Nat} {s : State} (hk : Keeps o0 s) : Keeps o0 (swapCore c s) := by
  unfold swapCore
  repeat' first
    | with_reducible (first
      | assumption | exact Nat.le_refl _)
    | ((try lift_lets -underBinder); intro z; first
      | (refine Keeps.cut (o0 := o0) (z := z) ?_ (fun hz => ?_); subst z; rotate_left; clear_value z)
      | (clear_value z)
      | (skip))
    | with_reducible (first
      | apply keeps_setCore | apply keeps_arriveAt | refine Keeps.foldl ?_ (fun z x hz => ?_))

theorem keeps_driveMesh {o0 : State} {c out cycle : Nat} {f : Flit} {s : State} (hk : Keeps o0 s) : Keeps o0
    (driveMesh c out cycle f s) := by
  unfold driveMesh
  repeat' first
    | with_reducible (first
      | assumption | exact Nat.le_refl _)
    | refine Keeps.pair ?_ (fun a z hz => ?_)
    | refine Keeps.pair2 ?_ (fun a z hz => ?_)
    | with_reducible rfl
    | split
    | refine Keeps.eqv (by with_reducible assumption) ?_
    | refine Keeps.eqv2 (by with_reducible assumption) ?_
    | with_reducible apply Keeps.mk_

theorem keeps_takeMesh {o0 : State} {c inp cycle : Nat} {s : State} (hk : Keeps o0 s) : Keeps o0
    (takeMesh c inp cycle s).2 := by
  unfold takeMesh
  repeat' with_reducible assumption

theorem keeps_looseLanded {o0 : State} {id : Nat} {f : Flit} {s : State} (hk : Keeps o0 s) : Keeps o0
    (looseLanded id f s) := by
  unfold looseLanded
  repeat' first
    | with_reducible (first
      | assumption | exact Nat.le_refl _ | apply Keeps.ite | apply Keeps.ite2 | rfl)
    | split
    | with_reducible apply Keeps.mk_

theorem keeps_laggedIn {o0 : State} {c k : Nat} {f : Flit} {s : State} (hk : Keeps o0 s) : Keeps o0
    (laggedIn c k f s) := by
  unfold laggedIn
  repeat' first
    | with_reducible (first
      | assumption | exact Nat.le_refl _ | apply keeps_shadowFlit | apply keeps_looseLanded)
    | refine Keeps.pair ?_ (fun a z hz => ?_)
    | refine Keeps.pair2 ?_ (fun a z hz => ?_)
    | with_reducible rfl
    | split

theorem keeps_seamInject {o0 : State} {h row : Nat} {f : Flit} {s : State} (hk : Keeps o0 s) : Keeps o0
    (seamInject h row f s) := by
  unfold seamInject
  repeat' first
    | with_reducible (first
      | assumption | exact Nat.le_refl _)
    | ((try lift_lets -underBinder); intro z; first
      | (refine Keeps.cut (o0 := o0) (z := z) ?_ (fun hz => ?_); subst z; rotate_left; clear_value z)
      | (clear_value z)
      | (skip))
    | with_reducible (first
      | apply Keeps.ite | apply Keeps.ite2 | apply keeps_bump | rfl)
    | split
    | with_reducible apply Keeps.mk_

theorem keeps_seamLand {o0 : State} {t row d : Nat} {parity : Bool} {s : State} (hk : Keeps o0 s) : Keeps o0
    (seamLand t row d parity s) := by
  unfold seamLand
  repeat' first
    | with_reducible (first
      | assumption | exact Nat.le_refl _)
    | ((try lift_lets -underBinder); intro z; first
      | (refine Keeps.cut (o0 := o0) (z := z) ?_ (fun hz => ?_); subst z; rotate_left; clear_value z)
      | (clear_value z)
      | (skip))
    | with_reducible (first
      | apply Keeps.ite | apply Keeps.ite2 | apply keeps_bump | apply keeps_raise | apply keeps_laggedIn)
    | refine Keeps.pair ?_ (fun a z hz => ?_)
    | refine Keeps.pair2 ?_ (fun a z hz => ?_)
    | with_reducible rfl
    | split
    | refine Keeps.eqv (by with_reducible assumption) ?_
    | refine Keeps.eqv2 (by with_reducible assumption) ?_
    | with_reducible apply Keeps.mk_

theorem keeps_setBrg {o0 : State} {s : State} {b d : Nat} {v : BrgDir} (hk : Keeps o0 s) : Keeps o0
    (State.setBrg s b d v) := by
  unfold State.setBrg
  repeat' with_reducible first
    | assumption | exact Nat.le_refl _ | rfl | apply Keeps.mk_

theorem keeps_brgInject {o0 : State} {b d tap : Nat} {f : Flit} {s : State} (hk : Keeps o0 s) : Keeps o0
    (brgInject b d tap f s) := by
  unfold brgInject
  repeat' first
    | with_reducible (first
      | assumption | exact Nat.le_refl _)
    | ((try lift_lets -underBinder); intro z; first
      | (refine Keeps.cut (o0 := o0) (z := z) ?_ (fun hz => ?_); subst z; rotate_left; clear_value z)
      | (clear_value z)
      | (skip))
    | with_reducible (first
      | apply Keeps.ite | apply Keeps.ite2 | apply keeps_bump | apply keeps_drop | apply keeps_setBrg)

theorem keeps_tapInject {o0 : State} {c : Nat} {f : Flit} {s : State} (hk : Keeps o0 s) : Keeps o0
    (tapInject c f s) := by
  unfold tapInject
  repeat' first
    | with_reducible (first
      | assumption | exact Nat.le_refl _ | apply keeps_brgInject)
    | refine Keeps.pair ?_ (fun a z hz => ?_)
    | refine Keeps.pair2 ?_ (fun a z hz => ?_)
    | with_reducible rfl
    | split

theorem keeps_brgArrive {o0 : State} {b d seq : Nat} {crcOk : Bool} {s : State} (hk : Keeps o0 s) : Keeps o0
    (brgArrive b d seq crcOk s) := by
  unfold brgArrive
  repeat' first
    | with_reducible (first
      | assumption | exact Nat.le_refl _)
    | ((try lift_lets -underBinder); intro z; first
      | (refine Keeps.cut (o0 := o0) (z := z) ?_ (fun hz => ?_); subst z; rotate_left; clear_value z)
      | (clear_value z)
      | (skip))
    | with_reducible (first
      | apply Keeps.ite | apply Keeps.ite2 | apply keeps_bump | apply keeps_drop | apply keeps_raise
      | apply keeps_setBrg)
    | refine Keeps.pair ?_ (fun a z hz => ?_)
    | refine Keeps.pair2 ?_ (fun a z hz => ?_)
    | with_reducible rfl
    | split

theorem keeps_brgRetire {o0 : State} {b d seq : Nat} {s : State} (hk : Keeps o0 s) : Keeps o0
    (brgRetire b d seq s) := by
  unfold brgRetire
  repeat' first
    | with_reducible (first
      | assumption | exact Nat.le_refl _)
    | ((try lift_lets -underBinder); intro z; first
      | (refine Keeps.cut (o0 := o0) (z := z) ?_ (fun hz => ?_); subst z; rotate_left; clear_value z)
      | (clear_value z)
      | (skip))
    | with_reducible (first
      | apply Keeps.ite | apply Keeps.ite2 | apply keeps_bump | apply keeps_drop | apply keeps_setBrg)

theorem keeps_brgLand {o0 : State} {b d : Nat} {s : State} (hk : Keeps o0 s) : Keeps o0 (brgLand b d s) := by
  unfold brgLand
  repeat' first
    | with_reducible (first
      | assumption | exact Nat.le_refl _)
    | ((try lift_lets -underBinder); intro z; first
      | (refine Keeps.cut (o0 := o0) (z := z) ?_ (fun hz => ?_); subst z; rotate_left; clear_value z)
      | (clear_value z)
      | (skip))
    | with_reducible (first
      | apply keeps_bump | apply keeps_drop | apply keeps_laggedIn | apply keeps_setBrg | apply keeps_brgRetire)
    | refine Keeps.pair ?_ (fun a z hz => ?_)
    | refine Keeps.pair2 ?_ (fun a z hz => ?_)
    | with_reducible rfl
    | split

theorem keeps_brgLate {o0 : State} {b d : Nat} {s : State} (hk : Keeps o0 s) : Keeps o0 (brgLate b d s) := by
  unfold brgLate
  repeat' first
    | with_reducible (first
      | assumption | exact Nat.le_refl _)
    | ((try lift_lets -underBinder); intro z; first
      | (refine Keeps.cut (o0 := o0) (z := z) ?_ (fun hz => ?_); subst z; rotate_left; clear_value z)
      | (clear_value z)
      | (skip))
    | with_reducible (first
      | apply keeps_bump | apply keeps_drop | apply keeps_raise | apply keeps_laggedIn | apply keeps_setBrg
      | apply keeps_brgRetire | refine Keeps.foldl ?_ (fun z x hz => ?_))

theorem keeps_drainSeam {o0 : State} {k n : Nat} {s : State} (hk : Keeps o0 s) : Keeps o0 (drainSeam k n s) := by
  unfold drainSeam
  repeat' with_reducible first
    | assumption | exact Nat.le_refl _ | apply keeps_seamLand | refine Keeps.foldl ?_ (fun z x hz => ?_)

theorem keeps_swapShadows {o0 : State} {s : State} (hk : Keeps o0 s) : Keeps o0 (swapShadows s) := by
  unfold swapShadows
  repeat' first
    | with_reducible (first
      | assumption | exact Nat.le_refl _)
    | ((try lift_lets -underBinder); intro z; first
      | (refine Keeps.cut (o0 := o0) (z := z) ?_ (fun hz => ?_); subst z; rotate_left; clear_value z)
      | (refine Keeps.fn (o0 := o0) (f := z) ?_ (fun hz => ?_); subst z; intro z hz; rotate_left; clear_value z)
      | (refine Keeps.fn1 (o0 := o0) (f := z) ?_ (fun hz => ?_); subst z; intro a z hz; rotate_left; clear_value z)
      | (refine Keeps.fn2 (o0 := o0) (f := z) ?_ (fun hz => ?_); subst z; intro a b z hz; rotate_left; clear_value z)
      | (refine Keeps.fnp (o0 := o0) (f := z) ?_ (fun hz => ?_); subst z; intro a z hz; rotate_left; clear_value z)
      | (refine Keeps.sec z ?_; subst z)
      | (clear_value z)
      | (skip))
    | with_reducible (first
      | apply Keeps.ite | apply Keeps.ite2 | apply keeps_swapCore | apply keeps_brgLate | apply keeps_drainSeam
      | refine Keeps.foldl ?_ (fun z x hz => ?_))

theorem keeps_laggedLand {o0 : State} {l : LagLane} {parity : Bool} {s : State} (hk : Keeps o0 s) : Keeps o0
    (laggedLand l parity s) := by
  unfold laggedLand
  repeat' first
    | with_reducible (first
      | assumption | exact Nat.le_refl _ | apply keeps_seamLand | apply keeps_brgLand)
    | refine Keeps.pair ?_ (fun a z hz => ?_)
    | refine Keeps.pair2 ?_ (fun a z hz => ?_)
    | with_reducible rfl
    | split

theorem keeps_looseFly {o0 : State} {d h : Nat} {m : LooseMsg} {s : State} (hk : Keeps o0 s) : Keeps o0
    (looseFly d h m s) := by
  unfold looseFly
  repeat' first
    | with_reducible (first
      | assumption | exact Nat.le_refl _)
    | ((try lift_lets -underBinder); intro z; first
      | (clear_value z)
      | (skip))
    | with_reducible (first
      | apply Keeps.ite | apply Keeps.ite2 | apply keeps_seamInject | apply keeps_brgInject)

theorem keeps_looseCross {o0 : State} {d : Nat} {m : LooseMsg} {s : State} (hk : Keeps o0 s) : Keeps o0
    (looseCross d m s) := by
  unfold looseCross
  repeat' first
    | with_reducible (first
      | assumption | exact Nat.le_refl _ | apply Keeps.ite | apply Keeps.ite2 | apply keeps_looseFly)
    | refine Keeps.pair ?_ (fun a z hz => ?_)
    | refine Keeps.pair2 ?_ (fun a z hz => ?_)
    | with_reducible rfl
    | split
    | refine Keeps.eqv (by with_reducible assumption) ?_
    | refine Keeps.eqv2 (by with_reducible assumption) ?_
    | with_reducible apply Keeps.mk_

theorem keeps_looseSend {o0 : State} {c d k : Nat} {m : LooseMsg} {s : State} (hk : Keeps o0 s) : Keeps o0
    (looseSend c d k m s) := by
  unfold looseSend
  repeat' first
    | with_reducible (first
      | assumption | exact Nat.le_refl _)
    | ((try lift_lets -underBinder); intro z; first
      | (refine Keeps.cut (o0 := o0) (z := z) ?_ (fun hz => ?_); subst z; rotate_left; clear_value z)
      | (refine Keeps.fn1 (o0 := o0) (f := z) ?_ (fun hz => ?_); subst z; intro a z hz; rotate_left; clear_value z)
      | (clear_value z)
      | (skip))
    | with_reducible (first
      | apply Keeps.ite | apply Keeps.ite2 | apply keeps_looseFly)
    | refine Keeps.pair ?_ (fun a z hz => ?_)
    | refine Keeps.pair2 ?_ (fun a z hz => ?_)
    | with_reducible rfl
    | split
    | refine Keeps.eqv (by with_reducible assumption) ?_
    | refine Keeps.eqv2 (by with_reducible assumption) ?_
    | refine Keeps.app (by with_reducible assumption) ?_
    | refine Keeps.app1 (by with_reducible assumption) ?_
    | refine Keeps.app2 (by with_reducible assumption) ?_
    | refine Keeps.appp (by with_reducible assumption) ?_
    | with_reducible apply Keeps.mk_

theorem keeps_looseDepart {o0 : State} {c k : Nat} {s : State} (hk : Keeps o0 s) : Keeps o0
    (looseDepart c k s) := by
  unfold looseDepart
  repeat' first
    | with_reducible (first
      | assumption | exact Nat.le_refl _)
    | ((try lift_lets -underBinder); intro z; first
      | (refine Keeps.cut (o0 := o0) (z := z) ?_ (fun hz => ?_); subst z; rotate_left; clear_value z)
      | (clear_value z)
      | (skip))
    | with_reducible (first
      | apply Keeps.ite | apply Keeps.ite2 | apply keeps_bump | apply keeps_setCore | apply keeps_coreEvent
      | apply keeps_looseSend)
    | refine Keeps.pair ?_ (fun a z hz => ?_)
    | refine Keeps.pair2 ?_ (fun a z hz => ?_)
    | with_reducible rfl
    | split

end Sys2Proof.Machine
end

