-- ==== Sys2Proof/Laws/KeepsRay.lean ====
section
/-! SUPPORT. What no command may do (`Keeps`, Safety.lean) is kept by every operation of
the Ray ports:
from a state that kept it since `o0`, the operation answers one that did. -/
namespace Sys2Proof.Machine

theorem keeps_setPort {o0 : State} {s : State} {p : Nat} {k : RayPort} (hk : Keeps o0 s) : Keeps o0
    (State.setPort s p k) := by
  unfold State.setPort
  repeat' with_reducible first
    | assumption | exact Nat.le_refl _ | rfl | apply Keeps.mk_

theorem keeps_stopPlates {o0 : State} {f : Image → Bool} {s : State} (hk : Keeps o0 s) : Keeps o0
    (stopPlates f s) := by
  unfold stopPlates
  repeat' first
    | with_reducible (first
      | assumption | exact Nat.le_refl _ | apply Keeps.ite | apply Keeps.ite2 | apply keeps_later
      | apply keeps_invalidatePlate | refine Keeps.foldl ?_ (fun z x hz => ?_)
      | refine Keeps.foldl2 ?_ (fun z x hz => ?_))
    | refine Keeps.pair ?_ (fun a z hz => ?_)
    | refine Keeps.pair2 ?_ (fun a z hz => ?_)
    | with_reducible rfl
    | split

theorem keeps_rayCtl {o0 : State} {p : Nat} {b : RBody} {s : State} (hk : Keeps o0 s) : Keeps o0
    (rayCtl p b s) := by
  unfold rayCtl
  repeat' first
    | with_reducible (first
      | assumption | exact Nat.le_refl _)
    | ((try lift_lets -underBinder); intro z; first
      | (clear_value z)
      | (skip))
    | with_reducible apply keeps_setPort

theorem keeps_rayNak {o0 : State} {p code seq : Nat} {s : State} (hk : Keeps o0 s) : Keeps o0
    (rayNak p code seq s) := by
  unfold rayNak
  repeat' first
    | with_reducible (first
      | assumption | exact Nat.le_refl _)
    | ((try lift_lets -underBinder); intro z; first
      | (refine Keeps.cut (o0 := o0) (z := z) ?_ (fun hz => ?_); subst z; rotate_left; clear_value z)
      | (clear_value z)
      | (skip))
    | with_reducible (first
      | apply keeps_bump | apply keeps_raise | apply keeps_setPort | apply keeps_rayCtl)

theorem keeps_rayAck {o0 : State} {p ack : Nat} {s : State} (hk : Keeps o0 s) : Keeps o0 (rayAck p ack s) := by
  unfold rayAck
  repeat' first
    | with_reducible (first
      | assumption | exact Nat.le_refl _)
    | ((try lift_lets -underBinder); intro z; first
      | (clear_value z)
      | (skip))
    | with_reducible (first
      | apply Keeps.ite | apply Keeps.ite2 | apply keeps_setPort)

theorem keeps_rayCredits {o0 : State} {p n : Nat} {s : State} (hk : Keeps o0 s) : Keeps o0 (rayCredits p n s) := by
  unfold rayCredits
  repeat' first
    | with_reducible (first
      | assumption | exact Nat.le_refl _)
    | ((try lift_lets -underBinder); intro z; first
      | (refine Keeps.cut (o0 := o0) (z := z) ?_ (fun hz => ?_); subst z; rotate_left; clear_value z)
      | (clear_value z)
      | (skip))
    | with_reducible (first
      | apply Keeps.ite | apply Keeps.ite2 | apply keeps_bump | apply keeps_drop | apply keeps_raise
      | apply keeps_setPort)

theorem keeps_rayRelease {o0 : State} {p : Nat} {red : Bool} {n : Nat} {s : State} (hk : Keeps o0 s) : Keeps o0
    (rayRelease p red n s) := by
  unfold rayRelease
  repeat' first
    | with_reducible (first
      | assumption | exact Nat.le_refl _)
    | ((try lift_lets -underBinder); intro z; first
      | (refine Keeps.cut (o0 := o0) (z := z) ?_ (fun hz => ?_); subst z; rotate_left; clear_value z)
      | (clear_value z)
      | (skip))
    | with_reducible (first
      | apply Keeps.ite | apply Keeps.ite2 | apply keeps_bump | apply keeps_drop | apply keeps_setPort)

theorem keeps_rayRx {o0 : State} {p t : Nat} {w : RayWords} {s : State} (hk : Keeps o0 s) : Keeps o0
    (rayRx p t w s).2 := by
  unfold rayRx
  repeat' first
    | with_reducible (first
      | assumption | exact Nat.le_refl _)
    | ((try lift_lets -underBinder); intro z; first
      | (refine Keeps.cut (o0 := o0) (z := z) ?_ (fun hz => ?_); subst z; rotate_left; clear_value z)
      | (clear_value z)
      | (skip))
    | with_reducible (first
      | apply Keeps.ite | apply Keeps.ite2 | apply keeps_bump | apply keeps_drop | apply keeps_setPort
      | apply keeps_rayCtl | apply keeps_rayNak | apply keeps_rayAck | apply keeps_rayCredits)

theorem keeps_mgmtRx {o0 : State} {p : Nat} {w : RayWords} {f : State → State}
    (hf : ∀ s, Keeps o0 s → Keeps o0 (f s)) {s : State} (hk : Keeps o0 s) : Keeps o0 (mgmtRx p w f s) := by
  unfold mgmtRx
  repeat' first
    | with_reducible (first
      | assumption | exact Nat.le_refl _ | apply hf | apply keeps_rayRx)
    | refine Keeps.pair ?_ (fun a z hz => ?_)
    | refine Keeps.pair2 ?_ (fun a z hz => ?_)
    | with_reducible rfl
    | split
    | refine Keeps.eqv (by with_reducible assumption) ?_

theorem keeps_mgmtIn {o0 : State} {x : MgmtRx} {f : State → State} (hf : ∀ s, Keeps o0 s → Keeps o0 (f s))
    {s : State} (hk : Keeps o0 s) : Keeps o0 (mgmtIn x f s) := by
  unfold mgmtIn
  repeat' first
    | with_reducible (first
      | assumption | exact Nat.le_refl _ | apply hf)
    | intro s hs
    | with_reducible (first
      | apply keeps_served | apply keeps_mgmtRx)

theorem keeps_rayFirst {o0 : State} {p : Nat} {f : RFlit} {s : State} (hk : Keeps o0 s) : Keeps o0
    (rayFirst p f s) := by
  unfold rayFirst
  repeat' first
    | with_reducible (first
      | assumption | exact Nat.le_refl _)
    | ((try lift_lets -underBinder); intro z; first
      | (refine Keeps.cut (o0 := o0) (z := z) ?_ (fun hz => ?_); subst z; rotate_left; clear_value z)
      | (clear_value z)
      | (skip))
    | with_reducible (first
      | apply Keeps.ite | apply Keeps.ite2 | apply keeps_bump | apply keeps_drop | apply keeps_setPort)

theorem keeps_rayReplay {o0 : State} {p n : Nat} {s : State} (hk : Keeps o0 s) : Keeps o0 (rayReplay p n s) := by
  unfold rayReplay
  repeat' first
    | with_reducible (first
      | assumption | exact Nat.le_refl _)
    | ((try lift_lets -underBinder); intro z; first
      | (clear_value z)
      | (skip))
    | with_reducible (first
      | apply Keeps.ite | apply Keeps.ite2 | apply keeps_raise | apply keeps_setPort)

theorem keeps_rayNakRx {o0 : State} {p : Nat} {w : RayWords} {s : State} (hk : Keeps o0 s) : Keeps o0
    (rayNakRx p w s) := by
  unfold rayNakRx
  repeat' first
    | with_reducible (first
      | assumption | exact Nat.le_refl _ | apply keeps_rayRx | apply keeps_rayReplay)
    | refine Keeps.pair ?_ (fun a z hz => ?_)
    | refine Keeps.pair2 ?_ (fun a z hz => ?_)
    | with_reducible rfl
    | split
    | refine Keeps.eqv (by with_reducible assumption) ?_

theorem keeps_rayReplayRx {o0 : State} {p : Nat} {w : RayWords} {s : State} (hk : Keeps o0 s) : Keeps o0
    (rayReplayRx p w s) := by
  unfold rayReplayRx
  repeat' first
    | with_reducible (first
      | assumption | exact Nat.le_refl _ | apply keeps_rayRx | apply keeps_rayReplay)
    | refine Keeps.pair ?_ (fun a z hz => ?_)
    | refine Keeps.pair2 ?_ (fun a z hz => ?_)
    | with_reducible rfl
    | split
    | refine Keeps.eqv (by with_reducible assumption) ?_

theorem keeps_rayAckRx {o0 : State} {p : Nat} {w : RayWords} {s : State} (hk : Keeps o0 s) : Keeps o0
    (rayAckRx p w s) := by
  unfold rayAckRx
  repeat' with_reducible first
    | assumption | exact Nat.le_refl _ | apply keeps_rayRx

theorem keeps_rayCreditRx {o0 : State} {p : Nat} {w : RayWords} {s : State} (hk : Keeps o0 s) : Keeps o0
    (rayCreditRx p w s) := by
  unfold rayCreditRx
  repeat' with_reducible first
    | assumption | exact Nat.le_refl _ | apply keeps_rayRx

theorem keeps_countLate {o0 : State} {p : Nat} {s : State} (hk : Keeps o0 s) : Keeps o0 (countLate p s) := by
  unfold countLate
  repeat' with_reducible first
    | assumption | exact Nat.le_refl _ | apply keeps_bump | apply keeps_raise

theorem keeps_rayLate {o0 : State} {p : Nat} {red : Bool} {s : State} (hk : Keeps o0 s) : Keeps o0
    (rayLate p red s) := by
  unfold rayLate
  repeat' with_reducible first
    | assumption | exact Nat.le_refl _ | apply keeps_rayRelease | apply keeps_countLate

theorem keeps_rayMeshRx {o0 : State} {p t : Nat} {w : RayWords} {s : State} (hk : Keeps o0 s) : Keeps o0
    (rayMeshRx p t w s) := by
  unfold rayMeshRx
  repeat' first
    | with_reducible (first
      | assumption | exact Nat.le_refl _)
    | ((try lift_lets -underBinder); intro z; first
      | (clear_value z)
      | (skip))
    | with_reducible (first
      | apply Keeps.ite | apply Keeps.ite2 | apply keeps_setPort | apply keeps_rayNak | apply keeps_rayRelease
      | apply keeps_rayRx | apply keeps_rayLate)
    | refine Keeps.pair ?_ (fun a z hz => ?_)
    | refine Keeps.pair2 ?_ (fun a z hz => ?_)
    | with_reducible rfl
    | split
    | refine Keeps.eqv (by with_reducible assumption) ?_

theorem keeps_takeRed {o0 : State} {p n : Nat} {s : State} (hk : Keeps o0 s) : Keeps o0 (takeRed p n s) := by
  unfold takeRed
  repeat' first
    | with_reducible (first
      | assumption | exact Nat.le_refl _)
    | ((try lift_lets -underBinder); intro z; first
      | (clear_value z)
      | (skip))
    | with_reducible (first
      | apply keeps_setPort | apply keeps_rayRelease)

theorem keeps_rayTake {o0 : State} {p st : Nat} {s : State} (hk : Keeps o0 s) : Keeps o0 (rayTake p st s).2 := by
  unfold rayTake
  repeat' first
    | with_reducible (first
      | assumption | exact Nat.le_refl _)
    | ((try lift_lets -underBinder); intro z; first
      | (clear_value z)
      | (skip))
    | with_reducible (first
      | apply keeps_setPort | apply keeps_rayRelease | apply keeps_countLate)
    | refine Keeps.pair ?_ (fun a z hz => ?_)
    | refine Keeps.pair2 ?_ (fun a z hz => ?_)
    | with_reducible rfl
    | split

theorem keeps_sendTransit {o0 : State} {p : Nat} {t : TxTransit} {s : State} (hk : Keeps o0 s) : Keeps o0
    (sendTransit p t s) := by
  unfold sendTransit
  repeat' first
    | with_reducible (first
      | assumption | exact Nat.le_refl _)
    | ((try lift_lets -underBinder); intro z; first
      | (refine Keeps.cut (o0 := o0) (z := z) ?_ (fun hz => ?_); subst z; rotate_left; clear_value z)
      | (clear_value z)
      | (skip))
    | with_reducible (first
      | apply keeps_setPort | apply keeps_rayRelease | apply keeps_rayFirst)

theorem keeps_lateTransit {o0 : State} {p : Nat} {t : TxTransit} {s : State} (hk : Keeps o0 s) : Keeps o0
    (lateTransit p t s) := by
  unfold lateTransit
  repeat' first
    | with_reducible (first
      | assumption | exact Nat.le_refl _)
    | ((try lift_lets -underBinder); intro z; first
      | (refine Keeps.cut (o0 := o0) (z := z) ?_ (fun hz => ?_); subst z; rotate_left; clear_value z)
      | (clear_value z)
      | (skip))
    | with_reducible (first
      | apply keeps_setPort | apply keeps_rayLate)

theorem keeps_passTransit {o0 : State} {p : Nat} {t : TxTransit} {s : State} (hk : Keeps o0 s) : Keeps o0
    (passTransit p t s) := by
  unfold passTransit
  repeat' with_reducible first
    | assumption | exact Nat.le_refl _ | apply Keeps.ite | apply Keeps.ite2 | apply keeps_sendTransit
    | apply keeps_lateTransit

theorem keeps_transitForward {o0 : State} {p : Nat} {s : State} (hk : Keeps o0 s) : Keeps o0
    (transitForward p s) := by
  unfold transitForward
  repeat' first
    | with_reducible (first
      | assumption | exact Nat.le_refl _ | apply keeps_passTransit)
    | refine Keeps.pair ?_ (fun a z hz => ?_)
    | refine Keeps.pair2 ?_ (fun a z hz => ?_)
    | with_reducible rfl
    | split

theorem keeps_rayTick {o0 : State} {s : State} (hk : Keeps o0 s) : Keeps o0 (rayTick s) := by
  unfold rayTick
  repeat' first
    | with_reducible (first
      | assumption | exact Nat.le_refl _)
    | ((try lift_lets -underBinder); intro z; first
      | (refine Keeps.cut (o0 := o0) (z := z) ?_ (fun hz => ?_); subst z; rotate_left; clear_value z)
      | (clear_value z)
      | (skip))
    | with_reducible (first
      | apply Keeps.ite | apply Keeps.ite2 | apply keeps_setPort | apply keeps_rayRelease | apply keeps_lateTransit
      | refine Keeps.foldl ?_ (fun z x hz => ?_))

theorem keeps_arrPush {o0 : State} {q : Nat} {f : RFlit} {s : State} (hk : Keeps o0 s) : Keeps o0
    (arrPush q f s) := by
  unfold arrPush
  repeat' first
    | with_reducible (first
      | assumption | exact Nat.le_refl _)
    | ((try lift_lets -underBinder); intro z; first
      | (clear_value z)
      | (skip))
    | with_reducible apply keeps_setPort

theorem keeps_arrLand {o0 : State} {p no : Nat} {d : ArrDesc} {at_ : Nat} {l : Line} {poison : Bool} {s : State}
    (hk : Keeps o0 s) : Keeps o0 (arrLand p no d at_ l poison s) := by
  unfold arrLand
  repeat' with_reducible first
    | assumption | exact Nat.le_refl _ | apply keeps_remoteArrive | refine Keeps.foldl ?_ (fun z x hz => ?_)

theorem keeps_arrStep {o0 : State} {p : Nat} {s : State} (hk : Keeps o0 s) : Keeps o0 (arrStep p s).2 := by
  unfold arrStep
  dsimp only
  split
  · exact hk
  · rename_i f r _
    have hg (q : RayPort) (s : State) (h : Keeps o0 s) : Keeps o0 (rayRelease p false 1 (s.setPort p q)) :=
      keeps_rayRelease (keeps_setPort h)
    have hp (k : RayPort) (s : State) (h : Keeps o0 s) : Keeps o0
        (match onward p s with
          | some q => if arrRoom q s then (true, arrPush q f (rayRelease p false 1 (s.setPort p k))) else (false, s)
          | none => (true, rayRelease p false 1 (s.setPort p k))).2 := by
      split
      · split
        · exact keeps_arrPush (hg k s h)
        · exact h
      · exact hg k s h
    split
    · split
      · exact hp _ _ hk
      · exact hg _ _ hk
    · split
      · split
        · exact hp _ _ hk
        · split
          · exact hk
          · exact keeps_arrLand (hg _ _ hk)
      · exact hg _ _ hk
      · exact hg _ _ hk
    · split
      · exact hg _ _ hk
      · exact hp _ _ (Keeps.mk_ hk (Nat.le_refl _) rfl)
    · exact hg _ _ hk

theorem keeps_arrPump {o0 : State} {p n : Nat} {s : State} (hk : Keeps o0 s) : Keeps o0 (arrPump p n s) := by
  induction n generalizing s with
  | zero => exact hk
  | succ n ih =>
    have h := keeps_arrStep (p := p) hk
    unfold arrPump
    split
    · rename_i e; rw [e] at h; exact ih h
    · rename_i e; rw [e] at h; exact h

theorem keeps_arrRx {o0 : State} {p : Nat} {w : RayWords} {b : RBody} {s : State} (hk : Keeps o0 s) : Keeps o0
    (arrRx p w b s) := by
  unfold arrRx
  repeat' first
    | with_reducible (first
      | assumption | exact Nat.le_refl _)
    | ((try lift_lets -underBinder); intro z; first
      | (refine Keeps.cut (o0 := o0) (z := z) ?_ (fun hz => ?_); subst z; rotate_left; clear_value z)
      | (clear_value z)
      | (skip))
    | with_reducible (first
      | apply keeps_setPort | apply keeps_rayRx | apply keeps_arrPump)
    | refine Keeps.pair ?_ (fun a z hz => ?_)
    | refine Keeps.pair2 ?_ (fun a z hz => ?_)
    | with_reducible rfl
    | split
    | refine Keeps.eqv (by with_reducible assumption) ?_

theorem keeps_arrDescRx {o0 : State} {p : Nat} {w : RayWords} {d : ArrDesc} {s : State} (hk : Keeps o0 s) : Keeps o0
    (arrDescRx p w d s) := by
  unfold arrDescRx
  repeat' first
    | with_reducible (first
      | assumption | exact Nat.le_refl _)
    | ((try lift_lets -underBinder); intro z; first
      | (refine Keeps.cut (o0 := o0) (z := z) ?_ (fun hz => ?_); subst z; rotate_left; clear_value z)
      | (clear_value z)
      | (skip))
    | with_reducible (first
      | apply Keeps.ite | apply Keeps.ite2 | apply keeps_setPort | apply keeps_rayNak | apply keeps_rayRelease
      | apply keeps_rayRx | apply keeps_arrRx)
    | refine Keeps.pair ?_ (fun a z hz => ?_)
    | refine Keeps.pair2 ?_ (fun a z hz => ?_)
    | with_reducible rfl
    | split
    | refine Keeps.eqv (by with_reducible assumption) ?_

theorem keeps_epochTick {o0 : State} {s : State} (hk : Keeps o0 s) : Keeps o0 (epochTick s) := by
  unfold epochTick
  repeat' first
    | with_reducible (first
      | assumption | exact Nat.le_refl _)
    | ((try lift_lets -underBinder); intro z; first
      | (clear_value z)
      | (skip))
    | with_reducible (first
      | apply Keeps.ite | apply Keeps.ite2 | apply keeps_wr | apply keeps_setPort
      | refine Keeps.foldl ?_ (fun z x hz => ?_))

theorem keeps_epochClose {o0 : State} {p e : Nat} {s : State} (hk : Keeps o0 s) : Keeps o0 (epochClose p e s) := by
  unfold epochClose
  repeat' first
    | with_reducible (first
      | assumption | exact Nat.le_refl _)
    | ((try lift_lets -underBinder); intro z; first
      | (clear_value z)
      | (skip))
    | with_reducible (first
      | apply Keeps.ite | apply Keeps.ite2 | apply keeps_raise | apply keeps_setPort | apply keeps_arrPush)

theorem keeps_arrFeed {o0 : State} {c p cycle : Nat} {f : Flit} {s : State} (hk : Keeps o0 s) : Keeps o0
    (arrFeed c p cycle f s) := by
  unfold arrFeed
  repeat' first
    | with_reducible (first
      | assumption | exact Nat.le_refl _)
    | ((try lift_lets -underBinder); intro z; first
      | (clear_value z)
      | (skip))
    | with_reducible (first
      | apply Keeps.ite | apply Keeps.ite2 | apply keeps_plateFault | apply keeps_setPort | apply keeps_arrPush)

theorem keeps_rayDeliver {o0 : State} {c p ext cycle : Nat} {f : Flit} {s : State} (hk : Keeps o0 s) : Keeps o0
    (rayDeliver c p ext cycle f s) := by
  unfold rayDeliver
  repeat' first
    | with_reducible (first
      | assumption | exact Nat.le_refl _)
    | ((try lift_lets -underBinder); intro z; first
      | (clear_value z)
      | (skip))
    | with_reducible (first
      | apply Keeps.ite | apply Keeps.ite2 | apply keeps_setPort | apply keeps_arrFeed)

theorem keeps_rayQueue {o0 : State} {p : Nat} {fs : List RFlit} {s : State} (hk : Keeps o0 s) : Keeps o0
    (rayQueue p fs s) := by
  unfold rayQueue
  repeat' first
    | with_reducible (first
      | assumption | exact Nat.le_refl _)
    | ((try lift_lets -underBinder); intro z; first
      | (clear_value z)
      | (skip))
    | with_reducible apply keeps_setPort

theorem keeps_raySend {o0 : State} {p : Nat} {s : State} (hk : Keeps o0 s) : Keeps o0 (raySend p s) := by
  unfold raySend
  repeat' first
    | with_reducible (first
      | assumption | exact Nat.le_refl _)
    | ((try lift_lets -underBinder); intro z; first
      | (refine Keeps.cut (o0 := o0) (z := z) ?_ (fun hz => ?_); subst z; rotate_left; clear_value z)
      | (clear_value z)
      | (skip))
    | with_reducible (first
      | apply Keeps.ite | apply Keeps.ite2 | apply keeps_bump | apply keeps_setPort | apply keeps_rayFirst
      | apply keeps_passTransit | apply keeps_arrPump | refine Keeps.foldl ?_ (fun z x hz => ?_)
      | refine Keeps.foldl2 ?_ (fun z x hz => ?_))
    | refine Keeps.pair ?_ (fun a z hz => ?_)
    | refine Keeps.pair2 ?_ (fun a z hz => ?_)
    | with_reducible rfl
    | split

theorem keeps_rayDark {o0 : State} {p st cause : Nat} {s : State} (hk : Keeps o0 s) : Keeps o0
    (rayDark p st cause s) := by
  unfold rayDark
  repeat' with_reducible first
    | assumption | exact Nat.le_refl _ | apply keeps_wr

theorem keeps_rayFence {o0 : State} {p cause : Nat} {s : State} (hk : Keeps o0 s) : Keeps o0
    (rayFence p cause s) := by
  unfold rayFence
  repeat' with_reducible first
    | assumption | exact Nat.le_refl _ | apply keeps_raise | apply keeps_stopPlates | apply keeps_rayDark

theorem keeps_rayTrainFail {o0 : State} {p cause : Nat} {s : State} (hk : Keeps o0 s) : Keeps o0
    (rayTrainFail p cause s) := by
  unfold rayTrainFail
  repeat' with_reducible first
    | assumption | exact Nat.le_refl _ | apply keeps_raise | apply keeps_stopPlates | apply keeps_rayDark

theorem keeps_rayTrainStart {o0 : State} {p : Nat} {s : State} (hk : Keeps o0 s) : Keeps o0
    (rayTrainStart p s) := by
  unfold rayTrainStart
  repeat' first
    | with_reducible (first
      | assumption | exact Nat.le_refl _)
    | ((try lift_lets -underBinder); intro z; first
      | (clear_value z)
      | (skip))
    | with_reducible (first
      | apply Keeps.ite | apply Keeps.ite2 | apply keeps_wr)

theorem keeps_rayRetrain {o0 : State} {p : Nat} {s : State} (hk : Keeps o0 s) : Keeps o0 (rayRetrain p s) := by
  unfold rayRetrain
  repeat' first
    | with_reducible (first
      | assumption | exact Nat.le_refl _)
    | ((try lift_lets -underBinder); intro z; first
      | (refine Keeps.cut (o0 := o0) (z := z) ?_ (fun hz => ?_); subst z; rotate_left; clear_value z)
      | (clear_value z)
      | (skip))
    | with_reducible (first
      | apply Keeps.ite | apply Keeps.ite2 | apply keeps_wr | apply keeps_raise | apply keeps_setPort
      | apply keeps_stopPlates | apply keeps_rayFence)

theorem keeps_rayInit {o0 : State} {p : Nat} {s : State} (hk : Keeps o0 s) : Keeps o0 (rayInit p s) := by
  unfold rayInit
  repeat' first
    | with_reducible (first
      | assumption | exact Nat.le_refl _)
    | ((try lift_lets -underBinder); intro z; first
      | (refine Keeps.cut (o0 := o0) (z := z) ?_ (fun hz => ?_); subst z; rotate_left; clear_value z)
      | (clear_value z)
      | (skip))
    | with_reducible (first
      | apply keeps_wr | apply keeps_setPort | refine Keeps.foldl ?_ (fun z x hz => ?_))

theorem keeps_sendIdent {o0 : State} {p : Nat} {s : State} (hk : Keeps o0 s) : Keeps o0 (sendIdent p s) := by
  unfold sendIdent
  repeat' first
    | with_reducible (first
      | assumption | exact Nat.le_refl _)
    | ((try lift_lets -underBinder); intro z; first
      | (clear_value z)
      | (skip))
    | with_reducible apply keeps_setPort

theorem keeps_rayTrained {o0 : State} {p : Nat} {t : TrainRes} {s : State} (hk : Keeps o0 s) : Keeps o0
    (rayTrained p t s) := by
  unfold rayTrained
  repeat' first
    | with_reducible (first
      | assumption | exact Nat.le_refl _)
    | ((try lift_lets -underBinder); intro z; first
      | (refine Keeps.cut (o0 := o0) (z := z) ?_ (fun hz => ?_); subst z; rotate_left; clear_value z)
      | (clear_value z)
      | (skip))
    | with_reducible (first
      | apply Keeps.ite | apply Keeps.ite2 | apply keeps_wr | apply keeps_raise | apply keeps_setPort
      | apply keeps_stopPlates | apply keeps_rayFence | apply keeps_rayTrainFail | apply keeps_rayInit
      | apply keeps_sendIdent)

theorem keeps_rayTrainLimit {o0 : State} {p : Nat} {s : State} (hk : Keeps o0 s) : Keeps o0
    (rayTrainLimit p s) := by
  unfold rayTrainLimit
  repeat' with_reducible first
    | assumption | exact Nat.le_refl _ | apply Keeps.ite | apply Keeps.ite2 | apply keeps_rayTrainFail

theorem keeps_rayTrainRetry {o0 : State} {p : Nat} {s : State} (hk : Keeps o0 s) : Keeps o0
    (rayTrainRetry p s) := by
  unfold rayTrainRetry
  repeat' with_reducible first
    | assumption | exact Nat.le_refl _ | apply Keeps.ite | apply Keeps.ite2 | apply keeps_rayTrainStart

theorem keeps_rayUnfence {o0 : State} {p : Nat} {s : State} (hk : Keeps o0 s) : Keeps o0 (rayUnfence p s) := by
  unfold rayUnfence
  repeat' with_reducible first
    | assumption | exact Nat.le_refl _ | apply Keeps.ite | apply Keeps.ite2 | apply keeps_rayTrainStart

theorem keeps_rayDisable {o0 : State} {p : Nat} {on : Bool} {s : State} (hk : Keeps o0 s) : Keeps o0
    (rayDisable p on s) := by
  unfold rayDisable
  repeat' first
    | with_reducible (first
      | assumption | exact Nat.le_refl _)
    | ((try lift_lets -underBinder); intro z; first
      | (refine Keeps.cut (o0 := o0) (z := z) ?_ (fun hz => ?_); subst z; rotate_left; clear_value z)
      | (refine Keeps.fn (o0 := o0) (f := z) ?_ (fun hz => ?_); subst z; intro z hz; rotate_left; clear_value z)
      | (refine Keeps.fn1 (o0 := o0) (f := z) ?_ (fun hz => ?_); subst z; intro a z hz; rotate_left; clear_value z)
      | (refine Keeps.fn2 (o0 := o0) (f := z) ?_ (fun hz => ?_); subst z; intro a b z hz; rotate_left; clear_value z)
      | (refine Keeps.fnp (o0 := o0) (f := z) ?_ (fun hz => ?_); subst z; intro a z hz; rotate_left; clear_value z)
      | (refine Keeps.sec z ?_; subst z)
      | (clear_value z)
      | (skip))
    | with_reducible (first
      | apply Keeps.ite | apply Keeps.ite2 | apply keeps_wr | apply keeps_stopPlates | apply keeps_rayDark)

theorem keeps_rayWindow {o0 : State} {p : Nat} {s : State} (hk : Keeps o0 s) : Keeps o0 (rayWindow p s) := by
  unfold rayWindow
  repeat' first
    | with_reducible (first
      | assumption | exact Nat.le_refl _)
    | ((try lift_lets -underBinder); intro z; first
      | (refine Keeps.cut (o0 := o0) (z := z) ?_ (fun hz => ?_); subst z; rotate_left; clear_value z)
      | (clear_value z)
      | (skip))
    | with_reducible (first
      | apply Keeps.ite | apply Keeps.ite2 | apply keeps_setPort | apply keeps_rayRetrain)

end Sys2Proof.Machine
end

