-- ==== Sys2Proof/Laws/KeepsKv.lean ====
section
/-! SUPPORT. What no command may do (`Keeps`, Safety.lean) is kept by every operation of
the KV ledger:
from a state that kept it since `o0`, the operation answers one that did. -/
namespace Sys2Proof.Machine

theorem keeps_addFld {o0 : State} {f : Fld} {i : Nat} {n : Int} {s : State} (hk : Keeps o0 s) : Keeps o0
    (addFld f i n s) := by
  unfold addFld
  repeat' with_reducible first
    | assumption | exact Nat.le_refl _ | apply keeps_wr

theorem keeps_kvCount {o0 : State} {p : Nat} {c : Option KvCls} {n : Int} {s : State} (hk : Keeps o0 s) : Keeps o0
    (kvCount p c n s) := by
  unfold kvCount
  repeat' with_reducible first
    | assumption | exact Nat.le_refl _ | apply keeps_addFld

theorem keeps_kvBook {o0 : State} {p : Nat} {a b : Option KvCls} {n : Nat} {s : State} (hk : Keeps o0 s) : Keeps o0
    (kvBook p a b n s) := by
  unfold kvBook
  repeat' with_reducible first
    | assumption | exact Nat.le_refl _ | apply keeps_kvCount

theorem keeps_kvTotal {o0 : State} {p : Nat} {n : Int} {s : State} (hk : Keeps o0 s) : Keeps o0
    (kvTotal p n s) := by
  unfold kvTotal
  repeat' with_reducible first
    | assumption | exact Nat.le_refl _ | apply keeps_addFld

theorem keeps_kvUse {o0 : State} {h : Nat} {n : Int} {s : State} (hk : Keeps o0 s) : Keeps o0 (kvUse h n s) := by
  unfold kvUse
  repeat' first
    | with_reducible (first
      | assumption | exact Nat.le_refl _)
    | ((try lift_lets -underBinder); intro z; first
      | (refine Keeps.cut (o0 := o0) (z := z) ?_ (fun hz => ?_); subst z; rotate_left; clear_value z)
      | (refine Keeps.fn (o0 := o0) (f := z) ?_ (fun hz => ?_); subst z; intro z hz; rotate_left; clear_value z)
      | (refine Keeps.fn1 (o0 := o0) (f := z) ?_ (fun hz => ?_); subst z; intro a z hz; rotate_left; clear_value z)
      | (refine Keeps.fn2 (o0 := o0) (f := z) ?_ (fun hz => ?_); subst z; intro a b z hz; rotate_left; clear_value z)
      | (refine Keeps.fnp (o0 := o0) (f := z) ?_ (fun hz => ?_); subst z; intro a z hz; rotate_left; clear_value z)
      | (refine Keeps.sec z ?_; subst z)
      | (clear_value z)
      | (skip))
    | with_reducible (first
      | apply Keeps.ite | apply Keeps.ite2 | apply keeps_wr | apply keeps_addFld)

theorem keeps_kvRefs {o0 : State} {n : Int} {s : State} (hk : Keeps o0 s) : Keeps o0 (kvRefs n s) := by
  unfold kvRefs
  repeat' with_reducible first
    | assumption | exact Nat.le_refl _ | apply keeps_addFld

theorem keeps_setSeq {o0 : State} {i : Nat} {q : KvSeq} {s : State} (hk : Keeps o0 s) : Keeps o0
    (setSeq i q s) := by
  unfold setSeq
  repeat' with_reducible first
    | assumption | exact Nat.le_refl _ | rfl | apply Keeps.mk_

theorem keeps_setFrame {o0 : State} {f : Nat} {v : KvFrame} {s : State} (hk : Keeps o0 s) : Keeps o0
    (setFrame f v s) := by
  unfold setFrame
  repeat' with_reducible first
    | assumption | exact Nat.le_refl _ | rfl | apply Keeps.mk_

theorem keeps_freeFrame {o0 : State} {f : Nat} {s : State} (hk : Keeps o0 s) : Keeps o0 (freeFrame f s) := by
  unfold freeFrame
  repeat' with_reducible first
    | assumption | exact Nat.le_refl _ | rfl | apply Keeps.mk_

theorem keeps_kvMoved {o0 : State} {f : Nat} {s : State} (hk : Keeps o0 s) : Keeps o0 (kvMoved f s) := by
  unfold kvMoved
  repeat' with_reducible first
    | assumption | exact Nat.le_refl _ | rfl | apply Keeps.mk_

theorem keeps_kvWrite {o0 : State} {c a : Nat} {data : List Byte} {s : State} (hk : Keeps o0 s) : Keeps o0
    (kvWrite c a data s) := by
  unfold kvWrite
  repeat' with_reducible first
    | assumption | exact Nat.le_refl _ | rfl | apply Keeps.mk_

theorem keeps_writeDir {o0 : State} {i c : Nat} {s : State} (hk : Keeps o0 s) : Keeps o0 (writeDir i c s) := by
  unfold writeDir
  repeat' first
    | with_reducible (first
      | assumption | exact Nat.le_refl _ | apply keeps_kvWrite)
    | refine Keeps.pair ?_ (fun a z hz => ?_)
    | refine Keeps.pair2 ?_ (fun a z hz => ?_)
    | with_reducible rfl
    | split

theorem keeps_writeLeaves {o0 : State} {i b : Nat} {s : State} (hk : Keeps o0 s) : Keeps o0
    (writeLeaves i b s) := by
  unfold writeLeaves
  repeat' first
    | with_reducible (first
      | assumption | exact Nat.le_refl _)
    | ((try lift_lets -underBinder); intro z; first
      | (clear_value z)
      | (skip))
    | with_reducible (first
      | apply Keeps.ite | apply Keeps.ite2 | apply keeps_kvWrite | refine Keeps.foldl ?_ (fun z x hz => ?_)
      | refine Keeps.foldl2 ?_ (fun z x hz => ?_))
    | refine Keeps.pair ?_ (fun a z hz => ?_)
    | refine Keeps.pair2 ?_ (fun a z hz => ?_)
    | with_reducible rfl
    | split

theorem keeps_writeNodes {o0 : State} {c : Nat} {t : KvTab} {new : List Nat} {s : State} (hk : Keeps o0 s) :
    Keeps o0 (writeNodes c t new s) := by
  unfold writeNodes
  repeat' first
    | with_reducible (first
      | assumption | exact Nat.le_refl _)
    | ((try lift_lets -underBinder); intro z; first
      | (clear_value z)
      | (skip))
    | with_reducible (first
      | apply Keeps.ite | apply Keeps.ite2 | apply keeps_kvWrite | refine Keeps.foldl ?_ (fun z x hz => ?_)
      | refine Keeps.foldl2 ?_ (fun z x hz => ?_))
    | refine Keeps.pair ?_ (fun a z hz => ?_)
    | refine Keeps.pair2 ?_ (fun a z hz => ?_)
    | with_reducible rfl
    | split

theorem keeps_rewriteOwner {o0 : State} {c pg : Nat} {s : State} (hk : Keeps o0 s) : Keeps o0
    (rewriteOwner c pg s) := by
  unfold rewriteOwner
  repeat' first
    | with_reducible (first
      | assumption | exact Nat.le_refl _ | apply keeps_writeLeaves)
    | refine Keeps.pair ?_ (fun a z hz => ?_)
    | refine Keeps.pair2 ?_ (fun a z hz => ?_)
    | with_reducible rfl
    | split

theorem keeps_kvRelease {o0 : State} {f : Nat} {v : KvFrame} {s : State} (hk : Keeps o0 s) : Keeps o0
    (kvRelease f v s) := by
  unfold kvRelease
  repeat' first
    | with_reducible (first
      | assumption | exact Nat.le_refl _)
    | ((try lift_lets -underBinder); intro z; first
      | (refine Keeps.cut (o0 := o0) (z := z) ?_ (fun hz => ?_); subst z; rotate_left; clear_value z)
      | (clear_value z)
      | (skip))
    | with_reducible (first
      | apply Keeps.ite | apply Keeps.ite2 | apply keeps_addFld | apply keeps_kvBook | apply keeps_kvUse
      | apply keeps_setFrame | apply keeps_kvMoved)

theorem keeps_kvUnref {o0 : State} {c pg : Nat} {s : State} (hk : Keeps o0 s) : Keeps o0 (kvUnref c pg s) := by
  unfold kvUnref
  repeat' first
    | with_reducible (first
      | assumption | exact Nat.le_refl _)
    | ((try lift_lets -underBinder); intro z; first
      | (refine Keeps.cut (o0 := o0) (z := z) ?_ (fun hz => ?_); subst z; rotate_left; clear_value z)
      | (clear_value z)
      | (skip))
    | with_reducible (first
      | apply Keeps.ite | apply Keeps.ite2 | apply keeps_kvRefs | apply keeps_setFrame | apply keeps_rewriteOwner
      | apply keeps_kvRelease)
    | refine Keeps.pair ?_ (fun a z hz => ?_)
    | refine Keeps.pair2 ?_ (fun a z hz => ?_)
    | with_reducible rfl
    | split

theorem keeps_kvReleases {o0 : State} {s : State} (hk : Keeps o0 s) : Keeps o0 (kvReleases s) := by
  unfold kvReleases
  repeat' first
    | with_reducible (first
      | assumption | exact Nat.le_refl _ | exact Nat.le_add_right _ _ | apply Keeps.ite | apply Keeps.ite2
      | apply keeps_addFld | apply keeps_kvBook | apply keeps_freeFrame | apply keeps_kvMoved
      | refine Keeps.foldl ?_ (fun z x hz => ?_) | refine Keeps.foldl2 ?_ (fun z x hz => ?_))
    | refine Keeps.pair ?_ (fun a z hz => ?_)
    | refine Keeps.pair2 ?_ (fun a z hz => ?_)
    | with_reducible rfl
    | split

theorem keeps_setFades {o0 : State} {l : List KvFade} {s : State} (hk : Keeps o0 s) : Keeps o0 (setFades l s) := by
  unfold setFades
  repeat' with_reducible first
    | assumption | exact Nat.le_refl _ | apply keeps_wr | rfl | apply Keeps.mk_

theorem keeps_recordFade {o0 : State} {i start len : Nat} {s : State} (hk : Keeps o0 s) : Keeps o0
    (recordFade i start len s) := by
  unfold recordFade
  repeat' first
    | with_reducible (first
      | assumption | exact Nat.le_refl _)
    | ((try lift_lets -underBinder); intro z; first
      | (clear_value z)
      | (skip))
    | with_reducible (first
      | apply Keeps.ite | apply Keeps.ite2 | apply keeps_setFades)

theorem keeps_fadeBlock {o0 : State} {i b : Nat} {s : State} (hk : Keeps o0 s) : Keeps o0 (fadeBlock i b s) := by
  unfold fadeBlock
  repeat' first
    | with_reducible (first
      | assumption | exact Nat.le_refl _)
    | ((try lift_lets -underBinder); intro z; first
      | (refine Keeps.cut (o0 := o0) (z := z) ?_ (fun hz => ?_); subst z; rotate_left; clear_value z)
      | (clear_value z)
      | (skip))
    | with_reducible (first
      | apply keeps_raise | apply keeps_kvBook | apply keeps_setSeq | apply keeps_kvMoved | apply keeps_writeLeaves
      | apply keeps_kvRelease | apply keeps_recordFade | refine Keeps.foldl ?_ (fun z x hz => ?_)
      | refine Keeps.foldl2 ?_ (fun z x hz => ?_))
    | refine Keeps.pair ?_ (fun a z hz => ?_)
    | refine Keeps.pair2 ?_ (fun a z hz => ?_)
    | with_reducible rfl
    | split

theorem keeps_kvRespond {o0 : State} {q : KvReq} {status word1 res0 res1 tk : Nat} {s : State} (hk : Keeps o0 s) :
    Keeps o0 (kvRespond q status word1 res0 res1 tk s) := by
  unfold kvRespond
  repeat' with_reducible first
    | assumption | exact Nat.le_refl _ | rfl | apply Keeps.mk_

theorem keeps_kvAnswer {o0 : State} {q : KvReq} {status tk : Nat} {s : State} (hk : Keeps o0 s) : Keeps o0
    (kvAnswer q status tk s) := by
  unfold kvAnswer
  repeat' first
    | with_reducible (first
      | assumption | exact Nat.le_refl _ | apply Keeps.ite | apply Keeps.ite2 | apply keeps_kvRespond)
    | refine Keeps.pair ?_ (fun a z hz => ?_)
    | refine Keeps.pair2 ?_ (fun a z hz => ?_)
    | with_reducible rfl
    | split

theorem keeps_kvRefuse {o0 : State} {q : KvReq} {status tk : Nat} {s : State} (hk : Keeps o0 s) : Keeps o0
    (kvRefuse q status tk s) := by
  unfold kvRefuse
  repeat' with_reducible first
    | assumption | exact Nat.le_refl _ | apply keeps_raise | apply keeps_kvAnswer

theorem keeps_newSeq {o0 : State} {i holder base w fixed tk : Nat} {s : State} (hk : Keeps o0 s) : Keeps o0
    (newSeq i holder base w fixed tk s) := by
  unfold newSeq
  repeat' first
    | with_reducible (first
      | assumption | exact Nat.le_refl _)
    | ((try lift_lets -underBinder); intro z; first
      | (refine Keeps.cut (o0 := o0) (z := z) ?_ (fun hz => ?_); subst z; rotate_left; clear_value z)
      | (refine Keeps.fn (o0 := o0) (f := z) ?_ (fun hz => ?_); subst z; intro z hz; rotate_left; clear_value z)
      | (refine Keeps.fn1 (o0 := o0) (f := z) ?_ (fun hz => ?_); subst z; intro a z hz; rotate_left; clear_value z)
      | (refine Keeps.fn2 (o0 := o0) (f := z) ?_ (fun hz => ?_); subst z; intro a b z hz; rotate_left; clear_value z)
      | (refine Keeps.fnp (o0 := o0) (f := z) ?_ (fun hz => ?_); subst z; intro a z hz; rotate_left; clear_value z)
      | (refine Keeps.sec z ?_; subst z)
      | (clear_value z)
      | (skip))
    | with_reducible (first
      | apply keeps_wr | apply keeps_setSeq)

theorem keeps_kvOpen {o0 : State} {q : KvReq} {tk : Nat} {s : State} (hk : Keeps o0 s) : Keeps o0
    (kvOpen q tk s) := by
  unfold kvOpen
  repeat' first
    | with_reducible (first
      | assumption | exact Nat.le_refl _)
    | ((try lift_lets -underBinder); intro z; first
      | (refine Keeps.cut (o0 := o0) (z := z) ?_ (fun hz => ?_); subst z; rotate_left; clear_value z)
      | (clear_value z)
      | (skip))
    | with_reducible (first
      | exact Nat.le_add_right _ _ | apply Keeps.ite | apply Keeps.ite2 | apply keeps_kvRespond
      | apply keeps_kvAnswer | apply keeps_newSeq)
    | refine Keeps.pair ?_ (fun a z hz => ?_)
    | refine Keeps.pair2 ?_ (fun a z hz => ?_)
    | with_reducible rfl
    | split

theorem keeps_kvEnter {o0 : State} {pool holder : Nat} {cls : KvCls} {n : KvNeed} {pg : Nat} {s : State}
    (hk : Keeps o0 s) : Keeps o0 (kvEnter pool holder cls n pg s) := by
  unfold kvEnter
  repeat' first
    | with_reducible (first
      | assumption | exact Nat.le_refl _)
    | ((try lift_lets -underBinder); intro z; first
      | (clear_value z)
      | (skip))
    | with_reducible (first
      | apply Keeps.ite | apply Keeps.ite2 | apply keeps_addFld | apply keeps_kvBook | apply keeps_kvUse
      | apply keeps_setFrame | apply keeps_kvMoved)
    | refine Keeps.pair ?_ (fun a z hz => ?_)
    | refine Keeps.pair2 ?_ (fun a z hz => ?_)
    | with_reducible rfl
    | split
    | refine Keeps.eqv (by with_reducible assumption) ?_
    | refine Keeps.eqv2 (by with_reducible assumption) ?_
    | with_reducible apply Keeps.mk_

theorem keeps_extendTab {o0 : State} {i c : Nat} {nodes : List (Nat × Nat)} {s : State} (hk : Keeps o0 s) : Keeps o0
    (extendTab i c nodes s) := by
  unfold extendTab
  repeat' first
    | with_reducible (first
      | assumption | exact Nat.le_refl _)
    | ((try lift_lets -underBinder); intro z; first
      | (refine Keeps.cut (o0 := o0) (z := z) ?_ (fun hz => ?_); subst z; rotate_left; clear_value z)
      | (clear_value z)
      | (skip))
    | with_reducible (first
      | apply keeps_setSeq | apply keeps_writeDir | apply keeps_writeNodes
      | refine Keeps.foldl ?_ (fun z x hz => ?_) | refine Keeps.foldl2 ?_ (fun z x hz => ?_))
    | refine Keeps.pair ?_ (fun a z hz => ?_)
    | refine Keeps.pair2 ?_ (fun a z hz => ?_)
    | with_reducible rfl
    | split

theorem keeps_enterBlocks {o0 : State} {i : Nat} {cls : KvCls} {got : List (KvNeed × Nat)} {s : State}
    (hk : Keeps o0 s) : Keeps o0 (enterBlocks i cls got s) := by
  unfold enterBlocks
  repeat' first
    | with_reducible (first
      | assumption | exact Nat.le_refl _)
    | ((try lift_lets -underBinder); intro z; first
      | (refine Keeps.cut (o0 := o0) (z := z) ?_ (fun hz => ?_); subst z; rotate_left; clear_value z)
      | (clear_value z)
      | (skip))
    | with_reducible (first
      | apply keeps_setSeq | apply keeps_writeLeaves | apply keeps_kvEnter | apply keeps_extendTab
      | refine Keeps.foldl ?_ (fun z x hz => ?_) | refine Keeps.foldl2 ?_ (fun z x hz => ?_))
    | refine Keeps.pair ?_ (fun a z hz => ?_)
    | refine Keeps.pair2 ?_ (fun a z hz => ?_)
    | with_reducible rfl
    | split

theorem keeps_appendApply {o0 : State} {i : Nat} {q : KvReq} {status tk : Nat} {got : List (KvNeed × Nat)}
    {s : State} (hk : Keeps o0 s) : Keeps o0 (appendApply i q status tk got s) := by
  unfold appendApply
  repeat' first
    | with_reducible (first
      | assumption | exact Nat.le_refl _)
    | ((try lift_lets -underBinder); intro z; first
      | (refine Keeps.cut (o0 := o0) (z := z) ?_ (fun hz => ?_); subst z; rotate_left; clear_value z)
      | (clear_value z)
      | (skip))
    | with_reducible (first
      | apply Keeps.ite | apply Keeps.ite2 | apply keeps_setSeq | apply keeps_kvAnswer | apply keeps_enterBlocks)
    | refine Keeps.pair ?_ (fun a z hz => ?_)
    | refine Keeps.pair2 ?_ (fun a z hz => ?_)
    | with_reducible rfl
    | split

theorem keeps_kvReserve {o0 : State} {got : List (KvNeed × Nat)} {s : State} (hk : Keeps o0 s) : Keeps o0
    (kvReserve got s) := by
  unfold kvReserve
  repeat' with_reducible first
    | assumption | exact Nat.le_refl _ | rfl | apply Keeps.mk_

theorem keeps_kvUnreserve {o0 : State} {got : List (KvNeed × Nat)} {s : State} (hk : Keeps o0 s) : Keeps o0
    (kvUnreserve got s) := by
  unfold kvUnreserve
  repeat' first
    | with_reducible (first
      | assumption | exact Nat.le_refl _)
    | ((try lift_lets -underBinder); intro z; first
      | (clear_value z)
      | (skip))
    | with_reducible (first
      | rfl | apply Keeps.mk_)

theorem keeps_kvAddWait {o0 : State} {w : KvWait} {s : State} (hk : Keeps o0 s) : Keeps o0 (kvAddWait w s) := by
  unfold kvAddWait
  repeat' with_reducible first
    | assumption | exact Nat.le_refl _ | rfl | apply Keeps.mk_

theorem keeps_copyBegin {o0 : State} {i : Nat} {q : KvReq} {faded : Bool} {got : List (KvNeed × Nat)} {s : State}
    (hk : Keeps o0 s) : Keeps o0 (copyBegin i q faded got s) := by
  unfold copyBegin
  repeat' first
    | with_reducible (first
      | assumption | exact Nat.le_refl _)
    | ((try lift_lets -underBinder); intro z; first
      | (refine Keeps.cut (o0 := o0) (z := z) ?_ (fun hz => ?_); subst z; rotate_left; clear_value z)
      | (refine Keeps.fn (o0 := o0) (f := z) ?_ (fun hz => ?_); subst z; intro z hz; rotate_left; clear_value z)
      | (refine Keeps.fn1 (o0 := o0) (f := z) ?_ (fun hz => ?_); subst z; intro a z hz; rotate_left; clear_value z)
      | (refine Keeps.fn2 (o0 := o0) (f := z) ?_ (fun hz => ?_); subst z; intro a b z hz; rotate_left; clear_value z)
      | (refine Keeps.fnp (o0 := o0) (f := z) ?_ (fun hz => ?_); subst z; intro a z hz; rotate_left; clear_value z)
      | (refine Keeps.sec z ?_; subst z)
      | (clear_value z)
      | (skip))
    | with_reducible (first
      | apply keeps_kvEnter | apply keeps_kvAddWait | refine Keeps.foldl ?_ (fun z x hz => ?_)
      | refine Keeps.foldl2 ?_ (fun z x hz => ?_))
    | refine Keeps.pair ?_ (fun a z hz => ?_)
    | refine Keeps.pair2 ?_ (fun a z hz => ?_)
    | with_reducible rfl
    | split

theorem keeps_kvGranted {o0 : State} {q : KvReq} {tk : Nat} {g : KvGrant}
    {now : List (KvNeed × Nat) → State → State} (hnow : ∀ a s, Keeps o0 s → Keeps o0 (now a s)) {s : State}
    (hk : Keeps o0 s) : Keeps o0 (kvGranted q tk g now s) := by
  unfold kvGranted
  repeat' first
    | with_reducible (first
      | assumption | exact Nat.le_refl _ | apply hnow)
    | ((try lift_lets -underBinder); intro z; first
      | (refine Keeps.cut (o0 := o0) (z := z) ?_ (fun hz => ?_); subst z; rotate_left; clear_value z)
      | (refine Keeps.fn (o0 := o0) (f := z) ?_ (fun hz => ?_); subst z; intro z hz; rotate_left; clear_value z)
      | (refine Keeps.fn1 (o0 := o0) (f := z) ?_ (fun hz => ?_); subst z; intro a z hz; rotate_left; clear_value z)
      | (refine Keeps.fn2 (o0 := o0) (f := z) ?_ (fun hz => ?_); subst z; intro a b z hz; rotate_left; clear_value z)
      | (refine Keeps.fnp (o0 := o0) (f := z) ?_ (fun hz => ?_); subst z; intro a z hz; rotate_left; clear_value z)
      | (refine Keeps.sec z ?_; subst z)
      | (clear_value z)
      | (skip))
    | with_reducible (first
      | apply keeps_fadeBlock | apply keeps_kvRefuse | apply keeps_kvReserve | apply keeps_kvAddWait
      | refine Keeps.foldl ?_ (fun z x hz => ?_) | refine Keeps.foldl2 ?_ (fun z x hz => ?_))
    | refine Keeps.pair ?_ (fun a z hz => ?_)
    | refine Keeps.pair2 ?_ (fun a z hz => ?_)
    | with_reducible rfl
    | split

theorem keeps_appendGo {o0 : State} {i : Nat} {q : KvReq} {faded : Bool} {tk : Nat} {got : List (KvNeed × Nat)}
    {s : State} (hk : Keeps o0 s) : Keeps o0 (appendGo i q faded tk got s) := by
  unfold appendGo
  repeat' with_reducible first
    | assumption | exact Nat.le_refl _ | apply Keeps.ite | apply Keeps.ite2 | apply keeps_appendApply
    | apply keeps_copyBegin

theorem keeps_kvAppend {o0 : State} {q : KvReq} {tk : Nat} {s : State} (hk : Keeps o0 s) : Keeps o0
    (kvAppend q tk s) := by
  unfold kvAppend
  repeat' first
    | with_reducible (first
      | assumption | exact Nat.le_refl _)
    | ((try lift_lets -underBinder); intro z; first
      | (refine Keeps.cut (o0 := o0) (z := z) ?_ (fun hz => ?_); subst z; rotate_left; clear_value z)
      | (clear_value z)
      | (skip))
    | with_reducible (first
      | apply Keeps.ite | apply Keeps.ite2 | apply keeps_kvAnswer | apply keeps_kvRefuse | apply keeps_kvGranted
      | apply keeps_appendGo)
    | refine Keeps.pair ?_ (fun a z hz => ?_)
    | refine Keeps.pair2 ?_ (fun a z hz => ?_)
    | with_reducible rfl
    | split

theorem keeps_fixBlocks {o0 : State} {i : Nat} {s : State} (hk : Keeps o0 s) : Keeps o0 (fixBlocks i s) := by
  unfold fixBlocks
  repeat' first
    | with_reducible (first
      | assumption | exact Nat.le_refl _)
    | ((try lift_lets -underBinder); intro z; first
      | (refine Keeps.cut (o0 := o0) (z := z) ?_ (fun hz => ?_); subst z; rotate_left; clear_value z)
      | (clear_value z)
      | (skip))
    | with_reducible (first
      | apply Keeps.ite | apply Keeps.ite2 | apply keeps_kvBook | apply keeps_setSeq | apply keeps_setFrame
      | apply keeps_kvMoved | apply keeps_writeLeaves | refine Keeps.foldl ?_ (fun z x hz => ?_)
      | refine Keeps.foldl2 ?_ (fun z x hz => ?_))
    | refine Keeps.pair ?_ (fun a z hz => ?_)
    | refine Keeps.pair2 ?_ (fun a z hz => ?_)
    | with_reducible rfl
    | split

theorem keeps_kvFix {o0 : State} {q : KvReq} {tk : Nat} {s : State} (hk : Keeps o0 s) : Keeps o0
    (kvFix q tk s) := by
  unfold kvFix
  repeat' first
    | with_reducible (first
      | assumption | exact Nat.le_refl _)
    | ((try lift_lets -underBinder); intro z; first
      | (refine Keeps.cut (o0 := o0) (z := z) ?_ (fun hz => ?_); subst z; rotate_left; clear_value z)
      | (clear_value z)
      | (skip))
    | with_reducible (first
      | apply Keeps.ite | apply Keeps.ite2 | apply keeps_setSeq | apply keeps_kvAnswer | apply keeps_fixBlocks)
    | refine Keeps.pair ?_ (fun a z hz => ?_)
    | refine Keeps.pair2 ?_ (fun a z hz => ?_)
    | with_reducible rfl
    | split

theorem keeps_cutFades {o0 : State} {i start len : Nat} {s : State} (hk : Keeps o0 s) : Keeps o0
    (cutFades i start len s) := by
  unfold cutFades
  repeat' with_reducible first
    | assumption | exact Nat.le_refl _ | apply keeps_setFades

theorem keeps_clearBlocks {o0 : State} {i : Nat} {s : State} (hk : Keeps o0 s) : Keeps o0 (clearBlocks i s) := by
  unfold clearBlocks
  repeat' first
    | with_reducible (first
      | assumption | exact Nat.le_refl _)
    | ((try lift_lets -underBinder); intro z; first
      | (refine Keeps.cut (o0 := o0) (z := z) ?_ (fun hz => ?_); subst z; rotate_left; clear_value z)
      | (clear_value z)
      | (skip))
    | with_reducible (first
      | exact Nat.le_add_right _ _ | apply keeps_kvBook | apply keeps_kvUse | apply keeps_setSeq
      | apply keeps_freeFrame | apply keeps_kvMoved | apply keeps_writeDir | apply keeps_cutFades
      | refine Keeps.foldl ?_ (fun z x hz => ?_) | refine Keeps.foldl2 ?_ (fun z x hz => ?_))
    | refine Keeps.pair ?_ (fun a z hz => ?_)
    | refine Keeps.pair2 ?_ (fun a z hz => ?_)
    | with_reducible rfl
    | split

theorem keeps_kvClear {o0 : State} {q : KvReq} {tk : Nat} {s : State} (hk : Keeps o0 s) : Keeps o0
    (kvClear q tk s) := by
  unfold kvClear
  repeat' first
    | with_reducible (first
      | assumption | exact Nat.le_refl _ | apply Keeps.ite | apply Keeps.ite2 | apply keeps_setSeq
      | apply keeps_kvAnswer | apply keeps_clearBlocks)
    | refine Keeps.pair ?_ (fun a z hz => ?_)
    | refine Keeps.pair2 ?_ (fun a z hz => ?_)
    | with_reducible rfl
    | split

theorem keeps_shareBlock {o0 : State} {i j : Nat} {b : Nat × KvBlk} {s : State} (hk : Keeps o0 s) : Keeps o0
    (shareBlock i j b s) := by
  unfold shareBlock
  repeat' first
    | with_reducible (first
      | assumption | exact Nat.le_refl _)
    | ((try lift_lets -underBinder); intro z; first
      | (refine Keeps.cut (o0 := o0) (z := z) ?_ (fun hz => ?_); subst z; rotate_left; clear_value z)
      | (clear_value z)
      | (skip))
    | with_reducible (first
      | apply Keeps.ite | apply Keeps.ite2 | apply keeps_kvRefs | apply keeps_setFrame | apply keeps_writeLeaves
      | refine Keeps.foldl ?_ (fun z x hz => ?_) | refine Keeps.foldl2 ?_ (fun z x hz => ?_))
    | refine Keeps.pair ?_ (fun a z hz => ?_)
    | refine Keeps.pair2 ?_ (fun a z hz => ?_)
    | with_reducible rfl
    | split

theorem keeps_forkApply {o0 : State} {i : Nat} {q : KvReq} {status tk : Nat} {got : List (KvNeed × Nat)} {s : State}
    (hk : Keeps o0 s) : Keeps o0 (forkApply i q status tk got s) := by
  unfold forkApply
  repeat' first
    | with_reducible (first
      | assumption | exact Nat.le_refl _)
    | ((try lift_lets -underBinder); intro z; first
      | (refine Keeps.cut (o0 := o0) (z := z) ?_ (fun hz => ?_); subst z; rotate_left; clear_value z)
      | (clear_value z)
      | (skip))
    | with_reducible (first
      | exact Nat.le_add_right _ _ | apply keeps_setSeq | apply keeps_setFades | apply keeps_kvRespond
      | apply keeps_kvAnswer | apply keeps_newSeq | apply keeps_kvEnter | apply keeps_extendTab
      | apply keeps_kvUnreserve | apply keeps_shareBlock | refine Keeps.foldl ?_ (fun z x hz => ?_)
      | refine Keeps.foldl2 ?_ (fun z x hz => ?_))
    | refine Keeps.pair ?_ (fun a z hz => ?_)
    | refine Keeps.pair2 ?_ (fun a z hz => ?_)
    | with_reducible rfl
    | split

theorem keeps_kvFork {o0 : State} {q : KvReq} {tk : Nat} {s : State} (hk : Keeps o0 s) : Keeps o0
    (kvFork q tk s) := by
  unfold kvFork
  repeat' first
    | with_reducible (first
      | assumption | exact Nat.le_refl _)
    | ((try lift_lets -underBinder); intro z; first
      | (refine Keeps.cut (o0 := o0) (z := z) ?_ (fun hz => ?_); subst z; rotate_left; clear_value z)
      | (clear_value z)
      | (skip))
    | with_reducible (first
      | exact Nat.le_add_right _ _ | apply Keeps.ite | apply Keeps.ite2 | apply keeps_kvAnswer
      | apply keeps_kvRefuse | apply keeps_kvGranted | apply keeps_forkApply)
    | refine Keeps.pair ?_ (fun a z hz => ?_)
    | refine Keeps.pair2 ?_ (fun a z hz => ?_)
    | with_reducible rfl
    | split

theorem keeps_kvFree {o0 : State} {q : KvReq} {tk : Nat} {s : State} (hk : Keeps o0 s) : Keeps o0
    (kvFree q tk s) := by
  unfold kvFree
  repeat' first
    | with_reducible (first
      | assumption | exact Nat.le_refl _)
    | ((try lift_lets -underBinder); intro z; first
      | (refine Keeps.cut (o0 := o0) (z := z) ?_ (fun hz => ?_); subst z; rotate_left; clear_value z)
      | (refine Keeps.fn (o0 := o0) (f := z) ?_ (fun hz => ?_); subst z; intro z hz; rotate_left; clear_value z)
      | (refine Keeps.fn1 (o0 := o0) (f := z) ?_ (fun hz => ?_); subst z; intro a z hz; rotate_left; clear_value z)
      | (refine Keeps.fn2 (o0 := o0) (f := z) ?_ (fun hz => ?_); subst z; intro a b z hz; rotate_left; clear_value z)
      | (refine Keeps.fnp (o0 := o0) (f := z) ?_ (fun hz => ?_); subst z; intro a z hz; rotate_left; clear_value z)
      | (refine Keeps.sec z ?_; subst z)
      | (clear_value z)
      | (skip))
    | with_reducible (first
      | apply Keeps.ite | apply Keeps.ite2 | apply keeps_wr | apply keeps_setSeq | apply keeps_kvWrite
      | apply keeps_kvRelease | apply keeps_kvUnref | apply keeps_setFades | apply keeps_kvAnswer
      | refine Keeps.foldl ?_ (fun z x hz => ?_) | refine Keeps.foldl2 ?_ (fun z x hz => ?_))
    | refine Keeps.pair ?_ (fun a z hz => ?_)
    | refine Keeps.pair2 ?_ (fun a z hz => ?_)
    | with_reducible rfl
    | split

theorem keeps_kvFadeq {o0 : State} {q : KvReq} {tk : Nat} {s : State} (hk : Keeps o0 s) : Keeps o0
    (kvFadeq q tk s) := by
  unfold kvFadeq
  repeat' first
    | with_reducible (first
      | assumption | exact Nat.le_refl _)
    | ((try lift_lets -underBinder); intro z; first
      | (refine Keeps.cut (o0 := o0) (z := z) ?_ (fun hz => ?_); subst z; rotate_left; clear_value z)
      | (clear_value z)
      | (skip))
    | with_reducible (first
      | apply Keeps.ite | apply Keeps.ite2 | apply keeps_setSeq | apply keeps_kvRespond | apply keeps_kvAnswer
      | refine Keeps.foldl ?_ (fun z x hz => ?_) | refine Keeps.foldl2 ?_ (fun z x hz => ?_))
    | refine Keeps.pair ?_ (fun a z hz => ?_)
    | refine Keeps.pair2 ?_ (fun a z hz => ?_)
    | with_reducible rfl
    | split

theorem keeps_unfilled {o0 : State} {got : List (KvNeed × Nat)} {s : State} (hk : Keeps o0 s) : Keeps o0
    (unfilled got s) := by
  unfold unfilled
  repeat' first
    | with_reducible (first
      | assumption | exact Nat.le_refl _ | apply keeps_forgetRange | refine Keeps.foldl ?_ (fun z x hz => ?_)
      | refine Keeps.foldl2 ?_ (fun z x hz => ?_))
    | refine Keeps.pair ?_ (fun a z hz => ?_)
    | refine Keeps.pair2 ?_ (fun a z hz => ?_)
    | with_reducible rfl
    | split

theorem keeps_refillApply {o0 : State} {i : Nat} {q : KvReq} {status tk : Nat} {got : List (KvNeed × Nat)}
    {s : State} (hk : Keeps o0 s) : Keeps o0 (refillApply i q status tk got s) := by
  unfold refillApply
  repeat' first
    | with_reducible (first
      | assumption | exact Nat.le_refl _)
    | ((try lift_lets -underBinder); intro z; first
      | (refine Keeps.cut (o0 := o0) (z := z) ?_ (fun hz => ?_); subst z; rotate_left; clear_value z)
      | (clear_value z)
      | (skip))
    | with_reducible (first
      | apply keeps_setSeq | apply keeps_kvAnswer | apply keeps_enterBlocks | apply keeps_cutFades
      | apply keeps_unfilled)
    | refine Keeps.pair ?_ (fun a z hz => ?_)
    | refine Keeps.pair2 ?_ (fun a z hz => ?_)
    | with_reducible rfl
    | split

theorem keeps_kvRefill {o0 : State} {q : KvReq} {tk : Nat} {s : State} (hk : Keeps o0 s) : Keeps o0
    (kvRefill q tk s) := by
  unfold kvRefill
  repeat' first
    | with_reducible (first
      | assumption | exact Nat.le_refl _)
    | ((try lift_lets -underBinder); intro z; first
      | (refine Keeps.cut (o0 := o0) (z := z) ?_ (fun hz => ?_); subst z; rotate_left; clear_value z)
      | (clear_value z)
      | (skip))
    | with_reducible (first
      | apply Keeps.ite | apply Keeps.ite2 | apply keeps_kvAnswer | apply keeps_kvRefuse | apply keeps_kvGranted
      | apply keeps_refillApply)
    | refine Keeps.pair ?_ (fun a z hz => ?_)
    | refine Keeps.pair2 ?_ (fun a z hz => ?_)
    | with_reducible rfl
    | split

theorem keeps_kvFadehit {o0 : State} {q : KvReq} {tk : Nat} {s : State} (hk : Keeps o0 s) : Keeps o0
    (kvFadehit q tk s) := by
  unfold kvFadehit
  repeat' first
    | with_reducible (first
      | assumption | exact Nat.le_refl _ | apply Keeps.ite | apply Keeps.ite2 | apply keeps_raise
      | apply keeps_setSeq | apply keeps_kvAnswer)
    | refine Keeps.pair ?_ (fun a z hz => ?_)
    | refine Keeps.pair2 ?_ (fun a z hz => ?_)
    | with_reducible rfl
    | split

theorem keeps_setQuota {o0 : State} {h n : Nat} {s : State} (hk : Keeps o0 s) : Keeps o0 (setQuota h n s) := by
  unfold setQuota
  repeat' first
    | with_reducible (first
      | assumption | exact Nat.le_refl _)
    | ((try lift_lets -underBinder); intro z; first
      | (refine Keeps.cut (o0 := o0) (z := z) ?_ (fun hz => ?_); subst z; rotate_left; clear_value z)
      | (refine Keeps.fn (o0 := o0) (f := z) ?_ (fun hz => ?_); subst z; intro z hz; rotate_left; clear_value z)
      | (refine Keeps.fn1 (o0 := o0) (f := z) ?_ (fun hz => ?_); subst z; intro a z hz; rotate_left; clear_value z)
      | (refine Keeps.fn2 (o0 := o0) (f := z) ?_ (fun hz => ?_); subst z; intro a b z hz; rotate_left; clear_value z)
      | (refine Keeps.fnp (o0 := o0) (f := z) ?_ (fun hz => ?_); subst z; intro a z hz; rotate_left; clear_value z)
      | (refine Keeps.sec z ?_; subst z)
      | (clear_value z)
      | (skip))
    | with_reducible (first
      | apply Keeps.ite | apply Keeps.ite2 | apply keeps_wr | apply keeps_raiseTag | apply keeps_kvUse)

theorem keeps_kvQuota {o0 : State} {q : KvReq} {tk : Nat} {s : State} (hk : Keeps o0 s) : Keeps o0
    (kvQuota q tk s) := by
  unfold kvQuota
  repeat' first
    | with_reducible (first
      | assumption | exact Nat.le_refl _ | apply Keeps.ite | apply Keeps.ite2 | apply keeps_kvAnswer
      | apply keeps_setQuota)
    | refine Keeps.pair ?_ (fun a z hz => ?_)
    | refine Keeps.pair2 ?_ (fun a z hz => ?_)
    | with_reducible rfl
    | split

theorem keeps_kvStat {o0 : State} {q : KvReq} {tk : Nat} {s : State} (hk : Keeps o0 s) : Keeps o0
    (kvStat q tk s) := by
  unfold kvStat
  repeat' first
    | with_reducible (first
      | assumption | exact Nat.le_refl _ | apply Keeps.ite | apply Keeps.ite2 | apply keeps_setSeq
      | apply keeps_kvAnswer)
    | refine Keeps.pair ?_ (fun a z hz => ?_)
    | refine Keeps.pair2 ?_ (fun a z hz => ?_)
    | with_reducible rfl
    | split

theorem keeps_kvApply {o0 : State} {q : KvReq} {tk : Nat} {s : State} (hk : Keeps o0 s) : Keeps o0
    (kvApply q tk s) := by
  unfold kvApply
  repeat' first
    | with_reducible (first
      | assumption | exact Nat.le_refl _ | exact Nat.le_add_right _ _ | apply Keeps.ite | apply Keeps.ite2
      | apply keeps_kvAnswer | apply keeps_kvOpen | apply keeps_kvAppend | apply keeps_kvFix | apply keeps_kvClear
      | apply keeps_kvFork | apply keeps_kvFree | apply keeps_kvFadeq | apply keeps_kvRefill | apply keeps_kvFadehit
      | apply keeps_kvQuota | apply keeps_kvStat)
    | refine Keeps.pair ?_ (fun a z hz => ?_)
    | refine Keeps.pair2 ?_ (fun a z hz => ?_)
    | with_reducible rfl
    | split

theorem keeps_kvTurn {o0 : State} {q : KvReq} {tk : Nat} {s : State} (hk : Keeps o0 s) : Keeps o0
    (kvTurn q tk s) := by
  unfold kvTurn
  repeat' with_reducible first
    | assumption | exact Nat.le_refl _ | apply Keeps.ite | apply Keeps.ite2 | apply keeps_kvAddWait
    | apply keeps_kvApply

theorem keeps_kvReceive {o0 : State} {q : KvReq} {s : State} (hk : Keeps o0 s) : Keeps o0 (kvReceive q s) := by
  unfold kvReceive
  repeat' first
    | with_reducible (first
      | assumption | exact Nat.le_refl _)
    | ((try lift_lets -underBinder); intro z; first
      | (refine Keeps.cut (o0 := o0) (z := z) ?_ (fun hz => ?_); subst z; rotate_left; clear_value z)
      | (clear_value z)
      | (skip))
    | with_reducible apply keeps_wr
    | refine Keeps.pair ?_ (fun a z hz => ?_)
    | refine Keeps.pair2 ?_ (fun a z hz => ?_)
    | with_reducible rfl
    | split
    | refine Keeps.eqv (by with_reducible assumption) ?_
    | refine Keeps.eqv2 (by with_reducible assumption) ?_
    | with_reducible apply Keeps.mk_

theorem keeps_kvRow {o0 : State} {q : KvReq} {s : State} (hk : Keeps o0 s) : Keeps o0 (kvRow q s) := by
  unfold kvRow
  repeat' with_reducible first
    | assumption | exact Nat.le_refl _ | apply Keeps.ite | apply Keeps.ite2 | apply keeps_kvReceive

theorem keeps_windowTake {o0 : State} {c : Nat} {d : List Byte} {s : State} (hk : Keeps o0 s) : Keeps o0
    (windowTake c d s) := by
  unfold windowTake
  repeat' first
    | with_reducible (first
      | assumption | exact Nat.le_refl _)
    | ((try lift_lets -underBinder); intro z; first
      | (refine Keeps.cut (o0 := o0) (z := z) ?_ (fun hz => ?_); subst z; rotate_left; clear_value z)
      | (clear_value z)
      | (skip))
    | with_reducible (first
      | apply Keeps.ite | apply Keeps.ite2 | apply keeps_raise | apply keeps_kvWrite | apply keeps_kvReceive
      | refine Keeps.foldl ?_ (fun z x hz => ?_) | refine Keeps.foldl2 ?_ (fun z x hz => ?_) | rfl)
    | split
    | with_reducible apply Keeps.mk_

theorem keeps_kvDeliver {o0 : State} {r : KvResp} {s : State} (hk : Keeps o0 s) : Keeps o0 (kvDeliver r s) := by
  unfold kvDeliver
  repeat' first
    | with_reducible (first
      | assumption | exact Nat.le_refl _)
    | ((try lift_lets -underBinder); intro z; first
      | (refine Keeps.cut (o0 := o0) (z := z) ?_ (fun hz => ?_); subst z; rotate_left; clear_value z)
      | (clear_value z)
      | (skip))
    | with_reducible (first
      | apply keeps_wr | apply keeps_kvWrite | refine Keeps.foldl ?_ (fun z x hz => ?_)
      | refine Keeps.foldl2 ?_ (fun z x hz => ?_))
    | refine Keeps.pair ?_ (fun a z hz => ?_)
    | refine Keeps.pair2 ?_ (fun a z hz => ?_)
    | with_reducible rfl
    | split

theorem keeps_copyIssue {o0 : State} {w : KvWait} {s : State} (hk : Keeps o0 s) : Keeps o0 (copyIssue w s) := by
  unfold copyIssue
  repeat' first
    | with_reducible (first
      | assumption | exact Nat.le_refl _ | apply keeps_darkroom | refine Keeps.foldl ?_ (fun z x hz => ?_)
      | refine Keeps.foldl2 ?_ (fun z x hz => ?_))
    | refine Keeps.pair ?_ (fun a z hz => ?_)
    | refine Keeps.pair2 ?_ (fun a z hz => ?_)
    | with_reducible rfl
    | split

theorem keeps_copyIssues {o0 : State} {s : State} (hk : Keeps o0 s) : Keeps o0 (copyIssues s) := by
  unfold copyIssues
  repeat' first
    | with_reducible (first
      | assumption | exact Nat.le_refl _)
    | ((try lift_lets -underBinder); intro z; first
      | (refine Keeps.cut (o0 := o0) (z := z) ?_ (fun hz => ?_); subst z; rotate_left; clear_value z)
      | (clear_value z)
      | (skip))
    | with_reducible (first
      | apply keeps_copyIssue | refine Keeps.foldl ?_ (fun z x hz => ?_)
      | refine Keeps.foldl2 ?_ (fun z x hz => ?_))
    | refine Keeps.pair ?_ (fun a z hz => ?_)
    | refine Keeps.pair2 ?_ (fun a z hz => ?_)
    | with_reducible rfl
    | split
    | refine Keeps.eqv (by with_reducible assumption) ?_
    | refine Keeps.eqv2 (by with_reducible assumption) ?_
    | with_reducible apply Keeps.mk_

theorem keeps_kvSwitch {o0 : State} {n : Nat} {s : State} (hk : Keeps o0 s) : Keeps o0 (kvSwitch n s) := by
  unfold kvSwitch
  repeat' first
    | with_reducible (first
      | assumption | exact Nat.le_refl _ | rfl)
    | split
    | with_reducible apply Keeps.mk_

theorem keeps_copySwitch {o0 : State} {i : Nat} {w : KvWait} {faded : Bool} {tk : Nat} {s : State}
    (hk : Keeps o0 s) : Keeps o0 (copySwitch i w faded tk s) := by
  unfold copySwitch
  repeat' first
    | with_reducible (first
      | assumption | exact Nat.le_refl _)
    | ((try lift_lets -underBinder); intro z; first
      | (refine Keeps.cut (o0 := o0) (z := z) ?_ (fun hz => ?_); subst z; rotate_left; clear_value z)
      | (clear_value z)
      | (skip))
    | with_reducible (first
      | apply keeps_kvUse | apply keeps_setSeq | apply keeps_setFrame | apply keeps_writeLeaves
      | apply keeps_kvUnref | apply keeps_appendApply | refine Keeps.foldl ?_ (fun z x hz => ?_)
      | refine Keeps.foldl2 ?_ (fun z x hz => ?_))
    | refine Keeps.pair ?_ (fun a z hz => ?_)
    | refine Keeps.pair2 ?_ (fun a z hz => ?_)
    | with_reducible rfl
    | split

theorem keeps_kvGiveBack {o0 : State} {w : KvWait} {s : State} (hk : Keeps o0 s) : Keeps o0 (kvGiveBack w s) := by
  unfold kvGiveBack
  repeat' first
    | with_reducible (first
      | assumption | exact Nat.le_refl _)
    | ((try lift_lets -underBinder); intro z; first
      | (clear_value z)
      | (skip))
    | with_reducible (first
      | exact Nat.le_add_right _ _ | apply Keeps.ite | apply Keeps.ite2 | apply keeps_kvBook | apply keeps_freeFrame
      | apply keeps_kvMoved | apply keeps_kvUnreserve | refine Keeps.foldl ?_ (fun z x hz => ?_)
      | refine Keeps.foldl2 ?_ (fun z x hz => ?_))
    | refine Keeps.pair ?_ (fun a z hz => ?_)
    | refine Keeps.pair2 ?_ (fun a z hz => ?_)
    | with_reducible rfl
    | split

theorem keeps_kvWake {o0 : State} {w : KvWait} {tk : Nat} {s : State} (hk : Keeps o0 s) : Keeps o0
    (kvWake w tk s) := by
  unfold kvWake
  repeat' first
    | with_reducible (first
      | assumption | exact Nat.le_refl _ | apply Keeps.ite | apply Keeps.ite2 | apply keeps_appendApply
      | apply keeps_kvUnreserve | apply keeps_kvAddWait | apply keeps_appendGo | apply keeps_forkApply
      | apply keeps_refillApply | apply keeps_kvApply | apply keeps_kvTurn | apply keeps_copySwitch
      | apply keeps_kvGiveBack)
    | refine Keeps.pair ?_ (fun a z hz => ?_)
    | refine Keeps.pair2 ?_ (fun a z hz => ?_)
    | with_reducible rfl
    | split

theorem keeps_kvPush {o0 : State} {s : State} (hk : Keeps o0 s) : Keeps o0 (kvPush s) := by
  unfold kvPush
  repeat' first
    | with_reducible (first
      | assumption | exact Nat.le_refl _)
    | ((try lift_lets -underBinder); intro z; first
      | (refine Keeps.cut (o0 := o0) (z := z) ?_ (fun hz => ?_); subst z; rotate_left; clear_value z)
      | (clear_value z)
      | (skip))
    | with_reducible (first
      | apply keeps_setShaft | refine Keeps.foldl ?_ (fun z x hz => ?_) | refine Keeps.foldl2 ?_ (fun z x hz => ?_)
      | rfl | apply Keeps.mk_)

theorem keeps_queueReads {o0 : State} {k : WinKind} {base : Nat} {cs : List Nat} {s : State} (hk : Keeps o0 s) :
    Keeps o0 (queueReads k base cs s) := by
  unfold queueReads
  repeat' first
    | with_reducible (first
      | assumption | exact Nat.le_refl _)
    | ((try lift_lets -underBinder); intro z; first
      | (clear_value z)
      | (skip))
    | with_reducible (first
      | apply keeps_setShaft | refine Keeps.foldl ?_ (fun z x hz => ?_))

theorem keeps_kvRetireSeq {o0 : State} {c i : Nat} {q : KvSeq} {s : State} (hk : Keeps o0 s) : Keeps o0
    (kvRetireSeq c i q s) := by
  unfold kvRetireSeq
  repeat' first
    | with_reducible (first
      | assumption | exact Nat.le_refl _)
    | ((try lift_lets -underBinder); intro z; first
      | (refine Keeps.cut (o0 := o0) (z := z) ?_ (fun hz => ?_); subst z; rotate_left; clear_value z)
      | (clear_value z)
      | (skip))
    | with_reducible (first
      | apply Keeps.ite | apply Keeps.ite2 | apply keeps_raise | apply keeps_setSeq | apply keeps_recordFade
      | refine Keeps.foldl ?_ (fun z x hz => ?_))

theorem keeps_kvRetire {o0 : State} {c : Nat} {s : State} (hk : Keeps o0 s) : Keeps o0 (kvRetire c s) := by
  unfold kvRetire
  repeat' first
    | with_reducible (first
      | assumption | exact Nat.le_refl _)
    | ((try lift_lets -underBinder); intro z; first
      | (refine Keeps.cut (o0 := o0) (z := z) ?_ (fun hz => ?_); subst z; rotate_left; clear_value z)
      | (clear_value z)
      | (skip))
    | with_reducible (first
      | apply Keeps.ite | apply Keeps.ite2 | apply keeps_bump | apply keeps_addFld | apply keeps_kvCount
      | apply keeps_kvTotal | apply keeps_kvUse | apply keeps_kvRefs | apply keeps_kvRetireSeq
      | refine Keeps.foldl ?_ (fun z x hz => ?_) | refine Keeps.foldl2 ?_ (fun z x hz => ?_) | rfl)
    | split
    | with_reducible apply Keeps.mk_

theorem keeps_kvFences {o0 : State} {todo : List TickAct} {s : State} (hk : Keeps o0 s) : Keeps o0
    (kvFences todo s) := by
  unfold kvFences
  repeat' with_reducible first
    | assumption | exact Nat.le_refl _ | apply keeps_kvRetire | refine Keeps.foldl ?_ (fun z x hz => ?_)

theorem keeps_kvReseat {o0 : State} {c : Nat} {s : State} (hk : Keeps o0 s) : Keeps o0 (kvReseat c s) := by
  unfold kvReseat
  repeat' first
    | with_reducible (first
      | assumption | exact Nat.le_refl _)
    | ((try lift_lets -underBinder); intro z; first
      | (refine Keeps.cut (o0 := o0) (z := z) ?_ (fun hz => ?_); subst z; rotate_left; clear_value z)
      | (clear_value z)
      | (skip))
    | with_reducible (first
      | apply Keeps.ite | apply Keeps.ite2 | apply keeps_kvWrite | refine Keeps.foldl ?_ (fun z x hz => ?_)
      | refine Keeps.foldl2 ?_ (fun z x hz => ?_) | rfl)
    | split
    | with_reducible apply Keeps.mk_

theorem keeps_kvReturn {o0 : State} {c : Nat} {s : State} (hk : Keeps o0 s) : Keeps o0 (kvReturn c s) := by
  unfold kvReturn
  repeat' first
    | with_reducible (first
      | assumption | exact Nat.le_refl _)
    | ((try lift_lets -underBinder); intro z; first
      | (refine Keeps.cut (o0 := o0) (z := z) ?_ (fun hz => ?_); subst z; rotate_left; clear_value z)
      | (clear_value z)
      | (skip))
    | with_reducible (first
      | apply Keeps.ite | apply Keeps.ite2 | apply keeps_drop | apply keeps_kvCount | apply keeps_kvTotal
      | refine Keeps.foldl ?_ (fun z x hz => ?_) | refine Keeps.foldl2 ?_ (fun z x hz => ?_) | rfl)
    | split
    | with_reducible apply Keeps.mk_

theorem keeps_kvBacks {o0 : State} {s : State} (hk : Keeps o0 s) : Keeps o0 (kvBacks s) := by
  unfold kvBacks
  repeat' first
    | with_reducible (first
      | assumption | exact Nat.le_refl _)
    | ((try lift_lets -underBinder); intro z; first
      | (clear_value z)
      | (skip))
    | with_reducible (first
      | apply Keeps.ite | apply Keeps.ite2 | apply keeps_kvReturn | refine Keeps.foldl ?_ (fun z x hz => ?_)
      | refine Keeps.foldl2 ?_ (fun z x hz => ?_) | rfl)
    | split
    | with_reducible apply Keeps.mk_

theorem keeps_kvClosings {o0 : State} {s : State} (hk : Keeps o0 s) : Keeps o0 (kvClosings s) := by
  unfold kvClosings
  repeat' first
    | with_reducible (first
      | assumption | exact Nat.le_refl _ | apply Keeps.ite | apply Keeps.ite2
      | refine Keeps.foldl ?_ (fun z x hz => ?_) | refine Keeps.foldl2 ?_ (fun z x hz => ?_) | rfl)
    | split
    | with_reducible apply Keeps.mk_

theorem keeps_kvTakes {o0 : State} {tk : Nat} {s : State} (hk : Keeps o0 s) : Keeps o0 (kvTakes tk s) := by
  unfold kvTakes
  repeat' first
    | with_reducible (first
      | assumption | exact Nat.le_refl _)
    | ((try lift_lets -underBinder); intro z; first
      | (refine Keeps.cut (o0 := o0) (z := z) ?_ (fun hz => ?_); subst z; rotate_left; clear_value z)
      | (clear_value z)
      | (skip))
    | with_reducible (first
      | apply keeps_bump | apply keeps_kvTurn | refine Keeps.foldl ?_ (fun z x hz => ?_)
      | refine Keeps.foldl2 ?_ (fun z x hz => ?_) | rfl | apply Keeps.mk_)

theorem keeps_kvResponses {o0 : State} {s : State} (hk : Keeps o0 s) : Keeps o0 (kvResponses s) := by
  unfold kvResponses
  repeat' first
    | with_reducible (first
      | assumption | exact Nat.le_refl _)
    | ((try lift_lets -underBinder); intro z; first
      | (clear_value z)
      | (skip))
    | with_reducible (first
      | apply keeps_kvDeliver | refine Keeps.foldl ?_ (fun z x hz => ?_) | refine Keeps.foldl2 ?_ (fun z x hz => ?_)
      | rfl | apply Keeps.mk_)

theorem keeps_kvTick {o0 : State} {tk : Nat} {s : State} (hk : Keeps o0 s) : Keeps o0 (kvTick tk s) := by
  unfold kvTick
  repeat' first
    | with_reducible (first
      | assumption | exact Nat.le_refl _)
    | ((try lift_lets -underBinder); intro z; first
      | (refine Keeps.cut (o0 := o0) (z := z) ?_ (fun hz => ?_); subst z; rotate_left; clear_value z)
      | (clear_value z)
      | (skip))
    | with_reducible (first
      | apply keeps_kvReleases | apply keeps_copyIssues | apply keeps_kvWake | apply keeps_kvPush
      | apply keeps_kvBacks | apply keeps_kvClosings | apply keeps_kvTakes | apply keeps_kvResponses
      | refine Keeps.foldl ?_ (fun z x hz => ?_) | refine Keeps.foldl2 ?_ (fun z x hz => ?_) | rfl
      | apply Keeps.mk_)

theorem keeps_poolConfig {o0 : State} {p cfg0 cfg1 : Nat} {s : State} (hk : Keeps o0 s) : Keeps o0
    (poolConfig p cfg0 cfg1 s) := by
  unfold poolConfig
  repeat' first
    | with_reducible (first
      | assumption | exact Nat.le_refl _)
    | ((try lift_lets -underBinder); intro z; first
      | (refine Keeps.cut (o0 := o0) (z := z) ?_ (fun hz => ?_); subst z; rotate_left; clear_value z)
      | (clear_value z)
      | (skip))
    | with_reducible (first
      | apply Keeps.ite | apply Keeps.ite2 | apply keeps_wr | apply keeps_raise | apply keeps_kvCount
      | apply keeps_kvTotal)

theorem keeps_holderConfig {o0 : State} {h cfg : Nat} {s : State} (hk : Keeps o0 s) : Keeps o0
    (holderConfig h cfg s) := by
  unfold holderConfig
  repeat' first
    | with_reducible (first
      | assumption | exact Nat.le_refl _)
    | ((try lift_lets -underBinder); intro z; first
      | (refine Keeps.cut (o0 := o0) (z := z) ?_ (fun hz => ?_); subst z; rotate_left; clear_value z)
      | (refine Keeps.fn (o0 := o0) (f := z) ?_ (fun hz => ?_); subst z; intro z hz; rotate_left; clear_value z)
      | (refine Keeps.fn1 (o0 := o0) (f := z) ?_ (fun hz => ?_); subst z; intro a z hz; rotate_left; clear_value z)
      | (refine Keeps.fn2 (o0 := o0) (f := z) ?_ (fun hz => ?_); subst z; intro a b z hz; rotate_left; clear_value z)
      | (refine Keeps.fnp (o0 := o0) (f := z) ?_ (fun hz => ?_); subst z; intro a z hz; rotate_left; clear_value z)
      | (refine Keeps.sec z ?_; subst z)
      | (clear_value z)
      | (skip))
    | with_reducible (first
      | apply Keeps.ite | apply Keeps.ite2 | apply keeps_wr | apply keeps_setQuota)

theorem keeps_bucketSample {o0 : State} {s : State} (hk : Keeps o0 s) : Keeps o0 (bucketSample s) := by
  unfold bucketSample
  repeat' first
    | with_reducible (first
      | assumption | exact Nat.le_refl _)
    | ((try lift_lets -underBinder); intro z; first
      | (refine Keeps.cut (o0 := o0) (z := z) ?_ (fun hz => ?_); subst z; rotate_left; clear_value z)
      | (clear_value z)
      | (skip))
    | with_reducible (first
      | apply Keeps.ite | apply Keeps.ite2 | apply keeps_raise | apply keeps_kvWrite
      | refine Keeps.foldl ?_ (fun z x hz => ?_) | refine Keeps.foldl2 ?_ (fun z x hz => ?_))
    | refine Keeps.pair ?_ (fun a z hz => ?_)
    | refine Keeps.pair2 ?_ (fun a z hz => ?_)
    | with_reducible rfl
    | split
    | refine Keeps.eqv (by with_reducible assumption) ?_
    | refine Keeps.eqv2 (by with_reducible assumption) ?_
    | with_reducible apply Keeps.mk_

theorem keeps_bucketStep {o0 : State} {s : State} (hk : Keeps o0 s) : Keeps o0 (bucketStep s) := by
  unfold bucketStep
  repeat' first
    | with_reducible (first
      | assumption | exact Nat.le_refl _)
    | ((try lift_lets -underBinder); intro z; first
      | (refine Keeps.cut (o0 := o0) (z := z) ?_ (fun hz => ?_); subst z; rotate_left; clear_value z)
      | (refine Keeps.fn1 (o0 := o0) (f := z) ?_ (fun hz => ?_); subst z; intro a z hz; rotate_left; clear_value z)
      | (clear_value z)
      | (skip))
    | with_reducible (first
      | apply Keeps.ite | apply Keeps.ite2 | apply keeps_wr | apply keeps_darkroom | apply keeps_kvWrite
      | refine Keeps.foldl ?_ (fun z x hz => ?_) | refine Keeps.foldl2 ?_ (fun z x hz => ?_))
    | refine Keeps.pair ?_ (fun a z hz => ?_)
    | refine Keeps.pair2 ?_ (fun a z hz => ?_)
    | with_reducible rfl
    | split
    | refine Keeps.eqv (by with_reducible assumption) ?_
    | refine Keeps.eqv2 (by with_reducible assumption) ?_
    | refine Keeps.app (by with_reducible assumption) ?_
    | refine Keeps.app1 (by with_reducible assumption) ?_
    | refine Keeps.app2 (by with_reducible assumption) ?_
    | refine Keeps.appp (by with_reducible assumption) ?_
    | with_reducible apply Keeps.mk_

end Sys2Proof.Machine
end

