-- ==== Sys2Proof/Laws/KeepsRed.lean ====
section
/-! SUPPORT. What no command may do (`Keeps`, Safety.lean) is kept by every operation of
reductions and parity groups:
from a state that kept it since `o0`, the operation answers one that did. -/
namespace Sys2Proof.Machine

theorem keeps_setChan {o0 : State} {s : State} {c : Nat} {k : RedChan} (hk : Keeps o0 s) : Keeps o0
    (State.setChan s c k) := by
  unfold State.setChan
  repeat' with_reducible first
    | assumption | exact Nat.le_refl _ | rfl | apply Keeps.mk_

theorem keeps_setBkt {o0 : State} {s : State} {c : Nat} {b : RedBkt} (hk : Keeps o0 s) : Keeps o0
    (State.setBkt s c b) := by
  unfold State.setBkt
  repeat' with_reducible first
    | assumption | exact Nat.le_refl _ | apply Keeps.ite | apply Keeps.ite2 | apply keeps_setChan

theorem keeps_setLeader {o0 : State} {c : Nat} {s : State} (hk : Keeps o0 s) : Keeps o0 (setLeader c s) := by
  unfold setLeader
  repeat' with_reducible first
    | assumption | exact Nat.le_refl _ | apply keeps_wr

theorem keeps_redSend {o0 : State} {c r : Nat} {m : Mgmt} {s : State} (hk : Keeps o0 s) : Keeps o0
    (redSend c r m s) := by
  unfold redSend
  repeat' first
    | with_reducible (first
      | assumption | exact Nat.le_refl _)
    | ((try lift_lets -underBinder); intro z; first
      | (clear_value z)
      | (skip))
    | with_reducible (first
      | apply Keeps.ite | apply Keeps.ite2 | apply keeps_rayQueue)

theorem keeps_windowRespond {o0 : State} {core base i tail : Nat} {ws : List Nat} {s : State} (hk : Keeps o0 s) :
    Keeps o0 (windowRespond core base i tail ws s) := by
  unfold windowRespond
  repeat' with_reducible first
    | assumption | exact Nat.le_refl _ | apply keeps_kvWrite

theorem keeps_redRecord {o0 : State} {core i status count seq digest dropped : Nat} {s : State} (hk : Keeps o0 s) :
    Keeps o0 (redRecord core i status count seq digest dropped s) := by
  unfold redRecord
  repeat' with_reducible first
    | assumption | exact Nat.le_refl _ | apply keeps_windowRespond

theorem keeps_sealRefuse {o0 : State} {c core i status : Nat} {s : State} (hk : Keeps o0 s) : Keeps o0
    (sealRefuse c core i status s) := by
  unfold sealRefuse
  repeat' with_reducible first
    | assumption | exact Nat.le_refl _ | apply keeps_raise | apply keeps_redRecord

theorem keeps_sealHeard {o0 : State} {c rank seq w0 : Nat} {s : State} (hk : Keeps o0 s) : Keeps o0
    (sealHeard c rank seq w0 s) := by
  unfold sealHeard
  repeat' first
    | with_reducible (first
      | assumption | exact Nat.le_refl _)
    | ((try lift_lets -underBinder); intro z; first
      | (clear_value z)
      | (skip))
    | with_reducible (first
      | apply Keeps.ite | apply Keeps.ite2 | apply keeps_setChan)

theorem keeps_sendSeal {o0 : State} {c seq w0 : Nat} {s : State} (hk : Keeps o0 s) : Keeps o0
    (sendSeal c seq w0 s) := by
  unfold sendSeal
  repeat' with_reducible first
    | assumption | exact Nat.le_refl _ | apply Keeps.ite | apply Keeps.ite2 | apply keeps_redSend
    | apply keeps_sealHeard

theorem keeps_sealTake {o0 : State} {core i : Nat} {d : List Byte} {s : State} (hk : Keeps o0 s) : Keeps o0
    (sealTake core i d s) := by
  unfold sealTake
  repeat' first
    | with_reducible (first
      | assumption | exact Nat.le_refl _)
    | ((try lift_lets -underBinder); intro z; first
      | (refine Keeps.cut (o0 := o0) (z := z) ?_ (fun hz => ?_); subst z; rotate_left; clear_value z)
      | (clear_value z)
      | (skip))
    | with_reducible (first
      | apply Keeps.ite | apply Keeps.ite2 | apply keeps_wr | apply keeps_bump | apply keeps_setChan
      | apply keeps_sealRefuse | apply keeps_sendSeal)

theorem keeps_sealWindow {o0 : State} {core : Nat} {d : List Byte} {s : State} (hk : Keeps o0 s) : Keeps o0
    (sealWindow core d s) := by
  unfold sealWindow
  repeat' first
    | with_reducible (first
      | assumption | exact Nat.le_refl _)
    | ((try lift_lets -underBinder); intro z; first
      | (refine Keeps.cut (o0 := o0) (z := z) ?_ (fun hz => ?_); subst z; rotate_left; clear_value z)
      | (clear_value z)
      | (skip))
    | with_reducible (first
      | apply Keeps.ite | apply Keeps.ite2 | apply keeps_raise | apply keeps_kvWrite | apply keeps_sealTake
      | refine Keeps.foldl ?_ (fun z x hz => ?_) | refine Keeps.foldl2 ?_ (fun z x hz => ?_) | rfl)
    | split
    | with_reducible apply Keeps.mk_

theorem keeps_fixRoster {o0 : State} {c seq : Nat} {s : State} (hk : Keeps o0 s) : Keeps o0
    (fixRoster c seq s) := by
  unfold fixRoster
  repeat' first
    | with_reducible (first
      | assumption | exact Nat.le_refl _)
    | ((try lift_lets -underBinder); intro z; first
      | (refine Keeps.cut (o0 := o0) (z := z) ?_ (fun hz => ?_); subst z; rotate_left; clear_value z)
      | (clear_value z)
      | (skip))
    | with_reducible (first
      | apply Keeps.ite | apply Keeps.ite2 | apply keeps_setChan | apply keeps_redSend
      | refine Keeps.foldl ?_ (fun z x hz => ?_))

theorem keeps_rosterFix {o0 : State} {c : Nat} {s : State} (hk : Keeps o0 s) : Keeps o0 (rosterFix c s) := by
  unfold rosterFix
  repeat' with_reducible first
    | assumption | exact Nat.le_refl _ | apply Keeps.ite | apply Keeps.ite2 | apply keeps_fixRoster
    | refine Keeps.foldl ?_ (fun z x hz => ?_)

theorem keeps_rosterRx {o0 : State} {c : Nat} {m : RosterMsg} {s : State} (hk : Keeps o0 s) : Keeps o0
    (rosterRx c m s) := by
  unfold rosterRx
  repeat' with_reducible first
    | assumption | exact Nat.le_refl _ | apply keeps_setChan

theorem keeps_tally {o0 : State} {c seq exp drop_ rcv : Nat} {s : State} (hk : Keeps o0 s) : Keeps o0
    (tally c seq exp drop_ rcv s) := by
  unfold tally
  repeat' first
    | with_reducible (first
      | assumption | exact Nat.le_refl _)
    | ((try lift_lets -underBinder); intro z; first
      | (clear_value z)
      | (skip))
    | with_reducible apply keeps_wr

theorem keeps_tallyFree {o0 : State} {c seq : Nat} {s : State} (hk : Keeps o0 s) : Keeps o0
    (tallyFree c seq s) := by
  unfold tallyFree
  repeat' first
    | with_reducible (first
      | assumption | exact Nat.le_refl _)
    | ((try lift_lets -underBinder); intro z; first
      | (refine Keeps.cut (o0 := o0) (z := z) ?_ (fun hz => ?_); subst z; rotate_left; clear_value z)
      | (clear_value z)
      | (skip))
    | with_reducible (first
      | apply Keeps.ite | apply Keeps.ite2 | apply keeps_wr | apply keeps_ledgerFail)

theorem keeps_redGiveUp {o0 : State} {c : Nat} {b : RedBkt} {s : State} (hk : Keeps o0 s) : Keeps o0
    (redGiveUp c b s) := by
  unfold redGiveUp
  repeat' first
    | with_reducible (first
      | assumption | exact Nat.le_refl _)
    | ((try lift_lets -underBinder); intro z; first
      | (refine Keeps.cut (o0 := o0) (z := z) ?_ (fun hz => ?_); subst z; rotate_left; clear_value z)
      | (refine Keeps.fn (o0 := o0) (f := z) ?_ (fun hz => ?_); subst z; intro z hz; rotate_left; clear_value z)
      | (refine Keeps.fn1 (o0 := o0) (f := z) ?_ (fun hz => ?_); subst z; intro a z hz; rotate_left; clear_value z)
      | (refine Keeps.fn2 (o0 := o0) (f := z) ?_ (fun hz => ?_); subst z; intro a b z hz; rotate_left; clear_value z)
      | (refine Keeps.fnp (o0 := o0) (f := z) ?_ (fun hz => ?_); subst z; intro a z hz; rotate_left; clear_value z)
      | (refine Keeps.sec z ?_; subst z)
      | (clear_value z)
      | (skip))
    | with_reducible (first
      | apply keeps_takeRed | refine Keeps.foldl ?_ (fun z x hz => ?_))

theorem keeps_redComplete {o0 : State} {c : Nat} {b : RedBkt} {status : Nat} {s : State} (hk : Keeps o0 s) :
    Keeps o0 (redComplete c b status s) := by
  unfold redComplete
  repeat' first
    | with_reducible (first
      | assumption | exact Nat.le_refl _)
    | ((try lift_lets -underBinder); intro z; first
      | (refine Keeps.cut (o0 := o0) (z := z) ?_ (fun hz => ?_); subst z; rotate_left; clear_value z)
      | (clear_value z)
      | (skip))
    | with_reducible (first
      | apply keeps_wr | apply keeps_bump | apply keeps_drop | apply keeps_setChan | apply keeps_redRecord
      | apply keeps_redGiveUp)

theorem keeps_dropRanks {o0 : State} {c mask : Nat} {s : State} (hk : Keeps o0 s) : Keeps o0
    (dropRanks c mask s) := by
  unfold dropRanks
  repeat' with_reducible first
    | assumption | exact Nat.le_refl _ | apply Keeps.ite | apply Keeps.ite2 | apply keeps_wr | apply keeps_bump
    | apply keeps_raise | apply keeps_setLeader | refine Keeps.foldl ?_ (fun z x hz => ?_)

theorem keeps_firstRoster {o0 : State} {c : Nat} {b : RedBkt} {m : RosterMsg} {s : State} (hk : Keeps o0 s) :
    Keeps o0 (firstRoster c b m s) := by
  unfold firstRoster
  repeat' first
    | with_reducible (first
      | assumption | exact Nat.le_refl _)
    | ((try lift_lets -underBinder); intro z; first
      | (refine Keeps.cut (o0 := o0) (z := z) ?_ (fun hz => ?_); subst z; rotate_left; clear_value z)
      | (clear_value z)
      | (skip))
    | with_reducible (first
      | apply keeps_wr | apply keeps_setBkt | apply keeps_tally)

theorem keeps_reviseRoster {o0 : State} {c : Nat} {b : RedBkt} {m : RosterMsg} {s : State} (hk : Keeps o0 s) :
    Keeps o0 (reviseRoster c b m s) := by
  unfold reviseRoster
  repeat' first
    | with_reducible (first
      | assumption | exact Nat.le_refl _)
    | ((try lift_lets -underBinder); intro z; first
      | (refine Keeps.cut (o0 := o0) (z := z) ?_ (fun hz => ?_); subst z; rotate_left; clear_value z)
      | (clear_value z)
      | (skip))
    | with_reducible (first
      | apply keeps_wr | apply keeps_setBkt | apply keeps_tally | apply keeps_redGiveUp)

theorem keeps_applyRoster {o0 : State} {c : Nat} {m : RosterMsg} {s : State} (hk : Keeps o0 s) : Keeps o0
    (applyRoster c m s) := by
  unfold applyRoster
  repeat' first
    | with_reducible (first
      | assumption | exact Nat.le_refl _)
    | ((try lift_lets -underBinder); intro z; first
      | (refine Keeps.cut (o0 := o0) (z := z) ?_ (fun hz => ?_); subst z; rotate_left; clear_value z)
      | (refine Keeps.fn (o0 := o0) (f := z) ?_ (fun hz => ?_); subst z; intro z hz; rotate_left; clear_value z)
      | (refine Keeps.fn1 (o0 := o0) (f := z) ?_ (fun hz => ?_); subst z; intro a z hz; rotate_left; clear_value z)
      | (refine Keeps.fn2 (o0 := o0) (f := z) ?_ (fun hz => ?_); subst z; intro a b z hz; rotate_left; clear_value z)
      | (refine Keeps.fnp (o0 := o0) (f := z) ?_ (fun hz => ?_); subst z; intro a z hz; rotate_left; clear_value z)
      | (refine Keeps.sec z ?_; subst z)
      | (clear_value z)
      | (skip))
    | with_reducible (first
      | apply Keeps.ite | apply Keeps.ite2 | apply keeps_raise | apply keeps_redComplete | apply keeps_dropRanks
      | apply keeps_firstRoster | apply keeps_reviseRoster)
    | refine Keeps.pair ?_ (fun a z hz => ?_)
    | refine Keeps.pair2 ?_ (fun a z hz => ?_)
    | with_reducible rfl
    | split

theorem keeps_readSrc {o0 : State} {c : Nat} {b : RedBkt} {seg : Nat} {s : State} (hk : Keeps o0 s) : Keeps o0
    (readSrc c b seg s).2.2 := by
  unfold readSrc
  repeat' first
    | with_reducible (first
      | assumption | exact Nat.le_refl _)
    | ((try lift_lets -underBinder); intro z; first
      | (clear_value z)
      | (skip))
    | with_reducible (first
      | apply Keeps.ite | apply Keeps.ite2 | apply keeps_checkUnits)

theorem keeps_passSeg {o0 : State} {c : Nat} {b : RedBkt} {seg n : Nat} {data : BitVec 32768} {poison : BitVec 32}
    {s : State} (hk : Keeps o0 s) : Keeps o0 (passSeg c b seg n data poison s) := by
  unfold passSeg
  repeat' first
    | with_reducible (first
      | assumption | exact Nat.le_refl _)
    | ((try lift_lets -underBinder); intro z; first
      | (refine Keeps.cut (o0 := o0) (z := z) ?_ (fun hz => ?_); subst z; rotate_left; clear_value z)
      | (clear_value z)
      | (skip))
    | with_reducible (first
      | apply Keeps.ite | apply Keeps.ite2 | apply keeps_remoteArrive | apply keeps_setBkt
      | refine Keeps.foldl ?_ (fun z x hz => ?_))

theorem keeps_advanceSeg {o0 : State} {c seq seg n : Nat} {s : State} (hk : Keeps o0 s) : Keeps o0 (advanceSeg c seq seg n s) := by
  induction n generalizing s with
  | zero => exact hk
  | succ n ih =>
    unfold advanceSeg
    split
    · exact hk
    · dsimp only
      split
      · exact hk
      · split
        · exact hk
        · split
          · exact ih (keeps_passSeg (keeps_readSrc hk))
          · split
            · exact hk
            · exact ih (keeps_passSeg (keeps_takeRed hk))

theorem keeps_issuePulls {o0 : State} {c seq : Nat} {s : State} (hk : Keeps o0 s) : Keeps o0
    (issuePulls c seq s) := by
  unfold issuePulls
  repeat' first
    | with_reducible (first
      | assumption | exact Nat.le_refl _)
    | ((try lift_lets -underBinder); intro z; first
      | (refine Keeps.cut (o0 := o0) (z := z) ?_ (fun hz => ?_); subst z; rotate_left; clear_value z)
      | (clear_value z)
      | (skip))
    | with_reducible (first
      | apply Keeps.ite | apply Keeps.ite2 | apply keeps_setBkt | apply keeps_redSend
      | refine Keeps.foldl ?_ (fun z x hz => ?_) | refine Keeps.foldl2 ?_ (fun z x hz => ?_))
    | refine Keeps.pair ?_ (fun a z hz => ?_)
    | refine Keeps.pair2 ?_ (fun a z hz => ?_)
    | with_reducible rfl
    | split

theorem keeps_redPump {o0 : State} {c : Nat} {s : State} (hk : Keeps o0 s) : Keeps o0 (redPump c s) := by
  unfold redPump
  repeat' first
    | with_reducible (first
      | assumption | exact Nat.le_refl _)
    | ((try lift_lets -underBinder); intro z; first
      | (refine Keeps.cut (o0 := o0) (z := z) ?_ (fun hz => ?_); subst z; rotate_left; clear_value z)
      | (clear_value z)
      | (skip))
    | with_reducible (first
      | apply Keeps.ite | apply Keeps.ite2 | apply keeps_setBkt | apply keeps_advanceSeg | apply keeps_issuePulls
      | refine Keeps.foldl ?_ (fun z x hz => ?_) | refine Keeps.foldl2 ?_ (fun z x hz => ?_))
    | refine Keeps.pair ?_ (fun a z hz => ?_)
    | refine Keeps.pair2 ?_ (fun a z hz => ?_)
    | with_reducible rfl
    | split

theorem keeps_segTaken {o0 : State} {p first kind w : Nat} {m : SegMsg} {s t : State} (hk : Keeps o0 s)
    (ht : segTaken p first kind w m s = some t) : Keeps o0 t := by
  unfold segTaken at ht
  dsimp only at ht
  split at ht
  · cases ht; exact keeps_setPort hk
  · cases ht

theorem keeps_sendSeg {o0 : State} {c r kind tag seq seg w : Nat} {data : BitVec 32768} {poison : BitVec 32}
    {s : State} (hk : Keeps o0 s) : Keeps o0 (sendSeg c r kind tag seq seg w data poison s) := by
  unfold sendSeg
  repeat' first
    | with_reducible (first
      | assumption | exact Nat.le_refl _)
    | ((try lift_lets -underBinder); intro z; first
      | (clear_value z)
      | (skip))
    | with_reducible (first
      | apply Keeps.ite | apply Keeps.ite2 | apply keeps_rayQueue)

theorem keeps_pullRx {o0 : State} {c : Nat} {m : PullMsg} {s : State} (hk : Keeps o0 s) : Keeps o0
    (pullRx c m s) := by
  unfold pullRx
  repeat' first
    | with_reducible (first
      | assumption | exact Nat.le_refl _ | apply keeps_readSrc | apply keeps_sendSeg)
    | refine Keeps.pair ?_ (fun a z hz => ?_)
    | refine Keeps.pair2 ?_ (fun a z hz => ?_)
    | with_reducible rfl
    | split

theorem keeps_contribution {o0 : State} {c : Nat} {m : SegMsg} {s : State} (hk : Keeps o0 s) : Keeps o0
    (contribution c m s) := by
  unfold contribution
  repeat' first
    | with_reducible (first
      | assumption | exact Nat.le_refl _)
    | ((try lift_lets -underBinder); intro z; first
      | (refine Keeps.cut (o0 := o0) (z := z) ?_ (fun hz => ?_); subst z; rotate_left; clear_value z)
      | (clear_value z)
      | (skip))
    | with_reducible (first
      | apply Keeps.ite | apply Keeps.ite2 | apply keeps_raise | apply keeps_takeRed | apply keeps_setBkt
      | apply keeps_redPump)
    | refine Keeps.pair ?_ (fun a z hz => ?_)
    | refine Keeps.pair2 ?_ (fun a z hz => ?_)
    | exact keeps_segTaken hk (by with_reducible assumption)
    | with_reducible rfl
    | split

theorem keeps_checkHeard {o0 : State} {c rank seq : Nat} {pass : Bool} {s : State} (hk : Keeps o0 s) : Keeps o0
    (checkHeard c rank seq pass s) := by
  unfold checkHeard
  repeat' first
    | with_reducible (first
      | assumption | exact Nat.le_refl _)
    | ((try lift_lets -underBinder); intro z; first
      | (clear_value z)
      | (skip))
    | with_reducible apply keeps_setChan

theorem keeps_convertSeg {o0 : State} {c : Nat} {b : RedBkt} {seg : Nat} {s : State} (hk : Keeps o0 s) : Keeps o0
    (convertSeg c b seg s) := by
  unfold convertSeg
  repeat' first
    | with_reducible (first
      | assumption | exact Nat.le_refl _)
    | ((try lift_lets -underBinder); intro z; first
      | (clear_value z)
      | (skip))
    | with_reducible (first
      | apply Keeps.ite | apply Keeps.ite2 | apply keeps_enqueue)

theorem keeps_spread {o0 : State} {c seq : Nat} {s : State} (hk : Keeps o0 s) : Keeps o0 (spread c seq s) := by
  unfold spread
  repeat' first
    | with_reducible (first
      | assumption | exact Nat.le_refl _)
    | ((try lift_lets -underBinder); intro z; first
      | (refine Keeps.cut (o0 := o0) (z := z) ?_ (fun hz => ?_); subst z; rotate_left; clear_value z)
      | (clear_value z)
      | (skip))
    | with_reducible (first
      | apply keeps_setBkt | apply keeps_redPump | apply keeps_convertSeg | refine Keeps.foldl ?_ (fun z x hz => ?_)
      | refine Keeps.foldl2 ?_ (fun z x hz => ?_))
    | refine Keeps.pair ?_ (fun a z hz => ?_)
    | refine Keeps.pair2 ?_ (fun a z hz => ?_)
    | with_reducible rfl
    | split

theorem keeps_distribute {o0 : State} {c seq seg : Nat} {s : State} (hk : Keeps o0 s) : Keeps o0
    (distribute c seq seg s) := by
  unfold distribute
  repeat' first
    | with_reducible (first
      | assumption | exact Nat.le_refl _)
    | ((try lift_lets -underBinder); intro z; first
      | (refine Keeps.cut (o0 := o0) (z := z) ?_ (fun hz => ?_); subst z; rotate_left; clear_value z)
      | (refine Keeps.fn (o0 := o0) (f := z) ?_ (fun hz => ?_); subst z; intro z hz; rotate_left; clear_value z)
      | (refine Keeps.fn1 (o0 := o0) (f := z) ?_ (fun hz => ?_); subst z; intro a z hz; rotate_left; clear_value z)
      | (refine Keeps.fn2 (o0 := o0) (f := z) ?_ (fun hz => ?_); subst z; intro a b z hz; rotate_left; clear_value z)
      | (refine Keeps.fnp (o0 := o0) (f := z) ?_ (fun hz => ?_); subst z; intro a z hz; rotate_left; clear_value z)
      | (refine Keeps.sec z ?_; subst z)
      | (clear_value z)
      | (skip))
    | with_reducible (first
      | apply Keeps.ite | apply Keeps.ite2 | apply keeps_setBkt | apply keeps_sendSeg
      | refine Keeps.foldl ?_ (fun z x hz => ?_) | refine Keeps.foldl2 ?_ (fun z x hz => ?_))
    | refine Keeps.pair ?_ (fun a z hz => ?_)
    | refine Keeps.pair2 ?_ (fun a z hz => ?_)
    | with_reducible rfl
    | split

theorem keeps_redFence {o0 : State} {c : Nat} {s : State} (hk : Keeps o0 s) : Keeps o0 (redFence c s) := by
  unfold redFence
  repeat' first
    | with_reducible (first
      | assumption | exact Nat.le_refl _)
    | ((try lift_lets -underBinder); intro z; first
      | (refine Keeps.cut (o0 := o0) (z := z) ?_ (fun hz => ?_); subst z; rotate_left; clear_value z)
      | (clear_value z)
      | (skip))
    | with_reducible (first
      | apply keeps_wr | apply keeps_raise | apply keeps_forgetRange | apply keeps_tallyFree
      | apply keeps_redComplete | refine Keeps.foldl ?_ (fun z x hz => ?_))

theorem keeps_verdictRx {o0 : State} {c seq : Nat} {v : RedVerdict} {s : State} (hk : Keeps o0 s) : Keeps o0
    (verdictRx c seq v s) := by
  unfold verdictRx
  repeat' first
    | with_reducible (first
      | assumption | exact Nat.le_refl _)
    | ((try lift_lets -underBinder); intro z; first
      | (refine Keeps.cut (o0 := o0) (z := z) ?_ (fun hz => ?_); subst z; rotate_left; clear_value z)
      | (refine Keeps.fn (o0 := o0) (f := z) ?_ (fun hz => ?_); subst z; intro z hz; rotate_left; clear_value z)
      | (refine Keeps.fn1 (o0 := o0) (f := z) ?_ (fun hz => ?_); subst z; intro a z hz; rotate_left; clear_value z)
      | (refine Keeps.fn2 (o0 := o0) (f := z) ?_ (fun hz => ?_); subst z; intro a b z hz; rotate_left; clear_value z)
      | (refine Keeps.fnp (o0 := o0) (f := z) ?_ (fun hz => ?_); subst z; intro a z hz; rotate_left; clear_value z)
      | (refine Keeps.sec z ?_; subst z)
      | (clear_value z)
      | (skip))
    | with_reducible (first
      | apply Keeps.ite | apply Keeps.ite2 | apply keeps_bump | apply keeps_raise | apply keeps_setBkt
      | apply keeps_tally | apply keeps_redGiveUp | apply keeps_redPump | apply keeps_spread | apply keeps_redFence)
    | refine Keeps.pair ?_ (fun a z hz => ?_)
    | refine Keeps.pair2 ?_ (fun a z hz => ?_)
    | with_reducible rfl
    | split

theorem keeps_rule {o0 : State} {c seq : Nat} {s : State} (hk : Keeps o0 s) : Keeps o0 (rule c seq s) := by
  unfold rule
  repeat' first
    | with_reducible (first
      | assumption | exact Nat.le_refl _)
    | ((try lift_lets -underBinder); intro z; first
      | (refine Keeps.cut (o0 := o0) (z := z) ?_ (fun hz => ?_); subst z; rotate_left; clear_value z)
      | (clear_value z)
      | (skip))
    | with_reducible (first
      | apply Keeps.ite | apply Keeps.ite2 | apply keeps_setChan | apply keeps_redSend | apply keeps_verdictRx
      | refine Keeps.foldl ?_ (fun z x hz => ?_) | refine Keeps.foldl2 ?_ (fun z x hz => ?_))
    | refine Keeps.pair ?_ (fun a z hz => ?_)
    | refine Keeps.pair2 ?_ (fun a z hz => ?_)
    | with_reducible rfl
    | split

theorem keeps_checkRx {o0 : State} {c rank seq : Nat} {pass : Bool} {s : State} (hk : Keeps o0 s) : Keeps o0
    (checkRx c rank seq pass s) := by
  unfold checkRx
  repeat' with_reducible first
    | assumption | exact Nat.le_refl _ | apply keeps_checkHeard | apply keeps_rule

theorem keeps_sendCheck {o0 : State} {c : Nat} {b : RedBkt} {s : State} (hk : Keeps o0 s) : Keeps o0
    (sendCheck c b s) := by
  unfold sendCheck
  repeat' with_reducible first
    | assumption | exact Nat.le_refl _ | apply Keeps.ite | apply Keeps.ite2 | apply keeps_redSend
    | apply keeps_checkRx

theorem keeps_mirrorCheck {o0 : State} {c j : Nat} {s : State} (hk : Keeps o0 s) : Keeps o0
    (mirrorCheck c j s) := by
  unfold mirrorCheck
  repeat' first
    | with_reducible (first
      | assumption | exact Nat.le_refl _)
    | ((try lift_lets -underBinder); intro z; first
      | (refine Keeps.cut (o0 := o0) (z := z) ?_ (fun hz => ?_); subst z; rotate_left; clear_value z)
      | (clear_value z)
      | (skip))
    | with_reducible (first
      | apply Keeps.ite | apply Keeps.ite2 | apply keeps_bump | apply keeps_setBkt | apply keeps_sendCheck)
    | refine Keeps.pair ?_ (fun a z hz => ?_)
    | refine Keeps.pair2 ?_ (fun a z hz => ?_)
    | with_reducible rfl
    | split

theorem keeps_resPump {o0 : State} {c seq n : Nat} {s : State} (hk : Keeps o0 s) : Keeps o0 (resPump c seq n s) := by
  induction n generalizing s with
  | zero => exact hk
  | succ n ih =>
    unfold resPump
    split
    · exact hk
    · split
      · exact hk
      · dsimp only
        split
        · exact hk
        · exact ih (keeps_setBkt (Keeps.foldl (keeps_takeRed hk) (fun z x hz => keeps_remoteArrive hz)))

theorem keeps_resultSeg {o0 : State} {c : Nat} {m : SegMsg} {s : State} (hk : Keeps o0 s) : Keeps o0
    (resultSeg c m s) := by
  unfold resultSeg
  repeat' first
    | with_reducible (first
      | assumption | exact Nat.le_refl _)
    | ((try lift_lets -underBinder); intro z; first
      | (clear_value z)
      | (skip))
    | with_reducible (first
      | apply Keeps.ite | apply Keeps.ite2 | apply keeps_takeRed | apply keeps_setBkt | apply keeps_resPump)
    | refine Keeps.pair ?_ (fun a z hz => ?_)
    | refine Keeps.pair2 ?_ (fun a z hz => ?_)
    | exact keeps_segTaken hk (by with_reducible assumption)
    | with_reducible rfl
    | split

theorem keeps_bucketComplete {o0 : State} {c seq : Nat} {s : State} (hk : Keeps o0 s) : Keeps o0
    (bucketComplete c seq s) := by
  unfold bucketComplete
  repeat' first
    | with_reducible (first
      | assumption | exact Nat.le_refl _)
    | ((try lift_lets -underBinder); intro z; first
      | (refine Keeps.cut (o0 := o0) (z := z) ?_ (fun hz => ?_); subst z; rotate_left; clear_value z)
      | (clear_value z)
      | (skip))
    | with_reducible (first
      | apply Keeps.ite | apply Keeps.ite2 | apply keeps_tally | apply keeps_tallyFree | apply keeps_redComplete)
    | refine Keeps.pair ?_ (fun a z hz => ?_)
    | refine Keeps.pair2 ?_ (fun a z hz => ?_)
    | with_reducible rfl
    | split

theorem keeps_tallyTick {o0 : State} {c : Nat} {s : State} (hk : Keeps o0 s) : Keeps o0 (tallyTick c s) := by
  unfold tallyTick
  repeat' first
    | with_reducible (first
      | assumption | exact Nat.le_refl _)
    | ((try lift_lets -underBinder); intro z; first
      | (clear_value z)
      | (skip))
    | with_reducible (first
      | apply Keeps.ite | apply Keeps.ite2 | apply keeps_tally | refine Keeps.foldl ?_ (fun z x hz => ?_))

theorem keeps_reviseFor {o0 : State} {c seq rank : Nat} {s : State} (hk : Keeps o0 s) : Keeps o0
    (reviseFor c seq rank s) := by
  unfold reviseFor
  repeat' first
    | with_reducible (first
      | assumption | exact Nat.le_refl _)
    | ((try lift_lets -underBinder); intro z; first
      | (refine Keeps.cut (o0 := o0) (z := z) ?_ (fun hz => ?_); subst z; rotate_left; clear_value z)
      | (clear_value z)
      | (skip))
    | with_reducible (first
      | apply Keeps.ite | apply Keeps.ite2 | apply keeps_redSend | apply keeps_rosterRx
      | refine Keeps.foldl ?_ (fun z x hz => ?_) | refine Keeps.foldl2 ?_ (fun z x hz => ?_))
    | refine Keeps.pair ?_ (fun a z hz => ?_)
    | refine Keeps.pair2 ?_ (fun a z hz => ?_)
    | with_reducible rfl
    | split

theorem keeps_redTimeout {o0 : State} {c : Nat} {w : RedWait} {s : State} (hk : Keeps o0 s) : Keeps o0
    (redTimeout c w s) := by
  unfold redTimeout
  repeat' first
    | with_reducible (first
      | assumption | exact Nat.le_refl _)
    | ((try lift_lets -underBinder); intro z; first
      | (clear_value z)
      | (skip))
    | with_reducible (first
      | apply Keeps.ite | apply Keeps.ite2 | apply keeps_raise | apply keeps_setBkt | apply keeps_redSend
      | apply keeps_fixRoster | apply keeps_reviseFor)
    | refine Keeps.pair ?_ (fun a z hz => ?_)
    | refine Keeps.pair2 ?_ (fun a z hz => ?_)
    | with_reducible rfl
    | split

theorem keeps_leaderLost {o0 : State} {c : Nat} {s : State} (hk : Keeps o0 s) : Keeps o0 (leaderLost c s) := by
  unfold leaderLost
  repeat' first
    | with_reducible (first
      | assumption | exact Nat.le_refl _)
    | ((try lift_lets -underBinder); intro z; first
      | (refine Keeps.cut (o0 := o0) (z := z) ?_ (fun hz => ?_); subst z; rotate_left; clear_value z)
      | (clear_value z)
      | (skip))
    | with_reducible (first
      | apply Keeps.ite | apply Keeps.ite2 | apply keeps_raise | apply keeps_sendSeal | apply keeps_dropRanks
      | apply keeps_sendCheck | refine Keeps.foldl ?_ (fun z x hz => ?_))

theorem keeps_capNotice {o0 : State} {c rank frame : Nat} {s : State} (hk : Keeps o0 s) : Keeps o0
    (capNotice c rank frame s) := by
  unfold capNotice
  repeat' with_reducible first
    | assumption | exact Nat.le_refl _ | apply keeps_wr | apply keeps_raise

theorem keeps_holdStart {o0 : State} {cap : Nat} {s : State} (hk : Keeps o0 s) : Keeps o0 (holdStart cap s) := by
  unfold holdStart
  repeat' first
    | with_reducible (first
      | assumption | exact Nat.le_refl _)
    | ((try lift_lets -underBinder); intro z; first
      | (refine Keeps.cut (o0 := o0) (z := z) ?_ (fun hz => ?_); subst z; rotate_left; clear_value z)
      | (clear_value z)
      | (skip))
    | with_reducible (first
      | apply Keeps.ite | apply Keeps.ite2 | apply keeps_wr | apply keeps_raise | apply keeps_redSend
      | refine Keeps.foldl ?_ (fun z x hz => ?_) | refine Keeps.foldl2 ?_ (fun z x hz => ?_) | rfl)
    | split
    | with_reducible apply Keeps.mk_

theorem keeps_redUnfence {o0 : State} {c : Nat} {s : State} (hk : Keeps o0 s) : Keeps o0 (redUnfence c s) := by
  unfold redUnfence
  repeat' with_reducible first
    | assumption | exact Nat.le_refl _ | apply keeps_later

theorem keeps_redUnfenced {o0 : State} {c : Nat} {s : State} (hk : Keeps o0 s) : Keeps o0 (redUnfenced c s) := by
  unfold redUnfenced
  repeat' with_reducible first
    | assumption | exact Nat.le_refl _ | apply Keeps.ite | apply Keeps.ite2 | apply keeps_wr

theorem keeps_redEnable {o0 : State} {c : Nat} {s : State} (hk : Keeps o0 s) : Keeps o0 (redEnable c s) := by
  unfold redEnable
  repeat' first
    | with_reducible (first
      | assumption | exact Nat.le_refl _)
    | ((try lift_lets -underBinder); intro z; first
      | (refine Keeps.cut (o0 := o0) (z := z) ?_ (fun hz => ?_); subst z; rotate_left; clear_value z)
      | (refine Keeps.fn1 (o0 := o0) (f := z) ?_ (fun hz => ?_); subst z; intro a z hz; rotate_left; clear_value z)
      | (clear_value z)
      | (skip))
    | with_reducible (first
      | apply Keeps.ite | apply Keeps.ite2 | apply keeps_wr | apply keeps_setChan | apply keeps_setLeader
      | apply keeps_redGiveUp | refine Keeps.foldl ?_ (fun z x hz => ?_) | refine Keeps.foldl2 ?_ (fun z x hz => ?_)
      | rfl)
    | split
    | refine Keeps.app (by with_reducible assumption) ?_
    | refine Keeps.app1 (by with_reducible assumption) ?_

theorem keeps_resultTick {o0 : State} {c seq : Nat} {s : State} (hk : Keeps o0 s) : Keeps o0
    (resultTick c seq s) := by
  unfold resultTick
  repeat' first
    | with_reducible (first
      | assumption | exact Nat.le_refl _)
    | ((try lift_lets -underBinder); intro z; first
      | (refine Keeps.cut (o0 := o0) (z := z) ?_ (fun hz => ?_); subst z; rotate_left; clear_value z)
      | (refine Keeps.fn (o0 := o0) (f := z) ?_ (fun hz => ?_); subst z; intro z hz; rotate_left; clear_value z)
      | (refine Keeps.fn1 (o0 := o0) (f := z) ?_ (fun hz => ?_); subst z; intro a z hz; rotate_left; clear_value z)
      | (refine Keeps.fn2 (o0 := o0) (f := z) ?_ (fun hz => ?_); subst z; intro a b z hz; rotate_left; clear_value z)
      | (refine Keeps.fnp (o0 := o0) (f := z) ?_ (fun hz => ?_); subst z; intro a z hz; rotate_left; clear_value z)
      | (refine Keeps.sec z ?_; subst z)
      | (clear_value z)
      | (skip))
    | with_reducible (first
      | apply keeps_distribute | apply keeps_resPump | apply keeps_bucketComplete
      | refine Keeps.foldl ?_ (fun z x hz => ?_) | refine Keeps.foldl2 ?_ (fun z x hz => ?_))
    | refine Keeps.pair ?_ (fun a z hz => ?_)
    | refine Keeps.pair2 ?_ (fun a z hz => ?_)
    | with_reducible rfl
    | split

theorem keeps_chanTick {o0 : State} {c : Nat} {s : State} (hk : Keeps o0 s) : Keeps o0 (chanTick c s) := by
  unfold chanTick
  repeat' first
    | with_reducible (first
      | assumption | exact Nat.le_refl _)
    | ((try lift_lets -underBinder); intro z; first
      | (refine Keeps.cut (o0 := o0) (z := z) ?_ (fun hz => ?_); subst z; rotate_left; clear_value z)
      | (clear_value z)
      | (skip))
    | with_reducible (first
      | apply keeps_setChan | apply keeps_applyRoster | apply keeps_redPump | apply keeps_tallyTick
      | apply keeps_resultTick | refine Keeps.foldl ?_ (fun z x hz => ?_))

theorem keeps_redTick {o0 : State} {s : State} (hk : Keeps o0 s) : Keeps o0 (redTick s) := by
  unfold redTick
  repeat' with_reducible first
    | assumption | exact Nat.le_refl _ | apply keeps_chanTick | refine Keeps.foldl ?_ (fun z x hz => ?_)

theorem keeps_setGrp {o0 : State} {s : State} {g : Nat} {k : ParGrp} (hk : Keeps o0 s) : Keeps o0
    (State.setGrp s g k) := by
  unfold State.setGrp
  repeat' with_reducible first
    | assumption | exact Nat.le_refl _ | rfl | apply Keeps.mk_

theorem keeps_setParLeader {o0 : State} {g : Nat} {s : State} (hk : Keeps o0 s) : Keeps o0 (setParLeader g s) := by
  unfold setParLeader
  repeat' with_reducible first
    | assumption | exact Nat.le_refl _ | apply keeps_wr

theorem keeps_parSend {o0 : State} {g r : Nat} {m : Mgmt} {s : State} (hk : Keeps o0 s) : Keeps o0
    (parSend g r m s) := by
  unfold parSend
  repeat' with_reducible first
    | assumption | exact Nat.le_refl _ | apply Keeps.ite | apply Keeps.ite2 | apply keeps_rayQueue

theorem keeps_parTell {o0 : State} {g : Nat} {m : Mgmt} {s : State} (hk : Keeps o0 s) : Keeps o0
    (parTell g m s) := by
  unfold parTell
  repeat' with_reducible first
    | assumption | exact Nat.le_refl _ | apply Keeps.ite | apply Keeps.ite2 | apply keeps_parSend
    | refine Keeps.foldl ?_ (fun z x hz => ?_)

theorem keeps_parSendSeg {o0 : State} {g r kind tag gen unit seg : Nat} {s : State} (hk : Keeps o0 s) : Keeps o0
    (parSendSeg g r kind tag gen unit seg s) := by
  unfold parSendSeg
  repeat' first
    | with_reducible (first
      | assumption | exact Nat.le_refl _)
    | ((try lift_lets -underBinder); intro z; first
      | (clear_value z)
      | (skip))
    | with_reducible (first
      | apply Keeps.ite | apply Keeps.ite2 | apply keeps_checkUnits | apply keeps_rayQueue)

theorem keeps_parFill {o0 : State} {g gen u n : Nat} {s : State} (hk : Keeps o0 s) : Keeps o0
    (parFill g gen u n s) := by
  unfold parFill
  repeat' with_reducible first
    | assumption | exact Nat.le_refl _ | apply keeps_darkroom | refine Keeps.foldl ?_ (fun z x hz => ?_)

theorem keeps_parGiveUp {o0 : State} {g : Nat} {ms : List SegMsg} {s : State} (hk : Keeps o0 s) : Keeps o0
    (parGiveUp g ms s) := by
  unfold parGiveUp
  repeat' with_reducible first
    | assumption | exact Nat.le_refl _ | apply keeps_takeRed | refine Keeps.foldl ?_ (fun z x hz => ?_)

theorem keeps_parForm {o0 : State} {g gen : Nat} {s : State} (hk : Keeps o0 s) : Keeps o0 (parForm g gen s) := by
  unfold parForm
  repeat' first
    | with_reducible (first
      | assumption | exact Nat.le_refl _)
    | ((try lift_lets -underBinder); intro z; first
      | (refine Keeps.cut (o0 := o0) (z := z) ?_ (fun hz => ?_); subst z; rotate_left; clear_value z)
      | (clear_value z)
      | (skip))
    | with_reducible (first
      | apply keeps_setGrp | apply keeps_parGiveUp)

theorem keeps_parFillOwn {o0 : State} {g gen : Nat} {s : State} (hk : Keeps o0 s) : Keeps o0
    (parFillOwn g gen s) := by
  unfold parFillOwn
  repeat' with_reducible first
    | assumption | exact Nat.le_refl _ | apply keeps_setGrp | apply keeps_parFill

theorem keeps_parClear {o0 : State} {g gen : Nat} {s : State} (hk : Keeps o0 s) : Keeps o0 (parClear g gen s) := by
  unfold parClear
  repeat' first
    | with_reducible (first
      | assumption | exact Nat.le_refl _)
    | ((try lift_lets -underBinder); intro z; first
      | (refine Keeps.cut (o0 := o0) (z := z) ?_ (fun hz => ?_); subst z; rotate_left; clear_value z)
      | (clear_value z)
      | (skip))
    | with_reducible (first
      | apply keeps_setGrp | apply keeps_parForm | apply keeps_parFillOwn)

theorem keeps_parSendUnits {o0 : State} {g : Nat} {s : State} (hk : Keeps o0 s) : Keeps o0 (parSendUnits g s) := by
  unfold parSendUnits
  repeat' first
    | with_reducible (first
      | assumption | exact Nat.le_refl _)
    | ((try lift_lets -underBinder); intro z; first
      | (refine Keeps.cut (o0 := o0) (z := z) ?_ (fun hz => ?_); subst z; rotate_left; clear_value z)
      | (clear_value z)
      | (skip))
    | with_reducible (first
      | apply Keeps.ite | apply Keeps.ite2 | apply keeps_setGrp | apply keeps_parSendSeg
      | refine Keeps.foldl ?_ (fun z x hz => ?_))

theorem keeps_clearedRx {o0 : State} {g rank gen : Nat} {s : State} (hk : Keeps o0 s) : Keeps o0
    (clearedRx g rank gen s) := by
  unfold clearedRx
  repeat' first
    | with_reducible (first
      | assumption | exact Nat.le_refl _)
    | ((try lift_lets -underBinder); intro z; first
      | (refine Keeps.cut (o0 := o0) (z := z) ?_ (fun hz => ?_); subst z; rotate_left; clear_value z)
      | (clear_value z)
      | (skip))
    | with_reducible (first
      | apply Keeps.ite | apply Keeps.ite2 | apply keeps_setGrp | apply keeps_parSendUnits)

theorem keeps_parRespond {o0 : State} {core i status frame : Nat} {s : State} (hk : Keeps o0 s) : Keeps o0
    (parRespond core i status frame s) := by
  unfold parRespond
  repeat' with_reducible first
    | assumption | exact Nat.le_refl _ | apply keeps_windowRespond

theorem keeps_parRefuse {o0 : State} {core i status : Nat} {s : State} (hk : Keeps o0 s) : Keeps o0
    (parRefuse core i status s) := by
  unfold parRefuse
  repeat' with_reducible first
    | assumption | exact Nat.le_refl _ | apply keeps_raise | apply keeps_parRespond

theorem keeps_parTake {o0 : State} {core i : Nat} {d : List Byte} {s : State} (hk : Keeps o0 s) : Keeps o0
    (parTake core i d s) := by
  unfold parTake
  repeat' first
    | with_reducible (first
      | assumption | exact Nat.le_refl _)
    | ((try lift_lets -underBinder); intro z; first
      | (clear_value z)
      | (skip))
    | with_reducible (first
      | apply Keeps.ite | apply Keeps.ite2 | apply keeps_setGrp | apply keeps_parSendUnits | apply keeps_parRefuse)

theorem keeps_parWindow {o0 : State} {core : Nat} {d : List Byte} {s : State} (hk : Keeps o0 s) : Keeps o0
    (parWindow core d s) := by
  unfold parWindow
  repeat' first
    | with_reducible (first
      | assumption | exact Nat.le_refl _)
    | ((try lift_lets -underBinder); intro z; first
      | (refine Keeps.cut (o0 := o0) (z := z) ?_ (fun hz => ?_); subst z; rotate_left; clear_value z)
      | (clear_value z)
      | (skip))
    | with_reducible (first
      | apply Keeps.ite | apply Keeps.ite2 | apply keeps_raise | apply keeps_kvWrite | apply keeps_parTake
      | refine Keeps.foldl ?_ (fun z x hz => ?_) | refine Keeps.foldl2 ?_ (fun z x hz => ?_) | rfl)
    | split
    | with_reducible apply Keeps.mk_

theorem keeps_windowReads {o0 : State} {s : State} (hk : Keeps o0 s) : Keeps o0 (windowReads s) := by
  unfold windowReads
  repeat' first
    | with_reducible (first
      | assumption | exact Nat.le_refl _)
    | ((try lift_lets -underBinder); intro z; first
      | (refine Keeps.cut (o0 := o0) (z := z) ?_ (fun hz => ?_); subst z; rotate_left; clear_value z)
      | (refine Keeps.fn (o0 := o0) (f := z) ?_ (fun hz => ?_); subst z; intro z hz; rotate_left; clear_value z)
      | (refine Keeps.fn1 (o0 := o0) (f := z) ?_ (fun hz => ?_); subst z; intro a z hz; rotate_left; clear_value z)
      | (refine Keeps.fn2 (o0 := o0) (f := z) ?_ (fun hz => ?_); subst z; intro a b z hz; rotate_left; clear_value z)
      | (refine Keeps.fnp (o0 := o0) (f := z) ?_ (fun hz => ?_); subst z; intro a z hz; rotate_left; clear_value z)
      | (refine Keeps.sec z ?_; subst z)
      | (clear_value z)
      | (skip))
    | with_reducible (first
      | apply Keeps.ite | apply Keeps.ite2 | apply keeps_queueReads)

theorem keeps_parApply {o0 : State} {g gen unit : Nat} {m : SegMsg} {s : State} (hk : Keeps o0 s) : Keeps o0
    (parApply g gen unit m s) := by
  unfold parApply
  repeat' first
    | with_reducible (first
      | assumption | exact Nat.le_refl _)
    | ((try lift_lets -underBinder); intro z; first
      | (refine Keeps.cut (o0 := o0) (z := z) ?_ (fun hz => ?_); subst z; rotate_left; clear_value z)
      | (clear_value z)
      | (skip))
    | with_reducible (first
      | apply keeps_remoteArrive | apply keeps_takeRed | refine Keeps.foldl ?_ (fun z x hz => ?_))

theorem keeps_parPump {o0 : State} {g n : Nat} {s : State} (hk : Keeps o0 s) : Keeps o0 (parPump g n s) := by
  induction n generalizing s with
  | zero => exact hk
  | succ n ih =>
    unfold parPump
    split
    · exact hk
    · split
      · exact ih (keeps_parApply (keeps_setGrp hk))
      · exact hk

theorem keeps_parContribution {o0 : State} {g : Nat} {m : SegMsg} {s : State} (hk : Keeps o0 s) : Keeps o0
    (parContribution g m s) := by
  unfold parContribution
  repeat' first
    | with_reducible (first
      | assumption | exact Nat.le_refl _)
    | ((try lift_lets -underBinder); intro z; first
      | (clear_value z)
      | (skip))
    | with_reducible (first
      | apply Keeps.ite | apply Keeps.ite2 | apply keeps_takeRed | apply keeps_setGrp | apply keeps_parPump)
    | refine Keeps.pair ?_ (fun a z hz => ?_)
    | refine Keeps.pair2 ?_ (fun a z hz => ?_)
    | exact keeps_segTaken hk (by with_reducible assumption)
    | with_reducible rfl
    | split

theorem keeps_parCommitRx {o0 : State} {g gen : Nat} {s : State} (hk : Keeps o0 s) : Keeps o0
    (parCommitRx g gen s) := by
  unfold parCommitRx
  repeat' with_reducible first
    | assumption | exact Nat.le_refl _ | apply Keeps.ite | apply Keeps.ite2 | apply keeps_commit
    | apply keeps_setGrp

theorem keeps_parDoneRx {o0 : State} {g rank gen : Nat} {s : State} (hk : Keeps o0 s) : Keeps o0
    (parDoneRx g rank gen s) := by
  unfold parDoneRx
  repeat' first
    | with_reducible (first
      | assumption | exact Nat.le_refl _)
    | ((try lift_lets -underBinder); intro z; first
      | (refine Keeps.cut (o0 := o0) (z := z) ?_ (fun hz => ?_); subst z; rotate_left; clear_value z)
      | (clear_value z)
      | (skip))
    | with_reducible (first
      | apply Keeps.ite | apply Keeps.ite2 | apply keeps_setGrp | apply keeps_parTell | apply keeps_parCommitRx)

theorem keeps_parLoss {o0 : State} {g rank : Nat} {s : State} (hk : Keeps o0 s) : Keeps o0 (parLoss g rank s) := by
  unfold parLoss
  repeat' first
    | with_reducible (first
      | assumption | exact Nat.le_refl _)
    | ((try lift_lets -underBinder); intro z; first
      | (refine Keeps.cut (o0 := o0) (z := z) ?_ (fun hz => ?_); subst z; rotate_left; clear_value z)
      | (clear_value z)
      | (skip))
    | with_reducible (first
      | apply Keeps.ite | apply Keeps.ite2 | apply keeps_wr | apply keeps_raise | apply keeps_commit
      | apply keeps_setGrp | apply keeps_setParLeader | apply keeps_parGiveUp)

theorem keeps_parRebuild {o0 : State} {g gen : Nat} {s : State} (hk : Keeps o0 s) : Keeps o0
    (parRebuild g gen s) := by
  unfold parRebuild
  repeat' first
    | with_reducible (first
      | assumption | exact Nat.le_refl _)
    | ((try lift_lets -underBinder); intro z; first
      | (refine Keeps.cut (o0 := o0) (z := z) ?_ (fun hz => ?_); subst z; rotate_left; clear_value z)
      | (clear_value z)
      | (skip))
    | with_reducible (first
      | apply Keeps.ite | apply Keeps.ite2 | apply keeps_setGrp | apply keeps_parTell)

theorem keeps_rebuildRx {o0 : State} {g gen : Nat} {s : State} (hk : Keeps o0 s) : Keeps o0
    (rebuildRx g gen s) := by
  unfold rebuildRx
  repeat' with_reducible first
    | assumption | exact Nat.le_refl _ | apply Keeps.ite | apply Keeps.ite2 | apply keeps_setGrp

theorem keeps_parPulls {o0 : State} {g n : Nat} {s : State} (hk : Keeps o0 s) : Keeps o0 (parPulls g n s) := by
  induction n generalizing s with
  | zero => exact hk
  | succ n ih =>
    unfold parPulls
    dsimp only
    split
    · exact hk
    · exact ih (keeps_parSend (keeps_setGrp hk))

theorem keeps_parPullRx {o0 : State} {g : Nat} {m : PullMsg} {s : State} (hk : Keeps o0 s) : Keeps o0
    (parPullRx g m s) := by
  unfold parPullRx
  repeat' with_reducible first
    | assumption | exact Nat.le_refl _ | apply Keeps.ite | apply Keeps.ite2 | apply keeps_setGrp
    | apply keeps_parSendSeg

theorem keeps_rebuildSeg_go {o0 : State} {g gen n : Nat} {s : State} (hk : Keeps o0 s) : Keeps o0 (rebuildSeg.go g gen n s) := by
  induction n generalizing s with
  | zero => exact hk
  | succ n ih =>
    unfold rebuildSeg.go
    split
    · exact hk
    · split
      · exact ih (keeps_parApply (keeps_setGrp hk))
      · exact hk

theorem keeps_rebuildSeg {o0 : State} {g : Nat} {m : SegMsg} {s : State} (hk : Keeps o0 s) : Keeps o0
    (rebuildSeg g m s) := by
  unfold rebuildSeg
  repeat' first
    | with_reducible (first
      | assumption | exact Nat.le_refl _)
    | ((try lift_lets -underBinder); intro z; first
      | (refine Keeps.cut (o0 := o0) (z := z) ?_ (fun hz => ?_); subst z; rotate_left; clear_value z)
      | (clear_value z)
      | (skip))
    | with_reducible (first
      | apply Keeps.ite | apply Keeps.ite2 | apply keeps_rebuildSeg_go | apply keeps_wr | apply keeps_bump
      | apply keeps_raise | apply keeps_takeRed | apply keeps_setGrp | apply keeps_parApply
      | refine Keeps.foldl ?_ (fun z x hz => ?_) | refine Keeps.foldl2 ?_ (fun z x hz => ?_))
    | refine Keeps.pair ?_ (fun a z hz => ?_)
    | refine Keeps.pair2 ?_ (fun a z hz => ?_)
    | exact keeps_segTaken hk (by with_reducible assumption)
    | with_reducible rfl
    | split

theorem keeps_parRebuilt {o0 : State} {g gen : Nat} {s : State} (hk : Keeps o0 s) : Keeps o0
    (parRebuilt g gen s) := by
  unfold parRebuilt
  repeat' first
    | with_reducible (first
      | assumption | exact Nat.le_refl _)
    | ((try lift_lets -underBinder); intro z; first
      | (refine Keeps.cut (o0 := o0) (z := z) ?_ (fun hz => ?_); subst z; rotate_left; clear_value z)
      | (clear_value z)
      | (skip))
    | with_reducible (first
      | apply keeps_wr | apply keeps_bump | apply keeps_raise | apply keeps_setGrp | apply keeps_parFillOwn)

theorem keeps_parBack {o0 : State} {g : Nat} {s : State} (hk : Keeps o0 s) : Keeps o0 (parBack g s) := by
  unfold parBack
  repeat' first
    | with_reducible (first
      | assumption | exact Nat.le_refl _)
    | ((try lift_lets -underBinder); intro z; first
      | (refine Keeps.cut (o0 := o0) (z := z) ?_ (fun hz => ?_); subst z; rotate_left; clear_value z)
      | (clear_value z)
      | (skip))
    | with_reducible (first
      | apply Keeps.ite | apply Keeps.ite2 | apply keeps_wr | apply keeps_bump | apply keeps_raise
      | apply keeps_setGrp | apply keeps_parFillOwn)

theorem keeps_parTick1 {o0 : State} {g : Nat} {s : State} (hk : Keeps o0 s) : Keeps o0 (parTick1 g s) := by
  unfold parTick1
  repeat' first
    | with_reducible (first
      | assumption | exact Nat.le_refl _)
    | ((try lift_lets -underBinder); intro z; first
      | (refine Keeps.cut (o0 := o0) (z := z) ?_ (fun hz => ?_); subst z; rotate_left; clear_value z)
      | (clear_value z)
      | (skip))
    | with_reducible (first
      | apply Keeps.ite | apply Keeps.ite2 | apply keeps_wr | apply keeps_bump | apply keeps_commit
      | apply keeps_setGrp | apply keeps_setParLeader | apply keeps_parSend | apply keeps_parTell
      | apply keeps_parFill | apply keeps_parGiveUp | apply keeps_parForm | apply keeps_parClear
      | apply keeps_parSendUnits | apply keeps_parRespond | apply keeps_parPump | apply keeps_parDoneRx
      | apply keeps_parPulls | apply keeps_rebuildSeg_go | apply keeps_parRebuilt | apply keeps_parBack)
    | refine Keeps.pair ?_ (fun a z hz => ?_)
    | refine Keeps.pair2 ?_ (fun a z hz => ?_)
    | with_reducible rfl
    | split

theorem keeps_parTick {o0 : State} {s : State} (hk : Keeps o0 s) : Keeps o0 (parTick s) := by
  unfold parTick
  repeat' with_reducible first
    | assumption | exact Nat.le_refl _ | apply Keeps.ite | apply Keeps.ite2 | apply keeps_parTick1
    | refine Keeps.foldl ?_ (fun z x hz => ?_)

theorem keeps_parEnable {o0 : State} {g : Nat} {s : State} (hk : Keeps o0 s) : Keeps o0 (parEnable g s) := by
  unfold parEnable
  repeat' first
    | with_reducible (first
      | assumption | exact Nat.le_refl _)
    | ((try lift_lets -underBinder); intro z; first
      | (refine Keeps.cut (o0 := o0) (z := z) ?_ (fun hz => ?_); subst z; rotate_left; clear_value z)
      | (clear_value z)
      | (skip))
    | with_reducible (first
      | apply Keeps.ite | apply Keeps.ite2 | apply keeps_wr | apply keeps_setGrp | apply keeps_setParLeader
      | apply keeps_parClear)

end Sys2Proof.Machine
end

