-- ==== Sys2Proof/Laws/KeepsAbaes.lean ====
section
/-! SUPPORT. What no command may do (`Keeps`, Safety.lean) is kept by every operation of
the Abaes link and snapshots:
from a state that kept it since `o0`, the operation answers one that did. -/
namespace Sys2Proof.Machine

theorem keeps_setAba {o0 : State} {f : Aba → Aba} {s : State} (hk : Keeps o0 s) : Keeps o0 (setAba f s) := by
  unfold setAba
  repeat' with_reducible first
    | assumption | exact Nat.le_refl _ | rfl | apply Keeps.mk_

theorem keeps_abaOut {o0 : State} {seq : Option Nat} {crd : Nat} {k : AbaPkt} {s : State} (hk : Keeps o0 s) :
    Keeps o0 (abaOut seq crd k s) := by
  unfold abaOut
  repeat' with_reducible first
    | assumption | exact Nat.le_refl _ | apply keeps_setAba

theorem keeps_abaDrain {o0 : State} {n : Nat} {s : State} (hk : Keeps o0 s) : Keeps o0 (abaDrain n s) := by
  induction n generalizing s with
  | zero => exact hk
  | succ n ih =>
    unfold abaDrain
    split
    · exact hk
    · dsimp only
      split
      · exact hk
      · split
        · exact ih (keeps_abaOut (keeps_setAba hk))
        · split
          · exact hk
          · exact ih (keeps_bump (keeps_drop (keeps_setAba (keeps_abaOut hk))))

theorem keeps_abaSend {o0 : State} {k : AbaPkt} {s : State} (hk : Keeps o0 s) : Keeps o0 (abaSend k s) := by
  unfold abaSend
  repeat' first
    | with_reducible (first
      | assumption | exact Nat.le_refl _)
    | ((try lift_lets -underBinder); intro z; first
      | (refine Keeps.cut (o0 := o0) (z := z) ?_ (fun hz => ?_); subst z; rotate_left; clear_value z)
      | (refine Keeps.fn (o0 := o0) (f := z) ?_ (fun hz => ?_); subst z; intro z hz; rotate_left; clear_value z)
      | (refine Keeps.fn1 (o0 := o0) (f := z) ?_ (fun hz => ?_); subst z; intro a z hz; rotate_left; clear_value z)
      | (refine Keeps.fn2 (o0 := o0) (f := z) ?_ (fun hz => ?_); subst z; intro a b z hz; rotate_left; clear_value z)
      | (refine Keeps.fnp (o0 := o0) (f := z) ?_ (fun hz => ?_); subst z; intro a z hz; rotate_left; clear_value z)
      | (refine Keeps.sec z ?_; subst z)
      | (clear_value z)
      | (skip))
    | with_reducible (first
      | apply Keeps.ite | apply Keeps.ite2 | apply keeps_setAba | apply keeps_abaDrain)

theorem keeps_abaNak {o0 : State} {code seq : Nat} {s : State} (hk : Keeps o0 s) : Keeps o0
    (abaNak code seq s) := by
  unfold abaNak
  repeat' first
    | with_reducible (first
      | assumption | exact Nat.le_refl _)
    | ((try lift_lets -underBinder); intro z; first
      | (refine Keeps.cut (o0 := o0) (z := z) ?_ (fun hz => ?_); subst z; rotate_left; clear_value z)
      | (refine Keeps.fn (o0 := o0) (f := z) ?_ (fun hz => ?_); subst z; intro z hz; rotate_left; clear_value z)
      | (refine Keeps.fn1 (o0 := o0) (f := z) ?_ (fun hz => ?_); subst z; intro a z hz; rotate_left; clear_value z)
      | (refine Keeps.fn2 (o0 := o0) (f := z) ?_ (fun hz => ?_); subst z; intro a b z hz; rotate_left; clear_value z)
      | (refine Keeps.fnp (o0 := o0) (f := z) ?_ (fun hz => ?_); subst z; intro a z hz; rotate_left; clear_value z)
      | (refine Keeps.sec z ?_; subst z)
      | (clear_value z)
      | (skip))
    | with_reducible (first
      | apply keeps_bump | apply keeps_raise | apply keeps_setAba | apply keeps_abaSend)

theorem keeps_abaAck {o0 : State} {ack : Nat} {s : State} (hk : Keeps o0 s) : Keeps o0 (abaAck ack s) := by
  unfold abaAck
  repeat' first
    | with_reducible (first
      | assumption | exact Nat.le_refl _)
    | ((try lift_lets -underBinder); intro z; first
      | (refine Keeps.cut (o0 := o0) (z := z) ?_ (fun hz => ?_); subst z; rotate_left; clear_value z)
      | (clear_value z)
      | (skip))
    | with_reducible (first
      | apply Keeps.ite | apply Keeps.ite2 | apply keeps_setAba | apply keeps_abaDrain)

theorem keeps_abaCredits {o0 : State} {n : Nat} {s : State} (hk : Keeps o0 s) : Keeps o0 (abaCredits n s) := by
  unfold abaCredits
  repeat' first
    | with_reducible (first
      | assumption | exact Nat.le_refl _)
    | ((try lift_lets -underBinder); intro z; first
      | (refine Keeps.cut (o0 := o0) (z := z) ?_ (fun hz => ?_); subst z; rotate_left; clear_value z)
      | (clear_value z)
      | (skip))
    | with_reducible (first
      | apply Keeps.ite | apply Keeps.ite2 | apply keeps_bump | apply keeps_drop | apply keeps_raise
      | apply keeps_abaDrain)

theorem keeps_abaRx {o0 : State} {t : Nat} {w : RayWords} {more : List RayWords} {s : State} (hk : Keeps o0 s) :
    Keeps o0 (abaRx t w more s).2 := by
  unfold abaRx
  repeat' first
    | with_reducible (first
      | assumption | exact Nat.le_refl _)
    | ((try lift_lets -underBinder); intro z; first
      | (refine Keeps.cut (o0 := o0) (z := z) ?_ (fun hz => ?_); subst z; rotate_left; clear_value z)
      | (clear_value z)
      | (skip))
    | with_reducible (first
      | apply Keeps.ite | apply Keeps.ite2 | apply keeps_setAba | apply keeps_abaSend | apply keeps_abaNak
      | apply keeps_abaAck | apply keeps_abaCredits | refine Keeps.foldl ?_ (fun z x hz => ?_)
      | refine Keeps.foldl2 ?_ (fun z x hz => ?_))
    | refine Keeps.pair ?_ (fun a z hz => ?_)
    | refine Keeps.pair2 ?_ (fun a z hz => ?_)
    | with_reducible rfl
    | split

theorem keeps_abaResend {o0 : State} {l : List AbaKept} {s : State} (hk : Keeps o0 s) : Keeps o0
    (abaResend l s) := by
  unfold abaResend
  repeat' first
    | with_reducible (first
      | assumption | exact Nat.le_refl _)
    | ((try lift_lets -underBinder); intro z; first
      | (refine Keeps.cut (o0 := o0) (z := z) ?_ (fun hz => ?_); subst z; rotate_left; clear_value z)
      | (refine Keeps.fn (o0 := o0) (f := z) ?_ (fun hz => ?_); subst z; intro z hz; rotate_left; clear_value z)
      | (refine Keeps.fn1 (o0 := o0) (f := z) ?_ (fun hz => ?_); subst z; intro a z hz; rotate_left; clear_value z)
      | (refine Keeps.fn2 (o0 := o0) (f := z) ?_ (fun hz => ?_); subst z; intro a b z hz; rotate_left; clear_value z)
      | (refine Keeps.fnp (o0 := o0) (f := z) ?_ (fun hz => ?_); subst z; intro a z hz; rotate_left; clear_value z)
      | (refine Keeps.sec z ?_; subst z)
      | (clear_value z)
      | (skip))
    | with_reducible (first
      | apply keeps_bump | apply keeps_abaOut | refine Keeps.foldl ?_ (fun z x hz => ?_))

theorem keeps_abaNakRx {o0 : State} {w : RayWords} {s : State} (hk : Keeps o0 s) : Keeps o0 (abaNakRx w s) := by
  unfold abaNakRx
  repeat' first
    | with_reducible (first
      | assumption | exact Nat.le_refl _ | apply keeps_abaRx | apply keeps_abaResend)
    | refine Keeps.pair ?_ (fun a z hz => ?_)
    | refine Keeps.pair2 ?_ (fun a z hz => ?_)
    | with_reducible rfl
    | split
    | refine Keeps.eqv (by with_reducible assumption) ?_

theorem keeps_abaReplayRx {o0 : State} {w : RayWords} {first : Nat} {s : State} (hk : Keeps o0 s) : Keeps o0
    (abaReplayRx w first s) := by
  unfold abaReplayRx
  repeat' first
    | with_reducible (first
      | assumption | exact Nat.le_refl _ | apply keeps_abaRx | apply keeps_abaResend)
    | refine Keeps.pair ?_ (fun a z hz => ?_)
    | refine Keeps.pair2 ?_ (fun a z hz => ?_)
    | with_reducible rfl
    | split
    | refine Keeps.eqv (by with_reducible assumption) ?_

theorem keeps_abaAckRx {o0 : State} {w : RayWords} {s : State} (hk : Keeps o0 s) : Keeps o0 (abaAckRx w s) := by
  unfold abaAckRx
  repeat' with_reducible first
    | assumption | exact Nat.le_refl _ | apply keeps_abaRx

theorem keeps_abaCreditRx {o0 : State} {w : RayWords} {s : State} (hk : Keeps o0 s) : Keeps o0
    (abaCreditRx w s) := by
  unfold abaCreditRx
  repeat' with_reducible first
    | assumption | exact Nat.le_refl _ | apply keeps_abaRx

theorem keeps_abaAckLimit {o0 : State} {s : State} (hk : Keeps o0 s) : Keeps o0 (abaAckLimit s) := by
  unfold abaAckLimit
  repeat' with_reducible first
    | assumption | exact Nat.le_refl _ | apply Keeps.ite | apply Keeps.ite2 | apply keeps_abaResend

theorem keeps_dmaFail {o0 : State} {s : State} (hk : Keeps o0 s) : Keeps o0 (dmaFail s) := by
  unfold dmaFail
  repeat' with_reducible first
    | assumption | exact Nat.le_refl _ | apply keeps_bump | apply keeps_raise

theorem keeps_dmaWrite {o0 : State} {a : Nat} {d : List Byte} {s : State} (hk : Keeps o0 s) : Keeps o0
    (dmaWrite a d s).2 := by
  unfold dmaWrite
  repeat' with_reducible first
    | assumption | exact Nat.le_refl _ | apply Keeps.ite | apply Keeps.ite2 | apply keeps_abaSend
    | apply keeps_dmaFail

theorem keeps_dmaRead {o0 : State} {a n : Nat} {f : DmaFor} {s : State} (hk : Keeps o0 s) : Keeps o0
    (dmaRead a n f s).2 := by
  unfold dmaRead
  repeat' first
    | with_reducible (first
      | assumption | exact Nat.le_refl _)
    | ((try lift_lets -underBinder); intro z; first
      | (refine Keeps.cut (o0 := o0) (z := z) ?_ (fun hz => ?_); subst z; rotate_left; clear_value z)
      | (clear_value z)
      | (skip))
    | with_reducible (first
      | exact Nat.le_add_right _ _ | apply Keeps.ite | apply Keeps.ite2 | apply keeps_setAba | apply keeps_abaSend
      | apply keeps_dmaFail)

theorem keeps_windowWrite {o0 : State} {w i size : Nat} {d : List Byte} {s : State} (hk : Keeps o0 s) : Keeps o0
    (windowWrite w i size d s).2 := by
  unfold windowWrite
  repeat' first
    | with_reducible (first
      | assumption | exact Nat.le_refl _)
    | ((try lift_lets -underBinder); intro z; first
      | (clear_value z)
      | (skip))
    | with_reducible (first
      | apply Keeps.ite | apply Keeps.ite2 | apply keeps_abaSend | apply keeps_dmaFail)

theorem keeps_signalOut {o0 : State} {n count : Nat} {s : State} (hk : Keeps o0 s) : Keeps o0
    (signalOut n count s) := by
  unfold signalOut
  repeat' with_reducible first
    | assumption | exact Nat.le_refl _ | apply keeps_setAba | apply keeps_abaSend

theorem keeps_signal {o0 : State} {n : Nat} {s : State} (hk : Keeps o0 s) : Keeps o0 (signal n s) := by
  unfold signal
  repeat' with_reducible first
    | assumption | exact Nat.le_refl _ | apply Keeps.ite | apply Keeps.ite2 | apply keeps_bump | apply keeps_setAba
    | apply keeps_signalOut

theorem keeps_signalsOut {o0 : State} {s : State} (hk : Keeps o0 s) : Keeps o0 (signalsOut s) := by
  unfold signalsOut
  repeat' first
    | with_reducible (first
      | assumption | exact Nat.le_refl _)
    | ((try lift_lets -underBinder); intro z; first
      | (refine Keeps.cut (o0 := o0) (z := z) ?_ (fun hz => ?_); subst z; rotate_left; clear_value z)
      | (clear_value z)
      | (skip))
    | with_reducible (first
      | apply Keeps.ite | apply Keeps.ite2 | apply keeps_setAba | apply keeps_signalOut
      | refine Keeps.foldl ?_ (fun z x hz => ?_))

theorem keeps_abaTell {o0 : State} {s : State} (hk : Keeps o0 s) : Keeps o0 (abaTell s) := by
  unfold abaTell
  repeat' with_reducible first
    | assumption | exact Nat.le_refl _ | apply Keeps.ite | apply Keeps.ite2 | apply keeps_abaSend

theorem keeps_abaTick {o0 : State} {s : State} (hk : Keeps o0 s) : Keeps o0 (abaTick s) := by
  unfold abaTick
  repeat' with_reducible first
    | assumption | exact Nat.le_refl _ | apply keeps_setAba | apply keeps_signalsOut | apply keeps_abaTell

theorem keeps_streamDrop {o0 : State} {s : State} (hk : Keeps o0 s) : Keeps o0 (streamDrop s) := by
  unfold streamDrop
  repeat' with_reducible first
    | assumption | exact Nat.le_refl _ | apply keeps_bump | apply keeps_raise

theorem keeps_streamDeliver {o0 : State} {f : Flit} {s : State} (hk : Keeps o0 s) : Keeps o0
    (streamDeliver f s) := by
  unfold streamDeliver
  repeat' first
    | with_reducible (first
      | assumption | exact Nat.le_refl _)
    | ((try lift_lets -underBinder); intro z; first
      | (clear_value z)
      | (skip))
    | with_reducible (first
      | apply Keeps.ite | apply Keeps.ite2 | apply keeps_wr | apply keeps_windowWrite | apply keeps_streamDrop)
    | refine Keeps.pair ?_ (fun a z hz => ?_)
    | refine Keeps.pair2 ?_ (fun a z hz => ?_)
    | with_reducible rfl
    | split
    | refine Keeps.eqv (by with_reducible assumption) ?_

theorem keeps_abaTrainStart {o0 : State} {s : State} (hk : Keeps o0 s) : Keeps o0 (abaTrainStart s) := by
  unfold abaTrainStart
  repeat' with_reducible first
    | assumption | exact Nat.le_refl _ | apply keeps_wr | apply keeps_setAba

theorem keeps_abaDown {o0 : State} {s : State} (hk : Keeps o0 s) : Keeps o0 (abaDown s) := by
  unfold abaDown
  repeat' with_reducible first
    | assumption | exact Nat.le_refl _ | apply keeps_wr | apply keeps_raise

theorem keeps_abaInit {o0 : State} {s : State} (hk : Keeps o0 s) : Keeps o0 (abaInit s) := by
  unfold abaInit
  repeat' first
    | with_reducible (first
      | assumption | exact Nat.le_refl _)
    | ((try lift_lets -underBinder); intro z; first
      | (refine Keeps.cut (o0 := o0) (z := z) ?_ (fun hz => ?_); subst z; rotate_left; clear_value z)
      | (refine Keeps.fn (o0 := o0) (f := z) ?_ (fun hz => ?_); subst z; intro z hz; rotate_left; clear_value z)
      | (refine Keeps.fn1 (o0 := o0) (f := z) ?_ (fun hz => ?_); subst z; intro a z hz; rotate_left; clear_value z)
      | (refine Keeps.fn2 (o0 := o0) (f := z) ?_ (fun hz => ?_); subst z; intro a b z hz; rotate_left; clear_value z)
      | (refine Keeps.fnp (o0 := o0) (f := z) ?_ (fun hz => ?_); subst z; intro a z hz; rotate_left; clear_value z)
      | (refine Keeps.sec z ?_; subst z)
      | (clear_value z)
      | (skip))
    | with_reducible (first
      | apply keeps_wr | apply keeps_setAba)

theorem keeps_abaTrained {o0 : State} {w : Nat} {s : State} (hk : Keeps o0 s) : Keeps o0 (abaTrained w s) := by
  unfold abaTrained
  repeat' first
    | with_reducible (first
      | assumption | exact Nat.le_refl _)
    | ((try lift_lets -underBinder); intro z; first
      | (refine Keeps.cut (o0 := o0) (z := z) ?_ (fun hz => ?_); subst z; rotate_left; clear_value z)
      | (clear_value z)
      | (skip))
    | with_reducible (first
      | apply Keeps.ite | apply Keeps.ite2 | apply keeps_wr | apply keeps_raise | apply keeps_abaDrain
      | apply keeps_abaResend | apply keeps_signalsOut | apply keeps_abaDown | apply keeps_abaInit)

theorem keeps_abaTrainLimit {o0 : State} {s : State} (hk : Keeps o0 s) : Keeps o0 (abaTrainLimit s) := by
  unfold abaTrainLimit
  repeat' with_reducible first
    | assumption | exact Nat.le_refl _ | apply Keeps.ite | apply Keeps.ite2 | apply keeps_setAba
    | apply keeps_abaDown

theorem keeps_abaTrainRetry {o0 : State} {s : State} (hk : Keeps o0 s) : Keeps o0 (abaTrainRetry s) := by
  unfold abaTrainRetry
  repeat' with_reducible first
    | assumption | exact Nat.le_refl _ | apply Keeps.ite | apply Keeps.ite2 | apply keeps_abaTrainStart

theorem keeps_abaRetrainGo {o0 : State} {s : State} (hk : Keeps o0 s) : Keeps o0 (abaRetrainGo s) := by
  unfold abaRetrainGo
  repeat' first
    | with_reducible (first
      | assumption | exact Nat.le_refl _)
    | ((try lift_lets -underBinder); intro z; first
      | (refine Keeps.cut (o0 := o0) (z := z) ?_ (fun hz => ?_); subst z; rotate_left; clear_value z)
      | (clear_value z)
      | (skip))
    | with_reducible (first
      | apply keeps_wr | apply keeps_raise | apply keeps_setAba)

theorem keeps_abaRetrain {o0 : State} {s : State} (hk : Keeps o0 s) : Keeps o0 (abaRetrain s) := by
  unfold abaRetrain
  repeat' with_reducible first
    | assumption | exact Nat.le_refl _ | apply Keeps.ite | apply Keeps.ite2 | apply keeps_abaRetrainGo

theorem keeps_abaRetrainDue {o0 : State} {s : State} (hk : Keeps o0 s) : Keeps o0 (abaRetrainDue s) := by
  unfold abaRetrainDue
  repeat' first
    | with_reducible (first
      | assumption | exact Nat.le_refl _)
    | ((try lift_lets -underBinder); intro z; first
      | (clear_value z)
      | (skip))
    | with_reducible (first
      | apply Keeps.ite | apply Keeps.ite2 | apply keeps_setAba | apply keeps_abaRetrainGo)

theorem keeps_abaRetrainDeferred {o0 : State} {s : State} (hk : Keeps o0 s) : Keeps o0 (abaRetrainDeferred s) := by
  unfold abaRetrainDeferred
  repeat' with_reducible first
    | assumption | exact Nat.le_refl _ | apply Keeps.ite | apply Keeps.ite2 | apply keeps_abaRetrainGo

theorem keeps_abaWindow {o0 : State} {s : State} (hk : Keeps o0 s) : Keeps o0 (abaWindow s) := by
  unfold abaWindow
  repeat' first
    | with_reducible (first
      | assumption | exact Nat.le_refl _)
    | ((try lift_lets -underBinder); intro z; first
      | (refine Keeps.cut (o0 := o0) (z := z) ?_ (fun hz => ?_); subst z; rotate_left; clear_value z)
      | (clear_value z)
      | (skip))
    | with_reducible (first
      | apply Keeps.ite | apply Keeps.ite2 | apply keeps_setAba | apply keeps_abaRetrainDue)

theorem keeps_fecLost {o0 : State} {p : Option PortId} {s : State} (hk : Keeps o0 s) : Keeps o0 (fecLost p s) := by
  unfold fecLost
  repeat' first
    | with_reducible (first
      | assumption | exact Nat.le_refl _ | apply keeps_bump)
    | refine Keeps.pair ?_ (fun a z hz => ?_)
    | refine Keeps.pair2 ?_ (fun a z hz => ?_)
    | with_reducible rfl
    | split

theorem keeps_snapRefuse {o0 : State} {cause : Nat} {s : State} (hk : Keeps o0 s) : Keeps o0
    (snapRefuse cause s) := by
  unfold snapRefuse
  repeat' with_reducible first
    | assumption | exact Nat.le_refl _ | apply keeps_wr | apply keeps_raise | rfl | apply Keeps.mk_

theorem keeps_snapArm {o0 : State} {frame : Nat} {s : State} (hk : Keeps o0 s) : Keeps o0 (snapArm frame s) := by
  unfold snapArm
  repeat' first
    | with_reducible (first
      | assumption | exact Nat.le_refl _)
    | ((try lift_lets -underBinder); intro z; first
      | (refine Keeps.cut (o0 := o0) (z := z) ?_ (fun hz => ?_); subst z; rotate_left; clear_value z)
      | (clear_value z)
      | (skip))
    | with_reducible (first
      | apply Keeps.ite | apply Keeps.ite2 | apply keeps_wr | apply keeps_snapRefuse)
    | refine Keeps.pair ?_ (fun a z hz => ?_)
    | refine Keeps.pair2 ?_ (fun a z hz => ?_)
    | with_reducible rfl
    | split
    | refine Keeps.eqv (by with_reducible assumption) ?_
    | refine Keeps.eqv2 (by with_reducible assumption) ?_
    | with_reducible apply Keeps.mk_

theorem keeps_snapShutter {o0 : State} {s : State} (hk : Keeps o0 s) : Keeps o0 (snapShutter s) := by
  unfold snapShutter
  repeat' first
    | with_reducible (first
      | assumption | exact Nat.le_refl _)
    | ((try lift_lets -underBinder); intro z; first
      | (refine Keeps.cut (o0 := o0) (z := z) ?_ (fun hz => ?_); subst z; rotate_left; clear_value z)
      | (clear_value z)
      | (skip))
    | with_reducible (first
      | apply Keeps.ite | apply Keeps.ite2 | apply keeps_wr | apply keeps_snapRefuse)
    | refine Keeps.pair ?_ (fun a z hz => ?_)
    | refine Keeps.pair2 ?_ (fun a z hz => ?_)
    | with_reducible rfl
    | split
    | refine Keeps.eqv (by with_reducible assumption) ?_
    | refine Keeps.eqv2 (by with_reducible assumption) ?_
    | with_reducible apply Keeps.mk_

theorem keeps_firstWriteCopy {o0 : State} {c pg : Nat} {s : State} (hk : Keeps o0 s) : Keeps o0
    (firstWriteCopy c pg s) := by
  unfold firstWriteCopy
  repeat' with_reducible first
    | assumption | exact Nat.le_refl _ | apply keeps_snapHook

theorem keeps_backgroundCopy {o0 : State} {c : Nat} {errs : List GErr} {s : State} (hk : Keeps o0 s) : Keeps o0
    (backgroundCopy c errs s) := by
  unfold backgroundCopy
  repeat' first
    | with_reducible (first
      | assumption | exact Nat.le_refl _)
    | ((try lift_lets -underBinder); intro z; first
      | (refine Keeps.cut (o0 := o0) (z := z) ?_ (fun hz => ?_); subst z; rotate_left; clear_value z)
      | (clear_value z)
      | (skip))
    | with_reducible (first
      | exact Nat.le_add_right _ _ | apply Keeps.ite | apply Keeps.ite2 | apply keeps_bump
      | apply keeps_copyGranules)
    | refine Keeps.pair ?_ (fun a z hz => ?_)
    | refine Keeps.pair2 ?_ (fun a z hz => ?_)
    | with_reducible rfl
    | split
    | refine Keeps.eqv (by with_reducible assumption) ?_
    | refine Keeps.eqv2 (by with_reducible assumption) ?_
    | with_reducible apply Keeps.mk_

theorem keeps_drainHost {o0 : State} {c slot off n i : Nat} {s : State} (hk : Keeps o0 s) :
    Keeps o0 (drainHost c slot off n i s).2 := by
  induction n generalizing i s with
  | zero => unfold drainHost; exact hk
  | succ n ih =>
    have h := keeps_dmaWrite (a := rd R.SNAP_DEST 0 s + off + 4096 * i)
      (d := stagePiece c slot i s) hk
    unfold drainHost
    split
    · rename_i e; rw [e] at h; exact ih h
    · rename_i e; rw [e] at h; exact h

theorem keeps_drainPeer {o0 : State} {c slot off q : Nat} {s : State} (hk : Keeps o0 s) : Keeps o0
    (drainPeer c slot off q s) := by
  unfold drainPeer
  repeat' first
    | with_reducible (first
      | assumption | exact Nat.le_refl _)
    | ((try lift_lets -underBinder); intro z; first
      | (refine Keeps.cut (o0 := o0) (z := z) ?_ (fun hz => ?_); subst z; rotate_left; clear_value z)
      | (clear_value z)
      | (skip))
    | with_reducible (first
      | apply keeps_arrPush | refine Keeps.foldl ?_ (fun z x hz => ?_))

theorem keeps_snapDrain {o0 : State} {c : Nat} {s : State} (hk : Keeps o0 s) : Keeps o0 (snapDrain c s) := by
  have hd (k : Nat) (q : SnapPage) (s : State) (h : Keeps o0 s) : Keeps o0
      (bump R.SNAP_DRAINED 0 1 { s with snap := { s.snap with pages := mput k { q with drained := true } s.snap.pages } }) :=
    keeps_bump (Keeps.mk_ h (Nat.le_refl _) rfl)
  unfold snapDrain
  split
  · exact hk
  · split
    · exact hk
    · dsimp only
      split
      · split
        · exact hk
        · split
          · exact hd _ _ _ (keeps_drainPeer hk)
          · exact hk
      · rename_i k q _ _
        have h := keeps_drainHost (c := c) (slot := q.slot) (off := (imageOffset c (k % 2048) s.snap.descs 0 0).1) (n := 16) (i := 0) hk
        split
        · rename_i e; rw [e] at h; exact hd _ _ _ h
        · rename_i e; rw [e] at h; exact keeps_snapCancel h

theorem keeps_snapCancelHost {o0 : State} {s : State} (hk : Keeps o0 s) : Keeps o0 (snapCancelHost s) := by
  unfold snapCancelHost
  repeat' with_reducible first
    | assumption | exact Nat.le_refl _ | apply Keeps.ite | apply Keeps.ite2 | apply keeps_snapCancel

theorem keeps_snapTick {o0 : State} {s : State} (hk : Keeps o0 s) : Keeps o0 (snapTick s) := by
  unfold snapTick
  repeat' first
    | with_reducible (first
      | assumption | exact Nat.le_refl _)
    | ((try lift_lets -underBinder); intro z; first
      | (refine Keeps.cut (o0 := o0) (z := z) ?_ (fun hz => ?_); subst z; rotate_left; clear_value z)
      | (clear_value z)
      | (skip))
    | with_reducible (first
      | apply Keeps.ite | apply Keeps.ite2 | apply keeps_wr | apply keeps_raise | rfl)
    | split
    | with_reducible apply Keeps.mk_

end Sys2Proof.Machine
end

