-- ==== Sys2Proof/Laws/KeepsPlate.lean ====
section
/-! SUPPORT. What no command may do (`Keeps`, Safety.lean) is kept by every operation of
plates, rings, the sync group and power:
from a state that kept it since `o0`, the operation answers one that did. -/
namespace Sys2Proof.Machine

theorem keeps_entryIn {o0 : State} {c : Nat} {e : RouteEntry} {s : State} (hk : Keeps o0 s) : Keeps o0
    (entryIn c e s).2 := by
  unfold entryIn
  repeat' first
    | with_reducible (first
      | assumption | exact Nat.le_refl _ | apply Keeps.ite | apply Keeps.ite2 | apply keeps_departFlit
      | apply keeps_takeMesh | apply keeps_rayTake)
    | refine Keeps.pair ?_ (fun a z hz => ?_)
    | refine Keeps.pair2 ?_ (fun a z hz => ?_)
    | with_reducible rfl
    | split

theorem keeps_entryOut {o0 : State} {c : Nat} {e : RouteEntry} {f : Flit} {s : State} (hk : Keeps o0 s) : Keeps o0
    (entryOut c e f s) := by
  unfold entryOut
  repeat' first
    | with_reducible (first
      | assumption | exact Nat.le_refl _)
    | ((try lift_lets -underBinder); intro z; first
      | (clear_value z)
      | (skip))
    | with_reducible (first
      | apply Keeps.ite | apply Keeps.ite2 | apply keeps_arriveFlit | apply keeps_driveMesh | apply keeps_seamInject
      | apply keeps_tapInject | apply keeps_rayDeliver | apply keeps_streamDeliver)
    | refine Keeps.pair ?_ (fun a z hz => ?_)
    | refine Keeps.pair2 ?_ (fun a z hz => ?_)
    | with_reducible rfl
    | split

theorem keeps_routeEntry {o0 : State} {c idx : Nat} {s : State} (hk : Keeps o0 s) : Keeps o0
    (routeEntry c idx s) := by
  unfold routeEntry
  repeat' first
    | with_reducible (first
      | assumption | exact Nat.le_refl _)
    | ((try lift_lets -underBinder); intro z; first
      | (clear_value z)
      | (skip))
    | with_reducible (first
      | apply Keeps.ite | apply Keeps.ite2 | apply keeps_entryIn | apply keeps_entryOut)
    | refine Keeps.pair ?_ (fun a z hz => ?_)
    | refine Keeps.pair2 ?_ (fun a z hz => ?_)
    | with_reducible rfl
    | split

theorem keeps_stopRegion {o0 : State} {r : Nat} {s : State} (hk : Keeps o0 s) : Keeps o0 (stopRegion r s) := by
  unfold stopRegion
  repeat' first
    | with_reducible (first
      | assumption | exact Nat.le_refl _ | apply Keeps.ite | apply Keeps.ite2 | apply keeps_later)
    | refine Keeps.pair ?_ (fun a z hz => ?_)
    | refine Keeps.pair2 ?_ (fun a z hz => ?_)
    | with_reducible rfl
    | split

theorem keeps_fenceLog {o0 : State} {c cause : Nat} {s : State} (hk : Keeps o0 s) : Keeps o0
    (fenceLog c cause s) := by
  unfold fenceLog
  repeat' first
    | with_reducible (first
      | assumption | exact Nat.le_refl _)
    | ((try lift_lets -underBinder); intro z; first
      | (clear_value z)
      | (skip))
    | with_reducible (first
      | apply Keeps.ite | apply Keeps.ite2 | apply keeps_wr)

theorem keeps_fenceCore {o0 : State} {c cause : Nat} {s : State} (hk : Keeps o0 s) : Keeps o0
    (fenceCore c cause s) := by
  unfold fenceCore
  repeat' first
    | with_reducible (first
      | assumption | exact Nat.le_refl _)
    | ((try lift_lets -underBinder); intro z; first
      | (refine Keeps.cut (o0 := o0) (z := z) ?_ (fun hz => ?_); subst z; rotate_left; clear_value z)
      | (clear_value z)
      | (skip))
    | with_reducible (first
      | apply Keeps.ite | apply Keeps.ite2 | apply keeps_orIn | apply keeps_later | apply keeps_setCore
      | apply keeps_invalidate | apply keeps_enterNow | apply keeps_stopRegion | apply keeps_fenceLog | rfl)
    | split
    | with_reducible apply Keeps.mk_

theorem keeps_fenceTick {o0 : State} {c : Nat} {s : State} (hk : Keeps o0 s) : Keeps o0 (fenceTick c s) := by
  unfold fenceTick
  repeat' first
    | with_reducible (first
      | assumption | exact Nat.le_refl _)
    | ((try lift_lets -underBinder); intro z; first
      | (clear_value z)
      | (skip))
    | with_reducible (first
      | apply Keeps.ite | apply Keeps.ite2 | apply keeps_wr)

theorem keeps_unfenceCore {o0 : State} {c : Nat} {s : State} (hk : Keeps o0 s) : Keeps o0 (unfenceCore c s) := by
  unfold unfenceCore
  repeat' first
    | with_reducible (first
      | assumption | exact Nat.le_refl _)
    | ((try lift_lets -underBinder); intro z; first
      | (clear_value z)
      | (skip))
    | with_reducible (first
      | apply Keeps.ite | apply Keeps.ite2 | apply keeps_wr | rfl)
    | split
    | with_reducible apply Keeps.mk_

theorem keeps_coreCheckFail {o0 : State} {c : Nat} {s : State} (hk : Keeps o0 s) : Keeps o0
    (coreCheckFail c s) := by
  unfold coreCheckFail
  repeat' with_reducible first
    | assumption | exact Nat.le_refl _ | apply Keeps.ite | apply Keeps.ite2 | apply keeps_raiseTag
    | apply keeps_fenceCore

theorem keeps_routerLost {o0 : State} {h row col : Nat} {s : State} (hk : Keeps o0 s) : Keeps o0
    (routerLost h row col s) := by
  unfold routerLost
  repeat' with_reducible first
    | assumption | exact Nat.le_refl _ | apply Keeps.ite | apply Keeps.ite2 | apply keeps_later | apply keeps_raise
    | apply keeps_stopPlates

theorem keeps_setWidth {o0 : State} {b d n : Nat} {s : State} (hk : Keeps o0 s) : Keeps o0 (setWidth b d n s) := by
  unfold setWidth
  repeat' with_reducible first
    | assumption | exact Nat.le_refl _ | apply Keeps.ite | apply Keeps.ite2 | apply keeps_wr

theorem keeps_bridgeOff {o0 : State} {b d : Nat} {s : State} (hk : Keeps o0 s) : Keeps o0 (bridgeOff b d s) := by
  unfold bridgeOff
  repeat' with_reducible first
    | assumption | exact Nat.le_refl _ | apply Keeps.ite | apply Keeps.ite2 | apply keeps_raise
    | apply keeps_setWidth

theorem keeps_loseHalf {o0 : State} {h row col : Nat} {s : State} (hk : Keeps o0 s) : Keeps o0
    (loseHalf h row col s) := by
  unfold loseHalf
  repeat' first
    | with_reducible (first
      | assumption | exact Nat.le_refl _)
    | ((try lift_lets -underBinder); intro z; first
      | (refine Keeps.cut (o0 := o0) (z := z) ?_ (fun hz => ?_); subst z; rotate_left; clear_value z)
      | (refine Keeps.fn (o0 := o0) (f := z) ?_ (fun hz => ?_); subst z; intro z hz; rotate_left; clear_value z)
      | (refine Keeps.fn1 (o0 := o0) (f := z) ?_ (fun hz => ?_); subst z; intro a z hz; rotate_left; clear_value z)
      | (refine Keeps.fn2 (o0 := o0) (f := z) ?_ (fun hz => ?_); subst z; intro a b z hz; rotate_left; clear_value z)
      | (refine Keeps.fnp (o0 := o0) (f := z) ?_ (fun hz => ?_); subst z; intro a z hz; rotate_left; clear_value z)
      | (refine Keeps.sec z ?_; subst z)
      | (clear_value z)
      | (skip))
    | with_reducible (first
      | apply keeps_wr | apply keeps_fenceCore | apply keeps_bridgeOff | refine Keeps.foldl ?_ (fun z x hz => ?_))

theorem keeps_fenceRequest {o0 : State} {r core : Nat} {s : State} (hk : Keeps o0 s) : Keeps o0
    (fenceRequest r core s) := by
  unfold fenceRequest
  repeat' with_reducible first
    | assumption | exact Nat.le_refl _ | apply keeps_later

theorem keeps_sendBeacon {o0 : State} {f : Nat → Bool} {m : BeaconMsg} {s : State} (hk : Keeps o0 s) : Keeps o0
    (sendBeacon f m s) := by
  unfold sendBeacon
  repeat' with_reducible first
    | assumption | exact Nat.le_refl _ | apply Keeps.ite | apply Keeps.ite2 | apply keeps_rayCtl
    | refine Keeps.foldl ?_ (fun z x hz => ?_)

theorem keeps_mergeProposal {o0 : State} {frame : Nat} {a : Agreed} {s : State} (hk : Keeps o0 s) : Keeps o0
    (mergeProposal frame a s) := by
  unfold mergeProposal
  repeat' with_reducible first
    | assumption | exact Nat.le_refl _ | rfl | apply Keeps.mk_

theorem keeps_adopt {o0 : State} {frame : Nat} {a : Agreed} {s : State} (hk : Keeps o0 s) : Keeps o0
    (adopt frame a s) := by
  unfold adopt
  repeat' with_reducible first
    | assumption | exact Nat.le_refl _ | rfl | apply Keeps.mk_

theorem keeps_showNext {o0 : State} {s : State} (hk : Keeps o0 s) : Keeps o0 (showNext s) := by
  unfold showNext
  repeat' with_reducible first
    | assumption | exact Nat.le_refl _ | apply Keeps.ite | apply Keeps.ite2 | apply keeps_wr

theorem keeps_setOwn {o0 : State} {a : Agreed} {s : State} (hk : Keeps o0 s) : Keeps o0 (setOwn a s) := by
  unfold setOwn
  repeat' with_reducible first
    | assumption | exact Nat.le_refl _ | apply keeps_wr | rfl | apply Keeps.mk_

theorem keeps_joined {o0 : State} {frame : Nat} {s : State} (hk : Keeps o0 s) : Keeps o0 (joined frame s) := by
  unfold joined
  repeat' first
    | with_reducible (first
      | assumption | exact Nat.le_refl _)
    | ((try lift_lets -underBinder); intro z; first
      | (refine Keeps.cut (o0 := o0) (z := z) ?_ (fun hz => ?_); subst z; rotate_left; clear_value z)
      | (refine Keeps.fn (o0 := o0) (f := z) ?_ (fun hz => ?_); subst z; intro z hz; rotate_left; clear_value z)
      | (refine Keeps.fn1 (o0 := o0) (f := z) ?_ (fun hz => ?_); subst z; intro a z hz; rotate_left; clear_value z)
      | (refine Keeps.fn2 (o0 := o0) (f := z) ?_ (fun hz => ?_); subst z; intro a b z hz; rotate_left; clear_value z)
      | (refine Keeps.fnp (o0 := o0) (f := z) ?_ (fun hz => ?_); subst z; intro a z hz; rotate_left; clear_value z)
      | (refine Keeps.sec z ?_; subst z)
      | (clear_value z)
      | (skip))
    | with_reducible (first
      | apply Keeps.ite | apply Keeps.ite2 | apply keeps_wr | apply keeps_showNext)

theorem keeps_beaconRx_go {o0 : State} {p : Nat} {m : BeaconMsg} {f : Nat} {s : State} (hk : Keeps o0 s) :
    Keeps o0 (beaconRx.go p m f s) :=
  keeps_sendBeacon (keeps_joined (keeps_adopt (Keeps.mk_ hk (Nat.le_refl _) rfl)))

theorem keeps_beaconRx {o0 : State} {p : Nat} {w : RayWords} {proposal : Bool} {k : BitVec 4} {test : Bool}
    {s : State} (hk : Keeps o0 s) : Keeps o0 (beaconRx p w proposal k test s) := by
  unfold beaconRx
  repeat' first
    | with_reducible (first
      | assumption | exact Nat.le_refl _)
    | ((try lift_lets -underBinder); intro z; first
      | (refine Keeps.cut (o0 := o0) (z := z) ?_ (fun hz => ?_); subst z; rotate_left; clear_value z)
      | (clear_value z)
      | (skip))
    | with_reducible (first
      | apply Keeps.ite | apply Keeps.ite2 | apply keeps_beaconRx_go | apply keeps_rayNak | apply keeps_rayRx
      | apply keeps_sendBeacon | apply keeps_mergeProposal | apply keeps_adopt | apply keeps_joined)
    | refine Keeps.pair ?_ (fun a z hz => ?_)
    | refine Keeps.pair2 ?_ (fun a z hz => ?_)
    | with_reducible rfl
    | split
    | refine Keeps.eqv (by with_reducible assumption) ?_

theorem keeps_leaveGroup {o0 : State} {s : State} (hk : Keeps o0 s) : Keeps o0 (leaveGroup s) := by
  unfold leaveGroup
  repeat' with_reducible first
    | assumption | exact Nat.le_refl _ | apply keeps_wr | apply keeps_stopPlates | apply keeps_showNext

theorem keeps_syncLoss {o0 : State} {s : State} (hk : Keeps o0 s) : Keeps o0 (syncLoss s) := by
  unfold syncLoss
  repeat' with_reducible first
    | assumption | exact Nat.le_refl _ | apply Keeps.ite | apply Keeps.ite2 | apply keeps_raise
    | apply keeps_leaveGroup

theorem keeps_rejoin {o0 : State} {s : State} (hk : Keeps o0 s) : Keeps o0 (rejoin s) := by
  unfold rejoin
  repeat' first
    | with_reducible (first
      | assumption | exact Nat.le_refl _ | apply Keeps.ite | apply Keeps.ite2 | apply keeps_wr | rfl)
    | split
    | with_reducible apply Keeps.mk_

theorem keeps_rejoinLimit {o0 : State} {s : State} (hk : Keeps o0 s) : Keeps o0 (rejoinLimit s) := by
  unfold rejoinLimit
  repeat' with_reducible first
    | assumption | exact Nat.le_refl _ | apply Keeps.ite | apply Keeps.ite2 | apply keeps_wr | apply keeps_raise

theorem keeps_routeArm {o0 : State} {frame : Nat} {s : State} (hk : Keeps o0 s) : Keeps o0 (routeArm frame s) := by
  unfold routeArm
  repeat' first
    | with_reducible (first
      | assumption | exact Nat.le_refl _)
    | ((try lift_lets -underBinder); intro z; first
      | (refine Keeps.cut (o0 := o0) (z := z) ?_ (fun hz => ?_); subst z; rotate_left; clear_value z)
      | (clear_value z)
      | (skip))
    | with_reducible (first
      | apply Keeps.ite | apply Keeps.ite2 | apply keeps_wr | apply keeps_raise | rfl)
    | split
    | with_reducible apply Keeps.mk_

theorem keeps_routeSwap {o0 : State} {s : State} (hk : Keeps o0 s) : Keeps o0 (routeSwap s) := by
  unfold routeSwap
  repeat' first
    | with_reducible (first
      | assumption | exact Nat.le_refl _)
    | ((try lift_lets -underBinder); intro z; first
      | (refine Keeps.cut (o0 := o0) (z := z) ?_ (fun hz => ?_); subst z; rotate_left; clear_value z)
      | (clear_value z)
      | (skip))
    | with_reducible (first
      | apply Keeps.ite | apply Keeps.ite2 | apply keeps_wr)
    | refine Keeps.pair ?_ (fun a z hz => ?_)
    | refine Keeps.pair2 ?_ (fun a z hz => ?_)
    | with_reducible rfl
    | split
    | refine Keeps.eqv (by with_reducible assumption) ?_
    | refine Keeps.eqv2 (by with_reducible assumption) ?_
    | with_reducible apply Keeps.mk_

theorem keeps_viewHold {o0 : State} {on : Bool} {s : State} (hk : Keeps o0 s) : Keeps o0 (viewHold on s) := by
  unfold viewHold
  repeat' with_reducible first
    | assumption | exact Nat.le_refl _ | apply keeps_wr | apply keeps_later

theorem keeps_viewExpiry {o0 : State} {s : State} (hk : Keeps o0 s) : Keeps o0 (viewExpiry s) := by
  unfold viewExpiry
  repeat' with_reducible first
    | assumption | exact Nat.le_refl _ | apply Keeps.ite | apply Keeps.ite2 | apply keeps_wr | apply keeps_later
    | apply keeps_raise

theorem keeps_propose {o0 : State} {a : Agreed} {s : State} (hk : Keeps o0 s) : Keeps o0 (propose a s) := by
  unfold propose
  repeat' first
    | with_reducible (first
      | assumption | exact Nat.le_refl _)
    | ((try lift_lets -underBinder); intro z; first
      | (refine Keeps.cut (o0 := o0) (z := z) ?_ (fun hz => ?_); subst z; rotate_left; clear_value z)
      | (clear_value z)
      | (skip))
    | with_reducible (first
      | apply Keeps.ite | apply Keeps.ite2 | apply keeps_sendBeacon | apply keeps_mergeProposal
      | apply keeps_setOwn)

theorem keeps_announce {o0 : State} {s : State} (hk : Keeps o0 s) : Keeps o0 (announce s) := by
  unfold announce
  repeat' first
    | with_reducible (first
      | assumption | exact Nat.le_refl _)
    | ((try lift_lets -underBinder); intro z; first
      | (clear_value z)
      | (skip))
    | with_reducible (first
      | apply Keeps.ite | apply Keeps.ite2 | apply keeps_sendBeacon | apply keeps_adopt)

theorem keeps_pruneLens {o0 : State} {s : State} (hk : Keeps o0 s) : Keeps o0 (pruneLens s) := by
  unfold pruneLens
  repeat' first
    | with_reducible (first
      | assumption | exact Nat.le_refl _)
    | ((try lift_lets -underBinder); intro z; first
      | (clear_value z)
      | (skip))
    | with_reducible (first
      | rfl | apply Keeps.mk_)

theorem keeps_setStop {o0 : State} {h n : Nat} {s : State} (hk : Keeps o0 s) : Keeps o0 (setStop h n s) := by
  unfold setStop
  repeat' with_reducible first
    | assumption | exact Nat.le_refl _ | apply keeps_wr

theorem keeps_setApt {o0 : State} {f : Apt → Apt} {s : State} (hk : Keeps o0 s) : Keeps o0 (setApt f s) := by
  unfold setApt
  repeat' with_reducible first
    | assumption | exact Nat.le_refl _ | rfl | apply Keeps.mk_

theorem keeps_rampUp {o0 : State} {h : Nat} {s : State} (hk : Keeps o0 s) : Keeps o0 (rampUp h s) := by
  unfold rampUp
  repeat' first
    | with_reducible (first
      | assumption | exact Nat.le_refl _)
    | ((try lift_lets -underBinder); intro z; first
      | (clear_value z)
      | (skip))
    | with_reducible (first
      | apply Keeps.ite | apply Keeps.ite2 | apply keeps_setApt)

theorem keeps_putWish {o0 : State} {w : Option (Nat × Nat)} {s : State} (hk : Keeps o0 s) : Keeps o0
    (putWish w s) := by
  unfold putWish
  repeat' first
    | with_reducible (first
      | assumption | exact Nat.le_refl _ | apply keeps_wr)
    | refine Keeps.pair ?_ (fun a z hz => ?_)
    | refine Keeps.pair2 ?_ (fun a z hz => ?_)
    | with_reducible rfl
    | split

theorem keeps_rewish {o0 : State} {s : State} (hk : Keeps o0 s) : Keeps o0 (rewish s) := by
  unfold rewish
  repeat' with_reducible first
    | assumption | exact Nat.le_refl _ | apply Keeps.ite | apply Keeps.ite2 | apply keeps_showNext
    | apply keeps_setOwn

theorem keeps_rampDone {o0 : State} {h : Nat} {s : State} (hk : Keeps o0 s) : Keeps o0 (rampDone h s) := by
  unfold rampDone
  repeat' first
    | with_reducible (first
      | assumption | exact Nat.le_refl _ | apply Keeps.ite | apply Keeps.ite2 | apply keeps_setApt
      | apply keeps_rewish)
    | refine Keeps.pair ?_ (fun a z hz => ?_)
    | refine Keeps.pair2 ?_ (fun a z hz => ?_)
    | with_reducible rfl
    | split

theorem keeps_lateRamps {o0 : State} {s : State} (hk : Keeps o0 s) : Keeps o0 (lateRamps s) := by
  unfold lateRamps
  repeat' with_reducible first
    | assumption | exact Nat.le_refl _ | apply keeps_setApt

theorem keeps_clampTo {o0 : State} {limit v : Nat} {s : State} (hk : Keeps o0 s) : Keeps o0
    (clampTo limit v s).2 := by
  unfold clampTo
  repeat' with_reducible first
    | assumption | exact Nat.le_refl _ | apply Keeps.ite | apply Keeps.ite2 | apply keeps_raise

theorem keeps_movePoint {o0 : State} {s : State} (hk : Keeps o0 s) : Keeps o0 (movePoint s) := by
  unfold movePoint
  repeat' with_reducible first
    | assumption | exact Nat.le_refl _ | apply keeps_setApt

theorem keeps_stepDown {o0 : State} {s : State} (hk : Keeps o0 s) : Keeps o0 (stepDown s) := by
  unfold stepDown
  repeat' first
    | with_reducible (first
      | assumption | exact Nat.le_refl _)
    | ((try lift_lets -underBinder); intro z; first
      | (refine Keeps.cut (o0 := o0) (z := z) ?_ (fun hz => ?_); subst z; rotate_left; clear_value z)
      | (clear_value z)
      | (skip))
    | with_reducible (first
      | apply Keeps.ite | apply Keeps.ite2 | apply keeps_wr | apply keeps_raise | apply keeps_setApt
      | apply keeps_movePoint)

theorem keeps_stepUp {o0 : State} {s : State} (hk : Keeps o0 s) : Keeps o0 (stepUp s) := by
  unfold stepUp
  repeat' first
    | with_reducible (first
      | assumption | exact Nat.le_refl _)
    | ((try lift_lets -underBinder); intro z; first
      | (clear_value z)
      | (skip))
    | with_reducible (first
      | apply Keeps.ite | apply Keeps.ite2 | apply keeps_wr | apply keeps_movePoint)

theorem keeps_apertureEval {o0 : State} {power : Nat} {s : State} (hk : Keeps o0 s) : Keeps o0
    (apertureEval power s) := by
  unfold apertureEval
  repeat' first
    | with_reducible (first
      | assumption | exact Nat.le_refl _)
    | ((try lift_lets -underBinder); intro z; first
      | (refine Keeps.cut (o0 := o0) (z := z) ?_ (fun hz => ?_); subst z; rotate_left; clear_value z)
      | (clear_value z)
      | (skip))
    | with_reducible (first
      | apply Keeps.ite | apply Keeps.ite2 | apply keeps_wr | apply keeps_setApt | apply keeps_stepDown
      | apply keeps_stepUp)

theorem keeps_capApply {o0 : State} {c : Nat} {s : State} (hk : Keeps o0 s) : Keeps o0 (capApply c s) := by
  unfold capApply
  repeat' first
    | with_reducible (first
      | assumption | exact Nat.le_refl _)
    | ((try lift_lets -underBinder); intro z; first
      | (refine Keeps.cut (o0 := o0) (z := z) ?_ (fun hz => ?_); subst z; rotate_left; clear_value z)
      | (clear_value z)
      | (skip))
    | with_reducible (first
      | apply Keeps.ite | apply Keeps.ite2 | apply keeps_wr | apply keeps_holdStart | apply keeps_setApt)

theorem keeps_holdEnd {o0 : State} {s : State} (hk : Keeps o0 s) : Keeps o0 (holdEnd s) := by
  unfold holdEnd
  repeat' first
    | with_reducible (first
      | assumption | exact Nat.le_refl _ | apply Keeps.ite | apply Keeps.ite2 | apply keeps_wr | rfl)
    | split
    | with_reducible apply Keeps.mk_

theorem keeps_brakeAssert {o0 : State} {s : State} (hk : Keeps o0 s) : Keeps o0 (brakeAssert s) := by
  unfold brakeAssert
  repeat' with_reducible first
    | assumption | exact Nat.le_refl _ | apply Keeps.ite | apply Keeps.ite2 | apply keeps_raise | apply keeps_setApt

theorem keeps_brakeRelease {o0 : State} {s : State} (hk : Keeps o0 s) : Keeps o0 (brakeRelease s) := by
  unfold brakeRelease
  repeat' with_reducible first
    | assumption | exact Nat.le_refl _ | apply Keeps.ite | apply Keeps.ite2 | apply keeps_setApt

theorem keeps_brakeTick {o0 : State} {s : State} (hk : Keeps o0 s) : Keeps o0 (brakeTick s) := by
  unfold brakeTick
  repeat' first
    | with_reducible (first
      | assumption | exact Nat.le_refl _)
    | ((try lift_lets -underBinder); intro z; first
      | (refine Keeps.cut (o0 := o0) (z := z) ?_ (fun hz => ?_); subst z; rotate_left; clear_value z)
      | (refine Keeps.fn (o0 := o0) (f := z) ?_ (fun hz => ?_); subst z; intro z hz; rotate_left; clear_value z)
      | (refine Keeps.fn1 (o0 := o0) (f := z) ?_ (fun hz => ?_); subst z; intro a z hz; rotate_left; clear_value z)
      | (refine Keeps.fn2 (o0 := o0) (f := z) ?_ (fun hz => ?_); subst z; intro a b z hz; rotate_left; clear_value z)
      | (refine Keeps.fnp (o0 := o0) (f := z) ?_ (fun hz => ?_); subst z; intro a z hz; rotate_left; clear_value z)
      | (refine Keeps.sec z ?_; subst z)
      | (clear_value z)
      | (skip))
    | with_reducible (first
      | apply Keeps.ite | apply Keeps.ite2 | apply keeps_wr | apply keeps_setApt)

theorem keeps_stopTick {o0 : State} {h : Nat} {s : State} (hk : Keeps o0 s) : Keeps o0 (stopTick h s) := by
  unfold stopTick
  repeat' first
    | with_reducible (first
      | assumption | exact Nat.le_refl _)
    | ((try lift_lets -underBinder); intro z; first
      | (refine Keeps.cut (o0 := o0) (z := z) ?_ (fun hz => ?_); subst z; rotate_left; clear_value z)
      | (clear_value z)
      | (skip))
    | with_reducible (first
      | apply Keeps.ite | apply Keeps.ite2 | apply keeps_wr | apply keeps_raise | apply keeps_setStop
      | apply keeps_setApt | apply keeps_rampUp | refine Keeps.foldl ?_ (fun z x hz => ?_))

theorem keeps_stopsTick {o0 : State} {s : State} (hk : Keeps o0 s) : Keeps o0 (stopsTick s) := by
  unfold stopsTick
  repeat' first
    | with_reducible (first
      | assumption | exact Nat.le_refl _)
    | ((try lift_lets -underBinder); intro z; first
      | (refine Keeps.cut (o0 := o0) (z := z) ?_ (fun hz => ?_); subst z; rotate_left; clear_value z)
      | (clear_value z)
      | (skip))
    | with_reducible (first
      | apply Keeps.ite | apply Keeps.ite2 | apply keeps_wr | apply keeps_raise | apply keeps_setApt
      | apply keeps_stopTick | refine Keeps.foldl ?_ (fun z x hz => ?_))

theorem keeps_plateBoundary {o0 : State} {m : Image} {s : State} (hk : Keeps o0 s) : Keeps o0
    (plateBoundary m s) := by
  unfold plateBoundary
  repeat' with_reducible first
    | assumption | exact Nat.le_refl _ | apply keeps_setApt

theorem keeps_heatTick {o0 : State} {env : TickEnv} {s : State} (hk : Keeps o0 s) : Keeps o0 (heatTick env s) := by
  unfold heatTick
  repeat' with_reducible first
    | assumption | exact Nat.le_refl _ | apply keeps_setTherm

theorem keeps_energyTick {o0 : State} {env : TickEnv} {s : State} (hk : Keeps o0 s) : Keeps o0
    (energyTick env s) := by
  unfold energyTick
  repeat' first
    | with_reducible (first
      | assumption | exact Nat.le_refl _)
    | ((try lift_lets -underBinder); intro z; first
      | (refine Keeps.cut (o0 := o0) (z := z) ?_ (fun hz => ?_); subst z; rotate_left; clear_value z)
      | (clear_value z)
      | (skip))
    | with_reducible (first
      | apply Keeps.ite | apply Keeps.ite2 | apply keeps_bump | apply keeps_setApt
      | refine Keeps.foldl ?_ (fun z x hz => ?_))

theorem keeps_energyDone {o0 : State} {tag : Nat} {s : State} (hk : Keeps o0 s) : Keeps o0 (energyDone tag s) := by
  unfold energyDone
  repeat' first
    | with_reducible (first
      | assumption | exact Nat.le_refl _)
    | ((try lift_lets -underBinder); intro z; first
      | (refine Keeps.cut (o0 := o0) (z := z) ?_ (fun hz => ?_); subst z; rotate_left; clear_value z)
      | (refine Keeps.fn (o0 := o0) (f := z) ?_ (fun hz => ?_); subst z; intro z hz; rotate_left; clear_value z)
      | (refine Keeps.fn1 (o0 := o0) (f := z) ?_ (fun hz => ?_); subst z; intro a z hz; rotate_left; clear_value z)
      | (refine Keeps.fn2 (o0 := o0) (f := z) ?_ (fun hz => ?_); subst z; intro a b z hz; rotate_left; clear_value z)
      | (refine Keeps.fnp (o0 := o0) (f := z) ?_ (fun hz => ?_); subst z; intro a z hz; rotate_left; clear_value z)
      | (refine Keeps.sec z ?_; subst z)
      | (clear_value z)
      | (skip))
    | with_reducible apply keeps_setApt

theorem keeps_vminLog {o0 : State} {v : VminRec} {s : State} (hk : Keeps o0 s) : Keeps o0 (vminLog v s) := by
  unfold vminLog
  repeat' first
    | with_reducible (first
      | assumption | exact Nat.le_refl _)
    | ((try lift_lets -underBinder); intro z; first
      | (clear_value z)
      | (skip))
    | with_reducible (first
      | apply keeps_wr | apply keeps_bump)

theorem keeps_vminSample {o0 : State} {v : VminRec} {s : State} (hk : Keeps o0 s) : Keeps o0 (vminSample v s) := by
  unfold vminSample
  repeat' first
    | with_reducible (first
      | assumption | exact Nat.le_refl _)
    | ((try lift_lets -underBinder); intro z; first
      | (refine Keeps.cut (o0 := o0) (z := z) ?_ (fun hz => ?_); subst z; rotate_left; clear_value z)
      | (clear_value z)
      | (skip))
    | with_reducible (first
      | apply Keeps.ite | apply Keeps.ite2 | apply keeps_wr | apply keeps_raise | apply keeps_setApt
      | apply keeps_vminLog)

theorem keeps_telemDrop {o0 : State} {s : State} (hk : Keeps o0 s) : Keeps o0 (telemDrop s) := by
  unfold telemDrop
  repeat' with_reducible first
    | assumption | exact Nat.le_refl _ | apply keeps_bump | apply keeps_raise

theorem keeps_telemetry {o0 : State} {t : TelemSample} {s : State} (hk : Keeps o0 s) : Keeps o0
    (telemetry t s) := by
  unfold telemetry
  repeat' first
    | with_reducible (first
      | assumption | exact Nat.le_refl _)
    | ((try lift_lets -underBinder); intro z; first
      | (refine Keeps.cut (o0 := o0) (z := z) ?_ (fun hz => ?_); subst z; rotate_left; clear_value z)
      | (clear_value z)
      | (skip))
    | with_reducible (first
      | apply Keeps.ite | apply Keeps.ite2 | apply keeps_wr | apply keeps_windowWrite | apply keeps_vminSample
      | apply keeps_telemDrop | refine Keeps.foldl ?_ (fun z x hz => ?_)
      | refine Keeps.foldl2 ?_ (fun z x hz => ?_))
    | refine Keeps.pair ?_ (fun a z hz => ?_)
    | refine Keeps.pair2 ?_ (fun a z hz => ?_)
    | with_reducible rfl
    | split
    | refine Keeps.eqv (by with_reducible assumption) ?_

theorem keeps_feedLost {o0 : State} {b : Bool} {s : State} (hk : Keeps o0 s) : Keeps o0 (feedLost b s) := by
  unfold feedLost
  repeat' with_reducible first
    | assumption | exact Nat.le_refl _ | apply Keeps.ite | apply Keeps.ite2 | apply keeps_wr | apply keeps_raise

theorem keeps_regionOff {o0 : State} {r state cause : Nat} {s : State} (hk : Keeps o0 s) : Keeps o0
    (regionOff r state cause s) := by
  unfold regionOff
  repeat' first
    | with_reducible (first
      | assumption | exact Nat.le_refl _)
    | ((try lift_lets -underBinder); intro z; first
      | (refine Keeps.cut (o0 := o0) (z := z) ?_ (fun hz => ?_); subst z; rotate_left; clear_value z)
      | (refine Keeps.fn (o0 := o0) (f := z) ?_ (fun hz => ?_); subst z; intro z hz; rotate_left; clear_value z)
      | (refine Keeps.fn1 (o0 := o0) (f := z) ?_ (fun hz => ?_); subst z; intro a z hz; rotate_left; clear_value z)
      | (refine Keeps.fn2 (o0 := o0) (f := z) ?_ (fun hz => ?_); subst z; intro a b z hz; rotate_left; clear_value z)
      | (refine Keeps.fnp (o0 := o0) (f := z) ?_ (fun hz => ?_); subst z; intro a z hz; rotate_left; clear_value z)
      | (refine Keeps.sec z ?_; subst z)
      | (clear_value z)
      | (skip))
    | with_reducible (first
      | apply keeps_wr | apply keeps_fenceCore | apply keeps_rewish | refine Keeps.foldl ?_ (fun z x hz => ?_))

theorem keeps_phaseLost {o0 : State} {r : Nat} {s : State} (hk : Keeps o0 s) : Keeps o0 (phaseLost r s) := by
  unfold phaseLost
  repeat' first
    | with_reducible (first
      | assumption | exact Nat.le_refl _)
    | ((try lift_lets -underBinder); intro z; first
      | (refine Keeps.cut (o0 := o0) (z := z) ?_ (fun hz => ?_); subst z; rotate_left; clear_value z)
      | (clear_value z)
      | (skip))
    | with_reducible (first
      | apply Keeps.ite | apply Keeps.ite2 | apply keeps_wr | apply keeps_later | apply keeps_raise
      | apply keeps_regionOff)

theorem keeps_overCurrent {o0 : State} {r : Nat} {s : State} (hk : Keeps o0 s) : Keeps o0 (overCurrent r s) := by
  unfold overCurrent
  repeat' with_reducible first
    | assumption | exact Nat.le_refl _ | apply Keeps.ite | apply Keeps.ite2 | apply keeps_raise
    | apply keeps_regionOff

theorem keeps_regionWake {o0 : State} {d : Nat} {s : State} (hk : Keeps o0 s) : Keeps o0 (regionWake d s) := by
  unfold regionWake
  repeat' first
    | with_reducible (first
      | assumption | exact Nat.le_refl _)
    | ((try lift_lets -underBinder); intro z; first
      | (clear_value z)
      | (skip))
    | with_reducible (first
      | apply Keeps.ite | apply Keeps.ite2 | apply keeps_wr)

theorem keeps_wakeStep {o0 : State} {d : Nat} {w : WakeSense} {s : State} (hk : Keeps o0 s) : Keeps o0
    (wakeStep d w s) := by
  unfold wakeStep
  repeat' first
    | with_reducible (first
      | assumption | exact Nat.le_refl _)
    | ((try lift_lets -underBinder); intro z; first
      | (refine Keeps.cut (o0 := o0) (z := z) ?_ (fun hz => ?_); subst z; rotate_left; clear_value z)
      | (clear_value z)
      | (skip))
    | with_reducible (first
      | apply Keeps.ite | apply Keeps.ite2 | apply keeps_wr | apply keeps_later | apply keeps_rewish)

theorem keeps_wakeLimit {o0 : State} {d : Nat} {s : State} (hk : Keeps o0 s) : Keeps o0 (wakeLimit d s) := by
  unfold wakeLimit
  repeat' with_reducible first
    | assumption | exact Nat.le_refl _ | apply Keeps.ite | apply Keeps.ite2 | apply keeps_wr | apply keeps_raise

theorem keeps_wakeRestart {o0 : State} {d : Nat} {s : State} (hk : Keeps o0 s) : Keeps o0 (wakeRestart d s) := by
  unfold wakeRestart
  repeat' with_reducible first
    | assumption | exact Nat.le_refl _ | apply Keeps.ite | apply Keeps.ite2 | apply keeps_wr | apply keeps_later

theorem keeps_wakeDone {o0 : State} {r : Nat} {s : State} (hk : Keeps o0 s) : Keeps o0 (wakeDone r s) := by
  unfold wakeDone
  repeat' with_reducible first
    | assumption | exact Nat.le_refl _ | apply Keeps.ite | apply Keeps.ite2 | apply keeps_unfenceCore
    | refine Keeps.foldl ?_ (fun z x hz => ?_)

theorem keeps_gateIdle {o0 : State} {r : Nat} {s : State} (hk : Keeps o0 s) : Keeps o0 (gateIdle r s) := by
  unfold gateIdle
  repeat' with_reducible first
    | assumption | exact Nat.le_refl _ | apply Keeps.ite | apply Keeps.ite2 | apply keeps_wr

theorem keeps_domainTick {o0 : State} {s : State} (hk : Keeps o0 s) : Keeps o0 (domainTick s) := by
  unfold domainTick
  repeat' first
    | with_reducible (first
      | assumption | exact Nat.le_refl _)
    | ((try lift_lets -underBinder); intro z; first
      | (refine Keeps.cut (o0 := o0) (z := z) ?_ (fun hz => ?_); subst z; rotate_left; clear_value z)
      | (refine Keeps.fn (o0 := o0) (f := z) ?_ (fun hz => ?_); subst z; intro z hz; rotate_left; clear_value z)
      | (refine Keeps.fn1 (o0 := o0) (f := z) ?_ (fun hz => ?_); subst z; intro a z hz; rotate_left; clear_value z)
      | (refine Keeps.fn2 (o0 := o0) (f := z) ?_ (fun hz => ?_); subst z; intro a b z hz; rotate_left; clear_value z)
      | (refine Keeps.fnp (o0 := o0) (f := z) ?_ (fun hz => ?_); subst z; intro a z hz; rotate_left; clear_value z)
      | (refine Keeps.sec z ?_; subst z)
      | (clear_value z)
      | (skip))
    | with_reducible (first
      | apply Keeps.ite | apply Keeps.ite2 | apply keeps_wr | refine Keeps.foldl ?_ (fun z x hz => ?_))

theorem keeps_ringShow {o0 : State} {r : Nat} {s : State} (hk : Keeps o0 s) : Keeps o0 (ringShow r s) := by
  unfold ringShow
  repeat' first
    | with_reducible (first
      | assumption | exact Nat.le_refl _)
    | ((try lift_lets -underBinder); intro z; first
      | (clear_value z)
      | (skip))
    | with_reducible (first
      | apply Keeps.ite | apply Keeps.ite2 | apply keeps_wr)

theorem keeps_putRing {o0 : State} {r : Nat} {k : Ring} {s : State} (hk : Keeps o0 s) : Keeps o0
    (putRing r k s) := by
  unfold putRing
  repeat' with_reducible first
    | assumption | exact Nat.le_refl _ | apply keeps_setRing | apply keeps_ringShow

theorem keeps_ringFault {o0 : State} {r cause : Nat} {s : State} (hk : Keeps o0 s) : Keeps o0
    (ringFault r cause s) := by
  unfold ringFault
  repeat' first
    | with_reducible (first
      | assumption | exact Nat.le_refl _)
    | ((try lift_lets -underBinder); intro z; first
      | (clear_value z)
      | (skip))
    | with_reducible (first
      | apply Keeps.ite | apply Keeps.ite2 | apply keeps_raise | apply keeps_putRing)

theorem keeps_doorbell {o0 : State} {r v : Nat} {s : State} (hk : Keeps o0 s) : Keeps o0 (doorbell r v s) := by
  unfold doorbell
  repeat' with_reducible first
    | assumption | exact Nat.le_refl _ | apply keeps_setRing

theorem keeps_ringSample {o0 : State} {s : State} (hk : Keeps o0 s) : Keeps o0 (ringSample s) := by
  unfold ringSample
  repeat' first
    | with_reducible (first
      | assumption | exact Nat.le_refl _ | apply Keeps.ite | apply Keeps.ite2 | rfl)
    | split
    | with_reducible apply Keeps.mk_

theorem keeps_fetchEntry {o0 : State} {r idx n : Nat} {s : State} (hk : Keeps o0 s) : Keeps o0
    (fetchEntry r idx n s) := by
  unfold fetchEntry
  repeat' first
    | with_reducible (first
      | assumption | exact Nat.le_refl _ | apply Keeps.ite | apply Keeps.ite2 | apply keeps_dmaRead
      | apply keeps_ringFault)
    | refine Keeps.pair ?_ (fun a z hz => ?_)
    | refine Keeps.pair2 ?_ (fun a z hz => ?_)
    | with_reducible rfl
    | split
    | refine Keeps.eqv (by with_reducible assumption) ?_

theorem keeps_ringServe {o0 : State} {r : Nat} {s : State} (hk : Keeps o0 s) : Keeps o0 (ringServe r s) := by
  unfold ringServe
  repeat' first
    | with_reducible (first
      | assumption | exact Nat.le_refl _)
    | ((try lift_lets -underBinder); intro z; first
      | (refine Keeps.cut (o0 := o0) (z := z) ?_ (fun hz => ?_); subst z; rotate_left; clear_value z)
      | (refine Keeps.fn1 (o0 := o0) (f := z) ?_ (fun hz => ?_); subst z; intro a z hz; rotate_left; clear_value z)
      | (clear_value z)
      | (skip))
    | with_reducible (first
      | apply Keeps.ite | apply Keeps.ite2 | apply keeps_setRing | apply keeps_ringFault | apply keeps_fetchEntry
      | rfl)
    | split
    | refine Keeps.app (by with_reducible assumption) ?_
    | refine Keeps.app1 (by with_reducible assumption) ?_

theorem keeps_ringService {o0 : State} {s : State} (hk : Keeps o0 s) : Keeps o0 (ringService s) := by
  unfold ringService
  repeat' first
    | with_reducible (first
      | assumption | exact Nat.le_refl _)
    | ((try lift_lets -underBinder); intro z; first
      | (refine Keeps.cut (o0 := o0) (z := z) ?_ (fun hz => ?_); subst z; rotate_left; clear_value z)
      | (clear_value z)
      | (skip))
    | with_reducible (first
      | apply keeps_ringServe | refine Keeps.foldl ?_ (fun z x hz => ?_) | refine Keeps.foldl2 ?_ (fun z x hz => ?_)
      | rfl | apply Keeps.mk_)

theorem keeps_ringCount {o0 : State} {f sum : Fld} {r : Nat} {up : Bool} {n : Nat} {s : State} (hk : Keeps o0 s) :
    Keeps o0 (ringCount f sum r up n s) := by
  unfold ringCount
  repeat' with_reducible first
    | assumption | exact Nat.le_refl _ | apply Keeps.ite | apply Keeps.ite2 | apply keeps_bump | apply keeps_drop

theorem keeps_takeEntry {o0 : State} {r idx n : Nat} {b : List Byte} {s : State} (hk : Keeps o0 s) : Keeps o0
    (takeEntry r idx n b s) := by
  unfold takeEntry
  repeat' first
    | with_reducible (first
      | assumption | exact Nat.le_refl _)
    | ((try lift_lets -underBinder); intro z; first
      | (refine Keeps.cut (o0 := o0) (z := z) ?_ (fun hz => ?_); subst z; rotate_left; clear_value z)
      | (clear_value z)
      | (skip))
    | with_reducible (first
      | apply Keeps.ite | apply Keeps.ite2 | apply keeps_putRing | apply keeps_ringFault | apply keeps_fetchEntry
      | apply keeps_ringCount)

theorem keeps_setEntry {o0 : State} {r idx : Nat} {f : REntry → REntry} {s : State} (hk : Keeps o0 s) : Keeps o0
    (setEntry r idx f s) := by
  unfold setEntry
  repeat' first
    | with_reducible (first
      | assumption | exact Nat.le_refl _)
    | ((try lift_lets -underBinder); intro z; first
      | (clear_value z)
      | (skip))
    | with_reducible (first
      | apply Keeps.ite | apply Keeps.ite2 | apply keeps_putRing)

theorem keeps_entryDone {o0 : State} {r idx : Nat} {i : RecInfo} {s : State} (hk : Keeps o0 s) : Keeps o0
    (entryDone r idx i s) := by
  unfold entryDone
  repeat' first
    | with_reducible (first
      | assumption | exact Nat.le_refl _)
    | ((try lift_lets -underBinder); intro z; first
      | (refine Keeps.cut (o0 := o0) (z := z) ?_ (fun hz => ?_); subst z; rotate_left; clear_value z)
      | (clear_value z)
      | (skip))
    | with_reducible (first
      | apply Keeps.ite | apply Keeps.ite2 | apply keeps_setRing | apply keeps_dmaWrite | apply keeps_signal
      | apply keeps_putRing | apply keeps_ringFault | apply keeps_ringCount)
    | refine Keeps.pair ?_ (fun a z hz => ?_)
    | refine Keeps.pair2 ?_ (fun a z hz => ?_)
    | with_reducible rfl
    | split
    | refine Keeps.eqv (by with_reducible assumption) ?_

theorem keeps_entryStatus {o0 : State} {r : Nat} {e : REntry} {status cause : Nat} {s : State} (hk : Keeps o0 s) :
    Keeps o0 (entryStatus r e status cause s) := by
  unfold entryStatus
  repeat' first
    | with_reducible (first
      | assumption | exact Nat.le_refl _)
    | ((try lift_lets -underBinder); intro z; first
      | (clear_value z)
      | (skip))
    | with_reducible apply keeps_entryDone

theorem keeps_hold {o0 : State} {r : Nat} {e : REntry} {s : State} (hk : Keeps o0 s) : Keeps o0 (hold r e s) := by
  unfold hold
  repeat' with_reducible first
    | assumption | exact Nat.le_refl _ | apply keeps_setEntry

theorem keeps_begin_ {o0 : State} {r : Nat} {e : REntry} {s : State} (hk : Keeps o0 s) : Keeps o0
    (begin_ r e s) := by
  unfold begin_
  repeat' with_reducible first
    | assumption | exact Nat.le_refl _ | apply keeps_setEntry

theorem keeps_fetchMore {o0 : State} {r : Nat} {e : REntry} {total : Nat} {s : State} (hk : Keeps o0 s) : Keeps o0
    (fetchMore r e total s).2 := by
  unfold fetchMore
  repeat' first
    | with_reducible (first
      | assumption | exact Nat.le_refl _)
    | ((try lift_lets -underBinder); intro z; first
      | (clear_value z)
      | (skip))
    | with_reducible apply keeps_dmaRead

theorem keeps_startWait {o0 : State} {r : Nat} {e : REntry} {s : State} (hk : Keeps o0 s) : Keeps o0
    (startWait r e s) := by
  unfold startWait
  repeat' with_reducible first
    | assumption | exact Nat.le_refl _ | apply Keeps.ite | apply Keeps.ite2 | apply keeps_entryStatus
    | apply keeps_hold

theorem keeps_waitTimeout {o0 : State} {r : Nat} {s : State} (hk : Keeps o0 s) : Keeps o0 (waitTimeout r s) := by
  unfold waitTimeout
  repeat' first
    | with_reducible (first
      | assumption | exact Nat.le_refl _ | apply Keeps.ite | apply Keeps.ite2 | apply keeps_raise
      | apply keeps_entryStatus)
    | refine Keeps.pair ?_ (fun a z hz => ?_)
    | refine Keeps.pair2 ?_ (fun a z hz => ?_)
    | with_reducible rfl
    | split

theorem keeps_ringReset {o0 : State} {r : Nat} {s : State} (hk : Keeps o0 s) : Keeps o0 (ringReset r s) := by
  unfold ringReset
  repeat' first
    | with_reducible (first
      | assumption | exact Nat.le_refl _)
    | ((try lift_lets -underBinder); intro z; first
      | (refine Keeps.cut (o0 := o0) (z := z) ?_ (fun hz => ?_); subst z; rotate_left; clear_value z)
      | (clear_value z)
      | (skip))
    | with_reducible (first
      | apply Keeps.ite | apply Keeps.ite2 | apply keeps_later | apply keeps_setRing | apply keeps_invalidatePlate
      | refine Keeps.foldl ?_ (fun z x hz => ?_) | refine Keeps.foldl2 ?_ (fun z x hz => ?_))
    | refine Keeps.pair ?_ (fun a z hz => ?_)
    | refine Keeps.pair2 ?_ (fun a z hz => ?_)
    | with_reducible rfl
    | split

theorem keeps_ringResetTick {o0 : State} {r : Nat} {s : State} (hk : Keeps o0 s) : Keeps o0
    (ringResetTick r s) := by
  unfold ringResetTick
  repeat' first
    | with_reducible (first
      | assumption | exact Nat.le_refl _)
    | ((try lift_lets -underBinder); intro z; first
      | (refine Keeps.cut (o0 := o0) (z := z) ?_ (fun hz => ?_); subst z; rotate_left; clear_value z)
      | (clear_value z)
      | (skip))
    | with_reducible (first
      | apply Keeps.ite | apply Keeps.ite2 | apply keeps_wr | apply keeps_bump | apply keeps_drop
      | apply keeps_setAba | apply keeps_putRing)

theorem keeps_slotRead {o0 : State} {k : Nat} {s : State} (hk : Keeps o0 s) : Keeps o0 (slotRead k s) := by
  unfold slotRead
  repeat' first
    | with_reducible (first
      | assumption | exact Nat.le_refl _)
    | ((try lift_lets -underBinder); intro z; first
      | (clear_value z)
      | (skip))
    | with_reducible (first
      | apply Keeps.ite | apply Keeps.ite2 | apply keeps_setRslot)

theorem keeps_slotAck {o0 : State} {k seq : Nat} {s : State} (hk : Keeps o0 s) : Keeps o0 (slotAck k seq s) := by
  unfold slotAck
  repeat' first
    | with_reducible (first
      | assumption | exact Nat.le_refl _)
    | ((try lift_lets -underBinder); intro z; first
      | (clear_value z)
      | (skip))
    | with_reducible (first
      | apply Keeps.ite | apply Keeps.ite2 | apply keeps_bump | apply keeps_raise | apply keeps_setRslot)

theorem keeps_slotOpen {o0 : State} {k tag : Nat} {s : State} (hk : Keeps o0 s) : Keeps o0 (slotOpen k tag s) := by
  unfold slotOpen
  repeat' with_reducible first
    | assumption | exact Nat.le_refl _ | apply keeps_setRslot

theorem keeps_slotVoid {o0 : State} {k frame : Nat} {s : State} (hk : Keeps o0 s) : Keeps o0
    (slotVoid k frame s) := by
  unfold slotVoid
  repeat' first
    | with_reducible (first
      | assumption | exact Nat.le_refl _)
    | ((try lift_lets -underBinder); intro z; first
      | (clear_value z)
      | (skip))
    | with_reducible (first
      | apply Keeps.ite | apply Keeps.ite2 | apply keeps_setRslot)

theorem keeps_slotClear {o0 : State} {k frame : Nat} {s : State} (hk : Keeps o0 s) : Keeps o0
    (slotClear k frame s) := by
  unfold slotClear
  repeat' first
    | with_reducible (first
      | assumption | exact Nat.le_refl _)
    | ((try lift_lets -underBinder); intro z; first
      | (clear_value z)
      | (skip))
    | with_reducible (first
      | apply Keeps.ite | apply Keeps.ite2 | apply keeps_setRslot | apply keeps_slotVoid)

theorem keeps_slotsFix {o0 : State} {frame : Nat} {s : State} (hk : Keeps o0 s) : Keeps o0 (slotsFix frame s) := by
  unfold slotsFix
  repeat' first
    | with_reducible (first
      | assumption | exact Nat.le_refl _ | apply Keeps.ite | apply Keeps.ite2 | rfl)
    | split
    | with_reducible apply Keeps.mk_

theorem keeps_plateShow {o0 : State} {p : Nat} {s : State} (hk : Keeps o0 s) : Keeps o0 (plateShow p s) := by
  unfold plateShow
  repeat' first
    | with_reducible (first
      | assumption | exact Nat.le_refl _)
    | ((try lift_lets -underBinder); intro z; first
      | (clear_value z)
      | (skip))
    | with_reducible (first
      | exact Nat.le_add_right _ _ | apply keeps_wr)

theorem keeps_putPlate {o0 : State} {p : Nat} {k : Plate} {s : State} (hk : Keeps o0 s) : Keeps o0
    (putPlate p k s) := by
  unfold putPlate
  repeat' with_reducible first
    | assumption | exact Nat.le_refl _ | apply keeps_setPlate | apply keeps_plateShow

theorem keeps_loadRefused {o0 : State} {r : Nat} {e : REntry} {code : Nat} {s : State} (hk : Keeps o0 s) : Keeps o0
    (loadRefused r e code s) := by
  unfold loadRefused
  repeat' with_reducible first
    | assumption | exact Nat.le_refl _ | apply keeps_raise | apply keeps_entryStatus

theorem keeps_loadPlate {o0 : State} {r : Nat} {e : REntry} {m : Image} {s : State} (hk : Keeps o0 s) : Keeps o0
    (loadPlate r e m s) := by
  unfold loadPlate
  repeat' first
    | with_reducible (first
      | assumption | exact Nat.le_refl _)
    | ((try lift_lets -underBinder); intro z; first
      | (refine Keeps.cut (o0 := o0) (z := z) ?_ (fun hz => ?_); subst z; rotate_left; clear_value z)
      | (clear_value z)
      | (skip))
    | with_reducible (first
      | exact Nat.le_add_right _ _ | apply keeps_kvWrite | apply keeps_regionWake | apply keeps_putPlate
      | refine Keeps.foldl ?_ (fun z x hz => ?_))

theorem keeps_loadDecide {o0 : State} {r : Nat} {e : REntry} {b : List Byte} {s : State} (hk : Keeps o0 s) :
    Keeps o0 (loadDecide r e b s) := by
  unfold loadDecide
  repeat' first
    | with_reducible (first
      | assumption | exact Nat.le_refl _ | apply keeps_loadRefused | apply keeps_loadPlate)
    | refine Keeps.pair ?_ (fun a z hz => ?_)
    | refine Keeps.pair2 ?_ (fun a z hz => ?_)
    | with_reducible rfl
    | split

theorem keeps_loadFetch {o0 : State} {r : Nat} {e : REntry} {s : State} (hk : Keeps o0 s) : Keeps o0
    (loadFetch r e s) := by
  unfold loadFetch
  repeat' first
    | with_reducible (first
      | assumption | exact Nat.le_refl _ | apply keeps_fetchMore | apply keeps_loadRefused)
    | refine Keeps.pair ?_ (fun a z hz => ?_)
    | refine Keeps.pair2 ?_ (fun a z hz => ?_)
    | with_reducible rfl
    | split
    | refine Keeps.eqv (by with_reducible assumption) ?_

theorem keeps_startLoad {o0 : State} {r : Nat} {e : REntry} {s : State} (hk : Keeps o0 s) : Keeps o0
    (startLoad r e s) := by
  unfold startLoad
  repeat' first
    | with_reducible (first
      | assumption | exact Nat.le_refl _)
    | ((try lift_lets -underBinder); intro z; first
      | (refine Keeps.cut (o0 := o0) (z := z) ?_ (fun hz => ?_); subst z; rotate_left; clear_value z)
      | (refine Keeps.fn (o0 := o0) (f := z) ?_ (fun hz => ?_); subst z; intro z hz; rotate_left; clear_value z)
      | (refine Keeps.fn1 (o0 := o0) (f := z) ?_ (fun hz => ?_); subst z; intro a z hz; rotate_left; clear_value z)
      | (refine Keeps.fn2 (o0 := o0) (f := z) ?_ (fun hz => ?_); subst z; intro a b z hz; rotate_left; clear_value z)
      | (refine Keeps.fnp (o0 := o0) (f := z) ?_ (fun hz => ?_); subst z; intro a z hz; rotate_left; clear_value z)
      | (refine Keeps.sec z ?_; subst z)
      | (clear_value z)
      | (skip))
    | with_reducible (first
      | apply Keeps.ite | apply Keeps.ite2 | apply keeps_entryStatus | apply keeps_begin_ | apply keeps_loadRefused
      | apply keeps_loadFetch)

theorem keeps_activeRegs {o0 : State} {m : Image} {s : State} (hk : Keeps o0 s) : Keeps o0 (activeRegs m s) := by
  unfold activeRegs
  repeat' first
    | with_reducible (first
      | assumption | exact Nat.le_refl _)
    | ((try lift_lets -underBinder); intro z; first
      | (refine Keeps.cut (o0 := o0) (z := z) ?_ (fun hz => ?_); subst z; rotate_left; clear_value z)
      | (clear_value z)
      | (skip))
    | with_reducible (first
      | apply Keeps.ite | apply Keeps.ite2 | apply keeps_wr | apply keeps_raise
      | refine Keeps.foldl ?_ (fun z x hz => ?_))

theorem keeps_activate {o0 : State} {p : Nat} {s : State} (hk : Keeps o0 s) : Keeps o0 (activate p s) := by
  unfold activate
  repeat' first
    | with_reducible (first
      | assumption | exact Nat.le_refl _)
    | ((try lift_lets -underBinder); intro z; first
      | (refine Keeps.cut (o0 := o0) (z := z) ?_ (fun hz => ?_); subst z; rotate_left; clear_value z)
      | (clear_value z)
      | (skip))
    | with_reducible (first
      | apply Keeps.ite | apply Keeps.ite2 | apply keeps_putWish | apply keeps_entryStatus | apply keeps_putPlate
      | apply keeps_activeRegs)
    | refine Keeps.pair ?_ (fun a z hz => ?_)
    | refine Keeps.pair2 ?_ (fun a z hz => ?_)
    | with_reducible rfl
    | split

theorem keeps_activateAll {o0 : State} {s : State} (hk : Keeps o0 s) : Keeps o0 (activateAll s) := by
  unfold activateAll
  repeat' with_reducible first
    | assumption | exact Nat.le_refl _ | apply keeps_activate | refine Keeps.foldl ?_ (fun z x hz => ?_)

theorem keeps_launchRefused {o0 : State} {r : Nat} {e : REntry} {status : Nat} {s : State} (hk : Keeps o0 s) :
    Keeps o0 (launchRefused r e status s) := by
  unfold launchRefused
  repeat' with_reducible first
    | assumption | exact Nat.le_refl _ | apply keeps_raise | apply keeps_entryStatus

theorem keeps_startLaunch {o0 : State} {r : Nat} {e : REntry} {f : Nat} {s : State} (hk : Keeps o0 s) : Keeps o0
    (startLaunch r e f s) := by
  unfold startLaunch
  repeat' first
    | with_reducible (first
      | assumption | exact Nat.le_refl _)
    | ((try lift_lets -underBinder); intro z; first
      | (clear_value z)
      | (skip))
    | with_reducible (first
      | apply Keeps.ite | apply Keeps.ite2 | apply keeps_entryStatus | apply keeps_hold | apply keeps_begin_
      | apply keeps_putPlate | apply keeps_launchRefused)
    | refine Keeps.pair ?_ (fun a z hz => ?_)
    | refine Keeps.pair2 ?_ (fun a z hz => ?_)
    | with_reducible rfl
    | split
    | refine Keeps.eqv (by with_reducible assumption) ?_
    | refine Keeps.eqv2 (by with_reducible assumption) ?_
    | refine Keeps.app (by with_reducible assumption) ?_
    | refine Keeps.app1 (by with_reducible assumption) ?_
    | refine Keeps.app2 (by with_reducible assumption) ?_
    | refine Keeps.appp (by with_reducible assumption) ?_
    | with_reducible apply Keeps.mk_

theorem keeps_startUnload {o0 : State} {r : Nat} {e : REntry} {s : State} (hk : Keeps o0 s) : Keeps o0
    (startUnload r e s) := by
  unfold startUnload
  repeat' first
    | with_reducible (first
      | assumption | exact Nat.le_refl _)
    | ((try lift_lets -underBinder); intro z; first
      | (clear_value z)
      | (skip))
    | with_reducible (first
      | exact Nat.le_add_right _ _ | apply Keeps.ite | apply Keeps.ite2 | apply keeps_later | apply keeps_rewish
      | apply keeps_entryStatus | apply keeps_hold | apply keeps_begin_ | apply keeps_putPlate)

theorem keeps_startStop {o0 : State} {r : Nat} {e : REntry} {s : State} (hk : Keeps o0 s) : Keeps o0
    (startStop r e s) := by
  unfold startStop
  repeat' first
    | with_reducible (first
      | assumption | exact Nat.le_refl _)
    | ((try lift_lets -underBinder); intro z; first
      | (refine Keeps.cut (o0 := o0) (z := z) ?_ (fun hz => ?_); subst z; rotate_left; clear_value z)
      | (clear_value z)
      | (skip))
    | with_reducible (first
      | apply Keeps.ite | apply Keeps.ite2 | apply keeps_later | apply keeps_invalidatePlate
      | apply keeps_entryStatus | apply keeps_begin_ | apply keeps_putPlate)
    | refine Keeps.pair ?_ (fun a z hz => ?_)
    | refine Keeps.pair2 ?_ (fun a z hz => ?_)
    | with_reducible rfl
    | split

theorem keeps_setlrFetch {o0 : State} {r : Nat} {e : REntry} {s : State} (hk : Keeps o0 s) : Keeps o0
    (setlrFetch r e s) := by
  unfold setlrFetch
  repeat' first
    | with_reducible (first
      | assumption | exact Nat.le_refl _ | apply keeps_ringFault | apply keeps_fetchMore)
    | refine Keeps.pair ?_ (fun a z hz => ?_)
    | refine Keeps.pair2 ?_ (fun a z hz => ?_)
    | with_reducible rfl
    | split
    | refine Keeps.eqv (by with_reducible assumption) ?_

theorem keeps_startSetlr {o0 : State} {r : Nat} {e : REntry} {s : State} (hk : Keeps o0 s) : Keeps o0
    (startSetlr r e s) := by
  unfold startSetlr
  repeat' first
    | with_reducible (first
      | assumption | exact Nat.le_refl _)
    | ((try lift_lets -underBinder); intro z; first
      | (clear_value z)
      | (skip))
    | with_reducible (first
      | apply Keeps.ite | apply Keeps.ite2 | apply keeps_entryStatus | apply keeps_begin_ | apply keeps_setlrFetch)

theorem keeps_setlrDone {o0 : State} {r : Nat} {e : REntry} {b : List Byte} {s : State} (hk : Keeps o0 s) : Keeps o0
    (setlrDone r e b s) := by
  unfold setlrDone
  repeat' first
    | with_reducible (first
      | assumption | exact Nat.le_refl _)
    | ((try lift_lets -underBinder); intro z; first
      | (clear_value z)
      | (skip))
    | with_reducible (first
      | apply Keeps.ite | apply Keeps.ite2 | apply keeps_setPlate | apply keeps_entryStatus)

theorem keeps_entryData {o0 : State} {r idx : Nat} {b : List Byte} {s : State} (hk : Keeps o0 s) : Keeps o0
    (entryData r idx b s) := by
  unfold entryData
  repeat' first
    | with_reducible (first
      | assumption | exact Nat.le_refl _)
    | ((try lift_lets -underBinder); intro z; first
      | (refine Keeps.cut (o0 := o0) (z := z) ?_ (fun hz => ?_); subst z; rotate_left; clear_value z)
      | (clear_value z)
      | (skip))
    | with_reducible (first
      | apply Keeps.ite | apply Keeps.ite2 | apply keeps_setEntry | apply keeps_loadDecide | apply keeps_loadFetch
      | apply keeps_setlrFetch | apply keeps_setlrDone)
    | refine Keeps.pair ?_ (fun a z hz => ?_)
    | refine Keeps.pair2 ?_ (fun a z hz => ?_)
    | with_reducible rfl
    | split

theorem keeps_entryLost {o0 : State} {r idx : Nat} {s : State} (hk : Keeps o0 s) : Keeps o0
    (entryLost r idx s) := by
  unfold entryLost
  repeat' first
    | with_reducible (first
      | assumption | exact Nat.le_refl _ | apply Keeps.ite | apply Keeps.ite2 | apply keeps_ringFault
      | apply keeps_loadRefused)
    | refine Keeps.pair ?_ (fun a z hz => ?_)
    | refine Keeps.pair2 ?_ (fun a z hz => ?_)
    | with_reducible rfl
    | split

theorem keeps_startEntry {o0 : State} {r : Nat} {e : REntry} {f : Nat} {s : State} (hk : Keeps o0 s) : Keeps o0
    (startEntry r e f s) := by
  unfold startEntry
  repeat' first
    | with_reducible (first
      | assumption | exact Nat.le_refl _ | apply Keeps.ite | apply Keeps.ite2 | apply keeps_hold
      | apply keeps_startWait | apply keeps_startLoad | apply keeps_startLaunch | apply keeps_startUnload
      | apply keeps_startStop | apply keeps_startSetlr)
    | refine Keeps.pair ?_ (fun a z hz => ?_)
    | refine Keeps.pair2 ?_ (fun a z hz => ?_)
    | with_reducible rfl
    | split

theorem keeps_ringOp {o0 : State} {op r : Nat} {s : State} (hk : Keeps o0 s) : Keeps o0 (ringOp op r s) := by
  unfold ringOp
  repeat' first
    | with_reducible (first
      | assumption | exact Nat.le_refl _ | apply Keeps.ite | apply Keeps.ite2 | apply keeps_startEntry)
    | refine Keeps.pair ?_ (fun a z hz => ?_)
    | refine Keeps.pair2 ?_ (fun a z hz => ?_)
    | with_reducible rfl
    | split

theorem keeps_ringAdvance {o0 : State} {r n : Nat} {s : State} (hk : Keeps o0 s) : Keeps o0 (ringAdvance r n s) := by
  induction n generalizing s with
  | zero => exact hk
  | succ n ih =>
    unfold ringAdvance
    split
    · split
      · dsimp only
        split
        · split
          · exact keeps_startEntry hk
          · exact ih (keeps_startEntry hk)
        · exact keeps_startEntry hk
      · exact hk
    · exact hk

theorem keeps_ringsTick {o0 : State} {s : State} (hk : Keeps o0 s) : Keeps o0 (ringsTick s) := by
  unfold ringsTick
  repeat' first
    | with_reducible (first
      | assumption | exact Nat.le_refl _ | apply Keeps.ite | apply Keeps.ite2 | apply keeps_ringAdvance
      | refine Keeps.foldl ?_ (fun z x hz => ?_) | refine Keeps.foldl2 ?_ (fun z x hz => ?_))
    | refine Keeps.pair ?_ (fun a z hz => ?_)
    | refine Keeps.pair2 ?_ (fun a z hz => ?_)
    | with_reducible rfl
    | split

theorem keeps_writeLayers {o0 : State} {m : Image} {k : Plate} {s : State} (hk : Keeps o0 s) : Keeps o0
    (writeLayers m k s) := by
  unfold writeLayers
  repeat' first
    | with_reducible (first
      | assumption | exact Nat.le_refl _)
    | ((try lift_lets -underBinder); intro z; first
      | (clear_value z)
      | (skip))
    | with_reducible (first
      | apply keeps_kvWrite | refine Keeps.foldl ?_ (fun z x hz => ?_))

theorem keeps_prepCore {o0 : State} {m : Image} {p : Nat} {j : Job} {c : Nat} {s : State} (hk : Keeps o0 s) :
    Keeps o0 (prepCore m p j c s) := by
  unfold prepCore
  repeat' first
    | with_reducible (first
      | assumption | exact Nat.le_refl _)
    | ((try lift_lets -underBinder); intro z; first
      | (clear_value z)
      | (skip))
    | with_reducible (first
      | apply Keeps.ite | apply Keeps.ite2 | apply keeps_setCore | apply keeps_coreReadLine
      | refine Keeps.foldl ?_ (fun z x hz => ?_) | refine Keeps.foldl2 ?_ (fun z x hz => ?_))
    | refine Keeps.pair ?_ (fun a z hz => ?_)
    | refine Keeps.pair2 ?_ (fun a z hz => ?_)
    | with_reducible rfl
    | split

theorem keeps_clearCounters_clearRw {o0 : State} {r sets : Nat} {s : State} (hk : Keeps o0 s) :
    Keeps o0 (clearCounters.clearRw r sets s) :=
  Keeps.foldl hk fun _ _ h => keeps_wr (keeps_wr (keeps_wr (keeps_wr (keeps_wr (keeps_wr h)))))

theorem keeps_clearCounters {o0 : State} {r : Nat} {s : State} (hk : Keeps o0 s) : Keeps o0
    (clearCounters r s) := by
  unfold clearCounters
  repeat' first
    | with_reducible (first
      | assumption | exact Nat.le_refl _)
    | ((try lift_lets -underBinder); intro z; first
      | (refine Keeps.cut (o0 := o0) (z := z) ?_ (fun hz => ?_); subst z; rotate_left; clear_value z)
      | (refine Keeps.fn (o0 := o0) (f := z) ?_ (fun hz => ?_); subst z; intro z hz; rotate_left; clear_value z)
      | (refine Keeps.fn1 (o0 := o0) (f := z) ?_ (fun hz => ?_); subst z; intro a z hz; rotate_left; clear_value z)
      | (refine Keeps.fn2 (o0 := o0) (f := z) ?_ (fun hz => ?_); subst z; intro a b z hz; rotate_left; clear_value z)
      | (refine Keeps.fnp (o0 := o0) (f := z) ?_ (fun hz => ?_); subst z; intro a z hz; rotate_left; clear_value z)
      | (refine Keeps.sec z ?_; subst z)
      | (clear_value z)
      | (skip))
    | with_reducible (first
      | apply keeps_clearCounters_clearRw | apply keeps_wr | refine Keeps.foldl ?_ (fun z x hz => ?_))

theorem keeps_scaleUpdate {o0 : State} {p : Nat} {m : Image} {s : State} (hk : Keeps o0 s) : Keeps o0
    (scaleUpdate p m s) := by
  unfold scaleUpdate
  repeat' first
    | with_reducible (first
      | assumption | exact Nat.le_refl _)
    | ((try lift_lets -underBinder); intro z; first
      | (refine Keeps.cut (o0 := o0) (z := z) ?_ (fun hz => ?_); subst z; rotate_left; clear_value z)
      | (clear_value z)
      | (skip))
    | with_reducible (first
      | apply Keeps.ite | apply Keeps.ite2 | apply keeps_raise | apply keeps_setPlate
      | refine Keeps.foldl ?_ (fun z x hz => ?_))

theorem keeps_jobComplete {o0 : State} {p : Nat} {s : State} (hk : Keeps o0 s) : Keeps o0 (jobComplete p s) := by
  unfold jobComplete
  repeat' first
    | with_reducible (first
      | assumption | exact Nat.le_refl _)
    | ((try lift_lets -underBinder); intro z; first
      | (refine Keeps.cut (o0 := o0) (z := z) ?_ (fun hz => ?_); subst z; rotate_left; clear_value z)
      | (clear_value z)
      | (skip))
    | with_reducible (first
      | apply Keeps.ite | apply Keeps.ite2 | apply keeps_setPlate | apply keeps_energyDone | apply keeps_entryDone
      | apply keeps_entryStatus | apply keeps_scaleUpdate | refine Keeps.foldl ?_ (fun z x hz => ?_)
      | refine Keeps.foldl2 ?_ (fun z x hz => ?_))
    | refine Keeps.pair ?_ (fun a z hz => ?_)
    | refine Keeps.pair2 ?_ (fun a z hz => ?_)
    | with_reducible rfl
    | split

theorem keeps_jobsComplete {o0 : State} {p n : Nat} {s : State} (hk : Keeps o0 s) : Keeps o0 (jobsComplete p n s) := by
  induction n generalizing s with
  | zero => exact hk
  | succ n ih => exact ih (keeps_jobComplete hk)

theorem keeps_jobFill {o0 : State} {p : Nat} {s : State} (hk : Keeps o0 s) : Keeps o0 (jobFill p s) := by
  unfold jobFill
  repeat' first
    | with_reducible (first
      | assumption | exact Nat.le_refl _)
    | ((try lift_lets -underBinder); intro z; first
      | (refine Keeps.cut (o0 := o0) (z := z) ?_ (fun hz => ?_); subst z; rotate_left; clear_value z)
      | (clear_value z)
      | (skip))
    | with_reducible (first
      | apply Keeps.ite | apply Keeps.ite2 | apply keeps_putPlate | apply keeps_prepCore | apply keeps_clearCounters
      | apply keeps_jobsComplete | refine Keeps.foldl ?_ (fun z x hz => ?_)
      | refine Keeps.foldl2 ?_ (fun z x hz => ?_))
    | refine Keeps.pair ?_ (fun a z hz => ?_)
    | refine Keeps.pair2 ?_ (fun a z hz => ?_)
    | with_reducible rfl
    | split

theorem keeps_coresStop {o0 : State} {m : Image} {s : State} (hk : Keeps o0 s) : Keeps o0 (coresStop m s) := by
  unfold coresStop
  repeat' first
    | with_reducible (first
      | assumption | exact Nat.le_refl _)
    | ((try lift_lets -underBinder); intro z; first
      | (refine Keeps.cut (o0 := o0) (z := z) ?_ (fun hz => ?_); subst z; rotate_left; clear_value z)
      | (clear_value z)
      | (skip))
    | with_reducible (first
      | apply keeps_setCore | apply keeps_enterNow | refine Keeps.foldl ?_ (fun z x hz => ?_)
      | refine Keeps.foldl2 ?_ (fun z x hz => ?_) | rfl | apply Keeps.mk_)

theorem keeps_endJob {o0 : State} {p : Nat} {m : Image} {j : Job} {status cause f : Nat} {s : State}
    (hk : Keeps o0 s) : Keeps o0 (endJob p m j status cause f s) := by
  unfold endJob
  repeat' first
    | with_reducible (first
      | assumption | exact Nat.le_refl _)
    | ((try lift_lets -underBinder); intro z; first
      | (refine Keeps.cut (o0 := o0) (z := z) ?_ (fun hz => ?_); subst z; rotate_left; clear_value z)
      | (clear_value z)
      | (skip))
    | with_reducible (first
      | apply Keeps.ite | apply Keeps.ite2 | apply keeps_plateBoundary | apply keeps_slotVoid
      | apply keeps_slotClear | apply keeps_putPlate | apply keeps_coresStop)
    | refine Keeps.pair ?_ (fun a z hz => ?_)
    | refine Keeps.pair2 ?_ (fun a z hz => ?_)
    | with_reducible rfl
    | split

theorem keeps_endJobs {o0 : State} {ok : Bool} {f : Nat} {s : State} (hk : Keeps o0 s) : Keeps o0
    (endJobs ok f s) := by
  unfold endJobs
  repeat' first
    | with_reducible (first
      | assumption | exact Nat.le_refl _)
    | ((try lift_lets -underBinder); intro z; first
      | (clear_value z)
      | (skip))
    | with_reducible (first
      | apply Keeps.ite | apply Keeps.ite2 | apply keeps_endJob | refine Keeps.foldl ?_ (fun z x hz => ?_)
      | refine Keeps.foldl2 ?_ (fun z x hz => ?_))
    | refine Keeps.pair ?_ (fun a z hz => ?_)
    | refine Keeps.pair2 ?_ (fun a z hz => ?_)
    | with_reducible rfl
    | split

theorem keeps_stopPlate {o0 : State} {p status cause : Nat} {s : State} (hk : Keeps o0 s) : Keeps o0
    (stopPlate p status cause s) := by
  unfold stopPlate
  repeat' first
    | with_reducible (first
      | assumption | exact Nat.le_refl _)
    | ((try lift_lets -underBinder); intro z; first
      | (clear_value z)
      | (skip))
    | with_reducible (first
      | apply Keeps.ite | apply Keeps.ite2 | apply keeps_setPlate)
    | refine Keeps.pair ?_ (fun a z hz => ?_)
    | refine Keeps.pair2 ?_ (fun a z hz => ?_)
    | with_reducible rfl
    | split

theorem keeps_pruneDark {o0 : State} {s : State} (hk : Keeps o0 s) : Keeps o0 (pruneDark s) := by
  unfold pruneDark
  repeat' with_reducible first
    | assumption | exact Nat.le_refl _ | rfl | apply Keeps.mk_

theorem keeps_plateSlice {o0 : State} {p : Nat} {s : State} (hk : Keeps o0 s) : Keeps o0 (plateSlice p s) := by
  unfold plateSlice
  repeat' first
    | with_reducible (first
      | assumption | exact Nat.le_refl _)
    | ((try lift_lets -underBinder); intro z; first
      | (refine Keeps.cut (o0 := o0) (z := z) ?_ (fun hz => ?_); subst z; rotate_left; clear_value z)
      | (clear_value z)
      | (skip))
    | with_reducible (first
      | apply Keeps.ite | apply Keeps.ite2 | apply keeps_setCore | apply keeps_kvPush | apply keeps_slotOpen
      | apply keeps_putPlate | apply keeps_writeLayers | apply keeps_jobsComplete | apply keeps_jobFill
      | refine Keeps.foldl ?_ (fun z x hz => ?_) | refine Keeps.foldl2 ?_ (fun z x hz => ?_))
    | refine Keeps.pair ?_ (fun a z hz => ?_)
    | refine Keeps.pair2 ?_ (fun a z hz => ?_)
    | with_reducible rfl
    | split

theorem keeps_lendSlots {o0 : State} {s : State} (hk : Keeps o0 s) : Keeps o0 (lendSlots s) := by
  unfold lendSlots
  repeat' first
    | with_reducible (first
      | assumption | exact Nat.le_refl _)
    | ((try lift_lets -underBinder); intro z; first
      | (clear_value z)
      | (skip))
    | with_reducible (first
      | apply Keeps.ite | apply Keeps.ite2 | apply keeps_setShaft | refine Keeps.foldl ?_ (fun z x hz => ?_))

theorem keeps_coresOff {o0 : State} {s : State} (hk : Keeps o0 s) : Keeps o0 (coresOff s) := by
  unfold coresOff
  repeat' with_reducible first
    | assumption | exact Nat.le_refl _ | rfl | apply Keeps.mk_

theorem keeps_slicesTick {o0 : State} {dark : Bool} {s : State} (hk : Keeps o0 s) : Keeps o0
    (slicesTick dark s) := by
  unfold slicesTick
  repeat' with_reducible first
    | assumption | exact Nat.le_refl _ | apply Keeps.ite | apply Keeps.ite2 | apply keeps_pruneDark
    | apply keeps_plateSlice | refine Keeps.foldl ?_ (fun z x hz => ?_)

theorem keeps_unloadTick {o0 : State} {p : Nat} {s : State} (hk : Keeps o0 s) : Keeps o0 (unloadTick p s) := by
  unfold unloadTick
  repeat' first
    | with_reducible (first
      | assumption | exact Nat.le_refl _)
    | ((try lift_lets -underBinder); intro z; first
      | (refine Keeps.cut (o0 := o0) (z := z) ?_ (fun hz => ?_); subst z; rotate_left; clear_value z)
      | (clear_value z)
      | (skip))
    | with_reducible (first
      | exact Nat.le_add_right _ _ | apply keeps_wr | apply keeps_gateIdle | apply keeps_entryStatus
      | apply keeps_putPlate | apply keeps_jobsComplete | refine Keeps.foldl ?_ (fun z x hz => ?_)
      | refine Keeps.foldl2 ?_ (fun z x hz => ?_))
    | refine Keeps.pair ?_ (fun a z hz => ?_)
    | refine Keeps.pair2 ?_ (fun a z hz => ?_)
    | with_reducible rfl
    | split

end Sys2Proof.Machine
end

