-- ==== Sys2Proof/Laws/KeepsPower.lean ====
section
/-! SUPPORT. What no command may do (`Keeps`, Safety.lean) is kept by every operation of
host memory, repair, heat, start-up, service and security:
from a state that kept it since `o0`, the operation answers one that did. -/
namespace Sys2Proof.Machine

theorem keeps_keepUnit {o0 : State} {p u : Nat} {s : State} (hk : Keeps o0 s) : Keeps o0 (keepUnit p u s) := by
  unfold keepUnit
  repeat' first
    | with_reducible (first
      | assumption | exact Nat.le_refl _)
    | ((try lift_lets -underBinder); intro z; first
      | (clear_value z)
      | (skip))
    | with_reducible (first
      | apply Keeps.ite | apply Keeps.ite2 | apply keeps_setShaft)

theorem keeps_hostWriteUnit {o0 : State} {p : Nat} {q : HReq} {errs : List GErr} {u : Nat} {s : State}
    (hk : Keeps o0 s) : Keeps o0 (hostWriteUnit p q errs u s).2 := by
  unfold hostWriteUnit
  repeat' first
    | with_reducible (first
      | assumption | exact Nat.le_refl _)
    | ((try lift_lets -underBinder); intro z; first
      | (refine Keeps.cut (o0 := o0) (z := z) ?_ (fun hz => ?_); subst z; rotate_left; clear_value z)
      | (refine Keeps.fn (o0 := o0) (f := z) ?_ (fun hz => ?_); subst z; intro z hz; rotate_left; clear_value z)
      | (refine Keeps.fn1 (o0 := o0) (f := z) ?_ (fun hz => ?_); subst z; intro a z hz; rotate_left; clear_value z)
      | (refine Keeps.fn2 (o0 := o0) (f := z) ?_ (fun hz => ?_); subst z; intro a b z hz; rotate_left; clear_value z)
      | (refine Keeps.fnp (o0 := o0) (f := z) ?_ (fun hz => ?_); subst z; intro a z hz; rotate_left; clear_value z)
      | (refine Keeps.sec z ?_; subst z)
      | (clear_value z)
      | (skip))
    | with_reducible (first
      | apply Keeps.ite | apply Keeps.ite2 | apply keeps_bump | apply keeps_storeUnit | apply keeps_checkUnit
      | apply keeps_keepUnit)
    | refine Keeps.pair ?_ (fun a z hz => ?_)
    | refine Keeps.pair2 ?_ (fun a z hz => ?_)
    | with_reducible rfl
    | split
    | with_reducible (first
      | refine Keeps.snd ?_ | refine Keeps.snd2 ?_)
    | refine Keeps.eqv (by with_reducible assumption) ?_

theorem keeps_hostWriteUnits {o0 : State} {p : Nat} {q : HReq} {errs : List GErr} {l : List Nat} {s : State} (hk : Keeps o0 s) :
    Keeps o0 (hostWriteUnits p q errs l s).2 := by
  induction l generalizing s with
  | nil => exact hk
  | cons u l ih => exact ih (keeps_hostWriteUnit hk)

theorem keeps_hostWrite {o0 : State} {p : Nat} {q : HReq} {errs : List GErr} {s : State} (hk : Keeps o0 s) :
    Keeps o0 (hostWrite p q errs s).2 := by
  unfold hostWrite
  repeat' with_reducible first
    | assumption | exact Nat.le_refl _ | apply Keeps.ite | apply Keeps.ite2 | apply keeps_setCore
    | apply keeps_hostWriteUnits

theorem keeps_checkFixed {o0 : State} {p : Nat} {errs : List GErr} {u : Nat} {s : State} (hk : Keeps o0 s) :
    Keeps o0 (checkFixed p errs u s).2 := by
  unfold checkFixed
  repeat' first
    | with_reducible (first
      | assumption | exact Nat.le_refl _ | apply Keeps.ite | apply Keeps.ite2 | apply keeps_poisonSeen
      | apply keeps_checkUnit)
    | refine Keeps.pair ?_ (fun a z hz => ?_)
    | refine Keeps.pair2 ?_ (fun a z hz => ?_)
    | with_reducible rfl
    | split

theorem keeps_checkFixeds {o0 : State} {p : Nat} {errs : List GErr} {l : List Nat} {s : State} (hk : Keeps o0 s) :
    Keeps o0 (checkFixeds p errs l s).2 := by
  induction l generalizing s with
  | nil => exact hk
  | cons u l ih => exact ih (keeps_checkFixed hk)

theorem keeps_hostRead {o0 : State} {p : Nat} {q : HReq} {errs : List GErr} {s : State} (hk : Keeps o0 s) : Keeps o0
    (hostRead p q errs s).2 := by
  unfold hostRead
  repeat' first
    | with_reducible (first
      | assumption | exact Nat.le_refl _)
    | ((try lift_lets -underBinder); intro z; first
      | (clear_value z)
      | (skip))
    | with_reducible (first
      | apply Keeps.ite | apply Keeps.ite2 | apply keeps_checkFixeds)

theorem keeps_freeReq {o0 : State} {tag : Nat} {s : State} (hk : Keeps o0 s) : Keeps o0 (freeReq tag s) := by
  unfold freeReq
  repeat' with_reducible first
    | assumption | exact Nat.le_refl _ | apply keeps_setAba

theorem keeps_hostDone {o0 : State} {q : HReq} {status : Nat} {d : List Byte} {s : State} (hk : Keeps o0 s) :
    Keeps o0 (hostDone q status d s) := by
  unfold hostDone
  repeat' first
    | with_reducible (first
      | assumption | exact Nat.le_refl _)
    | ((try lift_lets -underBinder); intro z; first
      | (refine Keeps.cut (o0 := o0) (z := z) ?_ (fun hz => ?_); subst z; rotate_left; clear_value z)
      | (clear_value z)
      | (skip))
    | with_reducible (first
      | exact Nat.le_add_right _ _ | apply Keeps.ite | apply Keeps.ite2 | apply keeps_windowTake
      | apply keeps_sealWindow | apply keeps_parWindow | apply keeps_abaSend | apply keeps_freeReq)
    | refine Keeps.pair ?_ (fun a z hz => ?_)
    | refine Keeps.pair2 ?_ (fun a z hz => ?_)
    | with_reducible rfl
    | split
    | refine Keeps.eqv (by with_reducible assumption) ?_
    | refine Keeps.eqv2 (by with_reducible assumption) ?_
    | with_reducible apply Keeps.mk_

theorem keeps_hostServe {o0 : State} {p : Nat} {errs : List GErr} {s t : State} (hk : Keeps o0 s)
    (ht : hostServe p errs s = some t) : Keeps o0 t := by
  unfold hostServe at ht
  dsimp only at ht
  split at ht
  · cases ht
  · split at ht
    · cases ht; exact keeps_hostDone (keeps_setShaft hk)
    · split at ht
      · cases ht
      · cases ht
        split
        · exact keeps_hostDone (keeps_hostWrite (keeps_setShaft hk))
        · exact keeps_hostDone (keeps_hostRead (keeps_setShaft hk))

theorem keeps_hostServeAll {o0 : State} {p : Nat} {errs : List GErr} {n : Nat} {s : State} (hk : Keeps o0 s) :
    Keeps o0 (hostServeAll p errs n s) := by
  induction n generalizing s with
  | zero => exact hk
  | succ n ih =>
    unfold hostServeAll
    split
    · rename_i e; exact ih (keeps_hostServe hk e)
    · exact hk

theorem keeps_hostSlotServe {o0 : State} {p : Nat} {errs : List GErr} {s : State} (hk : Keeps o0 s) : Keeps o0
    (hostSlotServe p errs s) := by
  unfold hostSlotServe
  repeat' with_reducible first
    | assumption | exact Nat.le_refl _ | apply Keeps.ite | apply Keeps.ite2 | apply keeps_hostServeAll

theorem keeps_windowServe {o0 : State} {k : WinKind} {c : Nat} {s : State} (hk : Keeps o0 s) : Keeps o0 (windowServe k c s) := by
  unfold windowServe
  dsimp only
  split
  · split
    · exact hk
    · cases e : hostServe (posOf c) [] s with
      | none => exact hk
      | some t => exact keeps_hostServe hk e
  · exact hk

theorem keeps_lapMax {o0 : State} {p : Nat} {s : State} (hk : Keeps o0 s) : Keeps o0 (lapMax p s) := by
  unfold lapMax
  repeat' first
    | with_reducible (first
      | assumption | exact Nat.le_refl _)
    | ((try lift_lets -underBinder); intro z; first
      | (clear_value z)
      | (skip))
    | with_reducible (first
      | apply keeps_wr | refine Keeps.foldl ?_ (fun z x hz => ?_) | refine Keeps.foldl2 ?_ (fun z x hz => ?_))
    | refine Keeps.pair ?_ (fun a z hz => ?_)
    | refine Keeps.pair2 ?_ (fun a z hz => ?_)
    | with_reducible rfl
    | split

theorem keeps_scrubUnit {o0 : State} {p a : Nat} {errs : List GErr} {s : State} (hk : Keeps o0 s) : Keeps o0
    (scrubUnit p a errs s) := by
  unfold scrubUnit
  repeat' with_reducible first
    | assumption | exact Nat.le_refl _ | apply keeps_checkUnit

theorem keeps_scrubLayer {o0 : State} {p : Nat} {errs : List GErr} {s : State} {l : Nat} (hk : Keeps o0 s) :
    Keeps o0 (scrubLayer p errs s l) := by
  unfold scrubLayer
  repeat' first
    | with_reducible (first
      | assumption | exact Nat.le_refl _)
    | ((try lift_lets -underBinder); intro z; first
      | (refine Keeps.cut (o0 := o0) (z := z) ?_ (fun hz => ?_); subst z; rotate_left; clear_value z)
      | (clear_value z)
      | (skip))
    | with_reducible (first
      | apply Keeps.ite | apply Keeps.ite2 | apply keeps_setShaft | apply keeps_scrubUnit)
    | refine Keeps.pair ?_ (fun a z hz => ?_)
    | refine Keeps.pair2 ?_ (fun a z hz => ?_)
    | with_reducible rfl
    | split

theorem keeps_scrubPage {o0 : State} {p : Nat} {s : State} (hk : Keeps o0 s) : Keeps o0 (scrubPage p s) := by
  unfold scrubPage
  repeat' first
    | with_reducible (first
      | assumption | exact Nat.le_refl _ | apply keeps_wr | refine Keeps.foldl ?_ (fun z x hz => ?_)
      | refine Keeps.foldl2 ?_ (fun z x hz => ?_))
    | refine Keeps.pair ?_ (fun a z hz => ?_)
    | refine Keeps.pair2 ?_ (fun a z hz => ?_)
    | with_reducible rfl
    | split

theorem keeps_scrubLap {o0 : State} {p : Nat} {s : State} (hk : Keeps o0 s) : Keeps o0 (scrubLap p s) := by
  unfold scrubLap
  repeat' first
    | with_reducible (first
      | assumption | exact Nat.le_refl _)
    | ((try lift_lets -underBinder); intro z; first
      | (refine Keeps.cut (o0 := o0) (z := z) ?_ (fun hz => ?_); subst z; rotate_left; clear_value z)
      | (clear_value z)
      | (skip))
    | with_reducible (first
      | apply Keeps.ite | apply Keeps.ite2 | apply keeps_wr | apply keeps_setShaft | apply keeps_lapMax)

theorem keeps_scrubDram {o0 : State} {p : Nat} {errs : List GErr} {s : State} (hk : Keeps o0 s) : Keeps o0
    (scrubDram p errs s) := by
  unfold scrubDram
  repeat' first
    | with_reducible (first
      | assumption | exact Nat.le_refl _)
    | ((try lift_lets -underBinder); intro z; first
      | (refine Keeps.cut (o0 := o0) (z := z) ?_ (fun hz => ?_); subst z; rotate_left; clear_value z)
      | (clear_value z)
      | (skip))
    | with_reducible (first
      | apply Keeps.ite | apply Keeps.ite2 | apply keeps_setShaft | apply keeps_scrubLayer | apply keeps_scrubPage
      | apply keeps_scrubLap | refine Keeps.foldl ?_ (fun z x hz => ?_))

theorem keeps_scrubSram {o0 : State} {p : Nat} {errs : List GErr} {s : State} (hk : Keeps o0 s) : Keeps o0
    (scrubSram p errs s) := by
  unfold scrubSram
  repeat' first
    | with_reducible (first
      | assumption | exact Nat.le_refl _)
    | ((try lift_lets -underBinder); intro z; first
      | (refine Keeps.cut (o0 := o0) (z := z) ?_ (fun hz => ?_); subst z; rotate_left; clear_value z)
      | (clear_value z)
      | (skip))
    | with_reducible (first
      | apply Keeps.ite | apply Keeps.ite2 | apply keeps_wr | apply keeps_setShaft | apply keeps_scrubUnit
      | refine Keeps.foldl ?_ (fun z x hz => ?_))

theorem keeps_scrubRead {o0 : State} {p : Nat} {sram : Bool} {err : Option GErr} {s : State} (hk : Keeps o0 s) :
    Keeps o0 (scrubRead p sram err s) := by
  unfold scrubRead
  repeat' with_reducible first
    | assumption | exact Nat.le_refl _ | apply Keeps.ite | apply Keeps.ite2 | apply keeps_scrubDram
    | apply keeps_scrubSram

theorem keeps_checkerFailed {o0 : State} {p : Nat} {s : State} (hk : Keeps o0 s) : Keeps o0
    (checkerFailed p s) := by
  unfold checkerFailed
  repeat' first
    | with_reducible (first
      | assumption | exact Nat.le_refl _)
    | ((try lift_lets -underBinder); intro z; first
      | (refine Keeps.cut (o0 := o0) (z := z) ?_ (fun hz => ?_); subst z; rotate_left; clear_value z)
      | (clear_value z)
      | (skip))
    | with_reducible (first
      | apply keeps_raise | apply keeps_setShaft | apply keeps_fenceCore)
    | refine Keeps.pair ?_ (fun a z hz => ?_)
    | refine Keeps.pair2 ?_ (fun a z hz => ?_)
    | with_reducible rfl
    | split

theorem keeps_checkerStart {o0 : State} {p : Nat} {last : Option Nat} {s : State} (hk : Keeps o0 s) : Keeps o0
    (checkerStart p last s) := by
  unfold checkerStart
  repeat' with_reducible first
    | assumption | exact Nat.le_refl _ | apply keeps_wr | apply keeps_setShaft

theorem keeps_checkerRun {o0 : State} {p : Nat} {s : State} (hk : Keeps o0 s) : Keeps o0 (checkerRun p s) := by
  unfold checkerRun
  repeat' with_reducible first
    | assumption | exact Nat.le_refl _ | apply keeps_checkerStart

theorem keeps_checkerEnd {o0 : State} {p : Nat} {k : ChkRun} {s : State} (hk : Keeps o0 s) : Keeps o0
    (checkerEnd p k s) := by
  unfold checkerEnd
  repeat' first
    | with_reducible (first
      | assumption | exact Nat.le_refl _)
    | ((try lift_lets -underBinder); intro z; first
      | (refine Keeps.cut (o0 := o0) (z := z) ?_ (fun hz => ?_); subst z; rotate_left; clear_value z)
      | (clear_value z)
      | (skip))
    | with_reducible (first
      | apply keeps_wr | apply keeps_setShaft)

theorem keeps_checkerBatch {o0 : State} {p dram sram : Nat} {s : State} (hk : Keeps o0 s) : Keeps o0
    (checkerBatch p dram sram s) := by
  unfold checkerBatch
  repeat' first
    | with_reducible (first
      | assumption | exact Nat.le_refl _)
    | ((try lift_lets -underBinder); intro z; first
      | (refine Keeps.cut (o0 := o0) (z := z) ?_ (fun hz => ?_); subst z; rotate_left; clear_value z)
      | (clear_value z)
      | (skip))
    | with_reducible (first
      | apply Keeps.ite | apply Keeps.ite2 | apply keeps_setShaft | apply keeps_checkerFailed
      | apply keeps_checkerEnd)
    | refine Keeps.pair ?_ (fun a z hz => ?_)
    | refine Keeps.pair2 ?_ (fun a z hz => ?_)
    | with_reducible rfl
    | split

theorem keeps_ceilShown {o0 : State} {r : Nat} {s : State} (hk : Keeps o0 s) : Keeps o0 (ceilShown r s) := by
  unfold ceilShown
  repeat' first
    | with_reducible (first
      | assumption | exact Nat.le_refl _)
    | ((try lift_lets -underBinder); intro z; first
      | (clear_value z)
      | (skip))
    | with_reducible apply keeps_wr

theorem keeps_stretchShow {o0 : State} {s : State} (hk : Keeps o0 s) : Keeps o0 (stretchShow s) := by
  unfold stretchShow
  repeat' with_reducible first
    | assumption | exact Nat.le_refl _ | apply keeps_wr

theorem keeps_leaderAccepts {o0 : State} {s : State} (hk : Keeps o0 s) : Keeps o0 (leaderAccepts s).2 := by
  unfold leaderAccepts
  repeat' with_reducible first
    | assumption | exact Nat.le_refl _ | apply Keeps.ite | apply Keeps.ite2 | apply keeps_fresh

theorem keeps_dramHalf {o0 : State} {c : Nat} {s : State} (hk : Keeps o0 s) : Keeps o0 (dramHalf c s) := by
  unfold dramHalf
  repeat' first
    | with_reducible (first
      | assumption | exact Nat.le_refl _)
    | ((try lift_lets -underBinder); intro z; first
      | (refine Keeps.cut (o0 := o0) (z := z) ?_ (fun hz => ?_); subst z; rotate_left; clear_value z)
      | (clear_value z)
      | (skip))
    | with_reducible (first
      | apply Keeps.ite | apply Keeps.ite2 | apply keeps_wr | apply keeps_raise | apply keeps_setCore
      | apply keeps_fenceCore | apply keeps_stretchShow | apply keeps_leaderAccepts)
    | refine Keeps.pair ?_ (fun a z hz => ?_)
    | refine Keeps.pair2 ?_ (fun a z hz => ?_)
    | with_reducible rfl
    | split
    | refine Keeps.eqv (by with_reducible assumption) ?_
    | refine Keeps.eqv2 (by with_reducible assumption) ?_
    | with_reducible apply Keeps.mk_

theorem keeps_sramHalf {o0 : State} {c : Nat} {s : State} (hk : Keeps o0 s) : Keeps o0 (sramHalf c s) := by
  unfold sramHalf
  repeat' first
    | with_reducible (first
      | assumption | exact Nat.le_refl _ | apply Keeps.ite | apply Keeps.ite2 | apply keeps_fenceCore)
    | refine Keeps.pair ?_ (fun a z hz => ?_)
    | refine Keeps.pair2 ?_ (fun a z hz => ?_)
    | with_reducible rfl
    | split

theorem keeps_stretchFix {o0 : State} {s : State} (hk : Keeps o0 s) : Keeps o0 (stretchFix s) := by
  unfold stretchFix
  repeat' with_reducible first
    | assumption | exact Nat.le_refl _ | apply keeps_stretchShow | rfl | apply Keeps.mk_

theorem keeps_setTune {o0 : State} {f : Tuning → Tuning} {s : State} (hk : Keeps o0 s) : Keeps o0
    (setTune f s) := by
  unfold setTune
  repeat' with_reducible first
    | assumption | exact Nat.le_refl _ | rfl | apply Keeps.mk_

theorem keeps_retuneLane {o0 : State} {k best : Nat} {ok : Bool} {s : State} (hk : Keeps o0 s) : Keeps o0
    (retuneLane k best ok s).2 := by
  unfold retuneLane
  repeat' first
    | with_reducible (first
      | assumption | exact Nat.le_refl _)
    | ((try lift_lets -underBinder); intro z; first
      | (clear_value z)
      | (skip))
    | with_reducible (first
      | apply Keeps.ite | apply Keeps.ite2 | apply keeps_setTune)

theorem keeps_trainLane {o0 : State} {k best : Nat} {ok : Bool} {s : State} (hk : Keeps o0 s) : Keeps o0
    (trainLane k best ok s).2 := by
  unfold trainLane
  repeat' first
    | with_reducible (first
      | assumption | exact Nat.le_refl _)
    | ((try lift_lets -underBinder); intro z; first
      | (clear_value z)
      | (skip))
    | with_reducible (first
      | apply Keeps.ite | apply Keeps.ite2 | apply keeps_setTune)

theorem keeps_useSpare {o0 : State} {k : Nat} {s : State} (hk : Keeps o0 s) : Keeps o0 (useSpare k s) := by
  unfold useSpare
  repeat' with_reducible first
    | assumption | exact Nat.le_refl _ | apply keeps_setTune

theorem keeps_laneSpared {o0 : State} {p : Nat} {l : LanePath} {spare : Nat} {s : State} (hk : Keeps o0 s) :
    Keeps o0 (laneSpared p l spare s) := by
  unfold laneSpared
  repeat' first
    | with_reducible (first
      | assumption | exact Nat.le_refl _)
    | ((try lift_lets -underBinder); intro z; first
      | (refine Keeps.cut (o0 := o0) (z := z) ?_ (fun hz => ?_); subst z; rotate_left; clear_value z)
      | (refine Keeps.fn (o0 := o0) (f := z) ?_ (fun hz => ?_); subst z; intro z hz; rotate_left; clear_value z)
      | (refine Keeps.fn1 (o0 := o0) (f := z) ?_ (fun hz => ?_); subst z; intro a z hz; rotate_left; clear_value z)
      | (refine Keeps.fn2 (o0 := o0) (f := z) ?_ (fun hz => ?_); subst z; intro a b z hz; rotate_left; clear_value z)
      | (refine Keeps.fnp (o0 := o0) (f := z) ?_ (fun hz => ?_); subst z; intro a z hz; rotate_left; clear_value z)
      | (refine Keeps.sec z ?_; subst z)
      | (clear_value z)
      | (skip))
    | with_reducible (first
      | apply keeps_wr | apply keeps_bump | apply keeps_raise | apply keeps_useSpare)
    | refine Keeps.pair ?_ (fun a z hz => ?_)
    | refine Keeps.pair2 ?_ (fun a z hz => ?_)
    | with_reducible rfl
    | split

theorem keeps_planHole {o0 : State} {c cause : Nat} {s : State} (hk : Keeps o0 s) : Keeps o0
    (planHole c cause s) := by
  unfold planHole
  repeat' first
    | with_reducible (first
      | assumption | exact Nat.le_refl _ | apply Keeps.ite | apply Keeps.ite2 | rfl)
    | split
    | with_reducible apply Keeps.mk_

theorem keeps_spareLost {o0 : State} {p : Nat} {s : State} (hk : Keeps o0 s) : Keeps o0 (spareLost p s) := by
  unfold spareLost
  repeat' first
    | with_reducible (first
      | assumption | exact Nat.le_refl _)
    | ((try lift_lets -underBinder); intro z; first
      | (clear_value z)
      | (skip))
    | with_reducible (first
      | apply Keeps.ite | apply Keeps.ite2 | apply keeps_wr | rfl)
    | split
    | with_reducible apply Keeps.mk_

theorem keeps_shaftLost {o0 : State} {p : Nat} {s : State} (hk : Keeps o0 s) : Keeps o0 (shaftLost p s) := by
  unfold shaftLost
  repeat' first
    | with_reducible (first
      | assumption | exact Nat.le_refl _)
    | ((try lift_lets -underBinder); intro z; first
      | (refine Keeps.cut (o0 := o0) (z := z) ?_ (fun hz => ?_); subst z; rotate_left; clear_value z)
      | (clear_value z)
      | (skip))
    | with_reducible (first
      | apply Keeps.ite | apply Keeps.ite2 | apply keeps_raise | apply keeps_setShaft | apply keeps_fenceCore
      | apply keeps_planHole | apply keeps_spareLost)
    | refine Keeps.pair ?_ (fun a z hz => ?_)
    | refine Keeps.pair2 ?_ (fun a z hz => ?_)
    | with_reducible rfl
    | split

theorem keeps_pathBroken {o0 : State} {p first n : Nat} {f : Fld} {then_ : Nat → State → State}
    (hthen_ : ∀ a s, Keeps o0 s → Keeps o0 (then_ a s)) {s : State} (hk : Keeps o0 s) : Keeps o0
    (pathBroken p first n f then_ s) := by
  unfold pathBroken
  repeat' first
    | with_reducible (first
      | assumption | exact Nat.le_refl _ | apply hthen_)
    | ((try lift_lets -underBinder); intro z; first
      | (refine Keeps.cut (o0 := o0) (z := z) ?_ (fun hz => ?_); subst z; rotate_left; clear_value z)
      | (refine Keeps.fn (o0 := o0) (f := z) ?_ (fun hz => ?_); subst z; intro z hz; rotate_left; clear_value z)
      | (refine Keeps.fn1 (o0 := o0) (f := z) ?_ (fun hz => ?_); subst z; intro a z hz; rotate_left; clear_value z)
      | (refine Keeps.fn2 (o0 := o0) (f := z) ?_ (fun hz => ?_); subst z; intro a b z hz; rotate_left; clear_value z)
      | (refine Keeps.fnp (o0 := o0) (f := z) ?_ (fun hz => ?_); subst z; intro a z hz; rotate_left; clear_value z)
      | (refine Keeps.sec z ?_; subst z)
      | (clear_value z)
      | (skip))
    | with_reducible (first
      | apply Keeps.ite | apply Keeps.ite2 | apply keeps_wr | apply keeps_raise | apply keeps_shaftLost)
    | refine Keeps.pair ?_ (fun a z hz => ?_)
    | refine Keeps.pair2 ?_ (fun a z hz => ?_)
    | with_reducible rfl
    | split

theorem keeps_laneFailed {o0 : State} {p n : Nat} {s : State} (hk : Keeps o0 s) : Keeps o0 (laneFailed p n s) := by
  unfold laneFailed
  repeat' first
    | with_reducible (first
      | assumption | exact Nat.le_refl _)
    | intro s hs
    | intro a s hs
    | ((try lift_lets -underBinder); intro z; first
      | (refine Keeps.cut (o0 := o0) (z := z) ?_ (fun hz => ?_); subst z; rotate_left; clear_value z)
      | (clear_value z)
      | (skip))
    | with_reducible (first
      | apply Keeps.ite | apply Keeps.ite2 | apply keeps_orIn | apply keeps_raise | apply keeps_dramHalf
      | apply keeps_sramHalf | apply keeps_laneSpared | apply keeps_shaftLost | apply keeps_pathBroken)
    | refine Keeps.pair ?_ (fun a z hz => ?_)
    | refine Keeps.pair2 ?_ (fun a z hz => ?_)
    | with_reducible rfl
    | split
    | refine Keeps.eqv (by with_reducible assumption) ?_
    | refine Keeps.eqv2 (by with_reducible assumption) ?_
    | with_reducible apply Keeps.mk_

theorem keeps_trainLanes {o0 : State} {l : List (Nat × LaneObs)} {s : State} (hk : Keeps o0 s) : Keeps o0
    (trainLanes l s).2 := by
  unfold trainLanes
  repeat' with_reducible first
    | assumption | exact Nat.le_refl _ | apply Keeps.ite | apply Keeps.ite2 | apply keeps_trainLane
    | apply keeps_laneFailed | refine Keeps.foldl ?_ (fun z x hz => ?_) | refine Keeps.foldl2 ?_ (fun z x hz => ?_)

theorem keeps_bridgeDown {o0 : State} {b d : Nat} {s : State} (hk : Keeps o0 s) : Keeps o0 (bridgeDown b d s) := by
  unfold bridgeDown
  repeat' with_reducible first
    | assumption | exact Nat.le_refl _ | apply Keeps.ite | apply Keeps.ite2 | apply keeps_stopPlates
    | apply keeps_bridgeOff

theorem keeps_bridgeNarrow {o0 : State} {b d : Nat} {s : State} (hk : Keeps o0 s) : Keeps o0
    (bridgeNarrow b d s) := by
  unfold bridgeNarrow
  repeat' with_reducible first
    | assumption | exact Nat.le_refl _ | apply keeps_raise | apply keeps_stopPlates | apply keeps_setWidth

theorem keeps_wireFailed {o0 : State} {b d g i : Nat} {s : State} (hk : Keeps o0 s) : Keeps o0
    (wireFailed b d g i s) := by
  unfold wireFailed
  repeat' first
    | with_reducible (first
      | assumption | exact Nat.le_refl _)
    | ((try lift_lets -underBinder); intro z; first
      | (refine Keeps.cut (o0 := o0) (z := z) ?_ (fun hz => ?_); subst z; rotate_left; clear_value z)
      | (clear_value z)
      | (skip))
    | with_reducible (first
      | apply Keeps.ite | apply Keeps.ite2 | apply keeps_bump | apply keeps_raise | apply keeps_setBrg
      | apply keeps_useSpare | apply keeps_bridgeDown | apply keeps_bridgeNarrow)
    | refine Keeps.pair ?_ (fun a z hz => ?_)
    | refine Keeps.pair2 ?_ (fun a z hz => ?_)
    | with_reducible rfl
    | split

theorem keeps_clearSuspects {o0 : State} {now : Nat → Bool} {named : List Nat} {s : State} (hk : Keeps o0 s) :
    Keeps o0 (clearSuspects now named s) := by
  unfold clearSuspects
  repeat' with_reducible first
    | assumption | exact Nat.le_refl _ | apply keeps_setTune

theorem keeps_retuneShafts {o0 : State} {l : List (PosId × LaneObs)} {s : State} (hk : Keeps o0 s) : Keeps o0
    (retuneShafts l s) := by
  unfold retuneShafts
  repeat' first
    | with_reducible (first
      | assumption | exact Nat.le_refl _)
    | ((try lift_lets -underBinder); intro z; first
      | (refine Keeps.cut (o0 := o0) (z := z) ?_ (fun hz => ?_); subst z; rotate_left; clear_value z)
      | (clear_value z)
      | (skip))
    | with_reducible (first
      | apply Keeps.ite | apply Keeps.ite2 | apply keeps_retuneLane | apply keeps_laneFailed
      | apply keeps_clearSuspects | refine Keeps.foldl ?_ (fun z x hz => ?_)
      | refine Keeps.foldl2 ?_ (fun z x hz => ?_))
    | refine Keeps.pair ?_ (fun a z hz => ?_)
    | refine Keeps.pair2 ?_ (fun a z hz => ?_)
    | with_reducible rfl
    | split
    | refine Keeps.eqv (by with_reducible assumption) ?_
    | refine Keeps.eqv2 (by with_reducible assumption) ?_
    | with_reducible apply Keeps.mk_

theorem keeps_retuneBridges {o0 : State} {l : List WireObs} {s : State} (hk : Keeps o0 s) : Keeps o0
    (retuneBridges l s) := by
  unfold retuneBridges
  repeat' first
    | with_reducible (first
      | assumption | exact Nat.le_refl _)
    | ((try lift_lets -underBinder); intro z; first
      | (refine Keeps.cut (o0 := o0) (z := z) ?_ (fun hz => ?_); subst z; rotate_left; clear_value z)
      | (clear_value z)
      | (skip))
    | with_reducible (first
      | apply Keeps.ite | apply Keeps.ite2 | apply keeps_wr | apply keeps_retuneLane | apply keeps_wireFailed
      | apply keeps_clearSuspects | refine Keeps.foldl ?_ (fun z x hz => ?_)
      | refine Keeps.foldl2 ?_ (fun z x hz => ?_))
    | refine Keeps.pair ?_ (fun a z hz => ?_)
    | refine Keeps.pair2 ?_ (fun a z hz => ?_)
    | with_reducible rfl
    | split
    | refine Keeps.eqv (by with_reducible assumption) ?_
    | refine Keeps.eqv2 (by with_reducible assumption) ?_
    | refine Keeps.app (by with_reducible assumption) ?_
    | refine Keeps.app1 (by with_reducible assumption) ?_
    | refine Keeps.app2 (by with_reducible assumption) ?_
    | refine Keeps.appp (by with_reducible assumption) ?_
    | with_reducible apply Keeps.mk_

theorem keeps_retuneTick {o0 : State} {lanes : List (PosId × LaneObs)} {wires : List WireObs} {s : State}
    (hk : Keeps o0 s) : Keeps o0 (retuneTick lanes wires s) := by
  unfold retuneTick
  repeat' with_reducible first
    | assumption | exact Nat.le_refl _ | apply keeps_retuneShafts | apply keeps_retuneBridges

theorem keeps_reseatRequest {o0 : State} {t half row : Nat} {s : State} (hk : Keeps o0 s) : Keeps o0
    (reseatRequest t half row s) := by
  unfold reseatRequest
  repeat' with_reducible first
    | assumption | exact Nat.le_refl _ | apply keeps_wr | apply keeps_later

theorem keeps_reseatCheck {o0 : State} {t half row : Nat} {s : State} (hk : Keeps o0 s) : Keeps o0
    (reseatCheck t half row s) := by
  unfold reseatCheck
  repeat' first
    | with_reducible (first
      | assumption | exact Nat.le_refl _)
    | ((try lift_lets -underBinder); intro z; first
      | (refine Keeps.cut (o0 := o0) (z := z) ?_ (fun hz => ?_); subst z; rotate_left; clear_value z)
      | (refine Keeps.fn (o0 := o0) (f := z) ?_ (fun hz => ?_); subst z; intro z hz; rotate_left; clear_value z)
      | (refine Keeps.fn1 (o0 := o0) (f := z) ?_ (fun hz => ?_); subst z; intro a z hz; rotate_left; clear_value z)
      | (refine Keeps.fn2 (o0 := o0) (f := z) ?_ (fun hz => ?_); subst z; intro a b z hz; rotate_left; clear_value z)
      | (refine Keeps.fnp (o0 := o0) (f := z) ?_ (fun hz => ?_); subst z; intro a z hz; rotate_left; clear_value z)
      | (refine Keeps.sec z ?_; subst z)
      | (clear_value z)
      | (skip))
    | with_reducible (first
      | apply keeps_wr | apply keeps_later | apply keeps_invalidate)
    | refine Keeps.pair ?_ (fun a z hz => ?_)
    | refine Keeps.pair2 ?_ (fun a z hz => ?_)
    | with_reducible rfl
    | split

theorem keeps_reseatDone {o0 : State} {t half row : Nat} {s : State} (hk : Keeps o0 s) : Keeps o0
    (reseatDone t half row s) := by
  unfold reseatDone
  repeat' first
    | with_reducible (first
      | assumption | exact Nat.le_refl _)
    | ((try lift_lets -underBinder); intro z; first
      | (refine Keeps.cut (o0 := o0) (z := z) ?_ (fun hz => ?_); subst z; rotate_left; clear_value z)
      | (clear_value z)
      | (skip))
    | with_reducible (first
      | apply Keeps.ite | apply Keeps.ite2 | apply keeps_wr | apply keeps_raise | apply keeps_setCore
      | apply keeps_kvReseat | apply keeps_unfenceCore | apply keeps_ceilShown | apply keeps_dramHalf
      | apply keeps_sramHalf | apply keeps_stretchFix | refine Keeps.foldl ?_ (fun z x hz => ?_)
      | refine Keeps.foldl2 ?_ (fun z x hz => ?_))
    | refine Keeps.pair ?_ (fun a z hz => ?_)
    | refine Keeps.pair2 ?_ (fun a z hz => ?_)
    | with_reducible rfl
    | split

theorem keeps_evacuation {o0 : State} {t : Nat} {s : State} (hk : Keeps o0 s) : Keeps o0 (evacuation t s) := by
  unfold evacuation
  repeat' first
    | with_reducible (first
      | assumption | exact Nat.le_refl _)
    | ((try lift_lets -underBinder); intro z; first
      | (refine Keeps.cut (o0 := o0) (z := z) ?_ (fun hz => ?_); subst z; rotate_left; clear_value z)
      | (clear_value z)
      | (skip))
    | with_reducible (first
      | apply Keeps.ite | apply Keeps.ite2 | apply keeps_wr)
    | refine Keeps.pair ?_ (fun a z hz => ?_)
    | refine Keeps.pair2 ?_ (fun a z hz => ?_)
    | with_reducible rfl
    | split
    | refine Keeps.eqv (by with_reducible assumption) ?_
    | refine Keeps.eqv2 (by with_reducible assumption) ?_
    | refine Keeps.app (by with_reducible assumption) ?_
    | refine Keeps.app1 (by with_reducible assumption) ?_
    | refine Keeps.app2 (by with_reducible assumption) ?_
    | refine Keeps.appp (by with_reducible assumption) ?_
    | with_reducible apply Keeps.mk_

theorem keeps_busGranule {o0 : State} {p q a b : Nat} {s : State} (hk : Keeps o0 s) : Keeps o0
    (busGranule p q a b s) := by
  unfold busGranule
  repeat' first
    | with_reducible (first
      | assumption | exact Nat.le_refl _)
    | ((try lift_lets -underBinder); intro z; first
      | (clear_value z)
      | (skip))
    | with_reducible (first
      | apply keeps_shaftBytes | apply keeps_writeUnit)

theorem keeps_rowBus {o0 : State} {t : Nat} {s : State} (hk : Keeps o0 s) : Keeps o0 (rowBus t s) := by
  unfold rowBus
  repeat' first
    | with_reducible (first
      | assumption | exact Nat.le_refl _)
    | ((try lift_lets -underBinder); intro z; first
      | (refine Keeps.cut (o0 := o0) (z := z) ?_ (fun hz => ?_); subst z; rotate_left; clear_value z)
      | (clear_value z)
      | (skip))
    | with_reducible (first
      | apply Keeps.ite | apply Keeps.ite2 | apply keeps_wr | apply keeps_busGranule
      | refine Keeps.foldl ?_ (fun z x hz => ?_) | refine Keeps.foldl2 ?_ (fun z x hz => ?_))
    | refine Keeps.pair ?_ (fun a z hz => ?_)
    | refine Keeps.pair2 ?_ (fun a z hz => ?_)
    | with_reducible rfl
    | split
    | refine Keeps.eqv (by with_reducible assumption) ?_
    | refine Keeps.eqv2 (by with_reducible assumption) ?_
    | with_reducible apply Keeps.mk_

theorem keeps_evacDone {o0 : State} {t : Nat} {s : State} (hk : Keeps o0 s) : Keeps o0 (evacDone t s) := by
  unfold evacDone
  repeat' first
    | with_reducible (first
      | assumption | exact Nat.le_refl _ | apply Keeps.ite | apply Keeps.ite2 | apply keeps_wr | apply keeps_raise)
    | refine Keeps.pair ?_ (fun a z hz => ?_)
    | refine Keeps.pair2 ?_ (fun a z hz => ?_)
    | with_reducible rfl
    | split
    | refine Keeps.eqv (by with_reducible assumption) ?_
    | refine Keeps.eqv2 (by with_reducible assumption) ?_
    | with_reducible apply Keeps.mk_

theorem keeps_refresh {o0 : State} {s : State} (hk : Keeps o0 s) : Keeps o0 (refresh s) := by
  unfold refresh
  repeat' first
    | with_reducible (first
      | assumption | exact Nat.le_refl _)
    | ((try lift_lets -underBinder); intro z; first
      | (clear_value z)
      | (skip))
    | with_reducible (first
      | apply Keeps.ite | apply Keeps.ite2 | refine Keeps.foldl ?_ (fun z x hz => ?_)
      | refine Keeps.foldl2 ?_ (fun z x hz => ?_) | rfl)
    | split
    | with_reducible apply Keeps.mk_

theorem keeps_sensorFail {o0 : State} {t i : Nat} {s : State} (hk : Keeps o0 s) : Keeps o0 (sensorFail t i s) := by
  unfold sensorFail
  repeat' with_reducible first
    | assumption | exact Nat.le_refl _ | apply Keeps.ite | apply Keeps.ite2 | apply keeps_wr | apply keeps_bump
    | apply keeps_raise

theorem keeps_hotCheck {o0 : State} {t : Nat} {s : State} (hk : Keeps o0 s) : Keeps o0 (hotCheck t s) := by
  unfold hotCheck
  repeat' with_reducible first
    | assumption | exact Nat.le_refl _ | apply Keeps.ite | apply Keeps.ite2 | apply keeps_setTherm

theorem keeps_diffCheck {o0 : State} {t layer q : Nat} {s : State} (hk : Keeps o0 s) : Keeps o0
    (diffCheck t layer q s) := by
  unfold diffCheck
  repeat' first
    | with_reducible (first
      | assumption | exact Nat.le_refl _)
    | ((try lift_lets -underBinder); intro z; first
      | (clear_value z)
      | (skip))
    | with_reducible (first
      | apply Keeps.ite | apply Keeps.ite2 | apply keeps_setTherm)

theorem keeps_diffsCheck {o0 : State} {t : Nat} {s : State} (hk : Keeps o0 s) : Keeps o0 (diffsCheck t s) := by
  unfold diffsCheck
  repeat' with_reducible first
    | assumption | exact Nat.le_refl _ | apply keeps_diffCheck | refine Keeps.foldl ?_ (fun z x hz => ?_)

theorem keeps_sensorRead {o0 : State} {t : Nat} {vals : List Int} {s : State} (hk : Keeps o0 s) : Keeps o0
    (sensorRead t vals s) := by
  unfold sensorRead
  repeat' first
    | with_reducible (first
      | assumption | exact Nat.le_refl _)
    | ((try lift_lets -underBinder); intro z; first
      | (refine Keeps.cut (o0 := o0) (z := z) ?_ (fun hz => ?_); subst z; rotate_left; clear_value z)
      | (refine Keeps.fn (o0 := o0) (f := z) ?_ (fun hz => ?_); subst z; intro z hz; rotate_left; clear_value z)
      | (refine Keeps.fn1 (o0 := o0) (f := z) ?_ (fun hz => ?_); subst z; intro a z hz; rotate_left; clear_value z)
      | (refine Keeps.fn2 (o0 := o0) (f := z) ?_ (fun hz => ?_); subst z; intro a b z hz; rotate_left; clear_value z)
      | (refine Keeps.fnp (o0 := o0) (f := z) ?_ (fun hz => ?_); subst z; intro a z hz; rotate_left; clear_value z)
      | (refine Keeps.sec z ?_; subst z)
      | (clear_value z)
      | (skip))
    | with_reducible (first
      | apply Keeps.ite | apply Keeps.ite2 | apply keeps_wr | apply keeps_sensorFail | apply keeps_hotCheck
      | apply keeps_diffsCheck | refine Keeps.foldl ?_ (fun z x hz => ?_))

theorem keeps_hotExit {o0 : State} {t : Nat} {s : State} (hk : Keeps o0 s) : Keeps o0 (hotExit t s) := by
  unfold hotExit
  repeat' with_reducible first
    | assumption | exact Nat.le_refl _ | apply Keeps.ite | apply Keeps.ite2 | apply keeps_setTherm

theorem keeps_hotTick {o0 : State} {s : State} (hk : Keeps o0 s) : Keeps o0 (hotTick s) := by
  unfold hotTick
  repeat' first
    | with_reducible (first
      | assumption | exact Nat.le_refl _)
    | ((try lift_lets -underBinder); intro z; first
      | (refine Keeps.cut (o0 := o0) (z := z) ?_ (fun hz => ?_); subst z; rotate_left; clear_value z)
      | (clear_value z)
      | (skip))
    | with_reducible (first
      | apply Keeps.ite | apply Keeps.ite2 | apply keeps_wr | apply keeps_raise | apply keeps_setTherm
      | refine Keeps.foldl ?_ (fun z x hz => ?_))

theorem keeps_ceilShow {o0 : State} {h : Nat} {s : State} (hk : Keeps o0 s) : Keeps o0 (ceilShow h s) := by
  unfold ceilShow
  repeat' with_reducible first
    | assumption | exact Nat.le_refl _ | apply keeps_wr

theorem keeps_setBase {o0 : State} {h n : Nat} {s : State} (hk : Keeps o0 s) : Keeps o0 (setBase h n s) := by
  unfold setBase
  repeat' with_reducible first
    | assumption | exact Nat.le_refl _ | apply keeps_setTherm | apply keeps_ceilShow

theorem keeps_shadowShow {o0 : State} {t layer q : Nat} {s : State} (hk : Keeps o0 s) : Keeps o0
    (shadowShow t layer q s) := by
  unfold shadowShow
  repeat' with_reducible first
    | assumption | exact Nat.le_refl _ | apply keeps_wr | refine Keeps.foldl ?_ (fun z x hz => ?_)

theorem keeps_blindCheck {o0 : State} {t layer q : Nat} {s : State} (hk : Keeps o0 s) : Keeps o0
    (blindCheck t layer q s) := by
  unfold blindCheck
  repeat' first
    | with_reducible (first
      | assumption | exact Nat.le_refl _)
    | ((try lift_lets -underBinder); intro z; first
      | (clear_value z)
      | (skip))
    | with_reducible (first
      | apply Keeps.ite | apply Keeps.ite2 | apply keeps_wr | apply keeps_raise | apply keeps_setTherm
      | apply keeps_ceilShow)

theorem keeps_shadowCompute {o0 : State} {t : Nat} {energy : List (DomainId × Nat)} {s : State} (hk : Keeps o0 s) :
    Keeps o0 (shadowCompute t energy s) := by
  unfold shadowCompute
  repeat' first
    | with_reducible (first
      | assumption | exact Nat.le_refl _)
    | ((try lift_lets -underBinder); intro z; first
      | (refine Keeps.cut (o0 := o0) (z := z) ?_ (fun hz => ?_); subst z; rotate_left; clear_value z)
      | (clear_value z)
      | (skip))
    | with_reducible (first
      | apply keeps_setTherm | apply keeps_hotCheck | apply keeps_diffCheck | apply keeps_shadowShow
      | apply keeps_blindCheck | refine Keeps.foldl ?_ (fun z x hz => ?_))

theorem keeps_disShow {o0 : State} {t layer q : Nat} {s : State} (hk : Keeps o0 s) : Keeps o0
    (disShow t layer q s) := by
  unfold disShow
  repeat' first
    | with_reducible (first
      | assumption | exact Nat.le_refl _)
    | ((try lift_lets -underBinder); intro z; first
      | (clear_value z)
      | (skip))
    | with_reducible (first
      | apply keeps_wr | refine Keeps.foldl ?_ (fun z x hz => ?_))

theorem keeps_shadowHold {o0 : State} {t layer q : Nat} {s : State} (hk : Keeps o0 s) : Keeps o0
    (shadowHold t layer q s) := by
  unfold shadowHold
  repeat' first
    | with_reducible (first
      | assumption | exact Nat.le_refl _)
    | ((try lift_lets -underBinder); intro z; first
      | (refine Keeps.cut (o0 := o0) (z := z) ?_ (fun hz => ?_); subst z; rotate_left; clear_value z)
      | (clear_value z)
      | (skip))
    | with_reducible (first
      | apply Keeps.ite | apply Keeps.ite2 | apply keeps_raise | apply keeps_setTherm | apply keeps_ceilShow
      | apply keeps_disShow)

theorem keeps_govShow {o0 : State} {h : Nat} {l d : Option (Int × Nat × Bool)} {s : State} (hk : Keeps o0 s) :
    Keeps o0 (govShow h l d s) := by
  unfold govShow
  repeat' first
    | with_reducible (first
      | assumption | exact Nat.le_refl _)
    | ((try lift_lets -underBinder); intro z; first
      | (refine Keeps.cut (o0 := o0) (z := z) ?_ (fun hz => ?_); subst z; rotate_left; clear_value z)
      | (clear_value z)
      | (skip))
    | with_reducible (first
      | apply Keeps.ite | apply Keeps.ite2 | apply keeps_wr)
    | refine Keeps.pair ?_ (fun a z hz => ?_)
    | refine Keeps.pair2 ?_ (fun a z hz => ?_)
    | with_reducible rfl
    | split

theorem keeps_stepTo {o0 : State} {h n : Nat} {s : State} (hk : Keeps o0 s) : Keeps o0 (stepTo h n s) := by
  unfold stepTo
  repeat' with_reducible first
    | assumption | exact Nat.le_refl _ | apply Keeps.ite | apply Keeps.ite2 | apply keeps_bump | apply keeps_setBase

theorem keeps_thermalEval {o0 : State} {h : Nat} {s : State} (hk : Keeps o0 s) : Keeps o0 (thermalEval h s) := by
  unfold thermalEval
  repeat' first
    | with_reducible (first
      | assumption | exact Nat.le_refl _)
    | ((try lift_lets -underBinder); intro z; first
      | (refine Keeps.cut (o0 := o0) (z := z) ?_ (fun hz => ?_); subst z; rotate_left; clear_value z)
      | (clear_value z)
      | (skip))
    | with_reducible (first
      | apply Keeps.ite | apply Keeps.ite2 | apply keeps_wr | apply keeps_raise | apply keeps_setTherm
      | apply keeps_govShow | apply keeps_stepTo)

theorem keeps_thmRecover {o0 : State} {h : Nat} {s : State} (hk : Keeps o0 s) : Keeps o0 (thmRecover h s) := by
  unfold thmRecover
  repeat' first
    | with_reducible (first
      | assumption | exact Nat.le_refl _)
    | ((try lift_lets -underBinder); intro z; first
      | (refine Keeps.cut (o0 := o0) (z := z) ?_ (fun hz => ?_); subst z; rotate_left; clear_value z)
      | (clear_value z)
      | (skip))
    | with_reducible (first
      | apply Keeps.ite | apply Keeps.ite2 | apply keeps_wr | apply keeps_setTherm | apply keeps_setBase)

theorem voidOf_sram {lo hi k : Nat} {f : Option Nat} {l : List Void} (h : k % 2 ^ 29 < 2 ^ 28) :
    voidOf k (⟨lo, hi, true, f⟩ :: l) = voidOf k l := by
  rw [voidOf, if_neg]
  rintro ⟨-, -, h' | h'⟩
  · cases h'
  · omega
theorem filter_wf {mem : SMap Byte} {vs : List Void} {lo hi : Nat} {f : Option Nat} (h : Memory.wf mem vs = true) :
    Memory.wf (mem.filter (fun e => dramKey e.1)) (⟨lo, hi, true, f⟩ :: vs) = true := by
  rw [Memory.wf_iff] at h ⊢
  refine ⟨keysRise_filter h.1, fun e he => ?_⟩
  have hm := List.mem_filter.mp he
  rw [voidOf_sram (by simpa [dramKey] using hm.2)]
  exact h.2 e hm.1
theorem keeps_startState {o0 : State} {kind last : Nat} {dram : Bool} {s : State} (hk : Keeps o0 s) :
    Keeps o0 (startState kind last dram s) := by
  unfold startState
  dsimp only
  refine keeps_wr (keeps_wr (keeps_wr (keeps_wr ?_)))
  have h1 : ∀ t, Keeps o0 t → Keeps o0 (if s.boot.alive = true then
      (upFrom 76 4).foldl (fun x d => wr R.PDN_STAT_STATE d 2 x) (wr R.APT_FEED_AUX_OK 0 1 t) else t) := by
    intro t ht
    split
    · exact Keeps.foldl (keeps_wr ht) fun _ _ h => keeps_wr h
    · exact ht
  refine h1 _ (Keeps.foldl ?_ fun _ _ h => keeps_wr h)
  refine hk.trans ⟨rfl, Nat.le_add_right _ _, fun _ => Nat.le_refl _, fun h => ?_, fun h v hv n e => ?_, OtpGrows.rfl' _⟩
  · show Memory.wf _ _ = true
    dsimp only
    split
    · exact filter_wf h
    · rfl
  · dsimp only at hv ⊢
    split at hv
    · rcases List.mem_cons.mp hv with rfl | hv
      · cases e; exact Nat.le_refl _
      · exact Nat.le_succ_of_le (h v hv n e)
    · rw [List.mem_singleton] at hv
      subst hv
      cases e; exact Nat.le_refl _

theorem keeps_powered {o0 : State} {f : State → State} (hf : ∀ s, Keeps o0 s → Keeps o0 (f s)) {s : State}
    (hk : Keeps o0 s) : Keeps o0 (powered f s) := by
  unfold powered
  repeat' with_reducible first
    | assumption | exact Nat.le_refl _ | apply hf | apply Keeps.ite

theorem keeps_modReset {o0 : State} {cool : Bool} {s : State} (hk : Keeps o0 s) : Keeps o0 (modReset cool s) := by
  unfold modReset
  repeat' first
    | with_reducible (first
      | assumption | exact Nat.le_refl _)
    | ((try lift_lets -underBinder); intro z; first
      | (refine Keeps.cut (o0 := o0) (z := z) ?_ (fun hz => ?_); subst z; rotate_left; clear_value z)
      | (clear_value z)
      | (skip))
    | with_reducible (first
      | apply Keeps.ite | apply Keeps.ite2 | apply keeps_setTherm | apply keeps_startState | rfl)
    | split
    | with_reducible apply Keeps.mk_

theorem keeps_bothFeedsLost {o0 : State} {s : State} (hk : Keeps o0 s) : Keeps o0 (bothFeedsLost s) := by
  unfold bothFeedsLost
  repeat' first
    | with_reducible (first
      | assumption | exact Nat.le_refl _)
    | ((try lift_lets -underBinder); intro z; first
      | (refine Keeps.cut (o0 := o0) (z := z) ?_ (fun hz => ?_); subst z; rotate_left; clear_value z)
      | (refine Keeps.fn (o0 := o0) (f := z) ?_ (fun hz => ?_); subst z; intro z hz; rotate_left; clear_value z)
      | (refine Keeps.fn1 (o0 := o0) (f := z) ?_ (fun hz => ?_); subst z; intro a z hz; rotate_left; clear_value z)
      | (refine Keeps.fn2 (o0 := o0) (f := z) ?_ (fun hz => ?_); subst z; intro a b z hz; rotate_left; clear_value z)
      | (refine Keeps.fnp (o0 := o0) (f := z) ?_ (fun hz => ?_); subst z; intro a z hz; rotate_left; clear_value z)
      | (refine Keeps.sec z ?_; subst z)
      | (clear_value z)
      | (skip))
    | with_reducible (first
      | apply Keeps.ite | apply Keeps.ite2 | apply keeps_wr | apply keeps_startState)

theorem keeps_feedOut {o0 : State} {b : Bool} {s : State} (hk : Keeps o0 s) : Keeps o0 (feedOut b s) := by
  unfold feedOut
  repeat' first
    | with_reducible (first
      | assumption | exact Nat.le_refl _)
    | ((try lift_lets -underBinder); intro z; first
      | (clear_value z)
      | (skip))
    | with_reducible (first
      | apply Keeps.ite | apply Keeps.ite2 | apply keeps_feedLost | apply keeps_bothFeedsLost)

theorem keeps_feedIn {o0 : State} {b : Bool} {s : State} (hk : Keeps o0 s) : Keeps o0 (feedIn b s) := by
  unfold feedIn
  repeat' with_reducible first
    | assumption | exact Nat.le_refl _ | apply Keeps.ite | apply Keeps.ite2 | apply keeps_wr

theorem keeps_auxLost {o0 : State} {s : State} (hk : Keeps o0 s) : Keeps o0 (auxLost s) := by
  refine keeps_wr (keeps_wr (hk.trans ⟨rfl, Nat.le_add_right _ _, fun _ => Nat.le_refl _, fun _ => rfl, fun _ v hv n e => ?_, OtpGrows.rfl' _⟩))
  rw [List.mem_singleton] at hv
  subst hv
  cases e; exact Nat.le_refl _

theorem keeps_raiseSafe {o0 : State} {e : Ev} {s : State} (hk : Keeps o0 s) : Keeps o0 (raiseSafe e s) := by
  unfold raiseSafe
  repeat' first
    | with_reducible (first
      | assumption | exact Nat.le_refl _)
    | ((try lift_lets -underBinder); intro z; first
      | (refine Keeps.cut (o0 := o0) (z := z) ?_ (fun hz => ?_); subst z; rotate_left; clear_value z)
      | (clear_value z)
      | (skip))
    | with_reducible (first
      | apply keeps_evMark | rfl | apply Keeps.mk_)

theorem keeps_thermTrip {o0 : State} {t i : Nat} {s : State} (hk : Keeps o0 s) : Keeps o0 (thermTrip t i s) := by
  unfold thermTrip
  repeat' first
    | with_reducible (first
      | assumption | exact Nat.le_refl _)
    | ((try lift_lets -underBinder); intro z; first
      | (refine Keeps.cut (o0 := o0) (z := z) ?_ (fun hz => ?_); subst z; rotate_left; clear_value z)
      | (refine Keeps.fn (o0 := o0) (f := z) ?_ (fun hz => ?_); subst z; intro z hz; rotate_left; clear_value z)
      | (refine Keeps.fn1 (o0 := o0) (f := z) ?_ (fun hz => ?_); subst z; intro a z hz; rotate_left; clear_value z)
      | (refine Keeps.fn2 (o0 := o0) (f := z) ?_ (fun hz => ?_); subst z; intro a b z hz; rotate_left; clear_value z)
      | (refine Keeps.fnp (o0 := o0) (f := z) ?_ (fun hz => ?_); subst z; intro a z hz; rotate_left; clear_value z)
      | (refine Keeps.sec z ?_; subst z)
      | (clear_value z)
      | (skip))
    | with_reducible (first
      | apply Keeps.ite | apply Keeps.ite2 | apply keeps_wr | apply keeps_setTherm | apply keeps_startState
      | apply keeps_raiseSafe)
    | refine Keeps.pair ?_ (fun a z hz => ?_)
    | refine Keeps.pair2 ?_ (fun a z hz => ?_)
    | with_reducible rfl
    | split

theorem keeps_refclkLost {o0 : State} {s : State} (hk : Keeps o0 s) : Keeps o0 (refclkLost s) := by
  unfold refclkLost
  repeat' first
    | with_reducible (first
      | assumption | exact Nat.le_refl _)
    | ((try lift_lets -underBinder); intro z; first
      | (refine Keeps.cut (o0 := o0) (z := z) ?_ (fun hz => ?_); subst z; rotate_left; clear_value z)
      | (refine Keeps.fn (o0 := o0) (f := z) ?_ (fun hz => ?_); subst z; intro z hz; rotate_left; clear_value z)
      | (refine Keeps.fn1 (o0 := o0) (f := z) ?_ (fun hz => ?_); subst z; intro a z hz; rotate_left; clear_value z)
      | (refine Keeps.fn2 (o0 := o0) (f := z) ?_ (fun hz => ?_); subst z; intro a b z hz; rotate_left; clear_value z)
      | (refine Keeps.fnp (o0 := o0) (f := z) ?_ (fun hz => ?_); subst z; intro a z hz; rotate_left; clear_value z)
      | (refine Keeps.sec z ?_; subst z)
      | (clear_value z)
      | (skip))
    | with_reducible (first
      | apply Keeps.ite | apply Keeps.ite2 | apply keeps_wr | apply keeps_raise | apply keeps_rayDark
      | refine Keeps.foldl ?_ (fun z x hz => ?_))

theorem keeps_phaseEnd {o0 : State} {p next : Nat} {s : State} (hk : Keeps o0 s) : Keeps o0
    (phaseEnd p next s) := by
  unfold phaseEnd
  repeat' first
    | with_reducible (first
      | assumption | exact Nat.le_refl _)
    | ((try lift_lets -underBinder); intro z; first
      | (refine Keeps.cut (o0 := o0) (z := z) ?_ (fun hz => ?_); subst z; rotate_left; clear_value z)
      | (clear_value z)
      | (skip))
    | with_reducible (first
      | apply keeps_wr | rfl | apply Keeps.mk_)

theorem keeps_bootFailed {o0 : State} {cause : Nat} {e : Ev} {s : State} (hk : Keeps o0 s) : Keeps o0
    (bootFailed cause e s) := by
  unfold bootFailed
  repeat' with_reducible first
    | assumption | exact Nat.le_refl _ | apply keeps_wr | apply keeps_raise

theorem keeps_safelight {o0 : State} {ok : Bool} {s : State} (hk : Keeps o0 s) : Keeps o0 (safelight ok s) := by
  unfold safelight
  repeat' first
    | with_reducible (first
      | assumption | exact Nat.le_refl _)
    | ((try lift_lets -underBinder); intro z; first
      | (refine Keeps.cut (o0 := o0) (z := z) ?_ (fun hz => ?_); subst z; rotate_left; clear_value z)
      | (clear_value z)
      | (skip))
    | with_reducible (first
      | apply Keeps.ite | apply Keeps.ite2 | apply keeps_wr | apply keeps_powered | apply keeps_phaseEnd
      | refine Keeps.foldl ?_ (fun z x hz => ?_) | refine Keeps.foldl2 ?_ (fun z x hz => ?_) | rfl)
    | split
    | with_reducible apply Keeps.mk_

theorem keeps_gradeRegs {o0 : State} {f : Fuses} {s : State} (hk : Keeps o0 s) : Keeps o0 (gradeRegs f s) := by
  unfold gradeRegs
  repeat' with_reducible first
    | assumption | exact Nat.le_refl _ | apply Keeps.ite | apply Keeps.ite2 | apply keeps_wr

theorem keeps_setSkip {o0 : State} {hr col : Nat} {selftest : Bool} {s : State} (hk : Keeps o0 s) : Keeps o0
    (setSkip hr col selftest s) := by
  unfold setSkip
  repeat' first
    | with_reducible (first
      | assumption | exact Nat.le_refl _)
    | ((try lift_lets -underBinder); intro z; first
      | (clear_value z)
      | (skip))
    | with_reducible apply keeps_wr

theorem keeps_otpRegs {o0 : State} {s : State} (hk : Keeps o0 s) : Keeps o0 (otpRegs s) := by
  unfold otpRegs
  repeat' first
    | with_reducible (first
      | assumption | exact Nat.le_refl _)
    | ((try lift_lets -underBinder); intro z; first
      | (refine Keeps.cut (o0 := o0) (z := z) ?_ (fun hz => ?_); subst z; rotate_left; clear_value z)
      | (refine Keeps.sec z ?_; subst z)
      | (clear_value z)
      | (skip))
    | with_reducible (first
      | apply keeps_wr | refine Keeps.foldl ?_ (fun z x hz => ?_) | refine Keeps.foldl2 ?_ (fun z x hz => ?_))
    | refine Keeps.pair ?_ (fun a z hz => ?_)
    | refine Keeps.pair2 ?_ (fun a z hz => ?_)
    | with_reducible rfl
    | split
    | refine Keeps.eqv (by with_reducible assumption) ?_
    | refine Keeps.eqv2 (by with_reducible assumption) ?_
    | with_reducible apply Keeps.mk_

theorem keeps_measure {o0 : State} {i d : Nat} {s : State} (hk : Keeps o0 s) : Keeps o0 (measure i d s) := by
  unfold measure
  repeat' with_reducible first
    | assumption | exact Nat.le_refl _ | rfl | apply Keeps.mk_

theorem keeps_fuse {o0 : State} {f : Fuses} {s : State} (hk : Keeps o0 s) : Keeps o0 (fuse f s) := by
  unfold fuse
  repeat' first
    | with_reducible (first
      | assumption | exact Nat.le_refl _)
    | ((try lift_lets -underBinder); intro z; first
      | (refine Keeps.cut (o0 := o0) (z := z) ?_ (fun hz => ?_); subst z; rotate_left; clear_value z)
      | (clear_value z)
      | (skip))
    | with_reducible (first
      | apply Keeps.ite | apply Keeps.ite2 | apply keeps_wr | apply keeps_ceilShown | apply keeps_phaseEnd
      | apply keeps_bootFailed | apply keeps_gradeRegs | apply keeps_setSkip | apply keeps_otpRegs
      | apply keeps_measure | refine Keeps.foldl ?_ (fun z x hz => ?_) | refine Keeps.foldl2 ?_ (fun z x hz => ?_)
      | rfl)
    | split
    | with_reducible apply Keeps.mk_

theorem keeps_stripUntrusted {o0 : State} {p : Nat} {s : State} (hk : Keeps o0 s) : Keeps o0
    (stripUntrusted p s) := by
  unfold stripUntrusted
  repeat' first
    | with_reducible (first
      | assumption | exact Nat.le_refl _)
    | ((try lift_lets -underBinder); intro z; first
      | (refine Keeps.cut (o0 := o0) (z := z) ?_ (fun hz => ?_); subst z; rotate_left; clear_value z)
      | (clear_value z)
      | (skip))
    | with_reducible (first
      | apply keeps_raise | apply keeps_setShaft | apply keeps_planHole)
    | refine Keeps.pair ?_ (fun a z hz => ?_)
    | refine Keeps.pair2 ?_ (fun a z hz => ?_)
    | with_reducible rfl
    | split

theorem keeps_stripChecker {o0 : State} {x : CheckFail} {s : State} (hk : Keeps o0 s) : Keeps o0
    (stripChecker x s) := by
  unfold stripChecker
  repeat' first
    | with_reducible (first
      | assumption | exact Nat.le_refl _)
    | ((try lift_lets -underBinder); intro z; first
      | (clear_value z)
      | (skip))
    | with_reducible (first
      | apply Keeps.ite | apply Keeps.ite2 | apply keeps_wr | apply keeps_stripUntrusted)

theorem keeps_stripMarch {o0 : State} {x : MarchFault} {s : State} (hk : Keeps o0 s) : Keeps o0
    (stripMarch x s) := by
  unfold stripMarch
  repeat' first
    | with_reducible (first
      | assumption | exact Nat.le_refl _)
    | ((try lift_lets -underBinder); intro z; first
      | (clear_value z)
      | (skip))
    | with_reducible (first
      | apply Keeps.ite | apply Keeps.ite2 | apply keeps_bump | apply keeps_raise | apply keeps_stripUntrusted)

theorem keeps_stripCore {o0 : State} {hr col : Nat} {s : State} (hk : Keeps o0 s) : Keeps o0
    (stripCore hr col s) := by
  unfold stripCore
  repeat' first
    | with_reducible (first
      | assumption | exact Nat.le_refl _)
    | ((try lift_lets -underBinder); intro z; first
      | (refine Keeps.cut (o0 := o0) (z := z) ?_ (fun hz => ?_); subst z; rotate_left; clear_value z)
      | (clear_value z)
      | (skip))
    | with_reducible (first
      | exact Nat.le_add_right _ _ | apply Keeps.ite | apply Keeps.ite2 | apply keeps_raise | apply keeps_planHole)
    | refine Keeps.pair ?_ (fun a z hz => ?_)
    | refine Keeps.pair2 ?_ (fun a z hz => ?_)
    | with_reducible rfl
    | split
    | refine Keeps.eqv (by with_reducible assumption) ?_
    | refine Keeps.eqv2 (by with_reducible assumption) ?_
    | with_reducible apply Keeps.mk_

theorem keeps_stripRouter {o0 : State} {h row col : Nat} {s : State} (hk : Keeps o0 s) : Keeps o0
    (stripRouter h row col s) := by
  unfold stripRouter
  repeat' with_reducible first
    | assumption | exact Nat.le_refl _ | apply Keeps.ite | apply Keeps.ite2 | apply keeps_raise
    | apply keeps_loseHalf

theorem keeps_strip {o0 : State} {r : StripRes} {s : State} (hk : Keeps o0 s) : Keeps o0 (strip r s) := by
  unfold strip
  repeat' first
    | with_reducible (first
      | assumption | exact Nat.le_refl _)
    | ((try lift_lets -underBinder); intro z; first
      | (refine Keeps.cut (o0 := o0) (z := z) ?_ (fun hz => ?_); subst z; rotate_left; clear_value z)
      | (clear_value z)
      | (skip))
    | with_reducible (first
      | apply Keeps.ite | apply Keeps.ite2 | apply keeps_wr | apply keeps_phaseLost | apply keeps_setTune
      | apply keeps_trainLanes | apply keeps_sensorFail | apply keeps_phaseEnd | apply keeps_bootFailed
      | apply keeps_stripChecker | apply keeps_stripMarch | apply keeps_stripCore | apply keeps_stripRouter
      | refine Keeps.foldl ?_ (fun z x hz => ?_))

theorem keeps_applyCfg {o0 : State} {c : CfgPages} {s : State} (hk : Keeps o0 s) : Keeps o0 (applyCfg c s) := by
  unfold applyCfg
  repeat' first
    | with_reducible (first
      | assumption | exact Nat.le_refl _)
    | ((try lift_lets -underBinder); intro z; first
      | (clear_value z)
      | (skip))
    | with_reducible (first
      | apply keeps_wr | apply keeps_bump | apply keeps_raise | apply keeps_clampTo
      | refine Keeps.foldl ?_ (fun z x hz => ?_) | refine Keeps.foldl2 ?_ (fun z x hz => ?_))
    | refine Keeps.pair ?_ (fun a z hz => ?_)
    | refine Keeps.pair2 ?_ (fun a z hz => ?_)
    | with_reducible rfl
    | split
    | refine Keeps.eqv (by with_reducible assumption) ?_
    | refine Keeps.eqv2 (by with_reducible assumption) ?_
    | refine Keeps.app (by with_reducible assumption) ?_
    | refine Keeps.app1 (by with_reducible assumption) ?_
    | refine Keeps.app2 (by with_reducible assumption) ?_
    | refine Keeps.appp (by with_reducible assumption) ?_
    | with_reducible apply Keeps.mk_

theorem keeps_loadUser {o0 : State} {u : List Byte} {s : State} (hk : Keeps o0 s) : Keeps o0 (loadUser u s).2 := by
  unfold loadUser
  repeat' first
    | with_reducible (first
      | assumption | exact Nat.le_refl _)
    | ((try lift_lets -underBinder); intro z; first
      | (refine Keeps.cut (o0 := o0) (z := z) ?_ (fun hz => ?_); subst z; rotate_left; clear_value z)
      | (clear_value z)
      | (skip))
    | with_reducible (first
      | apply Keeps.ite | apply Keeps.ite2 | apply keeps_wr | apply keeps_raise | apply keeps_measure)

theorem keeps_loadPhase {o0 : State} {fl : Flash} {s : State} (hk : Keeps o0 s) : Keeps o0 (loadPhase fl s) := by
  unfold loadPhase
  repeat' first
    | with_reducible (first
      | assumption | exact Nat.le_refl _)
    | ((try lift_lets -underBinder); intro z; first
      | (refine Keeps.cut (o0 := o0) (z := z) ?_ (fun hz => ?_); subst z; rotate_left; clear_value z)
      | (refine Keeps.sec z ?_; subst z)
      | (clear_value z)
      | (skip))
    | with_reducible (first
      | apply Keeps.ite | apply Keeps.ite2 | apply keeps_wr | apply keeps_raise | apply keeps_abaTrainStart
      | apply keeps_phaseEnd | apply keeps_bootFailed | apply keeps_measure | apply keeps_applyCfg
      | apply keeps_loadUser)
    | refine Keeps.pair ?_ (fun a z hz => ?_)
    | refine Keeps.pair2 ?_ (fun a z hz => ?_)
    | with_reducible rfl
    | split
    | refine Keeps.eqv (by with_reducible assumption) ?_
    | refine Keeps.eqv2 (by with_reducible assumption) ?_
    | with_reducible apply Keeps.mk_

theorem keeps_note {o0 : State} {f : Fld} {i v : Nat} {s : State} (hk : Keeps o0 s) : Keeps o0 (note f i v s) := by
  unfold note
  repeat' with_reducible first
    | assumption | exact Nat.le_refl _ | apply Keeps.ite | apply Keeps.ite2 | apply keeps_wr

theorem keeps_noteStat {o0 : State} {pg : Pg} {i : Nat} {bad out : Bool} {s : State} (hk : Keeps o0 s) : Keeps o0
    (noteStat pg i bad out s) := by
  unfold noteStat
  repeat' with_reducible first
    | assumption | exact Nat.le_refl _ | apply keeps_note

theorem keeps_pageStats {o0 : State} {s : State} (hk : Keeps o0 s) : Keeps o0 (pageStats s) := by
  unfold pageStats
  repeat' first
    | with_reducible (first
      | assumption | exact Nat.le_refl _)
    | ((try lift_lets -underBinder); intro z; first
      | (refine Keeps.cut (o0 := o0) (z := z) ?_ (fun hz => ?_); subst z; rotate_left; clear_value z)
      | (refine Keeps.fn (o0 := o0) (f := z) ?_ (fun hz => ?_); subst z; intro z hz; rotate_left; clear_value z)
      | (refine Keeps.fn1 (o0 := o0) (f := z) ?_ (fun hz => ?_); subst z; intro a z hz; rotate_left; clear_value z)
      | (refine Keeps.fn2 (o0 := o0) (f := z) ?_ (fun hz => ?_); subst z; intro a b z hz; rotate_left; clear_value z)
      | (refine Keeps.fnp (o0 := o0) (f := z) ?_ (fun hz => ?_); subst z; intro a z hz; rotate_left; clear_value z)
      | (refine Keeps.sec z ?_; subst z)
      | (clear_value z)
      | (skip))
    | with_reducible (first
      | apply keeps_noteStat | refine Keeps.foldl ?_ (fun z x hz => ?_))

theorem keeps_showView {o0 : State} {s : State} (hk : Keeps o0 s) : Keeps o0 (showView s) := by
  unfold showView
  repeat' with_reducible first
    | assumption | exact Nat.le_refl _ | rfl | apply Keeps.mk_

theorem keeps_copyRof {o0 : State} {s : State} (hk : Keeps o0 s) : Keeps o0 (copyRof s) := by
  unfold copyRof
  repeat' first
    | with_reducible (first
      | assumption | exact Nat.le_refl _)
    | ((try lift_lets -underBinder); intro z; first
      | (refine Keeps.cut (o0 := o0) (z := z) ?_ (fun hz => ?_); subst z; rotate_left; clear_value z)
      | (refine Keeps.fn (o0 := o0) (f := z) ?_ (fun hz => ?_); subst z; intro z hz; rotate_left; clear_value z)
      | (refine Keeps.fn1 (o0 := o0) (f := z) ?_ (fun hz => ?_); subst z; intro a z hz; rotate_left; clear_value z)
      | (refine Keeps.fn2 (o0 := o0) (f := z) ?_ (fun hz => ?_); subst z; intro a b z hz; rotate_left; clear_value z)
      | (refine Keeps.fnp (o0 := o0) (f := z) ?_ (fun hz => ?_); subst z; intro a z hz; rotate_left; clear_value z)
      | (refine Keeps.sec z ?_; subst z)
      | (clear_value z)
      | (skip))
    | with_reducible (first
      | apply Keeps.ite | apply Keeps.ite2 | apply keeps_pageStats | apply keeps_showView | rfl)
    | split
    | with_reducible apply Keeps.mk_

theorem keeps_showNow {o0 : State} {f : Fld} {s : State} (hk : Keeps o0 s) : Keeps o0 (showNow f s) := by
  unfold showNow
  repeat' first
    | with_reducible (first
      | assumption | exact Nat.le_refl _)
    | ((try lift_lets -underBinder); intro z; first
      | (refine Keeps.cut (o0 := o0) (z := z) ?_ (fun hz => ?_); subst z; rotate_left; clear_value z)
      | (clear_value z)
      | (skip))
    | with_reducible (first
      | apply Keeps.ite | apply Keeps.ite2 | rfl)
    | split
    | with_reducible apply Keeps.mk_

theorem keeps_purge {o0 : State} {s : State} (hk : Keeps o0 s) : Keeps o0 (purge s) := by
  refine keeps_raise (keeps_wr (Keeps.foldl ?_ fun _ _ h => keeps_wr (keeps_setShaft h)))
  refine hk.trans ⟨rfl, Nat.le_refl _, id, fun _ => rfl, fun _ v hv n e => ?_, OtpGrows.rfl' _⟩
  simp only [List.mem_singleton] at hv
  subst hv
  cases e

theorem keeps_train {o0 : State} {s : State} (hk : Keeps o0 s) : Keeps o0 (train s) := by
  unfold train
  repeat' first
    | with_reducible (first
      | assumption | exact Nat.le_refl _)
    | ((try lift_lets -underBinder); intro z; first
      | (refine Keeps.cut (o0 := o0) (z := z) ?_ (fun hz => ?_); subst z; rotate_left; clear_value z)
      | (clear_value z)
      | (skip))
    | with_reducible (first
      | apply Keeps.ite | apply Keeps.ite2 | apply keeps_rayTrainStart | apply keeps_domainTick
      | apply keeps_setTune | apply keeps_purge | refine Keeps.foldl ?_ (fun z x hz => ?_)
      | refine Keeps.foldl2 ?_ (fun z x hz => ?_) | rfl)
    | split
    | with_reducible apply Keeps.mk_

theorem keeps_makeHole {o0 : State} {c cause : Nat} {s : State} (hk : Keeps o0 s) : Keeps o0
    (makeHole c cause s) := by
  unfold makeHole
  repeat' first
    | with_reducible (first
      | assumption | exact Nat.le_refl _)
    | ((try lift_lets -underBinder); intro z; first
      | (clear_value z)
      | (skip))
    | with_reducible (first
      | apply Keeps.ite | apply Keeps.ite2 | apply keeps_wr | apply keeps_fenceCore)

theorem keeps_brakeHeld {o0 : State} {s : State} (hk : Keeps o0 s) : Keeps o0 (brakeHeld s) := by
  unfold brakeHeld
  repeat' with_reducible first
    | assumption | exact Nat.le_refl _ | apply keeps_wr | apply keeps_setApt

theorem keeps_release {o0 : State} {s : State} (hk : Keeps o0 s) : Keeps o0 (release s) := by
  unfold release
  repeat' first
    | with_reducible (first
      | assumption | exact Nat.le_refl _)
    | ((try lift_lets -underBinder); intro z; first
      | (refine Keeps.cut (o0 := o0) (z := z) ?_ (fun hz => ?_); subst z; rotate_left; clear_value z)
      | (clear_value z)
      | (skip))
    | with_reducible (first
      | apply Keeps.ite | apply Keeps.ite2 | apply keeps_wr | apply keeps_bump | apply keeps_redEnable
      | apply keeps_parEnable | apply keeps_gateIdle | apply keeps_ceilShown | apply keeps_phaseEnd
      | apply keeps_setSkip | apply keeps_copyRof | apply keeps_makeHole | apply keeps_brakeHeld
      | refine Keeps.foldl ?_ (fun z x hz => ?_) | refine Keeps.foldl2 ?_ (fun z x hz => ?_))
    | refine Keeps.pair ?_ (fun a z hz => ?_)
    | refine Keeps.pair2 ?_ (fun a z hz => ?_)
    | with_reducible rfl
    | split
    | refine Keeps.eqv (by with_reducible assumption) ?_
    | refine Keeps.eqv2 (by with_reducible assumption) ?_
    | with_reducible apply Keeps.tick_

theorem keeps_sheetEvents {o0 : State} {s : State} (hk : Keeps o0 s) : Keeps o0 (sheetEvents s) := by
  unfold sheetEvents
  repeat' first
    | with_reducible (first
      | assumption | exact Nat.le_refl _)
    | ((try lift_lets -underBinder); intro z; first
      | (refine Keeps.cut (o0 := o0) (z := z) ?_ (fun hz => ?_); subst z; rotate_left; clear_value z)
      | (refine Keeps.fn (o0 := o0) (f := z) ?_ (fun hz => ?_); subst z; intro z hz; rotate_left; clear_value z)
      | (refine Keeps.fn1 (o0 := o0) (f := z) ?_ (fun hz => ?_); subst z; intro a z hz; rotate_left; clear_value z)
      | (refine Keeps.fn2 (o0 := o0) (f := z) ?_ (fun hz => ?_); subst z; intro a b z hz; rotate_left; clear_value z)
      | (refine Keeps.fnp (o0 := o0) (f := z) ?_ (fun hz => ?_); subst z; intro a z hz; rotate_left; clear_value z)
      | (refine Keeps.sec z ?_; subst z)
      | (clear_value z)
      | (skip))
    | with_reducible (first
      | apply Keeps.ite | apply Keeps.ite2 | apply keeps_raise | refine Keeps.foldl ?_ (fun z x hz => ?_))

theorem keeps_sheetRelease {o0 : State} {s : State} (hk : Keeps o0 s) : Keeps o0 (sheetRelease s) := by
  unfold sheetRelease
  repeat' first
    | with_reducible (first
      | assumption | exact Nat.le_refl _ | apply Keeps.ite | apply Keeps.ite2 | apply keeps_wr | apply keeps_release
      | rfl)
    | split
    | with_reducible apply Keeps.mk_

theorem keeps_sheetResolve {o0 : State} {s : State} (hk : Keeps o0 s) : Keeps o0 (sheetResolve s) := by
  unfold sheetResolve
  repeat' first
    | with_reducible (first
      | assumption | exact Nat.le_refl _)
    | ((try lift_lets -underBinder); intro z; first
      | (refine Keeps.cut (o0 := o0) (z := z) ?_ (fun hz => ?_); subst z; rotate_left; clear_value z)
      | (clear_value z)
      | (skip))
    | with_reducible (first
      | apply Keeps.ite | apply Keeps.ite2 | apply keeps_wr | apply keeps_raise | apply keeps_sheetEvents
      | apply keeps_sheetRelease | rfl)
    | split
    | with_reducible apply Keeps.mk_

theorem keeps_sheet {o0 : State} {s : State} (hk : Keeps o0 s) : Keeps o0 (sheet s) := by
  unfold sheet
  repeat' first
    | with_reducible (first
      | assumption | exact Nat.le_refl _)
    | ((try lift_lets -underBinder); intro z; first
      | (refine Keeps.cut (o0 := o0) (z := z) ?_ (fun hz => ?_); subst z; rotate_left; clear_value z)
      | (clear_value z)
      | (skip))
    | with_reducible (first
      | apply Keeps.ite | apply Keeps.ite2 | apply keeps_phaseEnd | apply keeps_sheetResolve)

theorem keeps_peerWait {o0 : State} {s : State} (hk : Keeps o0 s) : Keeps o0 (peerWait s) := by
  unfold peerWait
  repeat' first
    | with_reducible (first
      | assumption | exact Nat.le_refl _ | apply Keeps.ite | apply Keeps.ite2 | apply keeps_sheetResolve | rfl)
    | split
    | with_reducible apply Keeps.mk_

theorem keeps_sheetAgain {o0 : State} {s : State} (hk : Keeps o0 s) : Keeps o0 (sheetAgain s) := by
  unfold sheetAgain
  repeat' with_reducible first
    | assumption | exact Nat.le_refl _ | apply Keeps.ite | apply Keeps.ite2 | apply keeps_sheet

theorem keeps_memberRelease {o0 : State} {s : State} (hk : Keeps o0 s) : Keeps o0 (memberRelease s) := by
  unfold memberRelease
  repeat' with_reducible first
    | assumption | exact Nat.le_refl _ | apply keeps_wr | apply keeps_release

theorem keeps_testRefused {o0 : State} {s : State} (hk : Keeps o0 s) : Keeps o0 (testRefused s) := by
  unfold testRefused
  repeat' with_reducible first
    | assumption | exact Nat.le_refl _ | apply keeps_wr | apply keeps_raise

theorem keeps_testRequest {o0 : State} {code : Nat} {force : Bool} {towers : Nat} {s : State} (hk : Keeps o0 s) :
    Keeps o0 (testRequest code force towers s) := by
  unfold testRequest
  repeat' first
    | with_reducible (first
      | assumption | exact Nat.le_refl _)
    | ((try lift_lets -underBinder); intro z; first
      | (refine Keeps.cut (o0 := o0) (z := z) ?_ (fun hz => ?_); subst z; rotate_left; clear_value z)
      | (clear_value z)
      | (skip))
    | with_reducible (first
      | apply Keeps.ite | apply Keeps.ite2 | apply keeps_wr | apply keeps_raise | apply keeps_testRefused | rfl)
    | split
    | with_reducible apply Keeps.mk_

theorem keeps_marchUnit {o0 : State} {p : Nat} {sram : Bool} {faults : List Bool} {s : State} (hk : Keeps o0 s) :
    Keeps o0 (marchUnit p sram faults s) := by
  unfold marchUnit
  repeat' first
    | with_reducible (first
      | assumption | exact Nat.le_refl _)
    | ((try lift_lets -underBinder); intro z; first
      | (refine Keeps.cut (o0 := o0) (z := z) ?_ (fun hz => ?_); subst z; rotate_left; clear_value z)
      | (refine Keeps.fn (o0 := o0) (f := z) ?_ (fun hz => ?_); subst z; intro z hz; rotate_left; clear_value z)
      | (refine Keeps.fn1 (o0 := o0) (f := z) ?_ (fun hz => ?_); subst z; intro a z hz; rotate_left; clear_value z)
      | (refine Keeps.fn2 (o0 := o0) (f := z) ?_ (fun hz => ?_); subst z; intro a b z hz; rotate_left; clear_value z)
      | (refine Keeps.fnp (o0 := o0) (f := z) ?_ (fun hz => ?_); subst z; intro a z hz; rotate_left; clear_value z)
      | (refine Keeps.sec z ?_; subst z)
      | (clear_value z)
      | (skip))
    | with_reducible (first
      | apply Keeps.ite | apply Keeps.ite2 | apply keeps_bump | apply keeps_raise | apply keeps_forgetRange
      | apply keeps_checkerFailed | refine Keeps.foldl ?_ (fun z x hz => ?_))

theorem keeps_unitWork {o0 : State} {k : Test} {r : UnitRes} {s : State} (hk : Keeps o0 s) : Keeps o0 (unitWork k r s).2 := by
  rw [unitWork]
  dsimp only
  split
  · refine keeps_checkerBatch ?_
    split
    · exact keeps_checkerStart hk
    · exact hk
  · split
    · exact keeps_trainLanes (keeps_setTune hk)
    · split
      · exact Keeps.foldl hk fun _ _ h => keeps_phaseLost h
      · exact keeps_marchUnit hk

theorem keeps_testUnit {o0 : State} {r : UnitRes} {s : State} (hk : Keeps o0 s) : Keeps o0 (testUnit r s) := by
  unfold testUnit
  repeat' first
    | with_reducible (first
      | assumption | exact Nat.le_refl _)
    | ((try lift_lets -underBinder); intro z; first
      | (clear_value z)
      | (skip))
    | with_reducible (first
      | apply Keeps.ite | apply Keeps.ite2 | apply keeps_wr | apply keeps_raise | apply keeps_unitWork)
    | refine Keeps.pair ?_ (fun a z hz => ?_)
    | refine Keeps.pair2 ?_ (fun a z hz => ?_)
    | with_reducible rfl
    | split
    | refine Keeps.eqv (by with_reducible assumption) ?_
    | refine Keeps.eqv2 (by with_reducible assumption) ?_
    | with_reducible apply Keeps.mk_

theorem keeps_testTick {o0 : State} {s : State} (hk : Keeps o0 s) : Keeps o0 (testTick s) := by
  unfold testTick
  repeat' first
    | with_reducible (first
      | assumption | exact Nat.le_refl _ | apply Keeps.ite | apply Keeps.ite2 | apply keeps_wr)
    | refine Keeps.pair ?_ (fun a z hz => ?_)
    | refine Keeps.pair2 ?_ (fun a z hz => ?_)
    | with_reducible rfl
    | split
    | refine Keeps.eqv (by with_reducible assumption) ?_
    | refine Keeps.eqv2 (by with_reducible assumption) ?_
    | with_reducible apply Keeps.mk_

theorem keeps_sleepRequest {o0 : State} {dark : Bool} {s : State} (hk : Keeps o0 s) : Keeps o0
    (sleepRequest dark s) := by
  unfold sleepRequest
  repeat' with_reducible first
    | assumption | exact Nat.le_refl _ | apply Keeps.ite | apply Keeps.ite2 | apply keeps_later

theorem keeps_sleepDim {o0 : State} {s : State} (hk : Keeps o0 s) : Keeps o0 (sleepDim s) := by
  unfold sleepDim
  repeat' first
    | with_reducible (first
      | assumption | exact Nat.le_refl _)
    | ((try lift_lets -underBinder); intro z; first
      | (refine Keeps.cut (o0 := o0) (z := z) ?_ (fun hz => ?_); subst z; rotate_left; clear_value z)
      | (clear_value z)
      | (skip))
    | with_reducible (first
      | apply Keeps.ite | apply Keeps.ite2 | apply keeps_wr | apply keeps_raise | apply keeps_leaveGroup | rfl)
    | split
    | with_reducible apply Keeps.mk_

theorem keeps_sleepDark {o0 : State} {s : State} (hk : Keeps o0 s) : Keeps o0 (sleepDark s) := by
  unfold sleepDark
  repeat' first
    | with_reducible (first
      | assumption | exact Nat.le_refl _)
    | ((try lift_lets -underBinder); intro z; first
      | (refine Keeps.cut (o0 := o0) (z := z) ?_ (fun hz => ?_); subst z; rotate_left; clear_value z)
      | (clear_value z)
      | (skip))
    | with_reducible (first
      | exact Nat.le_add_right _ _ | apply Keeps.ite | apply Keeps.ite2 | apply keeps_raise | apply keeps_startState
      | rfl)
    | split
    | with_reducible apply Keeps.mk_

theorem keeps_wakeDim {o0 : State} {s : State} (hk : Keeps o0 s) : Keeps o0 (wakeDim s) := by
  unfold wakeDim
  repeat' first
    | with_reducible (first
      | assumption | exact Nat.le_refl _)
    | ((try lift_lets -underBinder); intro z; first
      | (refine Keeps.cut (o0 := o0) (z := z) ?_ (fun hz => ?_); subst z; rotate_left; clear_value z)
      | (clear_value z)
      | (skip))
    | with_reducible (first
      | apply Keeps.ite | apply Keeps.ite2 | apply keeps_wr | apply keeps_rejoin | rfl)
    | split
    | with_reducible apply Keeps.tick_

theorem keeps_wakeDark {o0 : State} {cause : Nat} {s : State} (hk : Keeps o0 s) : Keeps o0 (wakeDark cause s) := by
  unfold wakeDark
  repeat' first
    | with_reducible (first
      | assumption | exact Nat.le_refl _ | apply Keeps.ite | apply Keeps.ite2 | apply keeps_wr | rfl)
    | split
    | with_reducible apply Keeps.mk_

theorem keeps_wakeTimer {o0 : State} {s : State} (hk : Keeps o0 s) : Keeps o0 (wakeTimer s) := by
  unfold wakeTimer
  repeat' with_reducible first
    | assumption | exact Nat.le_refl _ | apply Keeps.ite | apply Keeps.ite2 | apply keeps_wakeDark

theorem keeps_wakeSignal {o0 : State} {smbus : Bool} {s : State} (hk : Keeps o0 s) : Keeps o0
    (wakeSignal smbus s) := by
  unfold wakeSignal
  repeat' with_reducible first
    | assumption | exact Nat.le_refl _ | apply Keeps.ite | apply Keeps.ite2 | apply keeps_wakeDark

theorem keeps_setRl {o0 : State} {r : Option RecLoad} {s : State} (hk : Keeps o0 s) : Keeps o0 (setRl r s) := by
  unfold setRl
  repeat' with_reducible first
    | assumption | exact Nat.le_refl _ | rfl | apply Keeps.mk_

theorem keeps_rlFail {o0 : State} {cause : Nat} {s : State} (hk : Keeps o0 s) : Keeps o0 (rlFail cause s) := by
  unfold rlFail
  repeat' with_reducible first
    | assumption | exact Nat.le_refl _ | apply keeps_wr | apply keeps_raise | apply keeps_setRl

theorem keeps_rlBusy {o0 : State} {s : State} (hk : Keeps o0 s) : Keeps o0 (rlBusy s) := by
  unfold rlBusy
  repeat' with_reducible first
    | assumption | exact Nat.le_refl _ | apply keeps_wr | apply keeps_raise

theorem keeps_program {o0 : State} {user : Bool} {b : List Byte} {s : State} (hk : Keeps o0 s) : Keeps o0
    (program user b s) := by
  unfold program
  repeat' first
    | with_reducible (first
      | assumption | exact Nat.le_refl _ | apply Keeps.ite | apply Keeps.ite2 | rfl)
    | split
    | with_reducible apply Keeps.mk_

theorem keeps_rlEnd {o0 : State} {user : Bool} {first b : List Byte} {s : State} (hk : Keeps o0 s) : Keeps o0
    (rlEnd user first b s) := by
  unfold rlEnd
  repeat' first
    | with_reducible (first
      | assumption | exact Nat.le_refl _)
    | ((try lift_lets -underBinder); intro z; first
      | (refine Keeps.cut (o0 := o0) (z := z) ?_ (fun hz => ?_); subst z; rotate_left; clear_value z)
      | (refine Keeps.fn (o0 := o0) (f := z) ?_ (fun hz => ?_); subst z; intro z hz; rotate_left; clear_value z)
      | (refine Keeps.fn1 (o0 := o0) (f := z) ?_ (fun hz => ?_); subst z; intro a z hz; rotate_left; clear_value z)
      | (refine Keeps.fn2 (o0 := o0) (f := z) ?_ (fun hz => ?_); subst z; intro a b z hz; rotate_left; clear_value z)
      | (refine Keeps.fnp (o0 := o0) (f := z) ?_ (fun hz => ?_); subst z; intro a z hz; rotate_left; clear_value z)
      | (refine Keeps.sec z ?_; subst z)
      | (clear_value z)
      | (skip))
    | with_reducible (first
      | apply Keeps.ite | apply Keeps.ite2 | apply keeps_wr | apply keeps_raise | apply keeps_startState
      | apply keeps_setRl | apply keeps_rlFail | apply keeps_program)

theorem keeps_rlFetch {o0 : State} {s : State} (hk : Keeps o0 s) : Keeps o0 (rlFetch s) := by
  unfold rlFetch
  repeat' first
    | with_reducible (first
      | assumption | exact Nat.le_refl _)
    | ((try lift_lets -underBinder); intro z; first
      | (clear_value z)
      | (skip))
    | with_reducible (first
      | apply Keeps.ite | apply Keeps.ite2 | apply keeps_dmaFail | apply keeps_dmaRead | apply keeps_rlFail)
    | refine Keeps.pair ?_ (fun a z hz => ?_)
    | refine Keeps.pair2 ?_ (fun a z hz => ?_)
    | with_reducible rfl
    | split
    | refine Keeps.eqv (by with_reducible assumption) ?_

theorem keeps_recoveryLoad {o0 : State} {flashOk : Bool} {s : State} (hk : Keeps o0 s) : Keeps o0
    (recoveryLoad flashOk s) := by
  unfold recoveryLoad
  repeat' first
    | with_reducible (first
      | assumption | exact Nat.le_refl _)
    | ((try lift_lets -underBinder); intro z; first
      | (refine Keeps.cut (o0 := o0) (z := z) ?_ (fun hz => ?_); subst z; rotate_left; clear_value z)
      | (clear_value z)
      | (skip))
    | with_reducible (first
      | apply Keeps.ite | apply Keeps.ite2 | apply keeps_wr | apply keeps_rlFail | apply keeps_rlBusy
      | apply keeps_rlFetch | rfl)
    | split
    | with_reducible apply Keeps.mk_

theorem keeps_rlBytes {o0 : State} {d : List Byte} {s : State} (hk : Keeps o0 s) : Keeps o0 (rlBytes d s) := by
  unfold rlBytes
  repeat' first
    | with_reducible (first
      | assumption | exact Nat.le_refl _)
    | ((try lift_lets -underBinder); intro z; first
      | (refine Keeps.cut (o0 := o0) (z := z) ?_ (fun hz => ?_); subst z; rotate_left; clear_value z)
      | (clear_value z)
      | (skip))
    | with_reducible (first
      | apply Keeps.ite | apply Keeps.ite2 | apply keeps_wr | apply keeps_setRl | apply keeps_rlFail
      | apply keeps_program | apply keeps_rlEnd | apply keeps_rlFetch)
    | refine Keeps.pair ?_ (fun a z hz => ?_)
    | refine Keeps.pair2 ?_ (fun a z hz => ?_)
    | with_reducible rfl
    | split

theorem keeps_rlLost {o0 : State} {s : State} (hk : Keeps o0 s) : Keeps o0 (rlLost s) := by
  unfold rlLost
  repeat' with_reducible first
    | assumption | exact Nat.le_refl _ | apply Keeps.ite | apply Keeps.ite2 | apply keeps_rlFail

theorem keeps_smbusLoad {o0 : State} {user : Bool} {b : List Byte} {flashOk : Bool} {s : State} (hk : Keeps o0 s) :
    Keeps o0 (smbusLoad user b flashOk s) := by
  unfold smbusLoad
  repeat' first
    | with_reducible (first
      | assumption | exact Nat.le_refl _)
    | ((try lift_lets -underBinder); intro z; first
      | (refine Keeps.cut (o0 := o0) (z := z) ?_ (fun hz => ?_); subst z; rotate_left; clear_value z)
      | (clear_value z)
      | (skip))
    | with_reducible (first
      | apply Keeps.ite | apply Keeps.ite2 | apply keeps_wr | apply keeps_rlFail | apply keeps_rlBusy
      | apply keeps_program | apply keeps_rlEnd)
    | refine Keeps.pair ?_ (fun a z hz => ?_)
    | refine Keeps.pair2 ?_ (fun a z hz => ?_)
    | with_reducible rfl
    | split
    | refine Keeps.eqv (by with_reducible assumption) ?_
    | refine Keeps.eqv2 (by with_reducible assumption) ?_
    | with_reducible apply Keeps.mk_

theorem keeps_setSec {o0 : State} {f : Sec → Sec} {s : State} (hk : Keeps o0 s) (hf : (f s.sec).otp = s.sec.otp) :
    Keeps o0 (setSec f s) := Keeps.mk_ hk (Nat.le_refl _) hf

theorem keeps_setOtp {o0 : State} {f : Otp → Otp} {s : State} (hk : Keeps o0 s) (hf : OtpGrows s.sec.otp (f s.sec.otp)) :
    Keeps o0 (setOtp f s) := hk.trans ⟨rfl, Nat.le_refl _, id, id, id, hf⟩

theorem keeps_ownerProgram {o0 : State} {w : Nat} {r : Bool} {s : State} (hk : Keeps o0 s) : Keeps o0 (ownerProgram w r s) := by
  unfold ownerProgram
  split
  · exact hk
  · rename_i h
    have hn : s.sec.otp.owner = none := by
      cases e : s.sec.otp.owner <;> simp_all
    have h1 := keeps_later (a := .ownerSet) (keeps_setOtp (f := fun o => { o with owner := some (ownerHash s), spoiled := !r }) hk
      ⟨fun _ h => h, Nat.le_refl _, fun _ h => by rw [hn] at h; cases h⟩)
    dsimp only
    split
    · exact keeps_raise h1
    · exact keeps_raise h1

theorem keeps_ownerShown {o0 : State} {s : State} (hk : Keeps o0 s) : Keeps o0 (ownerShown s) := by
  unfold ownerShown
  repeat' with_reducible first
    | assumption | exact Nat.le_refl _ | apply keeps_wr

theorem keeps_svnCommit {o0 : State} {s : State} (hk : Keeps o0 s) : Keeps o0 (svnCommit s) := by
  unfold svnCommit
  split
  · exact hk
  · exact keeps_wr (keeps_setOtp hk ⟨fun _ h => h, Nat.le_max_left _ _, fun _ h => h⟩)

theorem keeps_keyRevoke {o0 : State} {n : Nat} {s : State} (hk : Keeps o0 s) : Keeps o0 (keyRevoke n s) := by
  unfold keyRevoke
  dsimp only
  split
  · exact hk
  · refine keeps_raise (keeps_wr (keeps_setOtp hk ⟨fun i h => ?_, Nat.le_refl _, fun _ h => h⟩))
    simp [Nat.testBit_or, h]

theorem keeps_fresh256 {o0 : State} {s : State} (hk : Keeps o0 s) : Keeps o0 (fresh256 s).2 := by
  unfold fresh256
  repeat' with_reducible first
    | assumption | exact Nat.le_refl _ | exact Nat.le_add_right _ _ | rfl | refine Keeps.snd ?_
    | refine Keeps.snd2 ?_ | apply Keeps.mk_

theorem keeps_nonceReq {o0 : State} {level : Nat} {s : State} (hk : Keeps o0 s) : Keeps o0 (nonceReq level s) := by
  unfold nonceReq
  repeat' first
    | with_reducible (first
      | assumption | exact Nat.le_refl _)
    | ((try lift_lets -underBinder); intro z; first
      | (refine Keeps.cut (o0 := o0) (z := z) ?_ (fun hz => ?_); subst z; rotate_left; clear_value z)
      | (refine Keeps.fn (o0 := o0) (f := z) ?_ (fun hz => ?_); subst z; intro z hz; rotate_left; clear_value z)
      | (refine Keeps.fn1 (o0 := o0) (f := z) ?_ (fun hz => ?_); subst z; intro a z hz; rotate_left; clear_value z)
      | (refine Keeps.fn2 (o0 := o0) (f := z) ?_ (fun hz => ?_); subst z; intro a b z hz; rotate_left; clear_value z)
      | (refine Keeps.fnp (o0 := o0) (f := z) ?_ (fun hz => ?_); subst z; intro a z hz; rotate_left; clear_value z)
      | (refine Keeps.sec z ?_; subst z)
      | (clear_value z)
      | (skip))
    | with_reducible (first
      | apply Keeps.ite | apply Keeps.ite2 | apply keeps_wr | apply keeps_setSec | apply keeps_fresh256
      | refine Keeps.foldl ?_ (fun z x hz => ?_) | refine Keeps.foldl2 ?_ (fun z x hz => ?_))
    | refine Keeps.pair ?_ (fun a z hz => ?_)
    | refine Keeps.pair2 ?_ (fun a z hz => ?_)
    | with_reducible rfl

theorem keeps_submit {o0 : State} {s : State} (hk : Keeps o0 s) : Keeps o0 (submit s) := by
  unfold submit
  repeat' first
    | with_reducible (first
      | assumption | exact Nat.le_refl _)
    | ((try lift_lets -underBinder); intro z; first
      | (refine Keeps.cut (o0 := o0) (z := z) ?_ (fun hz => ?_); subst z; rotate_left; clear_value z)
      | (clear_value z)
      | (skip))
    | with_reducible (first
      | apply Keeps.ite | apply Keeps.ite2 | apply keeps_wr | apply keeps_later | apply keeps_raise
      | apply keeps_setSec)
    | refine Keeps.pair ?_ (fun a z hz => ?_)
    | refine Keeps.pair2 ?_ (fun a z hz => ?_)
    | with_reducible rfl

theorem keeps_spdmReply {o0 : State} {m : SpdmMsg} {st : Nat} {b : SpdmBody} {s : State} (hk : Keeps o0 s) :
    Keeps o0 (spdmReply m st b s) := by
  have h1 := keeps_setSec (f := fun x => { x with conns := mput (connOf m) ⟨st, (spdmConn m s).script ++ m.body⟩ x.conns,
                                                  replies := mput (connOf m) b x.replies }) hk rfl
  unfold spdmReply
  dsimp only
  split
  · exact h1
  · exact keeps_wr (keeps_wr (Keeps.foldl (Keeps.mk_ h1 (Nat.le_add_right _ _) rfl) fun _ _ h => keeps_wr h))

theorem keeps_spdmEarly {o0 : State} {m : SpdmMsg} {s : State} (hk : Keeps o0 s) : Keeps o0 (spdmEarly m s) := by
  unfold spdmEarly
  repeat' with_reducible first
    | assumption | exact Nat.le_refl _ | apply keeps_spdmReply

theorem keeps_spdmWith {o0 : State} {m : SpdmMsg} {b : SpdmBody} {s : State} (hk : Keeps o0 s) : Keeps o0
    (spdmWith m b s) := by
  unfold spdmWith
  repeat' with_reducible first
    | assumption | exact Nat.le_refl _ | apply Keeps.ite | apply Keeps.ite2 | apply keeps_spdmReply
    | apply keeps_spdmEarly

theorem keeps_getVersion {o0 : State} {m : SpdmMsg} {s : State} (hk : Keeps o0 s) : Keeps o0 (getVersion m s) := by
  unfold getVersion
  repeat' with_reducible first
    | assumption | exact Nat.le_refl _ | apply Keeps.ite | apply Keeps.ite2 | apply keeps_setSec
    | apply keeps_spdmReply | rfl

theorem keeps_getCapabilities {o0 : State} {m : SpdmMsg} {s : State} (hk : Keeps o0 s) : Keeps o0
    (getCapabilities m s) := by
  unfold getCapabilities
  repeat' with_reducible first
    | assumption | exact Nat.le_refl _ | apply Keeps.ite | apply Keeps.ite2 | apply keeps_spdmReply
    | apply keeps_spdmEarly

theorem keeps_negotiate {o0 : State} {m : SpdmMsg} {s : State} (hk : Keeps o0 s) : Keeps o0 (negotiate m s) := by
  unfold negotiate
  repeat' with_reducible first
    | assumption | exact Nat.le_refl _ | apply Keeps.ite | apply Keeps.ite2 | apply keeps_spdmReply
    | apply keeps_spdmEarly

theorem keeps_getDigests {o0 : State} {m : SpdmMsg} {s : State} (hk : Keeps o0 s) : Keeps o0 (getDigests m s) := by
  unfold getDigests
  repeat' with_reducible first
    | assumption | exact Nat.le_refl _ | apply keeps_spdmWith

theorem keeps_getCertificate {o0 : State} {m : SpdmMsg} {s : State} (hk : Keeps o0 s) : Keeps o0
    (getCertificate m s) := by
  unfold getCertificate
  repeat' with_reducible first
    | assumption | exact Nat.le_refl _ | apply keeps_spdmWith

theorem keeps_challenge {o0 : State} {m : SpdmMsg} {s : State} (hk : Keeps o0 s) : Keeps o0 (challenge m s) := by
  unfold challenge
  repeat' first
    | with_reducible (first
      | assumption | exact Nat.le_refl _)
    | ((try lift_lets -underBinder); intro z; first
      | (clear_value z)
      | (skip))
    | with_reducible apply keeps_spdmWith

theorem keeps_getMeasurements {o0 : State} {m : SpdmMsg} {s : State} (hk : Keeps o0 s) : Keeps o0
    (getMeasurements m s) := by
  unfold getMeasurements
  repeat' first
    | with_reducible (first
      | assumption | exact Nat.le_refl _)
    | ((try lift_lets -underBinder); intro z; first
      | (clear_value z)
      | (skip))
    | with_reducible (first
      | apply Keeps.ite | apply Keeps.ite2 | apply keeps_spdmWith)

theorem keeps_unsupported {o0 : State} {m : SpdmMsg} {s : State} (hk : Keeps o0 s) : Keeps o0
    (unsupported m s) := by
  unfold unsupported
  repeat' with_reducible first
    | assumption | exact Nat.le_refl _ | apply Keeps.ite | apply Keeps.ite2 | apply keeps_spdmReply

end Sys2Proof.Machine
end

