-- ==== Sys2Proof/Laws/KeepsTick.lean ====
section
/-! SUPPORT. What no command may do (`Keeps`, Safety.lean) is kept by every operation of
register access, requests and the tick:
from a state that kept it since `o0`, the operation answers one that did. -/
namespace Sys2Proof.Machine

theorem keeps_readPage {o0 : State} {pg : Pg} {i off : Nat} {s : State} (hk : Keeps o0 s) : Keeps o0
    (readPage pg i off s).2 := by
  unfold readPage
  repeat' first
    | with_reducible (first
      | assumption | exact Nat.le_refl _)
    | ((try lift_lets -underBinder); intro z; first
      | (clear_value z)
      | (skip))
    | with_reducible (first
      | apply Keeps.ite | apply Keeps.ite2 | rfl)
    | split
    | with_reducible (first
      | refine Keeps.snd ?_ | refine Keeps.snd2 ?_ | apply Keeps.mk_)

theorem keeps_wrIgnored {o0 : State} {s : State} (hk : Keeps o0 s) : Keeps o0 (wrIgnored s) := by
  unfold wrIgnored
  repeat' with_reducible first
    | assumption | exact Nat.le_refl _ | apply keeps_bump

theorem keeps_rsvdWr {o0 : State} {s : State} (hk : Keeps o0 s) : Keeps o0 (rsvdWr s) := by
  unfold rsvdWr
  repeat' with_reducible first
    | assumption | exact Nat.le_refl _ | apply keeps_bump

theorem keeps_accept {o0 : State} {f : Fld} {v : Nat} {s : State} (hk : Keeps o0 s) : Keeps o0
    (accept f v s).2 := by
  unfold accept
  repeat' with_reducible first
    | assumption | exact Nat.le_refl _ | apply Keeps.ite | apply Keeps.ite2 | apply keeps_clampTo

theorem keeps_gateAll {o0 : State} {s : State} (hk : Keeps o0 s) : Keeps o0 (gateAll s) := by
  unfold gateAll
  repeat' with_reducible first
    | assumption | exact Nat.le_refl _ | apply keeps_gateIdle | refine Keeps.foldl ?_ (fun z x hz => ?_)

theorem keeps_setRole {o0 : State} {p v : Nat} {s : State} (hk : Keeps o0 s) : Keeps o0 (setRole p v s) := by
  unfold setRole
  repeat' first
    | with_reducible (first
      | assumption | exact Nat.le_refl _)
    | ((try lift_lets -underBinder); intro z; first
      | (refine Keeps.cut (o0 := o0) (z := z) ?_ (fun hz => ?_); subst z; rotate_left; clear_value z)
      | (clear_value z)
      | (skip))
    | with_reducible (first
      | apply Keeps.ite | apply Keeps.ite2 | apply keeps_wr | apply keeps_rayDark | apply keeps_rayTrainStart)

theorem keeps_effect {o0 : State} {f : Fld} {k v : Nat} {s : State} (hk : Keeps o0 s) : Keeps o0
    (effect f k v s) := by
  unfold effect
  repeat' with_reducible first
    | assumption | exact Nat.le_refl _ | apply Keeps.ite | apply Keeps.ite2 | apply keeps_wr
    | apply keeps_rayDisable | apply keeps_snapArm | apply keeps_routeArm | apply keeps_viewHold
    | apply keeps_capApply | apply keeps_regionWake | apply keeps_ringShow | apply keeps_sheetAgain
    | apply keeps_gateAll | apply keeps_setRole

theorem keeps_putNow {o0 : State} {f : Fld} {i : Nat} {hi : Bool} {v : Nat} {s : State} (hk : Keeps o0 s) : Keeps o0
    (putNow f i hi v s) := by
  unfold putNow
  repeat' first
    | with_reducible (first
      | assumption | exact Nat.le_refl _)
    | ((try lift_lets -underBinder); intro z; first
      | (clear_value z)
      | (skip))
    | with_reducible (first
      | apply Keeps.ite | apply Keeps.ite2 | apply keeps_accept | apply keeps_effect)

theorem keeps_putLater {o0 : State} {f : Fld} {i : Nat} {hi : Bool} {v : Nat} {s : State} (hk : Keeps o0 s) :
    Keeps o0 (putLater f i hi v s) := by
  unfold putLater
  repeat' first
    | with_reducible (first
      | assumption | exact Nat.le_refl _)
    | ((try lift_lets -underBinder); intro z; first
      | (clear_value z)
      | (skip))
    | with_reducible (first
      | apply Keeps.ite | apply Keeps.ite2 | apply keeps_later | apply keeps_accept)

theorem keeps_putField {o0 : State} {f : Fld} {i : Nat} {hi : Bool} {v : Nat} {s : State} (hk : Keeps o0 s) :
    Keeps o0 (putField f i hi v s) := by
  unfold putField
  repeat' first
    | with_reducible (first
      | assumption | exact Nat.le_refl _ | apply Keeps.ite | apply Keeps.ite2 | apply keeps_wr | apply keeps_putNow
      | apply keeps_putLater)
    | refine Keeps.pair ?_ (fun a z hz => ?_)
    | refine Keeps.pair2 ?_ (fun a z hz => ?_)
    | with_reducible rfl
    | split

theorem keeps_putFields {o0 : State} {i v : Nat} {fs : List (Fld × Bool)} {s : State} (hk : Keeps o0 s) : Keeps o0
    (putFields i v fs s) := by
  unfold putFields
  repeat' first
    | with_reducible (first
      | assumption | exact Nat.le_refl _)
    | ((try lift_lets -underBinder); intro z; first
      | (refine Keeps.cut (o0 := o0) (z := z) ?_ (fun hz => ?_); subst z; rotate_left; clear_value z)
      | (refine Keeps.fn (o0 := o0) (f := z) ?_ (fun hz => ?_); subst z; intro z hz; rotate_left; clear_value z)
      | (refine Keeps.fn1 (o0 := o0) (f := z) ?_ (fun hz => ?_); subst z; intro a z hz; rotate_left; clear_value z)
      | (refine Keeps.fn2 (o0 := o0) (f := z) ?_ (fun hz => ?_); subst z; intro a b z hz; rotate_left; clear_value z)
      | (refine Keeps.fnp (o0 := o0) (f := z) ?_ (fun hz => ?_); subst z; intro a z hz; rotate_left; clear_value z)
      | (refine Keeps.sec z ?_; subst z)
      | (clear_value z)
      | (skip))
    | with_reducible (first
      | apply Keeps.ite | apply Keeps.ite2 | apply keeps_bump | apply keeps_putField
      | refine Keeps.foldl ?_ (fun z x hz => ?_))

theorem keeps_kvGo {o0 : State} {s : State} (hk : Keeps o0 s) : Keeps o0 (kvGo s) := by
  unfold kvGo
  repeat' first
    | with_reducible (first
      | assumption | exact Nat.le_refl _)
    | ((try lift_lets -underBinder); intro z; first
      | (clear_value z)
      | (skip))
    | with_reducible (first
      | apply Keeps.ite | apply Keeps.ite2 | apply keeps_kvRow)

theorem keeps_sleepWrite {o0 : State} {v : Nat} {s : State} (hk : Keeps o0 s) : Keeps o0 (sleepWrite v s) := by
  unfold sleepWrite
  repeat' first
    | with_reducible (first
      | assumption | exact Nat.le_refl _ | apply keeps_sleepRequest | apply keeps_wakeDim)
    | refine Keeps.pair ?_ (fun a z hz => ?_)
    | refine Keeps.pair2 ?_ (fun a z hz => ?_)
    | with_reducible rfl
    | split

theorem keeps_ownerWrite {o0 : State} {v : Nat} {s : State} (hk : Keeps o0 s) : Keeps o0 (ownerWrite v s) := by
  unfold ownerWrite
  repeat' with_reducible first
    | assumption | exact Nat.le_refl _ | exact Nat.le_add_right _ _ | apply keeps_ownerProgram | rfl
    | apply Keeps.mk_

theorem keeps_debugWrite {o0 : State} {v : Nat} {s : State} (hk : Keeps o0 s) : Keeps o0 (debugWrite v s) := by
  unfold debugWrite
  repeat' first
    | with_reducible (first
      | assumption | exact Nat.le_refl _)
    | ((try lift_lets -underBinder); intro z; first
      | (refine Keeps.cut (o0 := o0) (z := z) ?_ (fun hz => ?_); subst z; rotate_left; clear_value z)
      | (refine Keeps.fn (o0 := o0) (f := z) ?_ (fun hz => ?_); subst z; intro z hz; rotate_left; clear_value z)
      | (refine Keeps.fn1 (o0 := o0) (f := z) ?_ (fun hz => ?_); subst z; intro a z hz; rotate_left; clear_value z)
      | (refine Keeps.fn2 (o0 := o0) (f := z) ?_ (fun hz => ?_); subst z; intro a b z hz; rotate_left; clear_value z)
      | (refine Keeps.fnp (o0 := o0) (f := z) ?_ (fun hz => ?_); subst z; intro a z hz; rotate_left; clear_value z)
      | (refine Keeps.sec z ?_; subst z)
      | (clear_value z)
      | (skip))
    | with_reducible (first
      | apply Keeps.ite | apply Keeps.ite2 | apply keeps_nonceReq | apply keeps_submit)

theorem keeps_trigger {o0 : State} {pg : Pg} {i off v : Nat} {s : State} (hk : Keeps o0 s) : Keeps o0
    (trigger pg i off v s) := by
  unfold trigger
  repeat' first
    | with_reducible (first
      | assumption | exact Nat.le_refl _)
    | ((try lift_lets -underBinder); intro z; first
      | (refine Keeps.cut (o0 := o0) (z := z) ?_ (fun hz => ?_); subst z; rotate_left; clear_value z)
      | (refine Keeps.fn (o0 := o0) (f := z) ?_ (fun hz => ?_); subst z; intro z hz; rotate_left; clear_value z)
      | (refine Keeps.fn1 (o0 := o0) (f := z) ?_ (fun hz => ?_); subst z; intro a z hz; rotate_left; clear_value z)
      | (refine Keeps.fn2 (o0 := o0) (f := z) ?_ (fun hz => ?_); subst z; intro a b z hz; rotate_left; clear_value z)
      | (refine Keeps.fnp (o0 := o0) (f := z) ?_ (fun hz => ?_); subst z; intro a z hz; rotate_left; clear_value z)
      | (refine Keeps.sec z ?_; subst z)
      | (clear_value z)
      | (skip))
    | with_reducible (first
      | apply Keeps.ite | apply Keeps.ite2 | apply keeps_wr | apply keeps_later | apply keeps_epochClose
      | apply keeps_rayRetrain | apply keeps_rayUnfence | apply keeps_redUnfence | apply keeps_parRebuild
      | apply keeps_abaRetrain | apply keeps_snapCancelHost | apply keeps_fenceRequest | apply keeps_rejoin
      | apply keeps_ringReset | apply keeps_checkerRun | apply keeps_reseatRequest | apply keeps_evacuation
      | apply keeps_testRequest | apply keeps_recoveryLoad | apply keeps_svnCommit | apply keeps_keyRevoke
      | apply keeps_kvGo | apply keeps_sleepWrite | apply keeps_ownerWrite | apply keeps_debugWrite)
    | refine Keeps.pair ?_ (fun a z hz => ?_)
    | refine Keeps.pair2 ?_ (fun a z hz => ?_)
    | with_reducible rfl
    | split

theorem keeps_forceEvent {o0 : State} {pg : Pg} {i code : Nat} {s : State} (hk : Keeps o0 s) : Keeps o0
    (forceEvent pg i code s) := by
  unfold forceEvent
  repeat' first
    | with_reducible (first
      | assumption | exact Nat.le_refl _ | apply Keeps.ite | apply Keeps.ite2 | apply keeps_raiseRec
      | apply keeps_wrIgnored)
    | refine Keeps.pair ?_ (fun a z hz => ?_)
    | refine Keeps.pair2 ?_ (fun a z hz => ?_)
    | with_reducible rfl
    | split

theorem keeps_softRequest {o0 : State} {pg : Pg} {i : Nat} {s : State} (hk : Keeps o0 s) : Keeps o0
    (softRequest pg i s) := by
  unfold softRequest
  repeat' with_reducible first
    | assumption | exact Nat.le_refl _ | apply Keeps.ite | apply Keeps.ite2 | apply keeps_later
    | apply keeps_wrIgnored

theorem keeps_lockPage {o0 : State} {pg : Pg} {i : Nat} {s : State} (hk : Keeps o0 s) : Keeps o0
    (lockPage pg i s) := by
  unfold lockPage
  repeat' with_reducible first
    | assumption | exact Nat.le_refl _ | apply keeps_wr

theorem keeps_applyPage {o0 : State} {pg : Pg} {i : Nat} {on : Bool} {s : State} (hk : Keeps o0 s) : Keeps o0
    (applyPage pg i on s) := by
  unfold applyPage
  repeat' with_reducible first
    | assumption | exact Nat.le_refl _ | apply keeps_wr

theorem keeps_onPage {o0 : State} {pg i : Nat} {f : Pg → State → State} (hf : ∀ a s, Keeps o0 s → Keeps o0 (f a s))
    {s : State} (hk : Keeps o0 s) : Keeps o0 (onPage pg i f s) := by
  unfold onPage
  repeat' first
    | with_reducible (first
      | assumption | exact Nat.le_refl _ | apply hf | apply Keeps.ite | apply Keeps.ite2)
    | refine Keeps.pair ?_ (fun a z hz => ?_)
    | refine Keeps.pair2 ?_ (fun a z hz => ?_)
    | with_reducible rfl
    | split

theorem keeps_writeHeader {o0 : State} {pg : Pg} {i off v : Nat} {s : State} (hk : Keeps o0 s) : Keeps o0
    (writeHeader pg i off v s) := by
  unfold writeHeader
  repeat' first
    | with_reducible (first
      | assumption | exact Nat.le_refl _)
    | ((try lift_lets -underBinder); intro z; first
      | (refine Keeps.cut (o0 := o0) (z := z) ?_ (fun hz => ?_); subst z; rotate_left; clear_value z)
      | (refine Keeps.fn (o0 := o0) (f := z) ?_ (fun hz => ?_); subst z; intro z hz; rotate_left; clear_value z)
      | (refine Keeps.fn1 (o0 := o0) (f := z) ?_ (fun hz => ?_); subst z; intro a z hz; rotate_left; clear_value z)
      | (refine Keeps.fn2 (o0 := o0) (f := z) ?_ (fun hz => ?_); subst z; intro a b z hz; rotate_left; clear_value z)
      | (refine Keeps.fnp (o0 := o0) (f := z) ?_ (fun hz => ?_); subst z; intro a z hz; rotate_left; clear_value z)
      | (refine Keeps.sec z ?_; subst z)
      | (clear_value z)
      | (skip))
    | with_reducible (first
      | apply Keeps.ite | apply Keeps.ite2 | apply keeps_wr | apply keeps_rsvdWr | apply keeps_forceEvent
      | apply keeps_softRequest | apply keeps_lockPage | apply keeps_applyPage)
    | refine Keeps.pair ?_ (fun a z hz => ?_)
    | refine Keeps.pair2 ?_ (fun a z hz => ?_)
    | with_reducible rfl
    | split

theorem keeps_ifEn {o0 : State} {pg : Pg} {i : Nat} {f : State → State} (hf : ∀ s, Keeps o0 s → Keeps o0 (f s))
    {s : State} (hk : Keeps o0 s) : Keeps o0 (ifEn pg i f s) := by
  unfold ifEn
  repeat' with_reducible first
    | assumption | exact Nat.le_refl _ | apply hf | apply Keeps.ite | apply Keeps.ite2 | apply keeps_wrIgnored

theorem keeps_kvConfigNow {o0 : State} {off v : Nat} {s : State} (hk : Keeps o0 s) : Keeps o0
    (kvConfigNow off v s) := by
  unfold kvConfigNow
  repeat' first
    | with_reducible (first
      | assumption | exact Nat.le_refl _)
    | ((try lift_lets -underBinder); intro z; first
      | (clear_value z)
      | (skip))
    | with_reducible (first
      | apply Keeps.ite | apply Keeps.ite2 | apply keeps_poolConfig | apply keeps_holderConfig)

theorem keeps_writeBlock {o0 : State} {pg : Pg} {i off v : Nat} {s : State} (hk : Keeps o0 s) : Keeps o0
    (writeBlock pg i off v s) := by
  unfold writeBlock
  repeat' first
    | with_reducible (first
      | assumption | exact Nat.le_refl _)
    | ((try lift_lets -underBinder); intro z; first
      | (refine Keeps.cut (o0 := o0) (z := z) ?_ (fun hz => ?_); subst z; rotate_left; clear_value z)
      | (clear_value z)
      | (skip))
    | with_reducible (first
      | apply Keeps.ite | apply Keeps.ite2 | apply keeps_wrIgnored | apply keeps_rsvdWr | apply keeps_putFields
      | apply keeps_trigger | apply keeps_kvConfigNow)

theorem keeps_writePage {o0 : State} {pg : Pg} {i off v : Nat} {s : State} (hk : Keeps o0 s) : Keeps o0
    (writePage pg i off v s) := by
  unfold writePage
  repeat' with_reducible first
    | assumption | exact Nat.le_refl _ | apply Keeps.ite | apply Keeps.ite2 | apply keeps_writeHeader
    | apply keeps_ifEn | apply keeps_writeBlock

theorem keeps_hostField {o0 : State} {f : Fld} {i v : Nat} {s : State} (hk : Keeps o0 s) : Keeps o0
    (hostField f i v s) := by
  unfold hostField
  repeat' with_reducible first
    | assumption | exact Nat.le_refl _ | apply keeps_putField | apply keeps_ifEn

theorem keeps_readWordAt {o0 : State} {a : Nat} {s : State} (hk : Keeps o0 s) : Keeps o0 (readWordAt a s).2 := by
  unfold readWordAt
  repeat' first
    | with_reducible (first
      | assumption | exact Nat.le_refl _ | apply Keeps.ite | apply Keeps.ite2 | apply keeps_slotRead
      | apply keeps_readPage)
    | refine Keeps.pair ?_ (fun a z hz => ?_)
    | refine Keeps.pair2 ?_ (fun a z hz => ?_)
    | with_reducible rfl
    | split

theorem keeps_readWords {o0 : State} {a n : Nat} {s : State} (hk : Keeps o0 s) : Keeps o0 (readWords a n s).2 := by
  induction n generalizing a s with
  | zero => exact hk
  | succ n ih => exact ih (keeps_readWordAt hk)

theorem keeps_writeWordAt {o0 : State} {a v : Nat} {s : State} (hk : Keeps o0 s) : Keeps o0
    (writeWordAt a v s) := by
  unfold writeWordAt
  repeat' first
    | with_reducible (first
      | assumption | exact Nat.le_refl _ | apply Keeps.ite | apply Keeps.ite2 | apply keeps_doorbell
      | apply keeps_slotAck | apply keeps_rsvdWr | apply keeps_writePage)
    | refine Keeps.pair ?_ (fun a z hz => ?_)
    | refine Keeps.pair2 ?_ (fun a z hz => ?_)
    | with_reducible rfl
    | split

theorem keeps_writeWords {o0 : State} {a : Nat} {l : List Nat} {s : State} (hk : Keeps o0 s) : Keeps o0 (writeWords a l s) := by
  induction l generalizing a s with
  | nil => exact hk
  | cons v l ih => exact ih (keeps_writeWordAt hk)

theorem keeps_regIgnored {o0 : State} {s : State} (hk : Keeps o0 s) : Keeps o0 (regIgnored s) := by
  unfold regIgnored
  repeat' with_reducible first
    | assumption | exact Nat.le_refl _ | apply keeps_bump

theorem keeps_hostWriteRegs {o0 : State} {a : Nat} {l : List Nat} {s : State} (hk : Keeps o0 s) : Keeps o0
    (hostWriteRegs a l s) := by
  unfold hostWriteRegs
  repeat' with_reducible first
    | assumption | exact Nat.le_refl _ | apply Keeps.ite | apply Keeps.ite2 | apply keeps_writeWords
    | apply keeps_regIgnored

theorem keeps_lowWordRead {o0 : State} {a : Nat} {s : State} (hk : Keeps o0 s) : Keeps o0 (lowWordRead a s) := by
  unfold lowWordRead
  repeat' first
    | with_reducible (first
      | assumption | exact Nat.le_refl _ | apply Keeps.ite | apply Keeps.ite2 | apply keeps_readPage)
    | refine Keeps.pair ?_ (fun a z hz => ?_)
    | refine Keeps.pair2 ?_ (fun a z hz => ?_)
    | with_reducible rfl
    | split

theorem keeps_applyWrite {o0 : State} {l : List TickAct} {pg : Pg} {i off lo w v : Nat} {x : List Nat × State}
    (hk : Keeps o0 x.2) : Keeps o0 (applyWrite l pg i off lo w v x).2 := by
  unfold applyWrite
  dsimp only
  split
  · refine Keeps.ite2 hk ?_
    split
    · exact keeps_poolConfig hk
    · exact keeps_holderConfig hk
  · split
    · exact keeps_effect hk
    · exact hk

theorem keeps_applyWrites {o0 : State} {l : List TickAct} {s : State} (hk : Keeps o0 s) : Keeps o0
    (applyWrites l s) := by
  unfold applyWrites
  repeat' first
    | with_reducible (first
      | assumption | exact Nat.le_refl _ | apply keeps_applyWrite | refine Keeps.foldl ?_ (fun z x hz => ?_)
      | refine Keeps.foldl2 ?_ (fun z x hz => ?_))
    | refine Keeps.pair ?_ (fun a z hz => ?_)
    | refine Keeps.pair2 ?_ (fun a z hz => ?_)
    | with_reducible rfl
    | split

theorem keeps_resetField {o0 : State} {s0 : State} {f : Fld} {i : Nat} {s : State} (hk : Keeps o0 s) : Keeps o0
    (resetField s0 f i s) := by
  unfold resetField
  repeat' first
    | with_reducible (first
      | assumption | exact Nat.le_refl _)
    | ((try lift_lets -underBinder); intro z; first
      | (refine Keeps.fn (o0 := o0) (f := z) ?_ (fun hz => ?_); subst z; intro z hz; rotate_left; clear_value z)
      | (clear_value z)
      | (skip))
    | with_reducible (first
      | apply Keeps.ite | apply Keeps.ite2 | apply keeps_wr | apply keeps_bump | apply keeps_accept
      | apply keeps_effect)
    | refine Keeps.pair ?_ (fun a z hz => ?_)
    | refine Keeps.pair2 ?_ (fun a z hz => ?_)
    | with_reducible rfl
    | split
    | refine Keeps.eqv (by with_reducible assumption) ?_
    | refine Keeps.eqv2 (by with_reducible assumption) ?_
    | refine Keeps.app (by with_reducible assumption) ?_

theorem keeps_resetPools {o0 : State} {s : State} (hk : Keeps o0 s) : Keeps o0 (resetPools s) := by
  unfold resetPools
  repeat' first
    | with_reducible (first
      | assumption | exact Nat.le_refl _)
    | ((try lift_lets -underBinder); intro z; first
      | (refine Keeps.cut (o0 := o0) (z := z) ?_ (fun hz => ?_); subst z; rotate_left; clear_value z)
      | (refine Keeps.fn (o0 := o0) (f := z) ?_ (fun hz => ?_); subst z; intro z hz; rotate_left; clear_value z)
      | (refine Keeps.fn1 (o0 := o0) (f := z) ?_ (fun hz => ?_); subst z; intro a z hz; rotate_left; clear_value z)
      | (refine Keeps.fn2 (o0 := o0) (f := z) ?_ (fun hz => ?_); subst z; intro a b z hz; rotate_left; clear_value z)
      | (refine Keeps.fnp (o0 := o0) (f := z) ?_ (fun hz => ?_); subst z; intro a z hz; rotate_left; clear_value z)
      | (refine Keeps.sec z ?_; subst z)
      | (clear_value z)
      | (skip))
    | with_reducible (first
      | apply keeps_poolConfig | apply keeps_holderConfig | refine Keeps.foldl ?_ (fun z x hz => ?_))

theorem keeps_softReset {o0 : State} {pg : Pg} {i : Nat} {s : State} (hk : Keeps o0 s) : Keeps o0
    (softReset pg i s) := by
  unfold softReset
  repeat' first
    | with_reducible (first
      | assumption | exact Nat.le_refl _)
    | ((try lift_lets -underBinder); intro z; first
      | (refine Keeps.cut (o0 := o0) (z := z) ?_ (fun hz => ?_); subst z; rotate_left; clear_value z)
      | (clear_value z)
      | (skip))
    | with_reducible (first
      | apply Keeps.ite | apply Keeps.ite2 | apply keeps_wr | apply keeps_resetField | apply keeps_resetPools
      | refine Keeps.foldl ?_ (fun z x hz => ?_))

theorem keeps_serveRead {o0 : State} {t a n : Nat} {s : State} (hk : Keeps o0 s) : Keeps o0
    (serveRead t a n s) := by
  unfold serveRead
  repeat' first
    | with_reducible (first
      | assumption | exact Nat.le_refl _ | apply keeps_abaSend | apply keeps_readWords)
    | refine Keeps.pair ?_ (fun a z hz => ?_)
    | refine Keeps.pair2 ?_ (fun a z hz => ?_)
    | with_reducible rfl
    | split

theorem keeps_serveReg {o0 : State} {q : RegReq} {s : State} (hk : Keeps o0 s) : Keeps o0 (serveReg q s) := by
  unfold serveReg
  repeat' first
    | with_reducible (first
      | assumption | exact Nat.le_refl _ | exact Nat.le_add_right _ _ | apply keeps_freeReq
      | apply keeps_hostWriteRegs | apply keeps_serveRead)
    | refine Keeps.pair ?_ (fun a z hz => ?_)
    | refine Keeps.pair2 ?_ (fun a z hz => ?_)
    | with_reducible rfl
    | split

theorem keeps_drainHeld {o0 : State} {n : Nat} {s : State} (hk : Keeps o0 s) : Keeps o0 (drainHeld n s) := by
  induction n generalizing s with
  | zero => exact hk
  | succ n ih =>
    unfold drainHeld
    split
    · exact hk
    · split
      · exact ih (keeps_serveReg (keeps_setAba hk))
      · exact hk

theorem keeps_drainRegs {o0 : State} {s : State} (hk : Keeps o0 s) : Keeps o0 (drainRegs s) := by
  unfold drainRegs
  repeat' with_reducible first
    | assumption | exact Nat.le_refl _ | apply keeps_drainHeld

theorem keeps_holdReg {o0 : State} {w : List Nat} {q : RegReq} {s : State} (hk : Keeps o0 s) : Keeps o0
    (holdReg w q s) := by
  unfold holdReg
  repeat' with_reducible first
    | assumption | exact Nat.le_refl _ | apply keeps_setAba

theorem keeps_regRd {o0 : State} {w : RayWords} {more : List RayWords} {t a n : Nat} {s : State} (hk : Keeps o0 s) :
    Keeps o0 (regRd w more t a n s) := by
  unfold regRd
  repeat' first
    | with_reducible (first
      | assumption | exact Nat.le_refl _ | apply Keeps.ite | apply Keeps.ite2 | apply keeps_setAba
      | apply keeps_abaSend | apply keeps_abaRx | apply keeps_serveRead | apply keeps_holdReg)
    | refine Keeps.pair ?_ (fun a z hz => ?_)
    | refine Keeps.pair2 ?_ (fun a z hz => ?_)
    | with_reducible rfl
    | split
    | refine Keeps.eqv (by with_reducible assumption) ?_

theorem keeps_regWr {o0 : State} {w : RayWords} {more : List RayWords} {t a : Nat} {l : List Nat} {s : State}
    (hk : Keeps o0 s) : Keeps o0 (regWr w more t a l s) := by
  unfold regWr
  repeat' first
    | with_reducible (first
      | assumption | exact Nat.le_refl _)
    | ((try lift_lets -underBinder); intro z; first
      | (clear_value z)
      | (skip))
    | with_reducible (first
      | apply Keeps.ite | apply Keeps.ite2 | apply keeps_abaRx | apply keeps_regIgnored | apply keeps_hostWriteRegs
      | apply keeps_holdReg)
    | refine Keeps.pair ?_ (fun a z hz => ?_)
    | refine Keeps.pair2 ?_ (fun a z hz => ?_)
    | with_reducible rfl
    | split
    | refine Keeps.eqv (by with_reducible assumption) ?_

theorem keeps_queueHost {o0 : State} {c : Nat} {l : List HReq} {s : State} (hk : Keeps o0 s) : Keeps o0
    (queueHost c l s) := by
  unfold queueHost
  repeat' first
    | with_reducible (first
      | assumption | exact Nat.le_refl _)
    | ((try lift_lets -underBinder); intro z; first
      | (clear_value z)
      | (skip))
    | with_reducible apply keeps_setShaft

theorem keeps_openReq {o0 : State} {t : Nat} {write : Bool} {s : State} (hk : Keeps o0 s) : Keeps o0
    (openReq t write s) := by
  unfold openReq
  repeat' with_reducible first
    | assumption | exact Nat.le_refl _ | apply keeps_setAba

theorem keeps_memRd {o0 : State} {w : RayWords} {more : List RayWords} {t c a n : Nat} {s : State}
    (hk : Keeps o0 s) : Keeps o0 (memRd w more t c a n s) := by
  unfold memRd
  repeat' first
    | with_reducible (first
      | assumption | exact Nat.le_refl _)
    | ((try lift_lets -underBinder); intro z; first
      | (clear_value z)
      | (skip))
    | with_reducible (first
      | apply keeps_abaSend | apply keeps_abaRx | apply keeps_queueHost | apply keeps_openReq)
    | refine Keeps.pair ?_ (fun a z hz => ?_)
    | refine Keeps.pair2 ?_ (fun a z hz => ?_)
    | with_reducible rfl
    | split
    | refine Keeps.eqv (by with_reducible assumption) ?_

theorem keeps_memWr {o0 : State} {w : RayWords} {more : List RayWords} {t c a : Nat} {d : List Byte} {s : State}
    (hk : Keeps o0 s) : Keeps o0 (memWr w more t c a d s) := by
  unfold memWr
  repeat' first
    | with_reducible (first
      | assumption | exact Nat.le_refl _ | apply keeps_abaSend | apply keeps_abaRx | apply keeps_queueHost
      | apply keeps_openReq)
    | refine Keeps.pair ?_ (fun a z hz => ?_)
    | refine Keeps.pair2 ?_ (fun a z hz => ?_)
    | with_reducible rfl
    | split
    | refine Keeps.eqv (by with_reducible assumption) ?_

theorem keeps_dmaLost {o0 : State} {d : DmaRd} {s : State} (hk : Keeps o0 s) : Keeps o0 (dmaLost d s) := by
  unfold dmaLost
  repeat' first
    | with_reducible (first
      | assumption | exact Nat.le_refl _)
    | ((try lift_lets -underBinder); intro z; first
      | (refine Keeps.cut (o0 := o0) (z := z) ?_ (fun hz => ?_); subst z; rotate_left; clear_value z)
      | (refine Keeps.fn (o0 := o0) (f := z) ?_ (fun hz => ?_); subst z; intro z hz; rotate_left; clear_value z)
      | (refine Keeps.fn1 (o0 := o0) (f := z) ?_ (fun hz => ?_); subst z; intro a z hz; rotate_left; clear_value z)
      | (refine Keeps.fn2 (o0 := o0) (f := z) ?_ (fun hz => ?_); subst z; intro a b z hz; rotate_left; clear_value z)
      | (refine Keeps.fnp (o0 := o0) (f := z) ?_ (fun hz => ?_); subst z; intro a z hz; rotate_left; clear_value z)
      | (refine Keeps.sec z ?_; subst z)
      | (clear_value z)
      | (skip))
    | with_reducible (first
      | apply Keeps.ite | apply Keeps.ite2 | apply keeps_dmaFail | apply keeps_ringFault | apply keeps_entryLost
      | apply keeps_rlLost)
    | refine Keeps.pair ?_ (fun a z hz => ?_)
    | refine Keeps.pair2 ?_ (fun a z hz => ?_)
    | with_reducible rfl
    | split

theorem keeps_dmaData {o0 : State} {d : DmaRd} {b : List Byte} {s : State} (hk : Keeps o0 s) : Keeps o0
    (dmaData d b s) := by
  unfold dmaData
  repeat' first
    | with_reducible (first
      | assumption | exact Nat.le_refl _ | apply Keeps.ite | apply Keeps.ite2 | apply keeps_takeEntry
      | apply keeps_entryData | apply keeps_rlBytes)
    | refine Keeps.pair ?_ (fun a z hz => ?_)
    | refine Keeps.pair2 ?_ (fun a z hz => ?_)
    | with_reducible rfl
    | split

theorem keeps_endDma {o0 : State} {d : DmaRd} {s : State} (hk : Keeps o0 s) : Keeps o0 (endDma d s) := by
  unfold endDma
  repeat' with_reducible first
    | assumption | exact Nat.le_refl _ | apply keeps_setAba

theorem keeps_dmaCpl {o0 : State} {w : RayWords} {more : List RayWords} {t status : Nat} {b : List Byte} {s : State}
    (hk : Keeps o0 s) : Keeps o0 (dmaCpl w more t status b s) := by
  unfold dmaCpl
  repeat' first
    | with_reducible (first
      | assumption | exact Nat.le_refl _)
    | ((try lift_lets -underBinder); intro z; first
      | (refine Keeps.cut (o0 := o0) (z := z) ?_ (fun hz => ?_); subst z; rotate_left; clear_value z)
      | (refine Keeps.fn (o0 := o0) (f := z) ?_ (fun hz => ?_); subst z; intro z hz; rotate_left; clear_value z)
      | (refine Keeps.fn1 (o0 := o0) (f := z) ?_ (fun hz => ?_); subst z; intro a z hz; rotate_left; clear_value z)
      | (refine Keeps.fn2 (o0 := o0) (f := z) ?_ (fun hz => ?_); subst z; intro a b z hz; rotate_left; clear_value z)
      | (refine Keeps.fnp (o0 := o0) (f := z) ?_ (fun hz => ?_); subst z; intro a z hz; rotate_left; clear_value z)
      | (refine Keeps.sec z ?_; subst z)
      | (clear_value z)
      | (skip))
    | with_reducible (first
      | apply Keeps.ite | apply Keeps.ite2 | apply keeps_bump | apply keeps_setAba | apply keeps_abaRx
      | apply keeps_dmaLost | apply keeps_dmaData | apply keeps_endDma)
    | refine Keeps.pair ?_ (fun a z hz => ?_)
    | refine Keeps.pair2 ?_ (fun a z hz => ?_)
    | with_reducible rfl
    | split
    | refine Keeps.eqv (by with_reducible assumption) ?_

theorem keeps_dmaTimeout {o0 : State} {t : Nat} {s : State} (hk : Keeps o0 s) : Keeps o0 (dmaTimeout t s) := by
  unfold dmaTimeout
  repeat' first
    | with_reducible (first
      | assumption | exact Nat.le_refl _ | apply keeps_dmaLost | apply keeps_endDma)
    | refine Keeps.pair ?_ (fun a z hz => ?_)
    | refine Keeps.pair2 ?_ (fun a z hz => ?_)
    | with_reducible rfl
    | split

theorem keeps_setQueue {o0 : State} {v : Nat} {l : List ERec} {s : State} (hk : Keeps o0 s) : Keeps o0
    (setQueue v l s) := by
  unfold setQueue
  repeat' with_reducible first
    | assumption | exact Nat.le_refl _ | apply keeps_wr | rfl | apply Keeps.mk_

theorem keeps_evPut {o0 : State} {v : Nat} {r : ERec} {s : State} (hk : Keeps o0 s) : Keeps o0 (evPut v r s).2 := by
  unfold evPut
  repeat' first
    | with_reducible (first
      | assumption | exact Nat.le_refl _)
    | ((try lift_lets -underBinder); intro z; first
      | (clear_value z)
      | (skip))
    | with_reducible (first
      | apply keeps_wr | apply keeps_later | apply keeps_windowWrite)
    | refine Keeps.pair ?_ (fun a z hz => ?_)
    | refine Keeps.pair2 ?_ (fun a z hz => ?_)
    | with_reducible rfl
    | split
    | with_reducible (first
      | refine Keeps.snd ?_ | refine Keeps.snd2 ?_)
    | refine Keeps.eqv (by with_reducible assumption) ?_

theorem keeps_evBatch {o0 : State} {v n : Nat} {s : State} (hk : Keeps o0 s) : Keeps o0 (evBatch v n s).2 := by
  induction n generalizing s with
  | zero => exact hk
  | succ n ih =>
    unfold evBatch
    split
    · exact hk
    · split
      · split
        · rename_i e; exact ih (keeps_setQueue (Keeps.eqv e (keeps_evPut hk)))
        · rename_i e; exact Keeps.eqv e (keeps_evPut hk)
      · split
        · split
          · rename_i e; exact Keeps.mk_ (Keeps.eqv e (keeps_evPut hk)) (Nat.le_refl _) rfl
          · rename_i e; exact Keeps.eqv e (keeps_evPut hk)
        · exact hk

theorem keeps_eventWrite {o0 : State} {v : Nat} {s : State} (hk : Keeps o0 s) : Keeps o0 (eventWrite v s) := by
  unfold eventWrite
  repeat' first
    | with_reducible (first
      | assumption | exact Nat.le_refl _ | apply keeps_signal | apply keeps_evBatch)
    | refine Keeps.pair ?_ (fun a z hz => ?_)
    | refine Keeps.pair2 ?_ (fun a z hz => ?_)
    | with_reducible rfl
    | split
    | refine Keeps.eqv (by with_reducible assumption) ?_

theorem keeps_overflowRec {o0 : State} {v n : Nat} {r : ERec} {s : State} (hk : Keeps o0 s) : Keeps o0
    (overflowRec v n r s) := by
  unfold overflowRec
  repeat' first
    | with_reducible (first
      | assumption | exact Nat.le_refl _)
    | ((try lift_lets -underBinder); intro z; first
      | (clear_value z)
      | (skip))
    | refine Keeps.pair ?_ (fun a z hz => ?_)
    | refine Keeps.pair2 ?_ (fun a z hz => ?_)
    | with_reducible rfl
    | split
    | refine Keeps.eqv (by with_reducible assumption) ?_
    | refine Keeps.eqv2 (by with_reducible assumption) ?_
    | refine Keeps.app (by with_reducible assumption) ?_
    | refine Keeps.app1 (by with_reducible assumption) ?_
    | refine Keeps.app2 (by with_reducible assumption) ?_
    | refine Keeps.appp (by with_reducible assumption) ?_
    | with_reducible apply Keeps.mk_

theorem keeps_closeRec {o0 : State} {r : ERec} {s : State} (hk : Keeps o0 s) : Keeps o0 (closeRec r s) := by
  unfold closeRec
  repeat' first
    | with_reducible (first
      | assumption | exact Nat.le_refl _)
    | ((try lift_lets -underBinder); intro z; first
      | (refine Keeps.cut (o0 := o0) (z := z) ?_ (fun hz => ?_); subst z; rotate_left; clear_value z)
      | (clear_value z)
      | (skip))
    | with_reducible (first
      | apply Keeps.ite | apply Keeps.ite2 | apply keeps_bump | apply keeps_orIn | apply keeps_setQueue
      | apply keeps_overflowRec)
    | refine Keeps.pair ?_ (fun a z hz => ?_)
    | refine Keeps.pair2 ?_ (fun a z hz => ?_)
    | with_reducible rfl
    | split

theorem keeps_closeEvents {o0 : State} {s : State} (hk : Keeps o0 s) : Keeps o0 (closeEvents s) := by
  unfold closeEvents
  repeat' first
    | with_reducible (first
      | assumption | exact Nat.le_refl _)
    | ((try lift_lets -underBinder); intro z; first
      | (refine Keeps.cut (o0 := o0) (z := z) ?_ (fun hz => ?_); subst z; rotate_left; clear_value z)
      | (clear_value z)
      | (skip))
    | with_reducible (first
      | apply Keeps.ite | apply Keeps.ite2 | apply keeps_bump | apply keeps_evMark | apply keeps_closeRec
      | refine Keeps.foldl ?_ (fun z x hz => ?_) | refine Keeps.foldl2 ?_ (fun z x hz => ?_) | rfl)
    | split
    | with_reducible apply Keeps.mk_

theorem keeps_endShaft {o0 : State} {p : Nat} {s : State} (hk : Keeps o0 s) : Keeps o0 (endShaft p s) := by
  unfold endShaft
  repeat' first
    | with_reducible (first
      | assumption | exact Nat.le_refl _)
    | ((try lift_lets -underBinder); intro z; first
      | (refine Keeps.cut (o0 := o0) (z := z) ?_ (fun hz => ?_); subst z; rotate_left; clear_value z)
      | (refine Keeps.fn (o0 := o0) (f := z) ?_ (fun hz => ?_); subst z; intro z hz; rotate_left; clear_value z)
      | (refine Keeps.fn1 (o0 := o0) (f := z) ?_ (fun hz => ?_); subst z; intro a z hz; rotate_left; clear_value z)
      | (refine Keeps.fn2 (o0 := o0) (f := z) ?_ (fun hz => ?_); subst z; intro a b z hz; rotate_left; clear_value z)
      | (refine Keeps.fnp (o0 := o0) (f := z) ?_ (fun hz => ?_); subst z; intro a z hz; rotate_left; clear_value z)
      | (refine Keeps.sec z ?_; subst z)
      | (clear_value z)
      | (skip))
    | with_reducible (first
      | apply keeps_chunkEnd | apply keeps_nmDone | refine Keeps.foldl ?_ (fun z x hz => ?_))

theorem keeps_endWork {o0 : State} {s : State} (hk : Keeps o0 s) : Keeps o0 (endWork s) := by
  unfold endWork
  repeat' first
    | with_reducible (first
      | assumption | exact Nat.le_refl _)
    | ((try lift_lets -underBinder); intro z; first
      | (refine Keeps.cut (o0 := o0) (z := z) ?_ (fun hz => ?_); subst z; rotate_left; clear_value z)
      | (refine Keeps.fn (o0 := o0) (f := z) ?_ (fun hz => ?_); subst z; intro z hz; rotate_left; clear_value z)
      | (refine Keeps.fn1 (o0 := o0) (f := z) ?_ (fun hz => ?_); subst z; intro a z hz; rotate_left; clear_value z)
      | (refine Keeps.fn2 (o0 := o0) (f := z) ?_ (fun hz => ?_); subst z; intro a b z hz; rotate_left; clear_value z)
      | (refine Keeps.fnp (o0 := o0) (f := z) ?_ (fun hz => ?_); subst z; intro a z hz; rotate_left; clear_value z)
      | (refine Keeps.sec z ?_; subst z)
      | (clear_value z)
      | (skip))
    | with_reducible (first
      | apply Keeps.ite | apply Keeps.ite2 | apply keeps_cyclesEnd | apply keeps_jobsComplete | apply keeps_endShaft
      | refine Keeps.foldl ?_ (fun z x hz => ?_))

theorem keeps_preStop {o0 : State} {a : TickAct} {s : State} (hk : Keeps o0 s) : Keeps o0 (preStop a s) := by
  unfold preStop
  repeat' first
    | with_reducible (first
      | assumption | exact Nat.le_refl _ | apply Keeps.ite | apply Keeps.ite2 | apply keeps_stopPlate
      | refine Keeps.foldl ?_ (fun z x hz => ?_) | refine Keeps.foldl2 ?_ (fun z x hz => ?_))
    | refine Keeps.pair ?_ (fun a z hz => ?_)
    | refine Keeps.pair2 ?_ (fun a z hz => ?_)
    | with_reducible rfl
    | split

theorem keeps_reserveTick {o0 : State} {s : State} (hk : Keeps o0 s) : Keeps o0 (reserveTick s) := by
  unfold reserveTick
  repeat' with_reducible first
    | assumption | exact Nat.le_refl _ | apply Keeps.ite | apply Keeps.ite2 | apply keeps_wr
    | refine Keeps.foldl ?_ (fun z x hz => ?_)

theorem keeps_kvlActs {o0 : State} {todo : List TickAct} {s : State} (hk : Keeps o0 s) : Keeps o0
    (kvlActs todo s) := by
  unfold kvlActs
  repeat' first
    | with_reducible (first
      | assumption | exact Nat.le_refl _)
    | ((try lift_lets -underBinder); intro z; first
      | (refine Keeps.cut (o0 := o0) (z := z) ?_ (fun hz => ?_); subst z; rotate_left; clear_value z)
      | (clear_value z)
      | (skip))
    | with_reducible (first
      | apply Keeps.ite | apply Keeps.ite2 | apply keeps_applyWrites | apply keeps_softReset)

theorem keeps_stepOne {o0 : State} {env : TickEnv} {s : State} (hk : Keeps o0 s) : Keeps o0 (stepOne env s) := by
  unfold stepOne
  repeat' first
    | with_reducible (first
      | assumption | exact Nat.le_refl _)
    | ((try lift_lets -underBinder); intro z; first
      | (refine Keeps.cut (o0 := o0) (z := z) ?_ (fun hz => ?_); subst z; rotate_left; clear_value z)
      | (clear_value z)
      | (skip))
    | with_reducible (first
      | apply Keeps.ite | apply Keeps.ite2 | apply keeps_rayTick | apply keeps_epochTick | apply keeps_kvTick
      | apply keeps_bucketStep | apply keeps_redTick | apply keeps_parTick | apply keeps_snapTick
      | apply keeps_holdEnd | apply keeps_heatTick | apply keeps_energyTick | apply keeps_slotsFix
      | apply keeps_endJobs | apply keeps_evacDone | apply keeps_reserveTick
      | refine Keeps.foldl ?_ (fun z x hz => ?_) | refine Keeps.foldl2 ?_ (fun z x hz => ?_) | rfl)
    | split
    | with_reducible apply Keeps.mk_

theorem keeps_checkLedgers {o0 : State} {s : State} (hk : Keeps o0 s) : Keeps o0 (checkLedgers s) := by
  unfold checkLedgers
  repeat' with_reducible first
    | assumption | exact Nat.le_refl _ | apply Keeps.ite | apply Keeps.ite2 | apply keeps_ledgerFail
    | refine Keeps.foldl ?_ (fun z x hz => ?_)

theorem keeps_looseLand {o0 : State} {c : Nat} {l : List LooseMsg} {s : State} (hk : Keeps o0 s) : Keeps o0 (looseLand c l s) := by
  induction l generalizing s with
  | nil => exact hk
  | cons m l ih =>
    unfold looseLand
    dsimp only
    split
    · exact ih (keeps_setCore hk)
    · exact keeps_plateFault hk

theorem keeps_looseTick {o0 : State} {s : State} (hk : Keeps o0 s) : Keeps o0 (looseTick s) := by
  unfold looseTick
  repeat' first
    | with_reducible (first
      | assumption | exact Nat.le_refl _)
    | ((try lift_lets -underBinder); intro z; first
      | (refine Keeps.cut (o0 := o0) (z := z) ?_ (fun hz => ?_); subst z; rotate_left; clear_value z)
      | (clear_value z)
      | (skip))
    | with_reducible (first
      | apply Keeps.ite | apply Keeps.ite2 | apply keeps_absorb | apply keeps_looseCross | apply keeps_looseLand
      | refine Keeps.foldl ?_ (fun z x hz => ?_) | refine Keeps.foldl2 ?_ (fun z x hz => ?_) | rfl)
    | split
    | with_reducible apply Keeps.mk_

theorem keeps_expiry {o0 : State} {t : Timer} {s : State} (hk : Keeps o0 s) : Keeps o0 (expiry t s) := by
  unfold expiry
  repeat' first
    | with_reducible (first
      | assumption | exact Nat.le_refl _ | apply keeps_rayTrainLimit | apply keeps_rayTrainRetry
      | apply keeps_redTimeout | apply keeps_leaderLost | apply keeps_parLoss | apply keeps_abaAckLimit
      | apply keeps_abaTrainLimit | apply keeps_abaTrainRetry | apply keeps_syncLoss | apply keeps_rejoinLimit
      | apply keeps_viewExpiry | apply keeps_holdEnd | apply keeps_wakeStep | apply keeps_wakeLimit
      | apply keeps_waitTimeout | apply keeps_hotExit | apply keeps_shadowHold | apply keeps_thmRecover
      | apply keeps_dmaTimeout)
    | refine Keeps.pair ?_ (fun a z hz => ?_)
    | refine Keeps.pair2 ?_ (fun a z hz => ?_)
    | with_reducible rfl
    | split

theorem keeps_timed {o0 : State} {t : Timer} {s : State} (hk : Keeps o0 s) : Keeps o0 (timed t s) := by
  unfold timed
  repeat' with_reducible first
    | assumption | exact Nat.le_refl _ | apply Keeps.ite | apply Keeps.ite2 | apply keeps_later | apply keeps_expiry

theorem keeps_actTick {o0 : State} {a : TickAct} {s : State} (hk : Keeps o0 s) : Keeps o0 (actTick a s) := by
  unfold actTick
  repeat' first
    | with_reducible (first
      | assumption | exact Nat.le_refl _ | apply Keeps.ite | apply Keeps.ite2 | apply keeps_wr
      | apply keeps_kvRetire | apply keeps_redUnfenced | apply keeps_fenceCore | apply keeps_fenceTick
      | apply keeps_loseHalf | apply keeps_wakeDone | apply keeps_ringResetTick | apply keeps_clearCounters_clearRw
      | apply keeps_unloadTick | apply keeps_reseatCheck | apply keeps_reseatDone | apply keeps_sleepDim
      | apply keeps_sleepDark | apply keeps_ownerShown | apply keeps_softReset | apply keeps_expiry)
    | refine Keeps.pair ?_ (fun a z hz => ?_)
    | refine Keeps.pair2 ?_ (fun a z hz => ?_)
    | with_reducible rfl
    | split

theorem keeps_viewAct {o0 : State} {a : TickAct} {s : State} (hk : Keeps o0 s) : Keeps o0 (viewAct a s) := by
  unfold viewAct
  repeat' first
    | with_reducible (first
      | assumption | exact Nat.le_refl _ | apply keeps_wr | apply keeps_showView)
    | refine Keeps.pair ?_ (fun a z hz => ?_)
    | refine Keeps.pair2 ?_ (fun a z hz => ?_)
    | with_reducible rfl
    | split

theorem keeps_reconfigure {o0 : State} {a : TickAct} {s : State} (hk : Keeps o0 s) : Keeps o0
    (reconfigure a s) := by
  unfold reconfigure
  repeat' first
    | with_reducible (first
      | assumption | exact Nat.le_refl _ | apply Keeps.ite | apply Keeps.ite2 | apply keeps_redEnable
      | apply keeps_parEnable | refine Keeps.foldl ?_ (fun z x hz => ?_)
      | refine Keeps.foldl2 ?_ (fun z x hz => ?_))
    | refine Keeps.pair ?_ (fun a z hz => ?_)
    | refine Keeps.pair2 ?_ (fun a z hz => ?_)
    | with_reducible rfl
    | split

theorem keeps_fencesNow {o0 : State} {s : State} (hk : Keeps o0 s) : Keeps o0 (fencesNow s) := by
  unfold fencesNow
  repeat' first
    | with_reducible (first
      | assumption | exact Nat.le_refl _)
    | ((try lift_lets -underBinder); intro z; first
      | (clear_value z)
      | (skip))
    | with_reducible (first
      | apply keeps_actTick | refine Keeps.foldl ?_ (fun z x hz => ?_) | refine Keeps.foldl2 ?_ (fun z x hz => ?_))
    | refine Keeps.pair ?_ (fun a z hz => ?_)
    | refine Keeps.pair2 ?_ (fun a z hz => ?_)
    | with_reducible rfl
    | split
    | refine Keeps.eqv (by with_reducible assumption) ?_
    | refine Keeps.eqv2 (by with_reducible assumption) ?_
    | refine Keeps.app (by with_reducible assumption) ?_
    | refine Keeps.app1 (by with_reducible assumption) ?_
    | refine Keeps.app2 (by with_reducible assumption) ?_
    | refine Keeps.appp (by with_reducible assumption) ?_
    | with_reducible apply Keeps.mk_

theorem keeps_actsTick {o0 : State} {l : List TickAct} {s : State} (hk : Keeps o0 s) : Keeps o0 (actsTick l s) := by
  unfold actsTick
  repeat' first
    | with_reducible (first
      | assumption | exact Nat.le_refl _)
    | ((try lift_lets -underBinder); intro z; first
      | (refine Keeps.cut (o0 := o0) (z := z) ?_ (fun hz => ?_); subst z; rotate_left; clear_value z)
      | (refine Keeps.fn (o0 := o0) (f := z) ?_ (fun hz => ?_); subst z; intro z hz; rotate_left; clear_value z)
      | (refine Keeps.fn1 (o0 := o0) (f := z) ?_ (fun hz => ?_); subst z; intro a z hz; rotate_left; clear_value z)
      | (refine Keeps.fn2 (o0 := o0) (f := z) ?_ (fun hz => ?_); subst z; intro a b z hz; rotate_left; clear_value z)
      | (refine Keeps.fnp (o0 := o0) (f := z) ?_ (fun hz => ?_); subst z; intro a z hz; rotate_left; clear_value z)
      | (refine Keeps.sec z ?_; subst z)
      | (clear_value z)
      | (skip))
    | with_reducible (first
      | apply Keeps.ite | apply Keeps.ite2 | apply keeps_applyWrites | apply keeps_actTick | apply keeps_reconfigure
      | apply keeps_fencesNow | refine Keeps.foldl ?_ (fun z x hz => ?_))

theorem keeps_resumeFaults {o0 : State} {s : State} (hk : Keeps o0 s) : Keeps o0 (resumeFaults s) := by
  unfold resumeFaults
  repeat' first
    | with_reducible (first
      | assumption | exact Nat.le_refl _)
    | ((try lift_lets -underBinder); intro z; first
      | (clear_value z)
      | (skip))
    | with_reducible (first
      | apply Keeps.ite | apply Keeps.ite2 | apply keeps_plateFault | refine Keeps.foldl ?_ (fun z x hz => ?_)
      | refine Keeps.foldl2 ?_ (fun z x hz => ?_))
    | refine Keeps.pair ?_ (fun a z hz => ?_)
    | refine Keeps.pair2 ?_ (fun a z hz => ?_)
    | with_reducible rfl
    | split

theorem keeps_shownState {o0 : State} {s : State} (hk : Keeps o0 s) : Keeps o0 (shownState s) := by
  unfold shownState
  repeat' with_reducible first
    | assumption | exact Nat.le_refl _ | apply Keeps.ite | apply Keeps.ite2 | apply keeps_wr

theorem keeps_advanceFrame {o0 : State} {s : State} (hk : Keeps o0 s) : Keeps o0 (advanceFrame s) := by
  unfold advanceFrame
  repeat' first
    | with_reducible (first
      | assumption | exact Nat.le_refl _)
    | ((try lift_lets -underBinder); intro z; first
      | (refine Keeps.cut (o0 := o0) (z := z) ?_ (fun hz => ?_); subst z; rotate_left; clear_value z)
      | (clear_value z)
      | (skip))
    | with_reducible (first
      | apply Keeps.ite | apply Keeps.ite2 | apply keeps_wr)

theorem keeps_shutterPulse {o0 : State} {s : State} (hk : Keeps o0 s) : Keeps o0 (shutterPulse s) := by
  unfold shutterPulse
  repeat' first
    | with_reducible (first
      | assumption | exact Nat.le_refl _)
    | ((try lift_lets -underBinder); intro z; first
      | (clear_value z)
      | (skip))
    | with_reducible (first
      | apply Keeps.ite | apply Keeps.ite2 | rfl)
    | split
    | with_reducible apply Keeps.mk_

theorem keeps_darkTick {o0 : State} {a : Agreed} {s : State} (hk : Keeps o0 s) : Keeps o0 (darkTick a s).2 := by
  unfold darkTick
  repeat' first
    | with_reducible (first
      | assumption | exact Nat.le_refl _)
    | ((try lift_lets -underBinder); intro z; first
      | (refine Keeps.cut (o0 := o0) (z := z) ?_ (fun hz => ?_); subst z; rotate_left; clear_value z)
      | (refine Keeps.fn (o0 := o0) (f := z) ?_ (fun hz => ?_); subst z; intro z hz; rotate_left; clear_value z)
      | (refine Keeps.fn1 (o0 := o0) (f := z) ?_ (fun hz => ?_); subst z; intro a z hz; rotate_left; clear_value z)
      | (refine Keeps.fn2 (o0 := o0) (f := z) ?_ (fun hz => ?_); subst z; intro a b z hz; rotate_left; clear_value z)
      | (refine Keeps.fnp (o0 := o0) (f := z) ?_ (fun hz => ?_); subst z; intro a z hz; rotate_left; clear_value z)
      | (refine Keeps.sec z ?_; subst z)
      | (clear_value z)
      | (skip))
    | with_reducible (first
      | apply Keeps.ite | apply Keeps.ite2 | apply keeps_wr | apply keeps_bump | apply keeps_raise
      | apply keeps_setApt)

theorem keeps_stampEvents {o0 : State} {s : State} (hk : Keeps o0 s) : Keeps o0 (stampEvents s) := by
  unfold stampEvents
  repeat' with_reducible first
    | assumption | exact Nat.le_refl _ | rfl | apply Keeps.mk_

theorem keeps_showTimes {o0 : State} {s : State} (hk : Keeps o0 s) : Keeps o0 (showTimes s) := by
  unfold showTimes
  repeat' with_reducible first
    | assumption | exact Nat.le_refl _ | apply keeps_showNow | refine Keeps.foldl ?_ (fun z x hz => ?_)

theorem keeps_openExposure {o0 : State} {a : Agreed} {s : State} (hk : Keeps o0 s) : Keeps o0
    (openExposure a s) := by
  unfold openExposure
  repeat' first
    | with_reducible (first
      | assumption | exact Nat.le_refl _)
    | ((try lift_lets -underBinder); intro z; first
      | (refine Keeps.cut (o0 := o0) (z := z) ?_ (fun hz => ?_); subst z; rotate_left; clear_value z)
      | (refine Keeps.fn (o0 := o0) (f := z) ?_ (fun hz => ?_); subst z; intro z hz; rotate_left; clear_value z)
      | (refine Keeps.fn1 (o0 := o0) (f := z) ?_ (fun hz => ?_); subst z; intro a z hz; rotate_left; clear_value z)
      | (refine Keeps.fn2 (o0 := o0) (f := z) ?_ (fun hz => ?_); subst z; intro a b z hz; rotate_left; clear_value z)
      | (refine Keeps.fnp (o0 := o0) (f := z) ?_ (fun hz => ?_); subst z; intro a z hz; rotate_left; clear_value z)
      | (refine Keeps.sec z ?_; subst z)
      | (clear_value z)
      | (skip))
    | with_reducible (first
      | apply keeps_windowReads | apply keeps_abaTick | apply keeps_showNext | apply keeps_routeSwap
      | apply keeps_propose | apply keeps_pruneLens | apply keeps_putWish | apply keeps_lateRamps
      | apply keeps_brakeTick | apply keeps_stopsTick | apply keeps_domainTick | apply keeps_ringSample
      | apply keeps_activateAll | apply keeps_ringsTick | apply keeps_lendSlots | apply keeps_coresOff
      | apply keeps_slicesTick | apply keeps_stretchFix | apply keeps_hotTick | apply keeps_testTick
      | apply keeps_resumeFaults | apply keeps_shownState | apply keeps_darkTick | apply keeps_showTimes)

theorem keeps_stepThree {o0 : State} {s : State} (hk : Keeps o0 s) : Keeps o0 (stepThree s) := by
  unfold stepThree
  repeat' first
    | with_reducible (first
      | assumption | exact Nat.le_refl _)
    | ((try lift_lets -underBinder); intro z; first
      | (clear_value z)
      | (skip))
    | with_reducible (first
      | apply keeps_wr | apply keeps_swapShadows | apply keeps_endJobs)

theorem keeps_seamPeaks {o0 : State} {s : State} (hk : Keeps o0 s) : Keeps o0 (seamPeaks s) := by
  unfold seamPeaks
  repeat' first
    | with_reducible (first
      | assumption | exact Nat.le_refl _)
    | ((try lift_lets -underBinder); intro z; first
      | (clear_value z)
      | (skip))
    | with_reducible (first
      | apply Keeps.ite | apply Keeps.ite2 | apply keeps_wr | refine Keeps.foldl ?_ (fun z x hz => ?_))

theorem keeps_fixWindow {o0 : State} {env : TickEnv} {s : State} (hk : Keeps o0 s) : Keeps o0
    (fixWindow env s) := by
  unfold fixWindow
  repeat' first
    | with_reducible (first
      | assumption | exact Nat.le_refl _)
    | ((try lift_lets -underBinder); intro z; first
      | (refine Keeps.cut (o0 := o0) (z := z) ?_ (fun hz => ?_); subst z; rotate_left; clear_value z)
      | (clear_value z)
      | (skip))
    | with_reducible (first
      | apply Keeps.ite | apply Keeps.ite2 | apply keeps_bump | apply keeps_kvFences | apply keeps_snapShutter
      | apply keeps_announce | apply keeps_retuneTick | apply keeps_sensorFail | apply keeps_copyRof
      | apply keeps_closeEvents | apply keeps_endWork | apply keeps_preStop | apply keeps_kvlActs
      | apply keeps_stepOne | apply keeps_checkLedgers | apply keeps_looseTick | apply keeps_viewAct
      | apply keeps_actsTick | apply keeps_advanceFrame | apply keeps_shutterPulse | apply keeps_stampEvents
      | apply keeps_openExposure | apply keeps_stepThree | apply keeps_seamPeaks
      | refine Keeps.foldl ?_ (fun z x hz => ?_) | refine Keeps.foldl2 ?_ (fun z x hz => ?_) | rfl)
    | split
    | with_reducible (first
      | apply Keeps.tick_ | apply Keeps.mk_)

theorem keeps_idle {o0 : State} {s : State} (hk : Keeps o0 s) : Keeps o0 (idle s) := by
  unfold idle
  split
  · exact hk.trans ⟨rfl, Nat.le_refl _, fun h => Nat.le_succ_of_le h, id, id, OtpGrows.rfl' _⟩
  · exact hk

theorem keeps_memberFirst {o0 : State} {s : State} (hk : Keeps o0 s) : Keeps o0 (memberFirst s) := by
  unfold memberFirst
  repeat' first
    | with_reducible (first
      | assumption | exact Nat.le_refl _)
    | ((try lift_lets -underBinder); intro z; first
      | (refine Keeps.cut (o0 := o0) (z := z) ?_ (fun hz => ?_); subst z; rotate_left; clear_value z)
      | (refine Keeps.fn (o0 := o0) (f := z) ?_ (fun hz => ?_); subst z; intro z hz; rotate_left; clear_value z)
      | (refine Keeps.fn1 (o0 := o0) (f := z) ?_ (fun hz => ?_); subst z; intro a z hz; rotate_left; clear_value z)
      | (refine Keeps.fn2 (o0 := o0) (f := z) ?_ (fun hz => ?_); subst z; intro a b z hz; rotate_left; clear_value z)
      | (refine Keeps.fnp (o0 := o0) (f := z) ?_ (fun hz => ?_); subst z; intro a z hz; rotate_left; clear_value z)
      | (refine Keeps.sec z ?_; subst z)
      | (clear_value z)
      | (skip))
    | with_reducible (first
      | apply keeps_wr | apply keeps_showNow | apply keeps_memberRelease)

theorem keeps_tick {o0 : State} {env : TickEnv} {s : State} (hk : Keeps o0 s) : Keeps o0 (tick env s) := by
  unfold tick
  repeat' with_reducible first
    | assumption | exact Nat.le_refl _ | apply Keeps.ite | apply Keeps.ite2 | apply keeps_fixWindow
    | apply keeps_memberFirst

theorem keeps_shutterEdge {o0 : State} {long : Bool} {skew : Nat} {env : TickEnv} {s : State} (hk : Keeps o0 s) :
    Keeps o0 (shutterEdge long skew env s) := by
  unfold shutterEdge
  repeat' first
    | with_reducible (first
      | assumption | exact Nat.le_refl _)
    | ((try lift_lets -underBinder); intro z; first
      | (refine Keeps.cut (o0 := o0) (z := z) ?_ (fun hz => ?_); subst z; rotate_left; clear_value z)
      | (clear_value z)
      | (skip))
    | with_reducible (first
      | apply Keeps.ite | apply Keeps.ite2 | apply keeps_wr | apply keeps_syncLoss | apply keeps_fixWindow
      | apply keeps_memberFirst | rfl)
    | split
    | with_reducible apply Keeps.mk_


end Sys2Proof.Machine
end

