-- ==== Sys2Proof/Laws/Lanes.lean ====
section
/-! SUPPORT. Packed elements: an element of a packed stream is the element packed. -/
namespace Sys2Proof.Machine

@[simp] theorem length_upFrom (a n : Nat) : (upFrom a n).length = n := by
  induction n generalizing a with
  | zero => rfl
  | succ n ih => simp [upFrom, ih]

theorem getElem_upFrom {a n i : Nat} (h : i < (upFrom a n).length) : (upFrom a n)[i] = a + i := by
  induction n generalizing a i with
  | zero => simp at h
  | succ n ih =>
    cases i with
    | zero => rfl
    | succ i =>
      simp only [upFrom, List.getElem_cons_succ]
      rw [ih (by simpa [upFrom] using h)]
      omega

theorem mem_upFrom {a n x : Nat} : x ∈ upFrom a n ↔ a ≤ x ∧ x < a + n := by
  induction n generalizing a with
  | zero => simp only [upFrom, List.not_mem_nil, false_iff]; omega
  | succ n ih =>
    simp only [upFrom, List.mem_cons, ih]
    omega

/-- An element of a packed stream. -/
theorem elemAt_packElems {w i : Nat} {l : List Nat} (h : i < l.length) :
    elemAt w i (packElems w l) = l[i] % 2 ^ w := by
  induction l generalizing i with
  | nil => simp at h
  | cons a r ih =>
    have hp : 0 < 2 ^ w := Nat.two_pow_pos w
    have hs : packElems w (a :: r) = a % 2 ^ w + packElems w r * 2 ^ w := by
      simp [packElems, Nat.shiftLeft_eq]
    cases i with
    | zero => simp [elemAt, bitsAt, hs]
    | succ i =>
      have hd : (a % 2 ^ w + packElems w r * 2 ^ w) / 2 ^ w = packElems w r := by
        rw [Nat.add_mul_div_right _ _ hp, Nat.div_eq_of_lt (Nat.mod_lt _ hp), Nat.zero_add]
      have := ih (i := i) (by simpa using h)
      simp only [elemAt, bitsAt, Nat.shiftRight_eq_div_pow] at this ⊢
      rw [hs, Nat.succ_mul, Nat.pow_add, Nat.mul_comm (2 ^ (i * w)), ← Nat.div_div_eq_div_mul, hd, this]
      rfl

theorem packElems_lt (w : Nat) (l : List Nat) : packElems w l < 2 ^ (w * l.length) := by
  induction l with
  | nil => simp [packElems]
  | cons a r ih =>
    have hp : 0 < 2 ^ w := Nat.two_pow_pos w
    have ha := Nat.mod_lt a hp
    simp only [packElems, Nat.shiftLeft_eq, List.length_cons, Nat.mul_succ, Nat.pow_add]
    have : (packElems w r + 1) * 2 ^ w ≤ 2 ^ (w * r.length) * 2 ^ w := Nat.mul_le_mul_right _ ih
    have h2 : (packElems w r + 1) * 2 ^ w = packElems w r * 2 ^ w + 2 ^ w := Nat.succ_mul ..
    omega

/-- A lane of a line made of its lanes. -/
theorem elemAt_lineOf {w i : Nat} {l : List Nat} (h : i < l.length) (hw : w * l.length ≤ 1024) :
    elemAt w i (lineOf w l).toNat = l[i] % 2 ^ w := by
  have hl : packElems w l < 2 ^ 1024 := Nat.lt_of_lt_of_le (packElems_lt w l) (Nat.pow_le_pow_right (by decide) hw)
  rw [lineOf, BitVec.toNat_ofNat, Nat.mod_eq_of_lt hl, elemAt_packElems h]

/-- A lane of a line made lane by lane. -/
theorem elemAt_lineOf_map {w i n : Nat} {f : Nat → Nat} (h : i < n) (hw : w * n ≤ 1024) :
    elemAt w i (lineOf w ((upFrom 0 n).map f)).toNat = f i % 2 ^ w := by
  rw [elemAt_lineOf (by simpa using h) (by simpa using hw)]
  simp [getElem_upFrom]

theorem elemAt_lt (w i n : Nat) : elemAt w i n < 2 ^ w := Nat.mod_lt _ (Nat.two_pow_pos w)

end Sys2Proof.Machine
end

