-- ==== Sys2Proof/Laws/Vector.lean ====
section
/-! SUPPORT. What a register operation of the vector slot does when it issues. -/
namespace Sys2Proof.Machine

/-- A register operation of the vector slot that breaks no rule and is ready is committed. -/
theorem issueVector_op_faults {c x : Nat} {op : VOp} {f : VFields} {s : State}
    (hf : vFieldsOk op f (s.core c).cfg.mirel = true) (hr : VecReady (s.core c) x f (op.reads f))
    (hm : op.isCmp = true → ((s.core c).mreg x (f.vd.val % 8)).pending = false
      ∧ ((s.core c).isTimed x = true → ((s.core c).mreg x (f.vd.val % 8)).early = false)) :
    earlyFaults (s.core c) x ((s.core c).ctx x).ptr { Bundle.nops with v := .op op f } = []
      ∧ ready (s.core c) x { Bundle.nops with v := .op op f } = true
      ∧ issueCause c x { Bundle.nops with v := .op op f } s = none := by
  obtain ⟨h1, h2, h3, h4⟩ := hr
  refine ⟨?_, ?_, by simp [issueCause, Bundle.nops, budgetBad, isRequest]⟩
  · cases hcmp : op.isCmp <;> cases ht : (s.core c).isTimed x <;>
      simp [earlyFaults, encodingBad, trayBad, shaftBad, bundleBad, lagBad, poisonBad, branchTo, Bundle.nops, Bundle.names,
        Bundle.parts, Names.add, Names.none, scNames, vNames, cNames, mNames, shNames, clash, cubeLegal, hcmp, hf, ht]
    · have h5 := h4 ht
      refine ⟨⟨?_, ?_⟩, h5.2⟩
      · intro r hr
        exact h5.1 r (List.mem_cons_of_mem _ hr)
      · exact h5.1 _ (List.mem_cons_self ..)
    · have h5 := h4 ht
      refine ⟨?_, h5.2, (hm hcmp).2 ht⟩
      intro r hr
      exact h5.1 r (List.mem_cons_of_mem _ hr)
  · cases hcmp : op.isCmp <;>
      simp [ready, Bundle.nops, Bundle.names, Bundle.parts, Names.add, Names.none, scNames, vNames, cNames, mNames, shNames,
        hcmp, h2, h3]
    · exact h1
    · exact ⟨h1, (hm hcmp).1⟩

/-- A register operation with VD as its destination, on its own: all that it does. -/
theorem issueVector_op {c x : Nat} {op : VOp} {f : VFields} {s : State} (h : CanIssue c x s)
    (hf : vFieldsOk op f (s.core c).cfg.mirel = true) (hr : VecReady (s.core c) x f (op.reads f))
    (hcmp : op.isCmp = false) :
    let o := s.core c
    let dst := o.vreg x f.vd.val
    let keeps := o.keepsPart x f && decide (op ≠ .sel)
    let st := vecStoch o x op f
    let draws := st || decide (op = .vrand)
    ∃ fl old, FlightStep c x fl s (issueVector c x (.op op f) s) ∧ fl.due = o.cyc + op.cycles
      ∧ ((keeps || decide (op = .wupd)) = true →
          old = if dst.pres = .empty then BitVec.ofNat 1024 (Config.freeValue s.free) else dst.data)
      ∧ (fl.flg = (vecExec op f o.cfg.mirel st (o.vreg x f.va.val).data (o.vreg x f.vb.val).data (o.vreg x f.vc.val).data
              old (o.mreg x f.mask.val).val (o.mreg x (f.vd.val % 8)).val (elemDraw o c x 0 (o.ctx x).drawV)).flg)
      ∧ fl.effs = [.vreg x f.vd.val
          (vecExec op f o.cfg.mirel st (o.vreg x f.va.val).data (o.vreg x f.vb.val).data (o.vreg x f.vc.val).data old
            (o.mreg x f.mask.val).val (o.mreg x (f.vd.val % 8)).val (elemDraw o c x 0 (o.ctx x).drawV)).data
          ((op.reads f).any (fun r => decide ((o.vreg x r).pres = .early)) || (o.mreg x f.mask.val).early
            || (keeps && decide (dst.pres = .early)))
          ((op.reads f).any (fun r => (o.vreg x r).poison) || (o.mreg x f.mask.val).poison || (keeps && dst.poison))]
      ∧ (((issueVector c x (.op op f) s).core c).ctx x).drawV
          = (if draws then ((o.ctx x).drawV + 1) % 2 ^ 40 else (o.ctx x).drawV)
      ∧ (((issueVector c x (.op op f) s).core c).ctx x).drawC = (o.ctx x).drawC := by
  intro o dst keeps st draws
  obtain ⟨he, hrd, hi⟩ := issueVector_op_faults hf hr (by simp [hcmp])
  have hl : (if f.width = 1 then 64 else 32) = 1024 / laneBits f := by
    unfold laneBits
    split <;> rfl
  generalize hold : (if (keeps || decide (op = .wupd)) then kept dst s.free else (dst.data, s.free)) = old
  let r := vecExec op f o.cfg.mirel st (o.vreg x f.va.val).data (o.vreg x f.vb.val).data (o.vreg x f.vc.val).data old.1
    (o.mreg x f.mask.val).val (o.mreg x (f.vd.val % 8)).val (elemDraw o c x 0 (o.ctx x).drawV)
  let e := (op.reads f).any (fun r => decide ((o.vreg x r).pres = .early)) || (o.mreg x f.mask.val).early
    || (keeps && decide (dst.pres = .early))
  let p := (op.reads f).any (fun r => (o.vreg x r).poison) || (o.mreg x f.mask.val).poison || (keeps && dst.poison)
  let fl : Flight := { plainFlight x ((s.core c).ctx x).ptr (o.cyc + op.cycles) [.vreg x f.vd.val r.data e p] with
    flg := r.flg, rw := r.rw, conv := decide (op = .cvt) }
  have hctx : ∀ g y, (addFlight (s.core c) g).ctx y = (s.core c).ctx y := by
    intro g y
    rw [Core.ctx, (addFlight_ctxs _ g).1]
    rfl
  have hd : doSlots c x ((s.core c).ctx x).ptr (s.core c).cyc { Bundle.nops with v := .op op f } (s.core c) s.free
      = (if draws then (addFlight o fl).setCtx x { o.ctx x with drawV := ((o.ctx x).drawV + 1) % 2 ^ 40 }
          else addFlight o fl, old.2) := by
    simp only [doSlots, Bundle.nops, doShaft, doMove, doCube, doScalar, doVector, hcmp, hl, Bool.not_false, Bool.and_true]
    cases hb : (keeps || decide (op = .wupd)) <;> rw [hb] at hold <;> simp only [keeps, o, Core.keepsPart] at hb <;>
      simp only [hb, Bool.false_eq_true, if_false, if_true] at hold ⊢ <;> subst hold <;>
      simp only [hctx] <;> rfl
  have key := issueSlot_flight (c := c) (x := x) (fr := old.2) (b := { Bundle.nops with v := .op op f }) (fl := fl) (s := s)
    h he hrd hi (fun t => rfl) rfl rfl rfl rfl
    (if draws then { o.ctx x with drawV := ((o.ctx x).drawV + 1) % 2 ^ 40 } else o.ctx x) (by split <;> rfl)
    (by
      rw [hd]
      cases draws
      · exact .inr ⟨rfl, rfl⟩
      · exact .inl rfl)
    ⟨rfl, rfl, rfl, rfl⟩
  refine ⟨fl, old.1, key.1, rfl, ?_, rfl, rfl, ?_, ?_⟩
  · intro hk
    rw [← hold, if_pos hk, kept]
    split <;> rfl
  · rw [issueVector, key.2.1]
    cases draws <;> rfl
  · rw [issueVector, key.2.2.1]
    cases draws <;> rfl

/-- A comparison on its own: all that it does. -/
theorem issueVector_cmp {c x : Nat} {op : VOp} {f : VFields} {s : State} (h : CanIssue c x s)
    (hf : vFieldsOk op f (s.core c).cfg.mirel = true) (hr : VecReady (s.core c) x f (op.reads f))
    (hcmp : op.isCmp = true) (hm : ((s.core c).mreg x (f.vd.val % 8)).pending = false)
    (ht : (s.core c).isTimed x = true → ((s.core c).mreg x (f.vd.val % 8)).early = false) :
    let o := s.core c
    let om := o.mreg x (f.vd.val % 8)
    let r := vecExec op f o.cfg.mirel false (o.vreg x f.va.val).data (o.vreg x f.vb.val).data (o.vreg x f.vc.val).data
      (o.vreg x f.vd.val).data (o.mreg x f.mask.val).val om.val (elemDraw o c x 0 (o.ctx x).drawV)
    ∃ fl, FlightStep c x fl s (issueVector c x (.op op f) s) ∧ fl.due = o.cyc + op.cycles
      ∧ fl.effs = [.mask x (f.vd.val % 8)
          (if f.width = 1 then r.mask else cmpHigh s.free r.mask)
          ((op.reads f).any (fun r => decide ((o.vreg x r).pres = .early)) || (o.mreg x f.mask.val).early
            || (o.keepsPart x f && om.early))
          ((op.reads f).any (fun r => (o.vreg x r).poison) || (o.mreg x f.mask.val).poison
            || (o.keepsPart x f && om.poison))]
      ∧ (((issueVector c x (.op op f) s).core c).ctx x).drawV = (o.ctx x).drawV
      ∧ (((issueVector c x (.op op f) s).core c).ctx x).drawC = (o.ctx x).drawC := by
  intro o om r
  obtain ⟨he, hrd, hi⟩ := issueVector_op_faults hf hr (fun _ => ⟨hm, ht⟩)
  have hl : (if f.width = 1 then 64 else 32) = 1024 / laneBits f := by
    unfold laneBits
    split <;> rfl
  have hsel : decide (op ≠ .sel) = true := by
    cases op <;> first | rfl | simp [VOp.isCmp] at hcmp
  have hst : vecStoch (s.core c) x op f = false := by
    cases op <;> first | rfl | simp [VOp.isCmp] at hcmp
  have hdr : decide (op = .vrand) = false := by
    cases op <;> first | rfl | simp [VOp.isCmp] at hcmp
  have key := issueSlot_flight (c := c) (x := x) (fr := if f.width ≠ 1 then s.free + 1 else s.free) (b := { Bundle.nops with v := .op op f })
    (fl := { plainFlight x ((s.core c).ctx x).ptr (o.cyc + op.cycles) [.mask x (f.vd.val % 8)
          (if f.width = 1 then r.mask else cmpHigh s.free r.mask)
          ((op.reads f).any (fun r => decide ((o.vreg x r).pres = .early)) || (o.mreg x f.mask.val).early
            || (o.keepsPart x f && om.early))
          ((op.reads f).any (fun r => (o.vreg x r).poison) || (o.mreg x f.mask.val).poison
            || (o.keepsPart x f && om.poison))] with
      flg := r.flg,
      rw := r.rw,
      conv := decide (op = .cvt) }) (s := s)
    h he hrd hi (fun t => rfl) rfl rfl rfl rfl (o.ctx x) rfl
    (by
      refine .inr ⟨?_, rfl⟩
      simp only [doSlots, Bundle.nops, doShaft, doMove, doCube, doScalar, doVector, hcmp, hl, hst, hdr, hsel,
        Bool.not_true, Bool.and_false, Bool.false_eq_true, if_false, if_true, Bool.and_true, Bool.or_false, Bool.true_and, decide_eq_true_eq]
      rfl)
    ⟨rfl, rfl, rfl, rfl⟩
  exact ⟨_, key.1, rfl, rfl, key.2.1, key.2.2.1⟩

end Sys2Proof.Machine
end

