-- ==== Sys2Proof/Laws/LaneOps.lean ====
section
/-! SUPPORT. What an operation of the vector slot that works lane by lane writes, and how it issues. -/
namespace Sys2Proof.Machine

/-- The lanes fill a register. -/
theorem laneBits_fill (f : VFields) : laneBits f * (1024 / laneBits f) ≤ 1024 := by unfold laneBits; split <;> decide

/-- Lanes of an operation that works lane by lane. -/
theorem vecExec_lane {op : VOp} (h : op ∈ [VOp.fadd, .fsub, .fmul, .ffma, .fmin, .fmax, .iadd, .isub, .imul, .and, .or, .xor,
  .shl, .shr, .exp, .exp2, .ln, .rcp, .rsq, .rscl, .pexp, .rcpz])
   (f : VFields) (mirel st : Bool) (a b c old : Line) (mk om : BitVec 64) (draw : Nat → Nat) {i : Nat} (hi : i < 1024 /
     laneBits f) :
   elemAt (laneBits f) i (vecExec op f mirel st a b c old mk om draw).data.toNat =
     if mk.getLsbD i then (laneOp op (laneFmt f) (rmodeOf f.rnd) mirel (laneBits f) (elemAt (laneBits f) i a.toNat) (elemAt
       (laneBits f) i b.toNat) (elemAt (laneBits f) i c.toNat) true).1 % 2 ^ laneBits f
     else elemAt (laneBits f) i old.toNat := by
  have key : (vecExec op f mirel st a b c old mk om draw).data = lineOf (laneBits f) ((upFrom 0 (1024 / laneBits f)).map (fun
    i =>
      (if mk.getLsbD i then laneOp op (laneFmt f) (rmodeOf f.rnd) mirel (laneBits f) (elemAt (laneBits f) i a.toNat) (elemAt
        (laneBits f) i b.toNat) (elemAt (laneBits f) i c.toNat) (mk.getLsbD i) else (elemAt (laneBits f) i old.toNat,
          Flg.none)).1)) := by
    have h1 : (if decide (f.width = 1) = true then 64 else 32) = 1024 / laneBits f := by
      unfold laneBits; by_cases h : f.width = 1
      · rw [h]; rfl
      · rw [if_neg h, decide_eq_false h]; rfl
    have h2 : (if decide (f.width = 1) = true then 16 else 32) = laneBits f := by
      unfold laneBits; by_cases h : f.width = 1
      · rw [h]; rfl
      · rw [if_neg h, decide_eq_false h]; rfl
    have h3 : (if (!decide (f.width = 1)) = true then Fmt.fp32 else if f.f16 = true then .bf16 else .fp16) = laneFmt f := by
      unfold laneFmt; by_cases h : f.width = 1
      · rw [h]; rfl
      · rw [if_neg h, decide_eq_false h]; rfl
    simp only [List.mem_cons, List.not_mem_nil, or_false] at h
    rcases h with rfl | rfl | rfl | rfl | rfl | rfl | rfl | rfl | rfl | rfl | rfl | rfl | rfl | rfl | rfl | rfl | rfl | rfl |
      rfl | rfl | rfl | rfl <;>
      simp only [vecExec, h1, h2, h3, List.map_map] <;> rfl
  rw [key, elemAt_lineOf_map hi (laneBits_fill f)]
  cases hm : mk.getLsbD i
  · simp [Nat.mod_eq_of_lt (elemAt_lt _ _ _)]
  · simp

/-- Where nothing is kept, every lane is active. -/
theorem keepsPart_lanes {o : Core} {x : Nat} {f : VFields} (h : o.keepsPart x f = false) {i : Nat} (hi : i < 1024 / laneBits
  f) :
    (o.mreg x f.mask.val).val.getLsbD i = true := by
  simp only [Core.keepsPart, Bool.not_eq_false', List.all_eq_true] at h
  exact h i (mem_upFrom.mpr ⟨Nat.zero_le _, by omega⟩)

/-- An operation that works lane by lane, issued (03 R99). -/
theorem vector_lane_step {op : VOp} {c x : Nat} {f : VFields} {s : State} {n : Nat} {srcs : List Nat} {lane : Nat → Nat}
   (hop : op ∈ [VOp.fadd, .fsub, .fmul, .ffma, .fmin, .fmax, .iadd, .isub, .imul, .and, .or, .xor, .shl, .shr, .exp, .exp2,
     .ln, .rcp, .rsq, .rscl, .pexp, .rcpz])
   (h : CanIssue c x s) (hf : vFieldsOk op f (s.core c).cfg.mirel = true) (hsr : op.reads f = srcs) (hr : VecReady
     (s.core c) x f srcs)
   (hn : op.cycles = n)
   (hl : ∀ i, i < 1024 / laneBits f → (laneOp op (laneFmt f) (rmodeOf f.rnd) (s.core c).cfg.mirel (laneBits f) ((s.core
     c).lane x f f.va i) ((s.core c).lane x f f.vb i) ((s.core c).lane x f f.vc i) true).1 % 2 ^ laneBits f = lane i % 2 ^
       laneBits f) :
   VectorStep c x n f srcs false lane s (issueVector c x (.op op f) s) := by
  subst hsr
  have hc : op.isCmp = false := by
    simp only [List.mem_cons, List.not_mem_nil, or_false] at hop
    rcases hop with rfl | rfl | rfl | rfl | rfl | rfl | rfl | rfl | rfl | rfl | rfl | rfl | rfl | rfl | rfl | rfl | rfl | rfl
      | rfl | rfl | rfl | rfl <;> rfl
  have hs : vecStoch (s.core c) x op f = false ∧ decide (op = .vrand) = false ∧ decide (op ≠ .sel) = true := by
    simp only [List.mem_cons, List.not_mem_nil, or_false] at hop
    rcases hop with rfl | rfl | rfl | rfl | rfl | rfl | rfl | rfl | rfl | rfl | rfl | rfl | rfl | rfl | rfl | rfl | rfl | rfl
      | rfl | rfl | rfl | rfl <;> exact ⟨rfl, rfl, rfl⟩
  obtain ⟨fl, old, h1, h2, h3, h4, h5, h6, h7⟩ := issueVector_op h hf hr hc
  simp only [hs.1, hs.2.1, hs.2.2, Bool.and_true, Bool.or_false, Bool.false_eq_true, if_false] at h3 h5 h6
  refine ⟨fl, _, h1, by rw [h2, hn], h5, ?_, ?_, h6, h7⟩
  · have := h1.2.2.1
    have := congrArg (fun k : Core => (k.vreg x f.vd.val).pres) this
    refine Eq.trans this ?_
    simp only [addFlight, h5, List.foldl]
    exact congrArg Slot.pres (vreg_setVreg_same _ _ _ _)
  · intro i hi
    rw [vecExec_lane hop _ _ _ _ _ _ _ _ _ _ hi]
    by_cases hm : ((s.core c).mreg x f.mask.val).val.getLsbD i = true
    · simp only [hm, if_true]; exact hl i hi
    · rw [eq_false_of_ne_true hm]
      simp only [Bool.false_eq_true, if_false]
      cases hk : (s.core c).keepsPart x f
      · exact absurd (keepsPart_lanes hk hi) hm
      · rw [h3 (by rw [hk]; rfl)]

/-- Fields that break no rule (03 R99). -/
theorem vFieldsOk_of {op : VOp} {f : VFields} {m : Bool} (h1 : f.width.toNat ≤ 1) (h2 : f.rnd ≠ 3) (h3 : f.f16 = false)
  (ho : op.only32 = true → f.width = 0) (ha : op.isArith = true → f.rnd ≠ 1) (hc : op.isCmp = false) (hw : op ≠ .wupd ∨ m =
    false) (hcv : op ≠ .cvt) : vFieldsOk op f m = true := by
  have g1 : (op.isArith && decide (f.rnd = 1)) = false := by
    cases h : op.isArith
    · rfl
    · exact decide_eq_false (ha h)
  have g2 : (op.only32 && decide (f.width = 1)) = false := by
    cases h : op.only32
    · rfl
    · rw [ho h]; rfl
  have g3 : (decide (op = .wupd) && m) = false := by
    rcases hw with h | h
    · rw [decide_eq_false h]; rfl
    · rw [h, Bool.and_false]
  simp only [vFieldsOk]
  rw [decide_eq_true h1, decide_eq_true h2, h3, hc, g1, g2, g3, if_neg hcv]
  rfl

end Sys2Proof.Machine
end

