-- ==== Sys2Proof/Laws/Scalar.lean ====
section
/-! SUPPORT. What an arithmetic operation of the scalar slot does when it issues, and its immediate as a number. -/
namespace Sys2Proof.Machine

/-- A register form of the scalar slot, with its result (03 R98). -/
theorem scalar_alu_step (c : CoreId) (x : CtxId) (sd sa sb : Reg4) (s : State) (op : AluOp)
   (h : CanIssue c.val x.val s) (he : ((s.core c.val).isTimed x.val = true → ((s.core c.val).sreg x.val sa.val).early
     = false ∧ ((s.core c.val).sreg x.val sb.val).early = false)) :
   ScalarStep c.val x.val sd.val (((s.core c.val).ctx x.val).ptr + 1) 0 ⟨aluVal op ((s.core c.val).sreg x.val sa.val).val
     ((s.core c.val).sreg x.val sb.val).val, ((s.core c.val).sreg x.val sa.val).early || ((s.core c.val).sreg x.val
       sb.val).early, ((s.core c.val).sreg x.val sa.val).poison || ((s.core c.val).sreg x.val sb.val).poison⟩ s (issueScalar
         c.val x.val (.alu op sd sa sb) s) := by
  refine issueScalar_step h ?_ ?_ sd.isLt rfl
  · simp [earlyFaults, encodingBad, trayBad, shaftBad, bundleBad, lagBad, poisonBad, branchTo, Bundle.nops, Bundle.names,
    Bundle.parts, Names.add, Names.none, scNames, vNames, cNames, mNames, shNames, clash, cubeLegal]
    cases ht : (s.core c.val).isTimed x.val <;> simp [he, ht]
  · simp [ready, Bundle.nops, Bundle.names, Bundle.parts, Names.add, Names.none, scNames, vNames, cNames, mNames, shNames]

/-- An immediate form of the scalar slot, with its result (03 R98). -/
theorem scalar_alui_step (c : CoreId) (x : CtxId) (sd sa : Reg4) (imm : BitVec 14) (s : State) (op : AluOp)
   (h : CanIssue c.val x.val s) (he : ((s.core c.val).isTimed x.val = true → ((s.core c.val).sreg x.val sa.val).early
     = false)) :
   ScalarStep c.val x.val sd.val (((s.core c.val).ctx x.val).ptr + 1) 0 ⟨aluVal op ((s.core c.val).sreg x.val sa.val).val
     (immVal imm), ((s.core c.val).sreg x.val sa.val).early, ((s.core c.val).sreg x.val sa.val).poison⟩ s (issueScalar c.val
       x.val (.alui op sd sa imm) s) := by
  refine issueScalar_step h ?_ ?_ sd.isLt rfl
  · simp [earlyFaults, encodingBad, trayBad, shaftBad, bundleBad, lagBad, poisonBad, branchTo, Bundle.nops, Bundle.names,
    Bundle.parts, Names.add, Names.none, scNames, vNames, cNames, mNames, shNames, clash, cubeLegal]
    cases ht : (s.core c.val).isTimed x.val <;> simp [he, ht]
  · simp [ready, Bundle.nops, Bundle.names, Bundle.parts, Names.add, Names.none, scNames, vNames, cNames, mNames, shNames]

/-- The immediate is signed (03 R98). -/
theorem immVal_toInt (imm : BitVec 14) : (immVal imm).toInt = imm.toInt := by
  exact BitVec.toInt_signExtend_of_le (by decide)

theorem immVal_eq_ofInt (imm : BitVec 14) : immVal imm = BitVec.ofInt 32 imm.toInt := by
  apply BitVec.eq_of_toInt_eq; rw [immVal_toInt, BitVec.toInt_ofInt]
  have h1 := imm.toInt_lt; have h2 := imm.le_toInt
  rw [Int.bmod_def]; simp at *; split <;> omega

theorem immVal_toNat_mod (imm : BitVec 14) : (immVal imm).toNat % 32 = imm.toNat % 32 := by
  rw [immVal_eq_ofInt, BitVec.toNat_ofInt]; have := BitVec.toInt_eq_toNat_bmod imm; rw [Int.bmod_def] at this; simp at *; split at this <;> omega

end Sys2Proof.Machine
end

