-- ==== Sys2Proof/Laws/State.lean ====
section
/-! SUPPORT. What each update of the state and of a core leaves as it was, field by field. -/
namespace Sys2Proof.Machine

@[simp] theorem wr_pending (f : Fld) (i v : Nat) (s : State) : (wr f i v s).pending = s.pending := rfl
@[simp] theorem wr_free (f : Fld) (i v : Nat) (s : State) : (wr f i v s).free = s.free := rfl
@[simp] theorem wr_timebase (f : Fld) (i v : Nat) (s : State) : (wr f i v s).timebase = s.timebase := rfl
@[simp] theorem wr_tickBase (f : Fld) (i v : Nat) (s : State) : (wr f i v s).tickBase = s.tickBase := rfl
@[simp] theorem wr_rof (f : Fld) (i v : Nat) (s : State) : (wr f i v s).rof = s.rof := rfl
@[simp] theorem wr_view (f : Fld) (i v : Nat) (s : State) : (wr f i v s).view = s.view := rfl
@[simp] theorem wr_seqRof (f : Fld) (i v : Nat) (s : State) : (wr f i v s).seqRof = s.seqRof := rfl
@[simp] theorem wr_seqView (f : Fld) (i v : Nat) (s : State) : (wr f i v s).seqView = s.seqView := rfl
@[simp] theorem wr_latches (f : Fld) (i v : Nat) (s : State) : (wr f i v s).latches = s.latches := rfl
@[simp] theorem wr_lastEv (f : Fld) (i v : Nat) (s : State) : (wr f i v s).lastEv = s.lastEv := rfl
@[simp] theorem wr_acts (f : Fld) (i v : Nat) (s : State) : (wr f i v s).acts = s.acts := rfl
@[simp] theorem wr_late (f : Fld) (i v : Nat) (s : State) : (wr f i v s).late = s.late := rfl
@[simp] theorem wr_evt (f : Fld) (i v : Nat) (s : State) : (wr f i v s).evt = s.evt := rfl
@[simp] theorem wr_aba (f : Fld) (i v : Nat) (s : State) : (wr f i v s).aba = s.aba := rfl
@[simp] theorem wr_mem (f : Fld) (i v : Nat) (s : State) : (wr f i v s).mem = s.mem := rfl
@[simp] theorem wr_marks (f : Fld) (i v : Nat) (s : State) : (wr f i v s).marks = s.marks := rfl
@[simp] theorem wr_voids (f : Fld) (i v : Nat) (s : State) : (wr f i v s).voids = s.voids := rfl
@[simp] theorem wr_shafts (f : Fld) (i v : Nat) (s : State) : (wr f i v s).shafts = s.shafts := rfl
@[simp] theorem wr_snap (f : Fld) (i v : Nat) (s : State) : (wr f i v s).snap = s.snap := rfl
@[simp] theorem wr_cores (f : Fld) (i v : Nat) (s : State) : (wr f i v s).cores = s.cores := rfl
@[simp] theorem wr_plates (f : Fld) (i v : Nat) (s : State) : (wr f i v s).plates = s.plates := rfl
@[simp] theorem wr_rings (f : Fld) (i v : Nat) (s : State) : (wr f i v s).rings = s.rings := rfl
@[simp] theorem wr_slots (f : Fld) (i v : Nat) (s : State) : (wr f i v s).slots = s.slots := rfl
@[simp] theorem wr_kv (f : Fld) (i v : Nat) (s : State) : (wr f i v s).kv = s.kv := rfl
@[simp] theorem wr_seqr (f : Fld) (i v : Nat) (s : State) : (wr f i v s).seqr = s.seqr := rfl
@[simp] theorem wr_fab (f : Fld) (i v : Nat) (s : State) : (wr f i v s).fab = s.fab := rfl
@[simp] theorem wr_ray (f : Fld) (i v : Nat) (s : State) : (wr f i v s).ray = s.ray := rfl
@[simp] theorem wr_sync (f : Fld) (i v : Nat) (s : State) : (wr f i v s).sync = s.sync := rfl
@[simp] theorem wr_img (f : Fld) (i v : Nat) (s : State) : (wr f i v s).img = s.img := rfl
@[simp] theorem wr_red (f : Fld) (i v : Nat) (s : State) : (wr f i v s).red = s.red := rfl
@[simp] theorem wr_apt (f : Fld) (i v : Nat) (s : State) : (wr f i v s).apt = s.apt := rfl
@[simp] theorem wr_therm (f : Fld) (i v : Nat) (s : State) : (wr f i v s).therm = s.therm := rfl
@[simp] theorem wr_boot (f : Fld) (i v : Nat) (s : State) : (wr f i v s).boot = s.boot := rfl
@[simp] theorem wr_evacs (f : Fld) (i v : Nat) (s : State) : (wr f i v s).evacs = s.evacs := rfl
@[simp] theorem wr_fences (f : Fld) (i v : Nat) (s : State) : (wr f i v s).fences = s.fences := rfl
@[simp] theorem wr_stretch (f : Fld) (i v : Nat) (s : State) : (wr f i v s).stretch = s.stretch := rfl
@[simp] theorem wr_refRows (f : Fld) (i v : Nat) (s : State) : (wr f i v s).refRows = s.refRows := rfl
@[simp] theorem wr_refAt (f : Fld) (i v : Nat) (s : State) : (wr f i v s).refAt = s.refAt := rfl
@[simp] theorem wr_sec (f : Fld) (i v : Nat) (s : State) : (wr f i v s).sec = s.sec := rfl

@[simp] theorem bump_pending (f : Fld) (i n : Nat) (s : State) : (bump f i n s).pending = s.pending := rfl
@[simp] theorem bump_free (f : Fld) (i n : Nat) (s : State) : (bump f i n s).free = s.free := rfl
@[simp] theorem bump_timebase (f : Fld) (i n : Nat) (s : State) : (bump f i n s).timebase = s.timebase := rfl
@[simp] theorem bump_tickBase (f : Fld) (i n : Nat) (s : State) : (bump f i n s).tickBase = s.tickBase := rfl
@[simp] theorem bump_rof (f : Fld) (i n : Nat) (s : State) : (bump f i n s).rof = s.rof := rfl
@[simp] theorem bump_view (f : Fld) (i n : Nat) (s : State) : (bump f i n s).view = s.view := rfl
@[simp] theorem bump_seqRof (f : Fld) (i n : Nat) (s : State) : (bump f i n s).seqRof = s.seqRof := rfl
@[simp] theorem bump_seqView (f : Fld) (i n : Nat) (s : State) : (bump f i n s).seqView = s.seqView := rfl
@[simp] theorem bump_latches (f : Fld) (i n : Nat) (s : State) : (bump f i n s).latches = s.latches := rfl
@[simp] theorem bump_lastEv (f : Fld) (i n : Nat) (s : State) : (bump f i n s).lastEv = s.lastEv := rfl
@[simp] theorem bump_acts (f : Fld) (i n : Nat) (s : State) : (bump f i n s).acts = s.acts := rfl
@[simp] theorem bump_late (f : Fld) (i n : Nat) (s : State) : (bump f i n s).late = s.late := rfl
@[simp] theorem bump_evt (f : Fld) (i n : Nat) (s : State) : (bump f i n s).evt = s.evt := rfl
@[simp] theorem bump_aba (f : Fld) (i n : Nat) (s : State) : (bump f i n s).aba = s.aba := rfl
@[simp] theorem bump_mem (f : Fld) (i n : Nat) (s : State) : (bump f i n s).mem = s.mem := rfl
@[simp] theorem bump_marks (f : Fld) (i n : Nat) (s : State) : (bump f i n s).marks = s.marks := rfl
@[simp] theorem bump_voids (f : Fld) (i n : Nat) (s : State) : (bump f i n s).voids = s.voids := rfl
@[simp] theorem bump_shafts (f : Fld) (i n : Nat) (s : State) : (bump f i n s).shafts = s.shafts := rfl
@[simp] theorem bump_snap (f : Fld) (i n : Nat) (s : State) : (bump f i n s).snap = s.snap := rfl
@[simp] theorem bump_cores (f : Fld) (i n : Nat) (s : State) : (bump f i n s).cores = s.cores := rfl
@[simp] theorem bump_plates (f : Fld) (i n : Nat) (s : State) : (bump f i n s).plates = s.plates := rfl
@[simp] theorem bump_rings (f : Fld) (i n : Nat) (s : State) : (bump f i n s).rings = s.rings := rfl
@[simp] theorem bump_slots (f : Fld) (i n : Nat) (s : State) : (bump f i n s).slots = s.slots := rfl
@[simp] theorem bump_kv (f : Fld) (i n : Nat) (s : State) : (bump f i n s).kv = s.kv := rfl
@[simp] theorem bump_seqr (f : Fld) (i n : Nat) (s : State) : (bump f i n s).seqr = s.seqr := rfl
@[simp] theorem bump_fab (f : Fld) (i n : Nat) (s : State) : (bump f i n s).fab = s.fab := rfl
@[simp] theorem bump_ray (f : Fld) (i n : Nat) (s : State) : (bump f i n s).ray = s.ray := rfl
@[simp] theorem bump_sync (f : Fld) (i n : Nat) (s : State) : (bump f i n s).sync = s.sync := rfl
@[simp] theorem bump_img (f : Fld) (i n : Nat) (s : State) : (bump f i n s).img = s.img := rfl
@[simp] theorem bump_red (f : Fld) (i n : Nat) (s : State) : (bump f i n s).red = s.red := rfl
@[simp] theorem bump_apt (f : Fld) (i n : Nat) (s : State) : (bump f i n s).apt = s.apt := rfl
@[simp] theorem bump_therm (f : Fld) (i n : Nat) (s : State) : (bump f i n s).therm = s.therm := rfl
@[simp] theorem bump_boot (f : Fld) (i n : Nat) (s : State) : (bump f i n s).boot = s.boot := rfl
@[simp] theorem bump_evacs (f : Fld) (i n : Nat) (s : State) : (bump f i n s).evacs = s.evacs := rfl
@[simp] theorem bump_fences (f : Fld) (i n : Nat) (s : State) : (bump f i n s).fences = s.fences := rfl
@[simp] theorem bump_stretch (f : Fld) (i n : Nat) (s : State) : (bump f i n s).stretch = s.stretch := rfl
@[simp] theorem bump_refRows (f : Fld) (i n : Nat) (s : State) : (bump f i n s).refRows = s.refRows := rfl
@[simp] theorem bump_refAt (f : Fld) (i n : Nat) (s : State) : (bump f i n s).refAt = s.refAt := rfl
@[simp] theorem bump_sec (f : Fld) (i n : Nat) (s : State) : (bump f i n s).sec = s.sec := rfl

@[simp] theorem drop_pending (f : Fld) (i n : Nat) (s : State) : (drop f i n s).pending = s.pending := rfl
@[simp] theorem drop_free (f : Fld) (i n : Nat) (s : State) : (drop f i n s).free = s.free := rfl
@[simp] theorem drop_timebase (f : Fld) (i n : Nat) (s : State) : (drop f i n s).timebase = s.timebase := rfl
@[simp] theorem drop_tickBase (f : Fld) (i n : Nat) (s : State) : (drop f i n s).tickBase = s.tickBase := rfl
@[simp] theorem drop_rof (f : Fld) (i n : Nat) (s : State) : (drop f i n s).rof = s.rof := rfl
@[simp] theorem drop_view (f : Fld) (i n : Nat) (s : State) : (drop f i n s).view = s.view := rfl
@[simp] theorem drop_seqRof (f : Fld) (i n : Nat) (s : State) : (drop f i n s).seqRof = s.seqRof := rfl
@[simp] theorem drop_seqView (f : Fld) (i n : Nat) (s : State) : (drop f i n s).seqView = s.seqView := rfl
@[simp] theorem drop_latches (f : Fld) (i n : Nat) (s : State) : (drop f i n s).latches = s.latches := rfl
@[simp] theorem drop_lastEv (f : Fld) (i n : Nat) (s : State) : (drop f i n s).lastEv = s.lastEv := rfl
@[simp] theorem drop_acts (f : Fld) (i n : Nat) (s : State) : (drop f i n s).acts = s.acts := rfl
@[simp] theorem drop_late (f : Fld) (i n : Nat) (s : State) : (drop f i n s).late = s.late := rfl
@[simp] theorem drop_evt (f : Fld) (i n : Nat) (s : State) : (drop f i n s).evt = s.evt := rfl
@[simp] theorem drop_aba (f : Fld) (i n : Nat) (s : State) : (drop f i n s).aba = s.aba := rfl
@[simp] theorem drop_mem (f : Fld) (i n : Nat) (s : State) : (drop f i n s).mem = s.mem := rfl
@[simp] theorem drop_marks (f : Fld) (i n : Nat) (s : State) : (drop f i n s).marks = s.marks := rfl
@[simp] theorem drop_voids (f : Fld) (i n : Nat) (s : State) : (drop f i n s).voids = s.voids := rfl
@[simp] theorem drop_shafts (f : Fld) (i n : Nat) (s : State) : (drop f i n s).shafts = s.shafts := rfl
@[simp] theorem drop_snap (f : Fld) (i n : Nat) (s : State) : (drop f i n s).snap = s.snap := rfl
@[simp] theorem drop_cores (f : Fld) (i n : Nat) (s : State) : (drop f i n s).cores = s.cores := rfl
@[simp] theorem drop_plates (f : Fld) (i n : Nat) (s : State) : (drop f i n s).plates = s.plates := rfl
@[simp] theorem drop_rings (f : Fld) (i n : Nat) (s : State) : (drop f i n s).rings = s.rings := rfl
@[simp] theorem drop_slots (f : Fld) (i n : Nat) (s : State) : (drop f i n s).slots = s.slots := rfl
@[simp] theorem drop_kv (f : Fld) (i n : Nat) (s : State) : (drop f i n s).kv = s.kv := rfl
@[simp] theorem drop_seqr (f : Fld) (i n : Nat) (s : State) : (drop f i n s).seqr = s.seqr := rfl
@[simp] theorem drop_fab (f : Fld) (i n : Nat) (s : State) : (drop f i n s).fab = s.fab := rfl
@[simp] theorem drop_ray (f : Fld) (i n : Nat) (s : State) : (drop f i n s).ray = s.ray := rfl
@[simp] theorem drop_sync (f : Fld) (i n : Nat) (s : State) : (drop f i n s).sync = s.sync := rfl
@[simp] theorem drop_img (f : Fld) (i n : Nat) (s : State) : (drop f i n s).img = s.img := rfl
@[simp] theorem drop_red (f : Fld) (i n : Nat) (s : State) : (drop f i n s).red = s.red := rfl
@[simp] theorem drop_apt (f : Fld) (i n : Nat) (s : State) : (drop f i n s).apt = s.apt := rfl
@[simp] theorem drop_therm (f : Fld) (i n : Nat) (s : State) : (drop f i n s).therm = s.therm := rfl
@[simp] theorem drop_boot (f : Fld) (i n : Nat) (s : State) : (drop f i n s).boot = s.boot := rfl
@[simp] theorem drop_evacs (f : Fld) (i n : Nat) (s : State) : (drop f i n s).evacs = s.evacs := rfl
@[simp] theorem drop_fences (f : Fld) (i n : Nat) (s : State) : (drop f i n s).fences = s.fences := rfl
@[simp] theorem drop_stretch (f : Fld) (i n : Nat) (s : State) : (drop f i n s).stretch = s.stretch := rfl
@[simp] theorem drop_refRows (f : Fld) (i n : Nat) (s : State) : (drop f i n s).refRows = s.refRows := rfl
@[simp] theorem drop_refAt (f : Fld) (i n : Nat) (s : State) : (drop f i n s).refAt = s.refAt := rfl
@[simp] theorem drop_sec (f : Fld) (i n : Nat) (s : State) : (drop f i n s).sec = s.sec := rfl

@[simp] theorem orIn_pending (f : Fld) (i v : Nat) (s : State) : (orIn f i v s).pending = s.pending := rfl
@[simp] theorem orIn_free (f : Fld) (i v : Nat) (s : State) : (orIn f i v s).free = s.free := rfl
@[simp] theorem orIn_timebase (f : Fld) (i v : Nat) (s : State) : (orIn f i v s).timebase = s.timebase := rfl
@[simp] theorem orIn_tickBase (f : Fld) (i v : Nat) (s : State) : (orIn f i v s).tickBase = s.tickBase := rfl
@[simp] theorem orIn_rof (f : Fld) (i v : Nat) (s : State) : (orIn f i v s).rof = s.rof := rfl
@[simp] theorem orIn_view (f : Fld) (i v : Nat) (s : State) : (orIn f i v s).view = s.view := rfl
@[simp] theorem orIn_seqRof (f : Fld) (i v : Nat) (s : State) : (orIn f i v s).seqRof = s.seqRof := rfl
@[simp] theorem orIn_seqView (f : Fld) (i v : Nat) (s : State) : (orIn f i v s).seqView = s.seqView := rfl
@[simp] theorem orIn_latches (f : Fld) (i v : Nat) (s : State) : (orIn f i v s).latches = s.latches := rfl
@[simp] theorem orIn_lastEv (f : Fld) (i v : Nat) (s : State) : (orIn f i v s).lastEv = s.lastEv := rfl
@[simp] theorem orIn_acts (f : Fld) (i v : Nat) (s : State) : (orIn f i v s).acts = s.acts := rfl
@[simp] theorem orIn_late (f : Fld) (i v : Nat) (s : State) : (orIn f i v s).late = s.late := rfl
@[simp] theorem orIn_evt (f : Fld) (i v : Nat) (s : State) : (orIn f i v s).evt = s.evt := rfl
@[simp] theorem orIn_aba (f : Fld) (i v : Nat) (s : State) : (orIn f i v s).aba = s.aba := rfl
@[simp] theorem orIn_mem (f : Fld) (i v : Nat) (s : State) : (orIn f i v s).mem = s.mem := rfl
@[simp] theorem orIn_marks (f : Fld) (i v : Nat) (s : State) : (orIn f i v s).marks = s.marks := rfl
@[simp] theorem orIn_voids (f : Fld) (i v : Nat) (s : State) : (orIn f i v s).voids = s.voids := rfl
@[simp] theorem orIn_shafts (f : Fld) (i v : Nat) (s : State) : (orIn f i v s).shafts = s.shafts := rfl
@[simp] theorem orIn_snap (f : Fld) (i v : Nat) (s : State) : (orIn f i v s).snap = s.snap := rfl
@[simp] theorem orIn_cores (f : Fld) (i v : Nat) (s : State) : (orIn f i v s).cores = s.cores := rfl
@[simp] theorem orIn_plates (f : Fld) (i v : Nat) (s : State) : (orIn f i v s).plates = s.plates := rfl
@[simp] theorem orIn_rings (f : Fld) (i v : Nat) (s : State) : (orIn f i v s).rings = s.rings := rfl
@[simp] theorem orIn_slots (f : Fld) (i v : Nat) (s : State) : (orIn f i v s).slots = s.slots := rfl
@[simp] theorem orIn_kv (f : Fld) (i v : Nat) (s : State) : (orIn f i v s).kv = s.kv := rfl
@[simp] theorem orIn_seqr (f : Fld) (i v : Nat) (s : State) : (orIn f i v s).seqr = s.seqr := rfl
@[simp] theorem orIn_fab (f : Fld) (i v : Nat) (s : State) : (orIn f i v s).fab = s.fab := rfl
@[simp] theorem orIn_ray (f : Fld) (i v : Nat) (s : State) : (orIn f i v s).ray = s.ray := rfl
@[simp] theorem orIn_sync (f : Fld) (i v : Nat) (s : State) : (orIn f i v s).sync = s.sync := rfl
@[simp] theorem orIn_img (f : Fld) (i v : Nat) (s : State) : (orIn f i v s).img = s.img := rfl
@[simp] theorem orIn_red (f : Fld) (i v : Nat) (s : State) : (orIn f i v s).red = s.red := rfl
@[simp] theorem orIn_apt (f : Fld) (i v : Nat) (s : State) : (orIn f i v s).apt = s.apt := rfl
@[simp] theorem orIn_therm (f : Fld) (i v : Nat) (s : State) : (orIn f i v s).therm = s.therm := rfl
@[simp] theorem orIn_boot (f : Fld) (i v : Nat) (s : State) : (orIn f i v s).boot = s.boot := rfl
@[simp] theorem orIn_evacs (f : Fld) (i v : Nat) (s : State) : (orIn f i v s).evacs = s.evacs := rfl
@[simp] theorem orIn_fences (f : Fld) (i v : Nat) (s : State) : (orIn f i v s).fences = s.fences := rfl
@[simp] theorem orIn_stretch (f : Fld) (i v : Nat) (s : State) : (orIn f i v s).stretch = s.stretch := rfl
@[simp] theorem orIn_refRows (f : Fld) (i v : Nat) (s : State) : (orIn f i v s).refRows = s.refRows := rfl
@[simp] theorem orIn_refAt (f : Fld) (i v : Nat) (s : State) : (orIn f i v s).refAt = s.refAt := rfl
@[simp] theorem orIn_sec (f : Fld) (i v : Nat) (s : State) : (orIn f i v s).sec = s.sec := rfl

@[simp] theorem setCore_pending (s : State) (c : Nat) (k : Core) : (s.setCore c k).pending = s.pending := rfl
@[simp] theorem setCore_free (s : State) (c : Nat) (k : Core) : (s.setCore c k).free = s.free := rfl
@[simp] theorem setCore_timebase (s : State) (c : Nat) (k : Core) : (s.setCore c k).timebase = s.timebase := rfl
@[simp] theorem setCore_tickBase (s : State) (c : Nat) (k : Core) : (s.setCore c k).tickBase = s.tickBase := rfl
@[simp] theorem setCore_regs (s : State) (c : Nat) (k : Core) : (s.setCore c k).regs = s.regs := rfl
@[simp] theorem setCore_rof (s : State) (c : Nat) (k : Core) : (s.setCore c k).rof = s.rof := rfl
@[simp] theorem setCore_view (s : State) (c : Nat) (k : Core) : (s.setCore c k).view = s.view := rfl
@[simp] theorem setCore_seqRof (s : State) (c : Nat) (k : Core) : (s.setCore c k).seqRof = s.seqRof := rfl
@[simp] theorem setCore_seqView (s : State) (c : Nat) (k : Core) : (s.setCore c k).seqView = s.seqView := rfl
@[simp] theorem setCore_latches (s : State) (c : Nat) (k : Core) : (s.setCore c k).latches = s.latches := rfl
@[simp] theorem setCore_lastEv (s : State) (c : Nat) (k : Core) : (s.setCore c k).lastEv = s.lastEv := rfl
@[simp] theorem setCore_acts (s : State) (c : Nat) (k : Core) : (s.setCore c k).acts = s.acts := rfl
@[simp] theorem setCore_late (s : State) (c : Nat) (k : Core) : (s.setCore c k).late = s.late := rfl
@[simp] theorem setCore_evt (s : State) (c : Nat) (k : Core) : (s.setCore c k).evt = s.evt := rfl
@[simp] theorem setCore_aba (s : State) (c : Nat) (k : Core) : (s.setCore c k).aba = s.aba := rfl
@[simp] theorem setCore_mem (s : State) (c : Nat) (k : Core) : (s.setCore c k).mem = s.mem := rfl
@[simp] theorem setCore_marks (s : State) (c : Nat) (k : Core) : (s.setCore c k).marks = s.marks := rfl
@[simp] theorem setCore_voids (s : State) (c : Nat) (k : Core) : (s.setCore c k).voids = s.voids := rfl
@[simp] theorem setCore_shafts (s : State) (c : Nat) (k : Core) : (s.setCore c k).shafts = s.shafts := rfl
@[simp] theorem setCore_snap (s : State) (c : Nat) (k : Core) : (s.setCore c k).snap = s.snap := rfl
@[simp] theorem setCore_plates (s : State) (c : Nat) (k : Core) : (s.setCore c k).plates = s.plates := rfl
@[simp] theorem setCore_rings (s : State) (c : Nat) (k : Core) : (s.setCore c k).rings = s.rings := rfl
@[simp] theorem setCore_slots (s : State) (c : Nat) (k : Core) : (s.setCore c k).slots = s.slots := rfl
@[simp] theorem setCore_kv (s : State) (c : Nat) (k : Core) : (s.setCore c k).kv = s.kv := rfl
@[simp] theorem setCore_seqr (s : State) (c : Nat) (k : Core) : (s.setCore c k).seqr = s.seqr := rfl
@[simp] theorem setCore_fab (s : State) (c : Nat) (k : Core) : (s.setCore c k).fab = s.fab := rfl
@[simp] theorem setCore_ray (s : State) (c : Nat) (k : Core) : (s.setCore c k).ray = s.ray := rfl
@[simp] theorem setCore_sync (s : State) (c : Nat) (k : Core) : (s.setCore c k).sync = s.sync := rfl
@[simp] theorem setCore_img (s : State) (c : Nat) (k : Core) : (s.setCore c k).img = s.img := rfl
@[simp] theorem setCore_red (s : State) (c : Nat) (k : Core) : (s.setCore c k).red = s.red := rfl
@[simp] theorem setCore_apt (s : State) (c : Nat) (k : Core) : (s.setCore c k).apt = s.apt := rfl
@[simp] theorem setCore_therm (s : State) (c : Nat) (k : Core) : (s.setCore c k).therm = s.therm := rfl
@[simp] theorem setCore_boot (s : State) (c : Nat) (k : Core) : (s.setCore c k).boot = s.boot := rfl
@[simp] theorem setCore_evacs (s : State) (c : Nat) (k : Core) : (s.setCore c k).evacs = s.evacs := rfl
@[simp] theorem setCore_fences (s : State) (c : Nat) (k : Core) : (s.setCore c k).fences = s.fences := rfl
@[simp] theorem setCore_stretch (s : State) (c : Nat) (k : Core) : (s.setCore c k).stretch = s.stretch := rfl
@[simp] theorem setCore_refRows (s : State) (c : Nat) (k : Core) : (s.setCore c k).refRows = s.refRows := rfl
@[simp] theorem setCore_refAt (s : State) (c : Nat) (k : Core) : (s.setCore c k).refAt = s.refAt := rfl
@[simp] theorem setCore_sec (s : State) (c : Nat) (k : Core) : (s.setCore c k).sec = s.sec := rfl

@[simp] theorem setPlate_pending (s : State) (p : Nat) (k : Plate) : (s.setPlate p k).pending = s.pending := rfl
@[simp] theorem setPlate_free (s : State) (p : Nat) (k : Plate) : (s.setPlate p k).free = s.free := rfl
@[simp] theorem setPlate_timebase (s : State) (p : Nat) (k : Plate) : (s.setPlate p k).timebase = s.timebase := rfl
@[simp] theorem setPlate_tickBase (s : State) (p : Nat) (k : Plate) : (s.setPlate p k).tickBase = s.tickBase := rfl
@[simp] theorem setPlate_regs (s : State) (p : Nat) (k : Plate) : (s.setPlate p k).regs = s.regs := rfl
@[simp] theorem setPlate_rof (s : State) (p : Nat) (k : Plate) : (s.setPlate p k).rof = s.rof := rfl
@[simp] theorem setPlate_view (s : State) (p : Nat) (k : Plate) : (s.setPlate p k).view = s.view := rfl
@[simp] theorem setPlate_seqRof (s : State) (p : Nat) (k : Plate) : (s.setPlate p k).seqRof = s.seqRof := rfl
@[simp] theorem setPlate_seqView (s : State) (p : Nat) (k : Plate) : (s.setPlate p k).seqView = s.seqView := rfl
@[simp] theorem setPlate_latches (s : State) (p : Nat) (k : Plate) : (s.setPlate p k).latches = s.latches := rfl
@[simp] theorem setPlate_lastEv (s : State) (p : Nat) (k : Plate) : (s.setPlate p k).lastEv = s.lastEv := rfl
@[simp] theorem setPlate_acts (s : State) (p : Nat) (k : Plate) : (s.setPlate p k).acts = s.acts := rfl
@[simp] theorem setPlate_late (s : State) (p : Nat) (k : Plate) : (s.setPlate p k).late = s.late := rfl
@[simp] theorem setPlate_evt (s : State) (p : Nat) (k : Plate) : (s.setPlate p k).evt = s.evt := rfl
@[simp] theorem setPlate_aba (s : State) (p : Nat) (k : Plate) : (s.setPlate p k).aba = s.aba := rfl
@[simp] theorem setPlate_mem (s : State) (p : Nat) (k : Plate) : (s.setPlate p k).mem = s.mem := rfl
@[simp] theorem setPlate_marks (s : State) (p : Nat) (k : Plate) : (s.setPlate p k).marks = s.marks := rfl
@[simp] theorem setPlate_voids (s : State) (p : Nat) (k : Plate) : (s.setPlate p k).voids = s.voids := rfl
@[simp] theorem setPlate_shafts (s : State) (p : Nat) (k : Plate) : (s.setPlate p k).shafts = s.shafts := rfl
@[simp] theorem setPlate_snap (s : State) (p : Nat) (k : Plate) : (s.setPlate p k).snap = s.snap := rfl
@[simp] theorem setPlate_cores (s : State) (p : Nat) (k : Plate) : (s.setPlate p k).cores = s.cores := rfl
@[simp] theorem setPlate_rings (s : State) (p : Nat) (k : Plate) : (s.setPlate p k).rings = s.rings := rfl
@[simp] theorem setPlate_slots (s : State) (p : Nat) (k : Plate) : (s.setPlate p k).slots = s.slots := rfl
@[simp] theorem setPlate_kv (s : State) (p : Nat) (k : Plate) : (s.setPlate p k).kv = s.kv := rfl
@[simp] theorem setPlate_seqr (s : State) (p : Nat) (k : Plate) : (s.setPlate p k).seqr = s.seqr := rfl
@[simp] theorem setPlate_fab (s : State) (p : Nat) (k : Plate) : (s.setPlate p k).fab = s.fab := rfl
@[simp] theorem setPlate_ray (s : State) (p : Nat) (k : Plate) : (s.setPlate p k).ray = s.ray := rfl
@[simp] theorem setPlate_sync (s : State) (p : Nat) (k : Plate) : (s.setPlate p k).sync = s.sync := rfl
@[simp] theorem setPlate_img (s : State) (p : Nat) (k : Plate) : (s.setPlate p k).img = s.img := rfl
@[simp] theorem setPlate_red (s : State) (p : Nat) (k : Plate) : (s.setPlate p k).red = s.red := rfl
@[simp] theorem setPlate_apt (s : State) (p : Nat) (k : Plate) : (s.setPlate p k).apt = s.apt := rfl
@[simp] theorem setPlate_therm (s : State) (p : Nat) (k : Plate) : (s.setPlate p k).therm = s.therm := rfl
@[simp] theorem setPlate_boot (s : State) (p : Nat) (k : Plate) : (s.setPlate p k).boot = s.boot := rfl
@[simp] theorem setPlate_evacs (s : State) (p : Nat) (k : Plate) : (s.setPlate p k).evacs = s.evacs := rfl
@[simp] theorem setPlate_fences (s : State) (p : Nat) (k : Plate) : (s.setPlate p k).fences = s.fences := rfl
@[simp] theorem setPlate_stretch (s : State) (p : Nat) (k : Plate) : (s.setPlate p k).stretch = s.stretch := rfl
@[simp] theorem setPlate_refRows (s : State) (p : Nat) (k : Plate) : (s.setPlate p k).refRows = s.refRows := rfl
@[simp] theorem setPlate_refAt (s : State) (p : Nat) (k : Plate) : (s.setPlate p k).refAt = s.refAt := rfl
@[simp] theorem setPlate_sec (s : State) (p : Nat) (k : Plate) : (s.setPlate p k).sec = s.sec := rfl

@[simp] theorem setRing_pending (s : State) (r : Nat) (k : Ring) : (s.setRing r k).pending = s.pending := rfl
@[simp] theorem setRing_free (s : State) (r : Nat) (k : Ring) : (s.setRing r k).free = s.free := rfl
@[simp] theorem setRing_timebase (s : State) (r : Nat) (k : Ring) : (s.setRing r k).timebase = s.timebase := rfl
@[simp] theorem setRing_tickBase (s : State) (r : Nat) (k : Ring) : (s.setRing r k).tickBase = s.tickBase := rfl
@[simp] theorem setRing_regs (s : State) (r : Nat) (k : Ring) : (s.setRing r k).regs = s.regs := rfl
@[simp] theorem setRing_rof (s : State) (r : Nat) (k : Ring) : (s.setRing r k).rof = s.rof := rfl
@[simp] theorem setRing_view (s : State) (r : Nat) (k : Ring) : (s.setRing r k).view = s.view := rfl
@[simp] theorem setRing_seqRof (s : State) (r : Nat) (k : Ring) : (s.setRing r k).seqRof = s.seqRof := rfl
@[simp] theorem setRing_seqView (s : State) (r : Nat) (k : Ring) : (s.setRing r k).seqView = s.seqView := rfl
@[simp] theorem setRing_latches (s : State) (r : Nat) (k : Ring) : (s.setRing r k).latches = s.latches := rfl
@[simp] theorem setRing_lastEv (s : State) (r : Nat) (k : Ring) : (s.setRing r k).lastEv = s.lastEv := rfl
@[simp] theorem setRing_acts (s : State) (r : Nat) (k : Ring) : (s.setRing r k).acts = s.acts := rfl
@[simp] theorem setRing_late (s : State) (r : Nat) (k : Ring) : (s.setRing r k).late = s.late := rfl
@[simp] theorem setRing_evt (s : State) (r : Nat) (k : Ring) : (s.setRing r k).evt = s.evt := rfl
@[simp] theorem setRing_aba (s : State) (r : Nat) (k : Ring) : (s.setRing r k).aba = s.aba := rfl
@[simp] theorem setRing_mem (s : State) (r : Nat) (k : Ring) : (s.setRing r k).mem = s.mem := rfl
@[simp] theorem setRing_marks (s : State) (r : Nat) (k : Ring) : (s.setRing r k).marks = s.marks := rfl
@[simp] theorem setRing_voids (s : State) (r : Nat) (k : Ring) : (s.setRing r k).voids = s.voids := rfl
@[simp] theorem setRing_shafts (s : State) (r : Nat) (k : Ring) : (s.setRing r k).shafts = s.shafts := rfl
@[simp] theorem setRing_snap (s : State) (r : Nat) (k : Ring) : (s.setRing r k).snap = s.snap := rfl
@[simp] theorem setRing_cores (s : State) (r : Nat) (k : Ring) : (s.setRing r k).cores = s.cores := rfl
@[simp] theorem setRing_plates (s : State) (r : Nat) (k : Ring) : (s.setRing r k).plates = s.plates := rfl
@[simp] theorem setRing_slots (s : State) (r : Nat) (k : Ring) : (s.setRing r k).slots = s.slots := rfl
@[simp] theorem setRing_kv (s : State) (r : Nat) (k : Ring) : (s.setRing r k).kv = s.kv := rfl
@[simp] theorem setRing_seqr (s : State) (r : Nat) (k : Ring) : (s.setRing r k).seqr = s.seqr := rfl
@[simp] theorem setRing_fab (s : State) (r : Nat) (k : Ring) : (s.setRing r k).fab = s.fab := rfl
@[simp] theorem setRing_ray (s : State) (r : Nat) (k : Ring) : (s.setRing r k).ray = s.ray := rfl
@[simp] theorem setRing_sync (s : State) (r : Nat) (k : Ring) : (s.setRing r k).sync = s.sync := rfl
@[simp] theorem setRing_img (s : State) (r : Nat) (k : Ring) : (s.setRing r k).img = s.img := rfl
@[simp] theorem setRing_red (s : State) (r : Nat) (k : Ring) : (s.setRing r k).red = s.red := rfl
@[simp] theorem setRing_apt (s : State) (r : Nat) (k : Ring) : (s.setRing r k).apt = s.apt := rfl
@[simp] theorem setRing_therm (s : State) (r : Nat) (k : Ring) : (s.setRing r k).therm = s.therm := rfl
@[simp] theorem setRing_boot (s : State) (r : Nat) (k : Ring) : (s.setRing r k).boot = s.boot := rfl
@[simp] theorem setRing_evacs (s : State) (r : Nat) (k : Ring) : (s.setRing r k).evacs = s.evacs := rfl
@[simp] theorem setRing_fences (s : State) (r : Nat) (k : Ring) : (s.setRing r k).fences = s.fences := rfl
@[simp] theorem setRing_stretch (s : State) (r : Nat) (k : Ring) : (s.setRing r k).stretch = s.stretch := rfl
@[simp] theorem setRing_refRows (s : State) (r : Nat) (k : Ring) : (s.setRing r k).refRows = s.refRows := rfl
@[simp] theorem setRing_refAt (s : State) (r : Nat) (k : Ring) : (s.setRing r k).refAt = s.refAt := rfl
@[simp] theorem setRing_sec (s : State) (r : Nat) (k : Ring) : (s.setRing r k).sec = s.sec := rfl

@[simp] theorem setRslot_pending (s : State) (k : Nat) (v : RSlot) : (s.setRslot k v).pending = s.pending := rfl
@[simp] theorem setRslot_free (s : State) (k : Nat) (v : RSlot) : (s.setRslot k v).free = s.free := rfl
@[simp] theorem setRslot_timebase (s : State) (k : Nat) (v : RSlot) : (s.setRslot k v).timebase = s.timebase := rfl
@[simp] theorem setRslot_tickBase (s : State) (k : Nat) (v : RSlot) : (s.setRslot k v).tickBase = s.tickBase := rfl
@[simp] theorem setRslot_regs (s : State) (k : Nat) (v : RSlot) : (s.setRslot k v).regs = s.regs := rfl
@[simp] theorem setRslot_rof (s : State) (k : Nat) (v : RSlot) : (s.setRslot k v).rof = s.rof := rfl
@[simp] theorem setRslot_view (s : State) (k : Nat) (v : RSlot) : (s.setRslot k v).view = s.view := rfl
@[simp] theorem setRslot_seqRof (s : State) (k : Nat) (v : RSlot) : (s.setRslot k v).seqRof = s.seqRof := rfl
@[simp] theorem setRslot_seqView (s : State) (k : Nat) (v : RSlot) : (s.setRslot k v).seqView = s.seqView := rfl
@[simp] theorem setRslot_latches (s : State) (k : Nat) (v : RSlot) : (s.setRslot k v).latches = s.latches := rfl
@[simp] theorem setRslot_lastEv (s : State) (k : Nat) (v : RSlot) : (s.setRslot k v).lastEv = s.lastEv := rfl
@[simp] theorem setRslot_acts (s : State) (k : Nat) (v : RSlot) : (s.setRslot k v).acts = s.acts := rfl
@[simp] theorem setRslot_late (s : State) (k : Nat) (v : RSlot) : (s.setRslot k v).late = s.late := rfl
@[simp] theorem setRslot_evt (s : State) (k : Nat) (v : RSlot) : (s.setRslot k v).evt = s.evt := rfl
@[simp] theorem setRslot_aba (s : State) (k : Nat) (v : RSlot) : (s.setRslot k v).aba = s.aba := rfl
@[simp] theorem setRslot_mem (s : State) (k : Nat) (v : RSlot) : (s.setRslot k v).mem = s.mem := rfl
@[simp] theorem setRslot_marks (s : State) (k : Nat) (v : RSlot) : (s.setRslot k v).marks = s.marks := rfl
@[simp] theorem setRslot_voids (s : State) (k : Nat) (v : RSlot) : (s.setRslot k v).voids = s.voids := rfl
@[simp] theorem setRslot_shafts (s : State) (k : Nat) (v : RSlot) : (s.setRslot k v).shafts = s.shafts := rfl
@[simp] theorem setRslot_snap (s : State) (k : Nat) (v : RSlot) : (s.setRslot k v).snap = s.snap := rfl
@[simp] theorem setRslot_cores (s : State) (k : Nat) (v : RSlot) : (s.setRslot k v).cores = s.cores := rfl
@[simp] theorem setRslot_plates (s : State) (k : Nat) (v : RSlot) : (s.setRslot k v).plates = s.plates := rfl
@[simp] theorem setRslot_rings (s : State) (k : Nat) (v : RSlot) : (s.setRslot k v).rings = s.rings := rfl
@[simp] theorem setRslot_kv (s : State) (k : Nat) (v : RSlot) : (s.setRslot k v).kv = s.kv := rfl
@[simp] theorem setRslot_seqr (s : State) (k : Nat) (v : RSlot) : (s.setRslot k v).seqr = s.seqr := rfl
@[simp] theorem setRslot_fab (s : State) (k : Nat) (v : RSlot) : (s.setRslot k v).fab = s.fab := rfl
@[simp] theorem setRslot_ray (s : State) (k : Nat) (v : RSlot) : (s.setRslot k v).ray = s.ray := rfl
@[simp] theorem setRslot_sync (s : State) (k : Nat) (v : RSlot) : (s.setRslot k v).sync = s.sync := rfl
@[simp] theorem setRslot_img (s : State) (k : Nat) (v : RSlot) : (s.setRslot k v).img = s.img := rfl
@[simp] theorem setRslot_red (s : State) (k : Nat) (v : RSlot) : (s.setRslot k v).red = s.red := rfl
@[simp] theorem setRslot_apt (s : State) (k : Nat) (v : RSlot) : (s.setRslot k v).apt = s.apt := rfl
@[simp] theorem setRslot_therm (s : State) (k : Nat) (v : RSlot) : (s.setRslot k v).therm = s.therm := rfl
@[simp] theorem setRslot_boot (s : State) (k : Nat) (v : RSlot) : (s.setRslot k v).boot = s.boot := rfl
@[simp] theorem setRslot_evacs (s : State) (k : Nat) (v : RSlot) : (s.setRslot k v).evacs = s.evacs := rfl
@[simp] theorem setRslot_fences (s : State) (k : Nat) (v : RSlot) : (s.setRslot k v).fences = s.fences := rfl
@[simp] theorem setRslot_stretch (s : State) (k : Nat) (v : RSlot) : (s.setRslot k v).stretch = s.stretch := rfl
@[simp] theorem setRslot_refRows (s : State) (k : Nat) (v : RSlot) : (s.setRslot k v).refRows = s.refRows := rfl
@[simp] theorem setRslot_refAt (s : State) (k : Nat) (v : RSlot) : (s.setRslot k v).refAt = s.refAt := rfl
@[simp] theorem setRslot_sec (s : State) (k : Nat) (v : RSlot) : (s.setRslot k v).sec = s.sec := rfl

@[simp] theorem setShaft_pending (s : State) (p : Nat) (k : Shaft) : (s.setShaft p k).pending = s.pending := rfl
@[simp] theorem setShaft_free (s : State) (p : Nat) (k : Shaft) : (s.setShaft p k).free = s.free := rfl
@[simp] theorem setShaft_timebase (s : State) (p : Nat) (k : Shaft) : (s.setShaft p k).timebase = s.timebase := rfl
@[simp] theorem setShaft_tickBase (s : State) (p : Nat) (k : Shaft) : (s.setShaft p k).tickBase = s.tickBase := rfl
@[simp] theorem setShaft_regs (s : State) (p : Nat) (k : Shaft) : (s.setShaft p k).regs = s.regs := rfl
@[simp] theorem setShaft_rof (s : State) (p : Nat) (k : Shaft) : (s.setShaft p k).rof = s.rof := rfl
@[simp] theorem setShaft_view (s : State) (p : Nat) (k : Shaft) : (s.setShaft p k).view = s.view := rfl
@[simp] theorem setShaft_seqRof (s : State) (p : Nat) (k : Shaft) : (s.setShaft p k).seqRof = s.seqRof := rfl
@[simp] theorem setShaft_seqView (s : State) (p : Nat) (k : Shaft) : (s.setShaft p k).seqView = s.seqView := rfl
@[simp] theorem setShaft_latches (s : State) (p : Nat) (k : Shaft) : (s.setShaft p k).latches = s.latches := rfl
@[simp] theorem setShaft_lastEv (s : State) (p : Nat) (k : Shaft) : (s.setShaft p k).lastEv = s.lastEv := rfl
@[simp] theorem setShaft_acts (s : State) (p : Nat) (k : Shaft) : (s.setShaft p k).acts = s.acts := rfl
@[simp] theorem setShaft_late (s : State) (p : Nat) (k : Shaft) : (s.setShaft p k).late = s.late := rfl
@[simp] theorem setShaft_evt (s : State) (p : Nat) (k : Shaft) : (s.setShaft p k).evt = s.evt := rfl
@[simp] theorem setShaft_aba (s : State) (p : Nat) (k : Shaft) : (s.setShaft p k).aba = s.aba := rfl
@[simp] theorem setShaft_mem (s : State) (p : Nat) (k : Shaft) : (s.setShaft p k).mem = s.mem := rfl
@[simp] theorem setShaft_marks (s : State) (p : Nat) (k : Shaft) : (s.setShaft p k).marks = s.marks := rfl
@[simp] theorem setShaft_voids (s : State) (p : Nat) (k : Shaft) : (s.setShaft p k).voids = s.voids := rfl
@[simp] theorem setShaft_snap (s : State) (p : Nat) (k : Shaft) : (s.setShaft p k).snap = s.snap := rfl
@[simp] theorem setShaft_cores (s : State) (p : Nat) (k : Shaft) : (s.setShaft p k).cores = s.cores := rfl
@[simp] theorem setShaft_plates (s : State) (p : Nat) (k : Shaft) : (s.setShaft p k).plates = s.plates := rfl
@[simp] theorem setShaft_rings (s : State) (p : Nat) (k : Shaft) : (s.setShaft p k).rings = s.rings := rfl
@[simp] theorem setShaft_slots (s : State) (p : Nat) (k : Shaft) : (s.setShaft p k).slots = s.slots := rfl
@[simp] theorem setShaft_kv (s : State) (p : Nat) (k : Shaft) : (s.setShaft p k).kv = s.kv := rfl
@[simp] theorem setShaft_seqr (s : State) (p : Nat) (k : Shaft) : (s.setShaft p k).seqr = s.seqr := rfl
@[simp] theorem setShaft_fab (s : State) (p : Nat) (k : Shaft) : (s.setShaft p k).fab = s.fab := rfl
@[simp] theorem setShaft_ray (s : State) (p : Nat) (k : Shaft) : (s.setShaft p k).ray = s.ray := rfl
@[simp] theorem setShaft_sync (s : State) (p : Nat) (k : Shaft) : (s.setShaft p k).sync = s.sync := rfl
@[simp] theorem setShaft_img (s : State) (p : Nat) (k : Shaft) : (s.setShaft p k).img = s.img := rfl
@[simp] theorem setShaft_red (s : State) (p : Nat) (k : Shaft) : (s.setShaft p k).red = s.red := rfl
@[simp] theorem setShaft_apt (s : State) (p : Nat) (k : Shaft) : (s.setShaft p k).apt = s.apt := rfl
@[simp] theorem setShaft_therm (s : State) (p : Nat) (k : Shaft) : (s.setShaft p k).therm = s.therm := rfl
@[simp] theorem setShaft_boot (s : State) (p : Nat) (k : Shaft) : (s.setShaft p k).boot = s.boot := rfl
@[simp] theorem setShaft_evacs (s : State) (p : Nat) (k : Shaft) : (s.setShaft p k).evacs = s.evacs := rfl
@[simp] theorem setShaft_fences (s : State) (p : Nat) (k : Shaft) : (s.setShaft p k).fences = s.fences := rfl
@[simp] theorem setShaft_stretch (s : State) (p : Nat) (k : Shaft) : (s.setShaft p k).stretch = s.stretch := rfl
@[simp] theorem setShaft_refRows (s : State) (p : Nat) (k : Shaft) : (s.setShaft p k).refRows = s.refRows := rfl
@[simp] theorem setShaft_refAt (s : State) (p : Nat) (k : Shaft) : (s.setShaft p k).refAt = s.refAt := rfl
@[simp] theorem setShaft_sec (s : State) (p : Nat) (k : Shaft) : (s.setShaft p k).sec = s.sec := rfl

@[simp] theorem setBrg_pending (s : State) (b d : Nat) (v : BrgDir) : (s.setBrg b d v).pending = s.pending := rfl
@[simp] theorem setBrg_free (s : State) (b d : Nat) (v : BrgDir) : (s.setBrg b d v).free = s.free := rfl
@[simp] theorem setBrg_timebase (s : State) (b d : Nat) (v : BrgDir) : (s.setBrg b d v).timebase = s.timebase := rfl
@[simp] theorem setBrg_tickBase (s : State) (b d : Nat) (v : BrgDir) : (s.setBrg b d v).tickBase = s.tickBase := rfl
@[simp] theorem setBrg_regs (s : State) (b d : Nat) (v : BrgDir) : (s.setBrg b d v).regs = s.regs := rfl
@[simp] theorem setBrg_rof (s : State) (b d : Nat) (v : BrgDir) : (s.setBrg b d v).rof = s.rof := rfl
@[simp] theorem setBrg_view (s : State) (b d : Nat) (v : BrgDir) : (s.setBrg b d v).view = s.view := rfl
@[simp] theorem setBrg_seqRof (s : State) (b d : Nat) (v : BrgDir) : (s.setBrg b d v).seqRof = s.seqRof := rfl
@[simp] theorem setBrg_seqView (s : State) (b d : Nat) (v : BrgDir) : (s.setBrg b d v).seqView = s.seqView := rfl
@[simp] theorem setBrg_latches (s : State) (b d : Nat) (v : BrgDir) : (s.setBrg b d v).latches = s.latches := rfl
@[simp] theorem setBrg_lastEv (s : State) (b d : Nat) (v : BrgDir) : (s.setBrg b d v).lastEv = s.lastEv := rfl
@[simp] theorem setBrg_acts (s : State) (b d : Nat) (v : BrgDir) : (s.setBrg b d v).acts = s.acts := rfl
@[simp] theorem setBrg_late (s : State) (b d : Nat) (v : BrgDir) : (s.setBrg b d v).late = s.late := rfl
@[simp] theorem setBrg_evt (s : State) (b d : Nat) (v : BrgDir) : (s.setBrg b d v).evt = s.evt := rfl
@[simp] theorem setBrg_aba (s : State) (b d : Nat) (v : BrgDir) : (s.setBrg b d v).aba = s.aba := rfl
@[simp] theorem setBrg_mem (s : State) (b d : Nat) (v : BrgDir) : (s.setBrg b d v).mem = s.mem := rfl
@[simp] theorem setBrg_marks (s : State) (b d : Nat) (v : BrgDir) : (s.setBrg b d v).marks = s.marks := rfl
@[simp] theorem setBrg_voids (s : State) (b d : Nat) (v : BrgDir) : (s.setBrg b d v).voids = s.voids := rfl
@[simp] theorem setBrg_shafts (s : State) (b d : Nat) (v : BrgDir) : (s.setBrg b d v).shafts = s.shafts := rfl
@[simp] theorem setBrg_snap (s : State) (b d : Nat) (v : BrgDir) : (s.setBrg b d v).snap = s.snap := rfl
@[simp] theorem setBrg_cores (s : State) (b d : Nat) (v : BrgDir) : (s.setBrg b d v).cores = s.cores := rfl
@[simp] theorem setBrg_plates (s : State) (b d : Nat) (v : BrgDir) : (s.setBrg b d v).plates = s.plates := rfl
@[simp] theorem setBrg_rings (s : State) (b d : Nat) (v : BrgDir) : (s.setBrg b d v).rings = s.rings := rfl
@[simp] theorem setBrg_slots (s : State) (b d : Nat) (v : BrgDir) : (s.setBrg b d v).slots = s.slots := rfl
@[simp] theorem setBrg_kv (s : State) (b d : Nat) (v : BrgDir) : (s.setBrg b d v).kv = s.kv := rfl
@[simp] theorem setBrg_seqr (s : State) (b d : Nat) (v : BrgDir) : (s.setBrg b d v).seqr = s.seqr := rfl
@[simp] theorem setBrg_ray (s : State) (b d : Nat) (v : BrgDir) : (s.setBrg b d v).ray = s.ray := rfl
@[simp] theorem setBrg_sync (s : State) (b d : Nat) (v : BrgDir) : (s.setBrg b d v).sync = s.sync := rfl
@[simp] theorem setBrg_img (s : State) (b d : Nat) (v : BrgDir) : (s.setBrg b d v).img = s.img := rfl
@[simp] theorem setBrg_red (s : State) (b d : Nat) (v : BrgDir) : (s.setBrg b d v).red = s.red := rfl
@[simp] theorem setBrg_apt (s : State) (b d : Nat) (v : BrgDir) : (s.setBrg b d v).apt = s.apt := rfl
@[simp] theorem setBrg_therm (s : State) (b d : Nat) (v : BrgDir) : (s.setBrg b d v).therm = s.therm := rfl
@[simp] theorem setBrg_boot (s : State) (b d : Nat) (v : BrgDir) : (s.setBrg b d v).boot = s.boot := rfl
@[simp] theorem setBrg_evacs (s : State) (b d : Nat) (v : BrgDir) : (s.setBrg b d v).evacs = s.evacs := rfl
@[simp] theorem setBrg_fences (s : State) (b d : Nat) (v : BrgDir) : (s.setBrg b d v).fences = s.fences := rfl
@[simp] theorem setBrg_stretch (s : State) (b d : Nat) (v : BrgDir) : (s.setBrg b d v).stretch = s.stretch := rfl
@[simp] theorem setBrg_refRows (s : State) (b d : Nat) (v : BrgDir) : (s.setBrg b d v).refRows = s.refRows := rfl
@[simp] theorem setBrg_refAt (s : State) (b d : Nat) (v : BrgDir) : (s.setBrg b d v).refAt = s.refAt := rfl
@[simp] theorem setBrg_sec (s : State) (b d : Nat) (v : BrgDir) : (s.setBrg b d v).sec = s.sec := rfl

@[simp] theorem setPort_pending (s : State) (p : Nat) (k : RayPort) : (s.setPort p k).pending = s.pending := rfl
@[simp] theorem setPort_free (s : State) (p : Nat) (k : RayPort) : (s.setPort p k).free = s.free := rfl
@[simp] theorem setPort_timebase (s : State) (p : Nat) (k : RayPort) : (s.setPort p k).timebase = s.timebase := rfl
@[simp] theorem setPort_tickBase (s : State) (p : Nat) (k : RayPort) : (s.setPort p k).tickBase = s.tickBase := rfl
@[simp] theorem setPort_regs (s : State) (p : Nat) (k : RayPort) : (s.setPort p k).regs = s.regs := rfl
@[simp] theorem setPort_rof (s : State) (p : Nat) (k : RayPort) : (s.setPort p k).rof = s.rof := rfl
@[simp] theorem setPort_view (s : State) (p : Nat) (k : RayPort) : (s.setPort p k).view = s.view := rfl
@[simp] theorem setPort_seqRof (s : State) (p : Nat) (k : RayPort) : (s.setPort p k).seqRof = s.seqRof := rfl
@[simp] theorem setPort_seqView (s : State) (p : Nat) (k : RayPort) : (s.setPort p k).seqView = s.seqView := rfl
@[simp] theorem setPort_latches (s : State) (p : Nat) (k : RayPort) : (s.setPort p k).latches = s.latches := rfl
@[simp] theorem setPort_lastEv (s : State) (p : Nat) (k : RayPort) : (s.setPort p k).lastEv = s.lastEv := rfl
@[simp] theorem setPort_acts (s : State) (p : Nat) (k : RayPort) : (s.setPort p k).acts = s.acts := rfl
@[simp] theorem setPort_late (s : State) (p : Nat) (k : RayPort) : (s.setPort p k).late = s.late := rfl
@[simp] theorem setPort_evt (s : State) (p : Nat) (k : RayPort) : (s.setPort p k).evt = s.evt := rfl
@[simp] theorem setPort_aba (s : State) (p : Nat) (k : RayPort) : (s.setPort p k).aba = s.aba := rfl
@[simp] theorem setPort_mem (s : State) (p : Nat) (k : RayPort) : (s.setPort p k).mem = s.mem := rfl
@[simp] theorem setPort_marks (s : State) (p : Nat) (k : RayPort) : (s.setPort p k).marks = s.marks := rfl
@[simp] theorem setPort_voids (s : State) (p : Nat) (k : RayPort) : (s.setPort p k).voids = s.voids := rfl
@[simp] theorem setPort_shafts (s : State) (p : Nat) (k : RayPort) : (s.setPort p k).shafts = s.shafts := rfl
@[simp] theorem setPort_snap (s : State) (p : Nat) (k : RayPort) : (s.setPort p k).snap = s.snap := rfl
@[simp] theorem setPort_cores (s : State) (p : Nat) (k : RayPort) : (s.setPort p k).cores = s.cores := rfl
@[simp] theorem setPort_plates (s : State) (p : Nat) (k : RayPort) : (s.setPort p k).plates = s.plates := rfl
@[simp] theorem setPort_rings (s : State) (p : Nat) (k : RayPort) : (s.setPort p k).rings = s.rings := rfl
@[simp] theorem setPort_slots (s : State) (p : Nat) (k : RayPort) : (s.setPort p k).slots = s.slots := rfl
@[simp] theorem setPort_kv (s : State) (p : Nat) (k : RayPort) : (s.setPort p k).kv = s.kv := rfl
@[simp] theorem setPort_seqr (s : State) (p : Nat) (k : RayPort) : (s.setPort p k).seqr = s.seqr := rfl
@[simp] theorem setPort_fab (s : State) (p : Nat) (k : RayPort) : (s.setPort p k).fab = s.fab := rfl
@[simp] theorem setPort_sync (s : State) (p : Nat) (k : RayPort) : (s.setPort p k).sync = s.sync := rfl
@[simp] theorem setPort_img (s : State) (p : Nat) (k : RayPort) : (s.setPort p k).img = s.img := rfl
@[simp] theorem setPort_red (s : State) (p : Nat) (k : RayPort) : (s.setPort p k).red = s.red := rfl
@[simp] theorem setPort_apt (s : State) (p : Nat) (k : RayPort) : (s.setPort p k).apt = s.apt := rfl
@[simp] theorem setPort_therm (s : State) (p : Nat) (k : RayPort) : (s.setPort p k).therm = s.therm := rfl
@[simp] theorem setPort_boot (s : State) (p : Nat) (k : RayPort) : (s.setPort p k).boot = s.boot := rfl
@[simp] theorem setPort_evacs (s : State) (p : Nat) (k : RayPort) : (s.setPort p k).evacs = s.evacs := rfl
@[simp] theorem setPort_fences (s : State) (p : Nat) (k : RayPort) : (s.setPort p k).fences = s.fences := rfl
@[simp] theorem setPort_stretch (s : State) (p : Nat) (k : RayPort) : (s.setPort p k).stretch = s.stretch := rfl
@[simp] theorem setPort_refRows (s : State) (p : Nat) (k : RayPort) : (s.setPort p k).refRows = s.refRows := rfl
@[simp] theorem setPort_refAt (s : State) (p : Nat) (k : RayPort) : (s.setPort p k).refAt = s.refAt := rfl
@[simp] theorem setPort_sec (s : State) (p : Nat) (k : RayPort) : (s.setPort p k).sec = s.sec := rfl

@[simp] theorem setChan_pending (s : State) (c : Nat) (k : RedChan) : (s.setChan c k).pending = s.pending := rfl
@[simp] theorem setChan_free (s : State) (c : Nat) (k : RedChan) : (s.setChan c k).free = s.free := rfl
@[simp] theorem setChan_timebase (s : State) (c : Nat) (k : RedChan) : (s.setChan c k).timebase = s.timebase := rfl
@[simp] theorem setChan_tickBase (s : State) (c : Nat) (k : RedChan) : (s.setChan c k).tickBase = s.tickBase := rfl
@[simp] theorem setChan_regs (s : State) (c : Nat) (k : RedChan) : (s.setChan c k).regs = s.regs := rfl
@[simp] theorem setChan_rof (s : State) (c : Nat) (k : RedChan) : (s.setChan c k).rof = s.rof := rfl
@[simp] theorem setChan_view (s : State) (c : Nat) (k : RedChan) : (s.setChan c k).view = s.view := rfl
@[simp] theorem setChan_seqRof (s : State) (c : Nat) (k : RedChan) : (s.setChan c k).seqRof = s.seqRof := rfl
@[simp] theorem setChan_seqView (s : State) (c : Nat) (k : RedChan) : (s.setChan c k).seqView = s.seqView := rfl
@[simp] theorem setChan_latches (s : State) (c : Nat) (k : RedChan) : (s.setChan c k).latches = s.latches := rfl
@[simp] theorem setChan_lastEv (s : State) (c : Nat) (k : RedChan) : (s.setChan c k).lastEv = s.lastEv := rfl
@[simp] theorem setChan_acts (s : State) (c : Nat) (k : RedChan) : (s.setChan c k).acts = s.acts := rfl
@[simp] theorem setChan_late (s : State) (c : Nat) (k : RedChan) : (s.setChan c k).late = s.late := rfl
@[simp] theorem setChan_evt (s : State) (c : Nat) (k : RedChan) : (s.setChan c k).evt = s.evt := rfl
@[simp] theorem setChan_aba (s : State) (c : Nat) (k : RedChan) : (s.setChan c k).aba = s.aba := rfl
@[simp] theorem setChan_mem (s : State) (c : Nat) (k : RedChan) : (s.setChan c k).mem = s.mem := rfl
@[simp] theorem setChan_marks (s : State) (c : Nat) (k : RedChan) : (s.setChan c k).marks = s.marks := rfl
@[simp] theorem setChan_voids (s : State) (c : Nat) (k : RedChan) : (s.setChan c k).voids = s.voids := rfl
@[simp] theorem setChan_shafts (s : State) (c : Nat) (k : RedChan) : (s.setChan c k).shafts = s.shafts := rfl
@[simp] theorem setChan_snap (s : State) (c : Nat) (k : RedChan) : (s.setChan c k).snap = s.snap := rfl
@[simp] theorem setChan_cores (s : State) (c : Nat) (k : RedChan) : (s.setChan c k).cores = s.cores := rfl
@[simp] theorem setChan_plates (s : State) (c : Nat) (k : RedChan) : (s.setChan c k).plates = s.plates := rfl
@[simp] theorem setChan_rings (s : State) (c : Nat) (k : RedChan) : (s.setChan c k).rings = s.rings := rfl
@[simp] theorem setChan_slots (s : State) (c : Nat) (k : RedChan) : (s.setChan c k).slots = s.slots := rfl
@[simp] theorem setChan_kv (s : State) (c : Nat) (k : RedChan) : (s.setChan c k).kv = s.kv := rfl
@[simp] theorem setChan_seqr (s : State) (c : Nat) (k : RedChan) : (s.setChan c k).seqr = s.seqr := rfl
@[simp] theorem setChan_fab (s : State) (c : Nat) (k : RedChan) : (s.setChan c k).fab = s.fab := rfl
@[simp] theorem setChan_ray (s : State) (c : Nat) (k : RedChan) : (s.setChan c k).ray = s.ray := rfl
@[simp] theorem setChan_sync (s : State) (c : Nat) (k : RedChan) : (s.setChan c k).sync = s.sync := rfl
@[simp] theorem setChan_img (s : State) (c : Nat) (k : RedChan) : (s.setChan c k).img = s.img := rfl
@[simp] theorem setChan_apt (s : State) (c : Nat) (k : RedChan) : (s.setChan c k).apt = s.apt := rfl
@[simp] theorem setChan_therm (s : State) (c : Nat) (k : RedChan) : (s.setChan c k).therm = s.therm := rfl
@[simp] theorem setChan_boot (s : State) (c : Nat) (k : RedChan) : (s.setChan c k).boot = s.boot := rfl
@[simp] theorem setChan_evacs (s : State) (c : Nat) (k : RedChan) : (s.setChan c k).evacs = s.evacs := rfl
@[simp] theorem setChan_fences (s : State) (c : Nat) (k : RedChan) : (s.setChan c k).fences = s.fences := rfl
@[simp] theorem setChan_stretch (s : State) (c : Nat) (k : RedChan) : (s.setChan c k).stretch = s.stretch := rfl
@[simp] theorem setChan_refRows (s : State) (c : Nat) (k : RedChan) : (s.setChan c k).refRows = s.refRows := rfl
@[simp] theorem setChan_refAt (s : State) (c : Nat) (k : RedChan) : (s.setChan c k).refAt = s.refAt := rfl
@[simp] theorem setChan_sec (s : State) (c : Nat) (k : RedChan) : (s.setChan c k).sec = s.sec := rfl

@[simp] theorem setGrp_pending (s : State) (g : Nat) (k : ParGrp) : (s.setGrp g k).pending = s.pending := rfl
@[simp] theorem setGrp_free (s : State) (g : Nat) (k : ParGrp) : (s.setGrp g k).free = s.free := rfl
@[simp] theorem setGrp_timebase (s : State) (g : Nat) (k : ParGrp) : (s.setGrp g k).timebase = s.timebase := rfl
@[simp] theorem setGrp_tickBase (s : State) (g : Nat) (k : ParGrp) : (s.setGrp g k).tickBase = s.tickBase := rfl
@[simp] theorem setGrp_regs (s : State) (g : Nat) (k : ParGrp) : (s.setGrp g k).regs = s.regs := rfl
@[simp] theorem setGrp_rof (s : State) (g : Nat) (k : ParGrp) : (s.setGrp g k).rof = s.rof := rfl
@[simp] theorem setGrp_view (s : State) (g : Nat) (k : ParGrp) : (s.setGrp g k).view = s.view := rfl
@[simp] theorem setGrp_seqRof (s : State) (g : Nat) (k : ParGrp) : (s.setGrp g k).seqRof = s.seqRof := rfl
@[simp] theorem setGrp_seqView (s : State) (g : Nat) (k : ParGrp) : (s.setGrp g k).seqView = s.seqView := rfl
@[simp] theorem setGrp_latches (s : State) (g : Nat) (k : ParGrp) : (s.setGrp g k).latches = s.latches := rfl
@[simp] theorem setGrp_lastEv (s : State) (g : Nat) (k : ParGrp) : (s.setGrp g k).lastEv = s.lastEv := rfl
@[simp] theorem setGrp_acts (s : State) (g : Nat) (k : ParGrp) : (s.setGrp g k).acts = s.acts := rfl
@[simp] theorem setGrp_late (s : State) (g : Nat) (k : ParGrp) : (s.setGrp g k).late = s.late := rfl
@[simp] theorem setGrp_evt (s : State) (g : Nat) (k : ParGrp) : (s.setGrp g k).evt = s.evt := rfl
@[simp] theorem setGrp_aba (s : State) (g : Nat) (k : ParGrp) : (s.setGrp g k).aba = s.aba := rfl
@[simp] theorem setGrp_mem (s : State) (g : Nat) (k : ParGrp) : (s.setGrp g k).mem = s.mem := rfl
@[simp] theorem setGrp_marks (s : State) (g : Nat) (k : ParGrp) : (s.setGrp g k).marks = s.marks := rfl
@[simp] theorem setGrp_voids (s : State) (g : Nat) (k : ParGrp) : (s.setGrp g k).voids = s.voids := rfl
@[simp] theorem setGrp_shafts (s : State) (g : Nat) (k : ParGrp) : (s.setGrp g k).shafts = s.shafts := rfl
@[simp] theorem setGrp_snap (s : State) (g : Nat) (k : ParGrp) : (s.setGrp g k).snap = s.snap := rfl
@[simp] theorem setGrp_cores (s : State) (g : Nat) (k : ParGrp) : (s.setGrp g k).cores = s.cores := rfl
@[simp] theorem setGrp_plates (s : State) (g : Nat) (k : ParGrp) : (s.setGrp g k).plates = s.plates := rfl
@[simp] theorem setGrp_rings (s : State) (g : Nat) (k : ParGrp) : (s.setGrp g k).rings = s.rings := rfl
@[simp] theorem setGrp_slots (s : State) (g : Nat) (k : ParGrp) : (s.setGrp g k).slots = s.slots := rfl
@[simp] theorem setGrp_kv (s : State) (g : Nat) (k : ParGrp) : (s.setGrp g k).kv = s.kv := rfl
@[simp] theorem setGrp_seqr (s : State) (g : Nat) (k : ParGrp) : (s.setGrp g k).seqr = s.seqr := rfl
@[simp] theorem setGrp_fab (s : State) (g : Nat) (k : ParGrp) : (s.setGrp g k).fab = s.fab := rfl
@[simp] theorem setGrp_ray (s : State) (g : Nat) (k : ParGrp) : (s.setGrp g k).ray = s.ray := rfl
@[simp] theorem setGrp_sync (s : State) (g : Nat) (k : ParGrp) : (s.setGrp g k).sync = s.sync := rfl
@[simp] theorem setGrp_img (s : State) (g : Nat) (k : ParGrp) : (s.setGrp g k).img = s.img := rfl
@[simp] theorem setGrp_apt (s : State) (g : Nat) (k : ParGrp) : (s.setGrp g k).apt = s.apt := rfl
@[simp] theorem setGrp_therm (s : State) (g : Nat) (k : ParGrp) : (s.setGrp g k).therm = s.therm := rfl
@[simp] theorem setGrp_boot (s : State) (g : Nat) (k : ParGrp) : (s.setGrp g k).boot = s.boot := rfl
@[simp] theorem setGrp_evacs (s : State) (g : Nat) (k : ParGrp) : (s.setGrp g k).evacs = s.evacs := rfl
@[simp] theorem setGrp_fences (s : State) (g : Nat) (k : ParGrp) : (s.setGrp g k).fences = s.fences := rfl
@[simp] theorem setGrp_stretch (s : State) (g : Nat) (k : ParGrp) : (s.setGrp g k).stretch = s.stretch := rfl
@[simp] theorem setGrp_refRows (s : State) (g : Nat) (k : ParGrp) : (s.setGrp g k).refRows = s.refRows := rfl
@[simp] theorem setGrp_refAt (s : State) (g : Nat) (k : ParGrp) : (s.setGrp g k).refAt = s.refAt := rfl
@[simp] theorem setGrp_sec (s : State) (g : Nat) (k : ParGrp) : (s.setGrp g k).sec = s.sec := rfl

@[simp] theorem setSeq_pending (i : Nat) (q : KvSeq) (s : State) : (setSeq i q s).pending = s.pending := rfl
@[simp] theorem setSeq_free (i : Nat) (q : KvSeq) (s : State) : (setSeq i q s).free = s.free := rfl
@[simp] theorem setSeq_timebase (i : Nat) (q : KvSeq) (s : State) : (setSeq i q s).timebase = s.timebase := rfl
@[simp] theorem setSeq_tickBase (i : Nat) (q : KvSeq) (s : State) : (setSeq i q s).tickBase = s.tickBase := rfl
@[simp] theorem setSeq_regs (i : Nat) (q : KvSeq) (s : State) : (setSeq i q s).regs = s.regs := rfl
@[simp] theorem setSeq_rof (i : Nat) (q : KvSeq) (s : State) : (setSeq i q s).rof = s.rof := rfl
@[simp] theorem setSeq_view (i : Nat) (q : KvSeq) (s : State) : (setSeq i q s).view = s.view := rfl
@[simp] theorem setSeq_seqRof (i : Nat) (q : KvSeq) (s : State) : (setSeq i q s).seqRof = s.seqRof := rfl
@[simp] theorem setSeq_seqView (i : Nat) (q : KvSeq) (s : State) : (setSeq i q s).seqView = s.seqView := rfl
@[simp] theorem setSeq_latches (i : Nat) (q : KvSeq) (s : State) : (setSeq i q s).latches = s.latches := rfl
@[simp] theorem setSeq_lastEv (i : Nat) (q : KvSeq) (s : State) : (setSeq i q s).lastEv = s.lastEv := rfl
@[simp] theorem setSeq_acts (i : Nat) (q : KvSeq) (s : State) : (setSeq i q s).acts = s.acts := rfl
@[simp] theorem setSeq_late (i : Nat) (q : KvSeq) (s : State) : (setSeq i q s).late = s.late := rfl
@[simp] theorem setSeq_evt (i : Nat) (q : KvSeq) (s : State) : (setSeq i q s).evt = s.evt := rfl
@[simp] theorem setSeq_aba (i : Nat) (q : KvSeq) (s : State) : (setSeq i q s).aba = s.aba := rfl
@[simp] theorem setSeq_mem (i : Nat) (q : KvSeq) (s : State) : (setSeq i q s).mem = s.mem := rfl
@[simp] theorem setSeq_marks (i : Nat) (q : KvSeq) (s : State) : (setSeq i q s).marks = s.marks := rfl
@[simp] theorem setSeq_voids (i : Nat) (q : KvSeq) (s : State) : (setSeq i q s).voids = s.voids := rfl
@[simp] theorem setSeq_shafts (i : Nat) (q : KvSeq) (s : State) : (setSeq i q s).shafts = s.shafts := rfl
@[simp] theorem setSeq_snap (i : Nat) (q : KvSeq) (s : State) : (setSeq i q s).snap = s.snap := rfl
@[simp] theorem setSeq_cores (i : Nat) (q : KvSeq) (s : State) : (setSeq i q s).cores = s.cores := rfl
@[simp] theorem setSeq_plates (i : Nat) (q : KvSeq) (s : State) : (setSeq i q s).plates = s.plates := rfl
@[simp] theorem setSeq_rings (i : Nat) (q : KvSeq) (s : State) : (setSeq i q s).rings = s.rings := rfl
@[simp] theorem setSeq_slots (i : Nat) (q : KvSeq) (s : State) : (setSeq i q s).slots = s.slots := rfl
@[simp] theorem setSeq_seqr (i : Nat) (q : KvSeq) (s : State) : (setSeq i q s).seqr = s.seqr := rfl
@[simp] theorem setSeq_fab (i : Nat) (q : KvSeq) (s : State) : (setSeq i q s).fab = s.fab := rfl
@[simp] theorem setSeq_ray (i : Nat) (q : KvSeq) (s : State) : (setSeq i q s).ray = s.ray := rfl
@[simp] theorem setSeq_sync (i : Nat) (q : KvSeq) (s : State) : (setSeq i q s).sync = s.sync := rfl
@[simp] theorem setSeq_img (i : Nat) (q : KvSeq) (s : State) : (setSeq i q s).img = s.img := rfl
@[simp] theorem setSeq_red (i : Nat) (q : KvSeq) (s : State) : (setSeq i q s).red = s.red := rfl
@[simp] theorem setSeq_apt (i : Nat) (q : KvSeq) (s : State) : (setSeq i q s).apt = s.apt := rfl
@[simp] theorem setSeq_therm (i : Nat) (q : KvSeq) (s : State) : (setSeq i q s).therm = s.therm := rfl
@[simp] theorem setSeq_boot (i : Nat) (q : KvSeq) (s : State) : (setSeq i q s).boot = s.boot := rfl
@[simp] theorem setSeq_evacs (i : Nat) (q : KvSeq) (s : State) : (setSeq i q s).evacs = s.evacs := rfl
@[simp] theorem setSeq_fences (i : Nat) (q : KvSeq) (s : State) : (setSeq i q s).fences = s.fences := rfl
@[simp] theorem setSeq_stretch (i : Nat) (q : KvSeq) (s : State) : (setSeq i q s).stretch = s.stretch := rfl
@[simp] theorem setSeq_refRows (i : Nat) (q : KvSeq) (s : State) : (setSeq i q s).refRows = s.refRows := rfl
@[simp] theorem setSeq_refAt (i : Nat) (q : KvSeq) (s : State) : (setSeq i q s).refAt = s.refAt := rfl
@[simp] theorem setSeq_sec (i : Nat) (q : KvSeq) (s : State) : (setSeq i q s).sec = s.sec := rfl

@[simp] theorem setFrame_pending (f : Nat) (v : KvFrame) (s : State) : (setFrame f v s).pending = s.pending := rfl
@[simp] theorem setFrame_free (f : Nat) (v : KvFrame) (s : State) : (setFrame f v s).free = s.free := rfl
@[simp] theorem setFrame_timebase (f : Nat) (v : KvFrame) (s : State) : (setFrame f v s).timebase = s.timebase := rfl
@[simp] theorem setFrame_tickBase (f : Nat) (v : KvFrame) (s : State) : (setFrame f v s).tickBase = s.tickBase := rfl
@[simp] theorem setFrame_regs (f : Nat) (v : KvFrame) (s : State) : (setFrame f v s).regs = s.regs := rfl
@[simp] theorem setFrame_rof (f : Nat) (v : KvFrame) (s : State) : (setFrame f v s).rof = s.rof := rfl
@[simp] theorem setFrame_view (f : Nat) (v : KvFrame) (s : State) : (setFrame f v s).view = s.view := rfl
@[simp] theorem setFrame_seqRof (f : Nat) (v : KvFrame) (s : State) : (setFrame f v s).seqRof = s.seqRof := rfl
@[simp] theorem setFrame_seqView (f : Nat) (v : KvFrame) (s : State) : (setFrame f v s).seqView = s.seqView := rfl
@[simp] theorem setFrame_latches (f : Nat) (v : KvFrame) (s : State) : (setFrame f v s).latches = s.latches := rfl
@[simp] theorem setFrame_lastEv (f : Nat) (v : KvFrame) (s : State) : (setFrame f v s).lastEv = s.lastEv := rfl
@[simp] theorem setFrame_acts (f : Nat) (v : KvFrame) (s : State) : (setFrame f v s).acts = s.acts := rfl
@[simp] theorem setFrame_late (f : Nat) (v : KvFrame) (s : State) : (setFrame f v s).late = s.late := rfl
@[simp] theorem setFrame_evt (f : Nat) (v : KvFrame) (s : State) : (setFrame f v s).evt = s.evt := rfl
@[simp] theorem setFrame_aba (f : Nat) (v : KvFrame) (s : State) : (setFrame f v s).aba = s.aba := rfl
@[simp] theorem setFrame_mem (f : Nat) (v : KvFrame) (s : State) : (setFrame f v s).mem = s.mem := rfl
@[simp] theorem setFrame_marks (f : Nat) (v : KvFrame) (s : State) : (setFrame f v s).marks = s.marks := rfl
@[simp] theorem setFrame_voids (f : Nat) (v : KvFrame) (s : State) : (setFrame f v s).voids = s.voids := rfl
@[simp] theorem setFrame_shafts (f : Nat) (v : KvFrame) (s : State) : (setFrame f v s).shafts = s.shafts := rfl
@[simp] theorem setFrame_snap (f : Nat) (v : KvFrame) (s : State) : (setFrame f v s).snap = s.snap := rfl
@[simp] theorem setFrame_cores (f : Nat) (v : KvFrame) (s : State) : (setFrame f v s).cores = s.cores := rfl
@[simp] theorem setFrame_plates (f : Nat) (v : KvFrame) (s : State) : (setFrame f v s).plates = s.plates := rfl
@[simp] theorem setFrame_rings (f : Nat) (v : KvFrame) (s : State) : (setFrame f v s).rings = s.rings := rfl
@[simp] theorem setFrame_slots (f : Nat) (v : KvFrame) (s : State) : (setFrame f v s).slots = s.slots := rfl
@[simp] theorem setFrame_seqr (f : Nat) (v : KvFrame) (s : State) : (setFrame f v s).seqr = s.seqr := rfl
@[simp] theorem setFrame_fab (f : Nat) (v : KvFrame) (s : State) : (setFrame f v s).fab = s.fab := rfl
@[simp] theorem setFrame_ray (f : Nat) (v : KvFrame) (s : State) : (setFrame f v s).ray = s.ray := rfl
@[simp] theorem setFrame_sync (f : Nat) (v : KvFrame) (s : State) : (setFrame f v s).sync = s.sync := rfl
@[simp] theorem setFrame_img (f : Nat) (v : KvFrame) (s : State) : (setFrame f v s).img = s.img := rfl
@[simp] theorem setFrame_red (f : Nat) (v : KvFrame) (s : State) : (setFrame f v s).red = s.red := rfl
@[simp] theorem setFrame_apt (f : Nat) (v : KvFrame) (s : State) : (setFrame f v s).apt = s.apt := rfl
@[simp] theorem setFrame_therm (f : Nat) (v : KvFrame) (s : State) : (setFrame f v s).therm = s.therm := rfl
@[simp] theorem setFrame_boot (f : Nat) (v : KvFrame) (s : State) : (setFrame f v s).boot = s.boot := rfl
@[simp] theorem setFrame_evacs (f : Nat) (v : KvFrame) (s : State) : (setFrame f v s).evacs = s.evacs := rfl
@[simp] theorem setFrame_fences (f : Nat) (v : KvFrame) (s : State) : (setFrame f v s).fences = s.fences := rfl
@[simp] theorem setFrame_stretch (f : Nat) (v : KvFrame) (s : State) : (setFrame f v s).stretch = s.stretch := rfl
@[simp] theorem setFrame_refRows (f : Nat) (v : KvFrame) (s : State) : (setFrame f v s).refRows = s.refRows := rfl
@[simp] theorem setFrame_refAt (f : Nat) (v : KvFrame) (s : State) : (setFrame f v s).refAt = s.refAt := rfl
@[simp] theorem setFrame_sec (f : Nat) (v : KvFrame) (s : State) : (setFrame f v s).sec = s.sec := rfl

@[simp] theorem setAba_pending (f : Aba → Aba) (s : State) : (setAba f s).pending = s.pending := rfl
@[simp] theorem setAba_free (f : Aba → Aba) (s : State) : (setAba f s).free = s.free := rfl
@[simp] theorem setAba_timebase (f : Aba → Aba) (s : State) : (setAba f s).timebase = s.timebase := rfl
@[simp] theorem setAba_tickBase (f : Aba → Aba) (s : State) : (setAba f s).tickBase = s.tickBase := rfl
@[simp] theorem setAba_regs (f : Aba → Aba) (s : State) : (setAba f s).regs = s.regs := rfl
@[simp] theorem setAba_rof (f : Aba → Aba) (s : State) : (setAba f s).rof = s.rof := rfl
@[simp] theorem setAba_view (f : Aba → Aba) (s : State) : (setAba f s).view = s.view := rfl
@[simp] theorem setAba_seqRof (f : Aba → Aba) (s : State) : (setAba f s).seqRof = s.seqRof := rfl
@[simp] theorem setAba_seqView (f : Aba → Aba) (s : State) : (setAba f s).seqView = s.seqView := rfl
@[simp] theorem setAba_latches (f : Aba → Aba) (s : State) : (setAba f s).latches = s.latches := rfl
@[simp] theorem setAba_lastEv (f : Aba → Aba) (s : State) : (setAba f s).lastEv = s.lastEv := rfl
@[simp] theorem setAba_acts (f : Aba → Aba) (s : State) : (setAba f s).acts = s.acts := rfl
@[simp] theorem setAba_late (f : Aba → Aba) (s : State) : (setAba f s).late = s.late := rfl
@[simp] theorem setAba_evt (f : Aba → Aba) (s : State) : (setAba f s).evt = s.evt := rfl
@[simp] theorem setAba_mem (f : Aba → Aba) (s : State) : (setAba f s).mem = s.mem := rfl
@[simp] theorem setAba_marks (f : Aba → Aba) (s : State) : (setAba f s).marks = s.marks := rfl
@[simp] theorem setAba_voids (f : Aba → Aba) (s : State) : (setAba f s).voids = s.voids := rfl
@[simp] theorem setAba_shafts (f : Aba → Aba) (s : State) : (setAba f s).shafts = s.shafts := rfl
@[simp] theorem setAba_snap (f : Aba → Aba) (s : State) : (setAba f s).snap = s.snap := rfl
@[simp] theorem setAba_cores (f : Aba → Aba) (s : State) : (setAba f s).cores = s.cores := rfl
@[simp] theorem setAba_plates (f : Aba → Aba) (s : State) : (setAba f s).plates = s.plates := rfl
@[simp] theorem setAba_rings (f : Aba → Aba) (s : State) : (setAba f s).rings = s.rings := rfl
@[simp] theorem setAba_slots (f : Aba → Aba) (s : State) : (setAba f s).slots = s.slots := rfl
@[simp] theorem setAba_kv (f : Aba → Aba) (s : State) : (setAba f s).kv = s.kv := rfl
@[simp] theorem setAba_seqr (f : Aba → Aba) (s : State) : (setAba f s).seqr = s.seqr := rfl
@[simp] theorem setAba_fab (f : Aba → Aba) (s : State) : (setAba f s).fab = s.fab := rfl
@[simp] theorem setAba_ray (f : Aba → Aba) (s : State) : (setAba f s).ray = s.ray := rfl
@[simp] theorem setAba_sync (f : Aba → Aba) (s : State) : (setAba f s).sync = s.sync := rfl
@[simp] theorem setAba_img (f : Aba → Aba) (s : State) : (setAba f s).img = s.img := rfl
@[simp] theorem setAba_red (f : Aba → Aba) (s : State) : (setAba f s).red = s.red := rfl
@[simp] theorem setAba_apt (f : Aba → Aba) (s : State) : (setAba f s).apt = s.apt := rfl
@[simp] theorem setAba_therm (f : Aba → Aba) (s : State) : (setAba f s).therm = s.therm := rfl
@[simp] theorem setAba_boot (f : Aba → Aba) (s : State) : (setAba f s).boot = s.boot := rfl
@[simp] theorem setAba_evacs (f : Aba → Aba) (s : State) : (setAba f s).evacs = s.evacs := rfl
@[simp] theorem setAba_fences (f : Aba → Aba) (s : State) : (setAba f s).fences = s.fences := rfl
@[simp] theorem setAba_stretch (f : Aba → Aba) (s : State) : (setAba f s).stretch = s.stretch := rfl
@[simp] theorem setAba_refRows (f : Aba → Aba) (s : State) : (setAba f s).refRows = s.refRows := rfl
@[simp] theorem setAba_refAt (f : Aba → Aba) (s : State) : (setAba f s).refAt = s.refAt := rfl
@[simp] theorem setAba_sec (f : Aba → Aba) (s : State) : (setAba f s).sec = s.sec := rfl

@[simp] theorem setApt_pending (f : Apt → Apt) (s : State) : (setApt f s).pending = s.pending := rfl
@[simp] theorem setApt_free (f : Apt → Apt) (s : State) : (setApt f s).free = s.free := rfl
@[simp] theorem setApt_timebase (f : Apt → Apt) (s : State) : (setApt f s).timebase = s.timebase := rfl
@[simp] theorem setApt_tickBase (f : Apt → Apt) (s : State) : (setApt f s).tickBase = s.tickBase := rfl
@[simp] theorem setApt_regs (f : Apt → Apt) (s : State) : (setApt f s).regs = s.regs := rfl
@[simp] theorem setApt_rof (f : Apt → Apt) (s : State) : (setApt f s).rof = s.rof := rfl
@[simp] theorem setApt_view (f : Apt → Apt) (s : State) : (setApt f s).view = s.view := rfl
@[simp] theorem setApt_seqRof (f : Apt → Apt) (s : State) : (setApt f s).seqRof = s.seqRof := rfl
@[simp] theorem setApt_seqView (f : Apt → Apt) (s : State) : (setApt f s).seqView = s.seqView := rfl
@[simp] theorem setApt_latches (f : Apt → Apt) (s : State) : (setApt f s).latches = s.latches := rfl
@[simp] theorem setApt_lastEv (f : Apt → Apt) (s : State) : (setApt f s).lastEv = s.lastEv := rfl
@[simp] theorem setApt_acts (f : Apt → Apt) (s : State) : (setApt f s).acts = s.acts := rfl
@[simp] theorem setApt_late (f : Apt → Apt) (s : State) : (setApt f s).late = s.late := rfl
@[simp] theorem setApt_evt (f : Apt → Apt) (s : State) : (setApt f s).evt = s.evt := rfl
@[simp] theorem setApt_aba (f : Apt → Apt) (s : State) : (setApt f s).aba = s.aba := rfl
@[simp] theorem setApt_mem (f : Apt → Apt) (s : State) : (setApt f s).mem = s.mem := rfl
@[simp] theorem setApt_marks (f : Apt → Apt) (s : State) : (setApt f s).marks = s.marks := rfl
@[simp] theorem setApt_voids (f : Apt → Apt) (s : State) : (setApt f s).voids = s.voids := rfl
@[simp] theorem setApt_shafts (f : Apt → Apt) (s : State) : (setApt f s).shafts = s.shafts := rfl
@[simp] theorem setApt_snap (f : Apt → Apt) (s : State) : (setApt f s).snap = s.snap := rfl
@[simp] theorem setApt_cores (f : Apt → Apt) (s : State) : (setApt f s).cores = s.cores := rfl
@[simp] theorem setApt_plates (f : Apt → Apt) (s : State) : (setApt f s).plates = s.plates := rfl
@[simp] theorem setApt_rings (f : Apt → Apt) (s : State) : (setApt f s).rings = s.rings := rfl
@[simp] theorem setApt_slots (f : Apt → Apt) (s : State) : (setApt f s).slots = s.slots := rfl
@[simp] theorem setApt_kv (f : Apt → Apt) (s : State) : (setApt f s).kv = s.kv := rfl
@[simp] theorem setApt_seqr (f : Apt → Apt) (s : State) : (setApt f s).seqr = s.seqr := rfl
@[simp] theorem setApt_fab (f : Apt → Apt) (s : State) : (setApt f s).fab = s.fab := rfl
@[simp] theorem setApt_ray (f : Apt → Apt) (s : State) : (setApt f s).ray = s.ray := rfl
@[simp] theorem setApt_sync (f : Apt → Apt) (s : State) : (setApt f s).sync = s.sync := rfl
@[simp] theorem setApt_img (f : Apt → Apt) (s : State) : (setApt f s).img = s.img := rfl
@[simp] theorem setApt_red (f : Apt → Apt) (s : State) : (setApt f s).red = s.red := rfl
@[simp] theorem setApt_therm (f : Apt → Apt) (s : State) : (setApt f s).therm = s.therm := rfl
@[simp] theorem setApt_boot (f : Apt → Apt) (s : State) : (setApt f s).boot = s.boot := rfl
@[simp] theorem setApt_evacs (f : Apt → Apt) (s : State) : (setApt f s).evacs = s.evacs := rfl
@[simp] theorem setApt_fences (f : Apt → Apt) (s : State) : (setApt f s).fences = s.fences := rfl
@[simp] theorem setApt_stretch (f : Apt → Apt) (s : State) : (setApt f s).stretch = s.stretch := rfl
@[simp] theorem setApt_refRows (f : Apt → Apt) (s : State) : (setApt f s).refRows = s.refRows := rfl
@[simp] theorem setApt_refAt (f : Apt → Apt) (s : State) : (setApt f s).refAt = s.refAt := rfl
@[simp] theorem setApt_sec (f : Apt → Apt) (s : State) : (setApt f s).sec = s.sec := rfl

@[simp] theorem setTherm_pending (f : Therm → Therm) (s : State) : (setTherm f s).pending = s.pending := rfl
@[simp] theorem setTherm_free (f : Therm → Therm) (s : State) : (setTherm f s).free = s.free := rfl
@[simp] theorem setTherm_timebase (f : Therm → Therm) (s : State) : (setTherm f s).timebase = s.timebase := rfl
@[simp] theorem setTherm_tickBase (f : Therm → Therm) (s : State) : (setTherm f s).tickBase = s.tickBase := rfl
@[simp] theorem setTherm_regs (f : Therm → Therm) (s : State) : (setTherm f s).regs = s.regs := rfl
@[simp] theorem setTherm_rof (f : Therm → Therm) (s : State) : (setTherm f s).rof = s.rof := rfl
@[simp] theorem setTherm_view (f : Therm → Therm) (s : State) : (setTherm f s).view = s.view := rfl
@[simp] theorem setTherm_seqRof (f : Therm → Therm) (s : State) : (setTherm f s).seqRof = s.seqRof := rfl
@[simp] theorem setTherm_seqView (f : Therm → Therm) (s : State) : (setTherm f s).seqView = s.seqView := rfl
@[simp] theorem setTherm_latches (f : Therm → Therm) (s : State) : (setTherm f s).latches = s.latches := rfl
@[simp] theorem setTherm_lastEv (f : Therm → Therm) (s : State) : (setTherm f s).lastEv = s.lastEv := rfl
@[simp] theorem setTherm_acts (f : Therm → Therm) (s : State) : (setTherm f s).acts = s.acts := rfl
@[simp] theorem setTherm_late (f : Therm → Therm) (s : State) : (setTherm f s).late = s.late := rfl
@[simp] theorem setTherm_evt (f : Therm → Therm) (s : State) : (setTherm f s).evt = s.evt := rfl
@[simp] theorem setTherm_aba (f : Therm → Therm) (s : State) : (setTherm f s).aba = s.aba := rfl
@[simp] theorem setTherm_mem (f : Therm → Therm) (s : State) : (setTherm f s).mem = s.mem := rfl
@[simp] theorem setTherm_marks (f : Therm → Therm) (s : State) : (setTherm f s).marks = s.marks := rfl
@[simp] theorem setTherm_voids (f : Therm → Therm) (s : State) : (setTherm f s).voids = s.voids := rfl
@[simp] theorem setTherm_shafts (f : Therm → Therm) (s : State) : (setTherm f s).shafts = s.shafts := rfl
@[simp] theorem setTherm_snap (f : Therm → Therm) (s : State) : (setTherm f s).snap = s.snap := rfl
@[simp] theorem setTherm_cores (f : Therm → Therm) (s : State) : (setTherm f s).cores = s.cores := rfl
@[simp] theorem setTherm_plates (f : Therm → Therm) (s : State) : (setTherm f s).plates = s.plates := rfl
@[simp] theorem setTherm_rings (f : Therm → Therm) (s : State) : (setTherm f s).rings = s.rings := rfl
@[simp] theorem setTherm_slots (f : Therm → Therm) (s : State) : (setTherm f s).slots = s.slots := rfl
@[simp] theorem setTherm_kv (f : Therm → Therm) (s : State) : (setTherm f s).kv = s.kv := rfl
@[simp] theorem setTherm_seqr (f : Therm → Therm) (s : State) : (setTherm f s).seqr = s.seqr := rfl
@[simp] theorem setTherm_fab (f : Therm → Therm) (s : State) : (setTherm f s).fab = s.fab := rfl
@[simp] theorem setTherm_ray (f : Therm → Therm) (s : State) : (setTherm f s).ray = s.ray := rfl
@[simp] theorem setTherm_sync (f : Therm → Therm) (s : State) : (setTherm f s).sync = s.sync := rfl
@[simp] theorem setTherm_img (f : Therm → Therm) (s : State) : (setTherm f s).img = s.img := rfl
@[simp] theorem setTherm_red (f : Therm → Therm) (s : State) : (setTherm f s).red = s.red := rfl
@[simp] theorem setTherm_apt (f : Therm → Therm) (s : State) : (setTherm f s).apt = s.apt := rfl
@[simp] theorem setTherm_boot (f : Therm → Therm) (s : State) : (setTherm f s).boot = s.boot := rfl
@[simp] theorem setTherm_evacs (f : Therm → Therm) (s : State) : (setTherm f s).evacs = s.evacs := rfl
@[simp] theorem setTherm_fences (f : Therm → Therm) (s : State) : (setTherm f s).fences = s.fences := rfl
@[simp] theorem setTherm_stretch (f : Therm → Therm) (s : State) : (setTherm f s).stretch = s.stretch := rfl
@[simp] theorem setTherm_refRows (f : Therm → Therm) (s : State) : (setTherm f s).refRows = s.refRows := rfl
@[simp] theorem setTherm_refAt (f : Therm → Therm) (s : State) : (setTherm f s).refAt = s.refAt := rfl
@[simp] theorem setTherm_sec (f : Therm → Therm) (s : State) : (setTherm f s).sec = s.sec := rfl

@[simp] theorem setTune_pending (f : Tuning → Tuning) (s : State) : (setTune f s).pending = s.pending := rfl
@[simp] theorem setTune_free (f : Tuning → Tuning) (s : State) : (setTune f s).free = s.free := rfl
@[simp] theorem setTune_timebase (f : Tuning → Tuning) (s : State) : (setTune f s).timebase = s.timebase := rfl
@[simp] theorem setTune_tickBase (f : Tuning → Tuning) (s : State) : (setTune f s).tickBase = s.tickBase := rfl
@[simp] theorem setTune_regs (f : Tuning → Tuning) (s : State) : (setTune f s).regs = s.regs := rfl
@[simp] theorem setTune_rof (f : Tuning → Tuning) (s : State) : (setTune f s).rof = s.rof := rfl
@[simp] theorem setTune_view (f : Tuning → Tuning) (s : State) : (setTune f s).view = s.view := rfl
@[simp] theorem setTune_seqRof (f : Tuning → Tuning) (s : State) : (setTune f s).seqRof = s.seqRof := rfl
@[simp] theorem setTune_seqView (f : Tuning → Tuning) (s : State) : (setTune f s).seqView = s.seqView := rfl
@[simp] theorem setTune_latches (f : Tuning → Tuning) (s : State) : (setTune f s).latches = s.latches := rfl
@[simp] theorem setTune_lastEv (f : Tuning → Tuning) (s : State) : (setTune f s).lastEv = s.lastEv := rfl
@[simp] theorem setTune_acts (f : Tuning → Tuning) (s : State) : (setTune f s).acts = s.acts := rfl
@[simp] theorem setTune_late (f : Tuning → Tuning) (s : State) : (setTune f s).late = s.late := rfl
@[simp] theorem setTune_evt (f : Tuning → Tuning) (s : State) : (setTune f s).evt = s.evt := rfl
@[simp] theorem setTune_aba (f : Tuning → Tuning) (s : State) : (setTune f s).aba = s.aba := rfl
@[simp] theorem setTune_mem (f : Tuning → Tuning) (s : State) : (setTune f s).mem = s.mem := rfl
@[simp] theorem setTune_marks (f : Tuning → Tuning) (s : State) : (setTune f s).marks = s.marks := rfl
@[simp] theorem setTune_voids (f : Tuning → Tuning) (s : State) : (setTune f s).voids = s.voids := rfl
@[simp] theorem setTune_shafts (f : Tuning → Tuning) (s : State) : (setTune f s).shafts = s.shafts := rfl
@[simp] theorem setTune_snap (f : Tuning → Tuning) (s : State) : (setTune f s).snap = s.snap := rfl
@[simp] theorem setTune_cores (f : Tuning → Tuning) (s : State) : (setTune f s).cores = s.cores := rfl
@[simp] theorem setTune_plates (f : Tuning → Tuning) (s : State) : (setTune f s).plates = s.plates := rfl
@[simp] theorem setTune_rings (f : Tuning → Tuning) (s : State) : (setTune f s).rings = s.rings := rfl
@[simp] theorem setTune_slots (f : Tuning → Tuning) (s : State) : (setTune f s).slots = s.slots := rfl
@[simp] theorem setTune_kv (f : Tuning → Tuning) (s : State) : (setTune f s).kv = s.kv := rfl
@[simp] theorem setTune_seqr (f : Tuning → Tuning) (s : State) : (setTune f s).seqr = s.seqr := rfl
@[simp] theorem setTune_ray (f : Tuning → Tuning) (s : State) : (setTune f s).ray = s.ray := rfl
@[simp] theorem setTune_sync (f : Tuning → Tuning) (s : State) : (setTune f s).sync = s.sync := rfl
@[simp] theorem setTune_img (f : Tuning → Tuning) (s : State) : (setTune f s).img = s.img := rfl
@[simp] theorem setTune_red (f : Tuning → Tuning) (s : State) : (setTune f s).red = s.red := rfl
@[simp] theorem setTune_apt (f : Tuning → Tuning) (s : State) : (setTune f s).apt = s.apt := rfl
@[simp] theorem setTune_therm (f : Tuning → Tuning) (s : State) : (setTune f s).therm = s.therm := rfl
@[simp] theorem setTune_boot (f : Tuning → Tuning) (s : State) : (setTune f s).boot = s.boot := rfl
@[simp] theorem setTune_evacs (f : Tuning → Tuning) (s : State) : (setTune f s).evacs = s.evacs := rfl
@[simp] theorem setTune_fences (f : Tuning → Tuning) (s : State) : (setTune f s).fences = s.fences := rfl
@[simp] theorem setTune_stretch (f : Tuning → Tuning) (s : State) : (setTune f s).stretch = s.stretch := rfl
@[simp] theorem setTune_refRows (f : Tuning → Tuning) (s : State) : (setTune f s).refRows = s.refRows := rfl
@[simp] theorem setTune_refAt (f : Tuning → Tuning) (s : State) : (setTune f s).refAt = s.refAt := rfl
@[simp] theorem setTune_sec (f : Tuning → Tuning) (s : State) : (setTune f s).sec = s.sec := rfl

@[simp] theorem setSec_pending (f : Sec → Sec) (s : State) : (setSec f s).pending = s.pending := rfl
@[simp] theorem setSec_free (f : Sec → Sec) (s : State) : (setSec f s).free = s.free := rfl
@[simp] theorem setSec_timebase (f : Sec → Sec) (s : State) : (setSec f s).timebase = s.timebase := rfl
@[simp] theorem setSec_tickBase (f : Sec → Sec) (s : State) : (setSec f s).tickBase = s.tickBase := rfl
@[simp] theorem setSec_regs (f : Sec → Sec) (s : State) : (setSec f s).regs = s.regs := rfl
@[simp] theorem setSec_rof (f : Sec → Sec) (s : State) : (setSec f s).rof = s.rof := rfl
@[simp] theorem setSec_view (f : Sec → Sec) (s : State) : (setSec f s).view = s.view := rfl
@[simp] theorem setSec_seqRof (f : Sec → Sec) (s : State) : (setSec f s).seqRof = s.seqRof := rfl
@[simp] theorem setSec_seqView (f : Sec → Sec) (s : State) : (setSec f s).seqView = s.seqView := rfl
@[simp] theorem setSec_latches (f : Sec → Sec) (s : State) : (setSec f s).latches = s.latches := rfl
@[simp] theorem setSec_lastEv (f : Sec → Sec) (s : State) : (setSec f s).lastEv = s.lastEv := rfl
@[simp] theorem setSec_acts (f : Sec → Sec) (s : State) : (setSec f s).acts = s.acts := rfl
@[simp] theorem setSec_late (f : Sec → Sec) (s : State) : (setSec f s).late = s.late := rfl
@[simp] theorem setSec_evt (f : Sec → Sec) (s : State) : (setSec f s).evt = s.evt := rfl
@[simp] theorem setSec_aba (f : Sec → Sec) (s : State) : (setSec f s).aba = s.aba := rfl
@[simp] theorem setSec_mem (f : Sec → Sec) (s : State) : (setSec f s).mem = s.mem := rfl
@[simp] theorem setSec_marks (f : Sec → Sec) (s : State) : (setSec f s).marks = s.marks := rfl
@[simp] theorem setSec_voids (f : Sec → Sec) (s : State) : (setSec f s).voids = s.voids := rfl
@[simp] theorem setSec_shafts (f : Sec → Sec) (s : State) : (setSec f s).shafts = s.shafts := rfl
@[simp] theorem setSec_snap (f : Sec → Sec) (s : State) : (setSec f s).snap = s.snap := rfl
@[simp] theorem setSec_cores (f : Sec → Sec) (s : State) : (setSec f s).cores = s.cores := rfl
@[simp] theorem setSec_plates (f : Sec → Sec) (s : State) : (setSec f s).plates = s.plates := rfl
@[simp] theorem setSec_rings (f : Sec → Sec) (s : State) : (setSec f s).rings = s.rings := rfl
@[simp] theorem setSec_slots (f : Sec → Sec) (s : State) : (setSec f s).slots = s.slots := rfl
@[simp] theorem setSec_kv (f : Sec → Sec) (s : State) : (setSec f s).kv = s.kv := rfl
@[simp] theorem setSec_seqr (f : Sec → Sec) (s : State) : (setSec f s).seqr = s.seqr := rfl
@[simp] theorem setSec_fab (f : Sec → Sec) (s : State) : (setSec f s).fab = s.fab := rfl
@[simp] theorem setSec_ray (f : Sec → Sec) (s : State) : (setSec f s).ray = s.ray := rfl
@[simp] theorem setSec_sync (f : Sec → Sec) (s : State) : (setSec f s).sync = s.sync := rfl
@[simp] theorem setSec_img (f : Sec → Sec) (s : State) : (setSec f s).img = s.img := rfl
@[simp] theorem setSec_red (f : Sec → Sec) (s : State) : (setSec f s).red = s.red := rfl
@[simp] theorem setSec_apt (f : Sec → Sec) (s : State) : (setSec f s).apt = s.apt := rfl
@[simp] theorem setSec_therm (f : Sec → Sec) (s : State) : (setSec f s).therm = s.therm := rfl
@[simp] theorem setSec_boot (f : Sec → Sec) (s : State) : (setSec f s).boot = s.boot := rfl
@[simp] theorem setSec_evacs (f : Sec → Sec) (s : State) : (setSec f s).evacs = s.evacs := rfl
@[simp] theorem setSec_fences (f : Sec → Sec) (s : State) : (setSec f s).fences = s.fences := rfl
@[simp] theorem setSec_stretch (f : Sec → Sec) (s : State) : (setSec f s).stretch = s.stretch := rfl
@[simp] theorem setSec_refRows (f : Sec → Sec) (s : State) : (setSec f s).refRows = s.refRows := rfl
@[simp] theorem setSec_refAt (f : Sec → Sec) (s : State) : (setSec f s).refAt = s.refAt := rfl

@[simp] theorem setCtx_on (o : Core) (x : Nat) (k : Ctx) : (o.setCtx x k).on = o.on := rfl
@[simp] theorem setCtx_stopped (o : Core) (x : Nat) (k : Ctx) : (o.setCtx x k).stopped = o.stopped := rfl
@[simp] theorem setCtx_cfg (o : Core) (x : Nat) (k : Ctx) : (o.setCtx x k).cfg = o.cfg := rfl
@[simp] theorem setCtx_cyc (o : Core) (x : Nat) (k : Ctx) : (o.setCtx x k).cyc = o.cyc := rfl
@[simp] theorem setCtx_slice (o : Core) (x : Nat) (k : Ctx) : (o.setCtx x k).slice = o.slice := rfl
@[simp] theorem setCtx_sregs (o : Core) (x : Nat) (k : Ctx) : (o.setCtx x k).sregs = o.sregs := rfl
@[simp] theorem setCtx_vregs (o : Core) (x : Nat) (k : Ctx) : (o.setCtx x k).vregs = o.vregs := rfl
@[simp] theorem setCtx_mregs (o : Core) (x : Nat) (k : Ctx) : (o.setCtx x k).mregs = o.mregs := rfl
@[simp] theorem setCtx_tds (o : Core) (x : Nat) (k : Ctx) : (o.setCtx x k).tds = o.tds := rfl
@[simp] theorem setCtx_tray (o : Core) (x : Nat) (k : Ctx) : (o.setCtx x k).tray = o.tray := rfl
@[simp] theorem setCtx_store (o : Core) (x : Nat) (k : Ctx) : (o.setCtx x k).store = o.store := rfl
@[simp] theorem setCtx_cache (o : Core) (x : Nat) (k : Ctx) : (o.setCtx x k).cache = o.cache := rfl
@[simp] theorem setCtx_flights (o : Core) (x : Nat) (k : Ctx) : (o.setCtx x k).flights = o.flights := rfl
@[simp] theorem setCtx_nextId (o : Core) (x : Nat) (k : Ctx) : (o.setCtx x k).nextId = o.nextId := rfl
@[simp] theorem setCtx_shq (o : Core) (x : Nat) (k : Ctx) : (o.setCtx x k).shq = o.shq := rfl
@[simp] theorem setCtx_used (o : Core) (x : Nat) (k : Ctx) : (o.setCtx x k).used = o.used := rfl
@[simp] theorem setCtx_usedD (o : Core) (x : Nat) (k : Ctx) : (o.setCtx x k).usedD = o.usedD := rfl
@[simp] theorem setCtx_usedS (o : Core) (x : Nat) (k : Ctx) : (o.setCtx x k).usedS = o.usedS := rfl
@[simp] theorem setCtx_codeq (o : Core) (x : Nat) (k : Ctx) : (o.setCtx x k).codeq = o.codeq := rfl
@[simp] theorem setCtx_doneCyc (o : Core) (x : Nat) (k : Ctx) : (o.setCtx x k).doneCyc = o.doneCyc := rfl
@[simp] theorem setCtx_nmIssued (o : Core) (x : Nat) (k : Ctx) : (o.setCtx x k).nmIssued = o.nmIssued := rfl
@[simp] theorem setCtx_nmSlice (o : Core) (x : Nat) (k : Ctx) : (o.setCtx x k).nmSlice = o.nmSlice := rfl
@[simp] theorem setCtx_nmDone (o : Core) (x : Nat) (k : Ctx) : (o.setCtx x k).nmDone = o.nmDone := rfl
@[simp] theorem setCtx_nmTick (o : Core) (x : Nat) (k : Ctx) : (o.setCtx x k).nmTick = o.nmTick := rfl
@[simp] theorem setCtx_lastTimed (o : Core) (x : Nat) (k : Ctx) : (o.setCtx x k).lastTimed = o.lastTimed := rfl
@[simp] theorem setCtx_lastFree (o : Core) (x : Nat) (k : Ctx) : (o.setCtx x k).lastFree = o.lastFree := rfl
@[simp] theorem setCtx_reserveLeft (o : Core) (x : Nat) (k : Ctx) : (o.setCtx x k).reserveLeft = o.reserveLeft := rfl
@[simp] theorem setCtx_posted (o : Core) (x : Nat) (k : Ctx) : (o.setCtx x k).posted = o.posted := rfl
@[simp] theorem setCtx_postOrd (o : Core) (x : Nat) (k : Ctx) : (o.setCtx x k).postOrd = o.postOrd := rfl
@[simp] theorem setCtx_held (o : Core) (x : Nat) (k : Ctx) : (o.setCtx x k).held = o.held := rfl
@[simp] theorem setCtx_shadow (o : Core) (x : Nat) (k : Ctx) : (o.setCtx x k).shadow = o.shadow := rfl

@[simp] theorem setSreg_on (o : Core) (x r : Nat) (v : SReg) : (o.setSreg x r v).on = o.on := by unfold Core.setSreg; split <;> rfl
@[simp] theorem setSreg_stopped (o : Core) (x r : Nat) (v : SReg) : (o.setSreg x r v).stopped = o.stopped := by unfold Core.setSreg; split <;> rfl
@[simp] theorem setSreg_cfg (o : Core) (x r : Nat) (v : SReg) : (o.setSreg x r v).cfg = o.cfg := by unfold Core.setSreg; split <;> rfl
@[simp] theorem setSreg_cyc (o : Core) (x r : Nat) (v : SReg) : (o.setSreg x r v).cyc = o.cyc := by unfold Core.setSreg; split <;> rfl
@[simp] theorem setSreg_slice (o : Core) (x r : Nat) (v : SReg) : (o.setSreg x r v).slice = o.slice := by unfold Core.setSreg; split <;> rfl
@[simp] theorem setSreg_ctxs (o : Core) (x r : Nat) (v : SReg) : (o.setSreg x r v).ctxs = o.ctxs := by unfold Core.setSreg; split <;> rfl
@[simp] theorem setSreg_vregs (o : Core) (x r : Nat) (v : SReg) : (o.setSreg x r v).vregs = o.vregs := by unfold Core.setSreg; split <;> rfl
@[simp] theorem setSreg_mregs (o : Core) (x r : Nat) (v : SReg) : (o.setSreg x r v).mregs = o.mregs := by unfold Core.setSreg; split <;> rfl
@[simp] theorem setSreg_tds (o : Core) (x r : Nat) (v : SReg) : (o.setSreg x r v).tds = o.tds := by unfold Core.setSreg; split <;> rfl
@[simp] theorem setSreg_tray (o : Core) (x r : Nat) (v : SReg) : (o.setSreg x r v).tray = o.tray := by unfold Core.setSreg; split <;> rfl
@[simp] theorem setSreg_store (o : Core) (x r : Nat) (v : SReg) : (o.setSreg x r v).store = o.store := by unfold Core.setSreg; split <;> rfl
@[simp] theorem setSreg_cache (o : Core) (x r : Nat) (v : SReg) : (o.setSreg x r v).cache = o.cache := by unfold Core.setSreg; split <;> rfl
@[simp] theorem setSreg_flights (o : Core) (x r : Nat) (v : SReg) : (o.setSreg x r v).flights = o.flights := by unfold Core.setSreg; split <;> rfl
@[simp] theorem setSreg_nextId (o : Core) (x r : Nat) (v : SReg) : (o.setSreg x r v).nextId = o.nextId := by unfold Core.setSreg; split <;> rfl
@[simp] theorem setSreg_shq (o : Core) (x r : Nat) (v : SReg) : (o.setSreg x r v).shq = o.shq := by unfold Core.setSreg; split <;> rfl
@[simp] theorem setSreg_used (o : Core) (x r : Nat) (v : SReg) : (o.setSreg x r v).used = o.used := by unfold Core.setSreg; split <;> rfl
@[simp] theorem setSreg_usedD (o : Core) (x r : Nat) (v : SReg) : (o.setSreg x r v).usedD = o.usedD := by unfold Core.setSreg; split <;> rfl
@[simp] theorem setSreg_usedS (o : Core) (x r : Nat) (v : SReg) : (o.setSreg x r v).usedS = o.usedS := by unfold Core.setSreg; split <;> rfl
@[simp] theorem setSreg_codeq (o : Core) (x r : Nat) (v : SReg) : (o.setSreg x r v).codeq = o.codeq := by unfold Core.setSreg; split <;> rfl
@[simp] theorem setSreg_doneCyc (o : Core) (x r : Nat) (v : SReg) : (o.setSreg x r v).doneCyc = o.doneCyc := by unfold Core.setSreg; split <;> rfl
@[simp] theorem setSreg_nmIssued (o : Core) (x r : Nat) (v : SReg) : (o.setSreg x r v).nmIssued = o.nmIssued := by unfold Core.setSreg; split <;> rfl
@[simp] theorem setSreg_nmSlice (o : Core) (x r : Nat) (v : SReg) : (o.setSreg x r v).nmSlice = o.nmSlice := by unfold Core.setSreg; split <;> rfl
@[simp] theorem setSreg_nmDone (o : Core) (x r : Nat) (v : SReg) : (o.setSreg x r v).nmDone = o.nmDone := by unfold Core.setSreg; split <;> rfl
@[simp] theorem setSreg_nmTick (o : Core) (x r : Nat) (v : SReg) : (o.setSreg x r v).nmTick = o.nmTick := by unfold Core.setSreg; split <;> rfl
@[simp] theorem setSreg_lastTimed (o : Core) (x r : Nat) (v : SReg) : (o.setSreg x r v).lastTimed = o.lastTimed := by unfold Core.setSreg; split <;> rfl
@[simp] theorem setSreg_lastFree (o : Core) (x r : Nat) (v : SReg) : (o.setSreg x r v).lastFree = o.lastFree := by unfold Core.setSreg; split <;> rfl
@[simp] theorem setSreg_reserveLeft (o : Core) (x r : Nat) (v : SReg) : (o.setSreg x r v).reserveLeft = o.reserveLeft := by unfold Core.setSreg; split <;> rfl
@[simp] theorem setSreg_posted (o : Core) (x r : Nat) (v : SReg) : (o.setSreg x r v).posted = o.posted := by unfold Core.setSreg; split <;> rfl
@[simp] theorem setSreg_postOrd (o : Core) (x r : Nat) (v : SReg) : (o.setSreg x r v).postOrd = o.postOrd := by unfold Core.setSreg; split <;> rfl
@[simp] theorem setSreg_held (o : Core) (x r : Nat) (v : SReg) : (o.setSreg x r v).held = o.held := by unfold Core.setSreg; split <;> rfl
@[simp] theorem setSreg_shadow (o : Core) (x r : Nat) (v : SReg) : (o.setSreg x r v).shadow = o.shadow := by unfold Core.setSreg; split <;> rfl

@[simp] theorem setVreg_on (o : Core) (x r : Nat) (v : Slot) : (o.setVreg x r v).on = o.on := rfl
@[simp] theorem setVreg_stopped (o : Core) (x r : Nat) (v : Slot) : (o.setVreg x r v).stopped = o.stopped := rfl
@[simp] theorem setVreg_cfg (o : Core) (x r : Nat) (v : Slot) : (o.setVreg x r v).cfg = o.cfg := rfl
@[simp] theorem setVreg_cyc (o : Core) (x r : Nat) (v : Slot) : (o.setVreg x r v).cyc = o.cyc := rfl
@[simp] theorem setVreg_slice (o : Core) (x r : Nat) (v : Slot) : (o.setVreg x r v).slice = o.slice := rfl
@[simp] theorem setVreg_ctxs (o : Core) (x r : Nat) (v : Slot) : (o.setVreg x r v).ctxs = o.ctxs := rfl
@[simp] theorem setVreg_sregs (o : Core) (x r : Nat) (v : Slot) : (o.setVreg x r v).sregs = o.sregs := rfl
@[simp] theorem setVreg_mregs (o : Core) (x r : Nat) (v : Slot) : (o.setVreg x r v).mregs = o.mregs := rfl
@[simp] theorem setVreg_tds (o : Core) (x r : Nat) (v : Slot) : (o.setVreg x r v).tds = o.tds := rfl
@[simp] theorem setVreg_tray (o : Core) (x r : Nat) (v : Slot) : (o.setVreg x r v).tray = o.tray := rfl
@[simp] theorem setVreg_store (o : Core) (x r : Nat) (v : Slot) : (o.setVreg x r v).store = o.store := rfl
@[simp] theorem setVreg_cache (o : Core) (x r : Nat) (v : Slot) : (o.setVreg x r v).cache = o.cache := rfl
@[simp] theorem setVreg_flights (o : Core) (x r : Nat) (v : Slot) : (o.setVreg x r v).flights = o.flights := rfl
@[simp] theorem setVreg_nextId (o : Core) (x r : Nat) (v : Slot) : (o.setVreg x r v).nextId = o.nextId := rfl
@[simp] theorem setVreg_shq (o : Core) (x r : Nat) (v : Slot) : (o.setVreg x r v).shq = o.shq := rfl
@[simp] theorem setVreg_used (o : Core) (x r : Nat) (v : Slot) : (o.setVreg x r v).used = o.used := rfl
@[simp] theorem setVreg_usedD (o : Core) (x r : Nat) (v : Slot) : (o.setVreg x r v).usedD = o.usedD := rfl
@[simp] theorem setVreg_usedS (o : Core) (x r : Nat) (v : Slot) : (o.setVreg x r v).usedS = o.usedS := rfl
@[simp] theorem setVreg_codeq (o : Core) (x r : Nat) (v : Slot) : (o.setVreg x r v).codeq = o.codeq := rfl
@[simp] theorem setVreg_doneCyc (o : Core) (x r : Nat) (v : Slot) : (o.setVreg x r v).doneCyc = o.doneCyc := rfl
@[simp] theorem setVreg_nmIssued (o : Core) (x r : Nat) (v : Slot) : (o.setVreg x r v).nmIssued = o.nmIssued := rfl
@[simp] theorem setVreg_nmSlice (o : Core) (x r : Nat) (v : Slot) : (o.setVreg x r v).nmSlice = o.nmSlice := rfl
@[simp] theorem setVreg_nmDone (o : Core) (x r : Nat) (v : Slot) : (o.setVreg x r v).nmDone = o.nmDone := rfl
@[simp] theorem setVreg_nmTick (o : Core) (x r : Nat) (v : Slot) : (o.setVreg x r v).nmTick = o.nmTick := rfl
@[simp] theorem setVreg_lastTimed (o : Core) (x r : Nat) (v : Slot) : (o.setVreg x r v).lastTimed = o.lastTimed := rfl
@[simp] theorem setVreg_lastFree (o : Core) (x r : Nat) (v : Slot) : (o.setVreg x r v).lastFree = o.lastFree := rfl
@[simp] theorem setVreg_reserveLeft (o : Core) (x r : Nat) (v : Slot) : (o.setVreg x r v).reserveLeft = o.reserveLeft := rfl
@[simp] theorem setVreg_posted (o : Core) (x r : Nat) (v : Slot) : (o.setVreg x r v).posted = o.posted := rfl
@[simp] theorem setVreg_postOrd (o : Core) (x r : Nat) (v : Slot) : (o.setVreg x r v).postOrd = o.postOrd := rfl
@[simp] theorem setVreg_held (o : Core) (x r : Nat) (v : Slot) : (o.setVreg x r v).held = o.held := rfl
@[simp] theorem setVreg_shadow (o : Core) (x r : Nat) (v : Slot) : (o.setVreg x r v).shadow = o.shadow := rfl

@[simp] theorem setMreg_on (o : Core) (x m : Nat) (v : MReg) : (o.setMreg x m v).on = o.on := by unfold Core.setMreg; split <;> rfl
@[simp] theorem setMreg_stopped (o : Core) (x m : Nat) (v : MReg) : (o.setMreg x m v).stopped = o.stopped := by unfold Core.setMreg; split <;> rfl
@[simp] theorem setMreg_cfg (o : Core) (x m : Nat) (v : MReg) : (o.setMreg x m v).cfg = o.cfg := by unfold Core.setMreg; split <;> rfl
@[simp] theorem setMreg_cyc (o : Core) (x m : Nat) (v : MReg) : (o.setMreg x m v).cyc = o.cyc := by unfold Core.setMreg; split <;> rfl
@[simp] theorem setMreg_slice (o : Core) (x m : Nat) (v : MReg) : (o.setMreg x m v).slice = o.slice := by unfold Core.setMreg; split <;> rfl
@[simp] theorem setMreg_ctxs (o : Core) (x m : Nat) (v : MReg) : (o.setMreg x m v).ctxs = o.ctxs := by unfold Core.setMreg; split <;> rfl
@[simp] theorem setMreg_sregs (o : Core) (x m : Nat) (v : MReg) : (o.setMreg x m v).sregs = o.sregs := by unfold Core.setMreg; split <;> rfl
@[simp] theorem setMreg_vregs (o : Core) (x m : Nat) (v : MReg) : (o.setMreg x m v).vregs = o.vregs := by unfold Core.setMreg; split <;> rfl
@[simp] theorem setMreg_tds (o : Core) (x m : Nat) (v : MReg) : (o.setMreg x m v).tds = o.tds := by unfold Core.setMreg; split <;> rfl
@[simp] theorem setMreg_tray (o : Core) (x m : Nat) (v : MReg) : (o.setMreg x m v).tray = o.tray := by unfold Core.setMreg; split <;> rfl
@[simp] theorem setMreg_store (o : Core) (x m : Nat) (v : MReg) : (o.setMreg x m v).store = o.store := by unfold Core.setMreg; split <;> rfl
@[simp] theorem setMreg_cache (o : Core) (x m : Nat) (v : MReg) : (o.setMreg x m v).cache = o.cache := by unfold Core.setMreg; split <;> rfl
@[simp] theorem setMreg_flights (o : Core) (x m : Nat) (v : MReg) : (o.setMreg x m v).flights = o.flights := by unfold Core.setMreg; split <;> rfl
@[simp] theorem setMreg_nextId (o : Core) (x m : Nat) (v : MReg) : (o.setMreg x m v).nextId = o.nextId := by unfold Core.setMreg; split <;> rfl
@[simp] theorem setMreg_shq (o : Core) (x m : Nat) (v : MReg) : (o.setMreg x m v).shq = o.shq := by unfold Core.setMreg; split <;> rfl
@[simp] theorem setMreg_used (o : Core) (x m : Nat) (v : MReg) : (o.setMreg x m v).used = o.used := by unfold Core.setMreg; split <;> rfl
@[simp] theorem setMreg_usedD (o : Core) (x m : Nat) (v : MReg) : (o.setMreg x m v).usedD = o.usedD := by unfold Core.setMreg; split <;> rfl
@[simp] theorem setMreg_usedS (o : Core) (x m : Nat) (v : MReg) : (o.setMreg x m v).usedS = o.usedS := by unfold Core.setMreg; split <;> rfl
@[simp] theorem setMreg_codeq (o : Core) (x m : Nat) (v : MReg) : (o.setMreg x m v).codeq = o.codeq := by unfold Core.setMreg; split <;> rfl
@[simp] theorem setMreg_doneCyc (o : Core) (x m : Nat) (v : MReg) : (o.setMreg x m v).doneCyc = o.doneCyc := by unfold Core.setMreg; split <;> rfl
@[simp] theorem setMreg_nmIssued (o : Core) (x m : Nat) (v : MReg) : (o.setMreg x m v).nmIssued = o.nmIssued := by unfold Core.setMreg; split <;> rfl
@[simp] theorem setMreg_nmSlice (o : Core) (x m : Nat) (v : MReg) : (o.setMreg x m v).nmSlice = o.nmSlice := by unfold Core.setMreg; split <;> rfl
@[simp] theorem setMreg_nmDone (o : Core) (x m : Nat) (v : MReg) : (o.setMreg x m v).nmDone = o.nmDone := by unfold Core.setMreg; split <;> rfl
@[simp] theorem setMreg_nmTick (o : Core) (x m : Nat) (v : MReg) : (o.setMreg x m v).nmTick = o.nmTick := by unfold Core.setMreg; split <;> rfl
@[simp] theorem setMreg_lastTimed (o : Core) (x m : Nat) (v : MReg) : (o.setMreg x m v).lastTimed = o.lastTimed := by unfold Core.setMreg; split <;> rfl
@[simp] theorem setMreg_lastFree (o : Core) (x m : Nat) (v : MReg) : (o.setMreg x m v).lastFree = o.lastFree := by unfold Core.setMreg; split <;> rfl
@[simp] theorem setMreg_reserveLeft (o : Core) (x m : Nat) (v : MReg) : (o.setMreg x m v).reserveLeft = o.reserveLeft := by unfold Core.setMreg; split <;> rfl
@[simp] theorem setMreg_posted (o : Core) (x m : Nat) (v : MReg) : (o.setMreg x m v).posted = o.posted := by unfold Core.setMreg; split <;> rfl
@[simp] theorem setMreg_postOrd (o : Core) (x m : Nat) (v : MReg) : (o.setMreg x m v).postOrd = o.postOrd := by unfold Core.setMreg; split <;> rfl
@[simp] theorem setMreg_held (o : Core) (x m : Nat) (v : MReg) : (o.setMreg x m v).held = o.held := by unfold Core.setMreg; split <;> rfl
@[simp] theorem setMreg_shadow (o : Core) (x m : Nat) (v : MReg) : (o.setMreg x m v).shadow = o.shadow := by unfold Core.setMreg; split <;> rfl

@[simp] theorem setTd_on (o : Core) (x t : Nat) (v : BitVec 128) : (o.setTd x t v).on = o.on := rfl
@[simp] theorem setTd_stopped (o : Core) (x t : Nat) (v : BitVec 128) : (o.setTd x t v).stopped = o.stopped := rfl
@[simp] theorem setTd_cfg (o : Core) (x t : Nat) (v : BitVec 128) : (o.setTd x t v).cfg = o.cfg := rfl
@[simp] theorem setTd_cyc (o : Core) (x t : Nat) (v : BitVec 128) : (o.setTd x t v).cyc = o.cyc := rfl
@[simp] theorem setTd_slice (o : Core) (x t : Nat) (v : BitVec 128) : (o.setTd x t v).slice = o.slice := rfl
@[simp] theorem setTd_ctxs (o : Core) (x t : Nat) (v : BitVec 128) : (o.setTd x t v).ctxs = o.ctxs := rfl
@[simp] theorem setTd_sregs (o : Core) (x t : Nat) (v : BitVec 128) : (o.setTd x t v).sregs = o.sregs := rfl
@[simp] theorem setTd_vregs (o : Core) (x t : Nat) (v : BitVec 128) : (o.setTd x t v).vregs = o.vregs := rfl
@[simp] theorem setTd_mregs (o : Core) (x t : Nat) (v : BitVec 128) : (o.setTd x t v).mregs = o.mregs := rfl
@[simp] theorem setTd_tray (o : Core) (x t : Nat) (v : BitVec 128) : (o.setTd x t v).tray = o.tray := rfl
@[simp] theorem setTd_store (o : Core) (x t : Nat) (v : BitVec 128) : (o.setTd x t v).store = o.store := rfl
@[simp] theorem setTd_cache (o : Core) (x t : Nat) (v : BitVec 128) : (o.setTd x t v).cache = o.cache := rfl
@[simp] theorem setTd_flights (o : Core) (x t : Nat) (v : BitVec 128) : (o.setTd x t v).flights = o.flights := rfl
@[simp] theorem setTd_nextId (o : Core) (x t : Nat) (v : BitVec 128) : (o.setTd x t v).nextId = o.nextId := rfl
@[simp] theorem setTd_shq (o : Core) (x t : Nat) (v : BitVec 128) : (o.setTd x t v).shq = o.shq := rfl
@[simp] theorem setTd_used (o : Core) (x t : Nat) (v : BitVec 128) : (o.setTd x t v).used = o.used := rfl
@[simp] theorem setTd_usedD (o : Core) (x t : Nat) (v : BitVec 128) : (o.setTd x t v).usedD = o.usedD := rfl
@[simp] theorem setTd_usedS (o : Core) (x t : Nat) (v : BitVec 128) : (o.setTd x t v).usedS = o.usedS := rfl
@[simp] theorem setTd_codeq (o : Core) (x t : Nat) (v : BitVec 128) : (o.setTd x t v).codeq = o.codeq := rfl
@[simp] theorem setTd_doneCyc (o : Core) (x t : Nat) (v : BitVec 128) : (o.setTd x t v).doneCyc = o.doneCyc := rfl
@[simp] theorem setTd_nmIssued (o : Core) (x t : Nat) (v : BitVec 128) : (o.setTd x t v).nmIssued = o.nmIssued := rfl
@[simp] theorem setTd_nmSlice (o : Core) (x t : Nat) (v : BitVec 128) : (o.setTd x t v).nmSlice = o.nmSlice := rfl
@[simp] theorem setTd_nmDone (o : Core) (x t : Nat) (v : BitVec 128) : (o.setTd x t v).nmDone = o.nmDone := rfl
@[simp] theorem setTd_nmTick (o : Core) (x t : Nat) (v : BitVec 128) : (o.setTd x t v).nmTick = o.nmTick := rfl
@[simp] theorem setTd_lastTimed (o : Core) (x t : Nat) (v : BitVec 128) : (o.setTd x t v).lastTimed = o.lastTimed := rfl
@[simp] theorem setTd_lastFree (o : Core) (x t : Nat) (v : BitVec 128) : (o.setTd x t v).lastFree = o.lastFree := rfl
@[simp] theorem setTd_reserveLeft (o : Core) (x t : Nat) (v : BitVec 128) : (o.setTd x t v).reserveLeft = o.reserveLeft := rfl
@[simp] theorem setTd_posted (o : Core) (x t : Nat) (v : BitVec 128) : (o.setTd x t v).posted = o.posted := rfl
@[simp] theorem setTd_postOrd (o : Core) (x t : Nat) (v : BitVec 128) : (o.setTd x t v).postOrd = o.postOrd := rfl
@[simp] theorem setTd_held (o : Core) (x t : Nat) (v : BitVec 128) : (o.setTd x t v).held = o.held := rfl
@[simp] theorem setTd_shadow (o : Core) (x t : Nat) (v : BitVec 128) : (o.setTd x t v).shadow = o.shadow := rfl

@[simp] theorem setLine_on (o : Core) (l : Nat) (v : Slot) : (o.setLine l v).on = o.on := rfl
@[simp] theorem setLine_stopped (o : Core) (l : Nat) (v : Slot) : (o.setLine l v).stopped = o.stopped := rfl
@[simp] theorem setLine_cfg (o : Core) (l : Nat) (v : Slot) : (o.setLine l v).cfg = o.cfg := rfl
@[simp] theorem setLine_cyc (o : Core) (l : Nat) (v : Slot) : (o.setLine l v).cyc = o.cyc := rfl
@[simp] theorem setLine_slice (o : Core) (l : Nat) (v : Slot) : (o.setLine l v).slice = o.slice := rfl
@[simp] theorem setLine_ctxs (o : Core) (l : Nat) (v : Slot) : (o.setLine l v).ctxs = o.ctxs := rfl
@[simp] theorem setLine_sregs (o : Core) (l : Nat) (v : Slot) : (o.setLine l v).sregs = o.sregs := rfl
@[simp] theorem setLine_vregs (o : Core) (l : Nat) (v : Slot) : (o.setLine l v).vregs = o.vregs := rfl
@[simp] theorem setLine_mregs (o : Core) (l : Nat) (v : Slot) : (o.setLine l v).mregs = o.mregs := rfl
@[simp] theorem setLine_tds (o : Core) (l : Nat) (v : Slot) : (o.setLine l v).tds = o.tds := rfl
@[simp] theorem setLine_store (o : Core) (l : Nat) (v : Slot) : (o.setLine l v).store = o.store := rfl
@[simp] theorem setLine_cache (o : Core) (l : Nat) (v : Slot) : (o.setLine l v).cache = o.cache := rfl
@[simp] theorem setLine_flights (o : Core) (l : Nat) (v : Slot) : (o.setLine l v).flights = o.flights := rfl
@[simp] theorem setLine_nextId (o : Core) (l : Nat) (v : Slot) : (o.setLine l v).nextId = o.nextId := rfl
@[simp] theorem setLine_shq (o : Core) (l : Nat) (v : Slot) : (o.setLine l v).shq = o.shq := rfl
@[simp] theorem setLine_used (o : Core) (l : Nat) (v : Slot) : (o.setLine l v).used = o.used := rfl
@[simp] theorem setLine_usedD (o : Core) (l : Nat) (v : Slot) : (o.setLine l v).usedD = o.usedD := rfl
@[simp] theorem setLine_usedS (o : Core) (l : Nat) (v : Slot) : (o.setLine l v).usedS = o.usedS := rfl
@[simp] theorem setLine_codeq (o : Core) (l : Nat) (v : Slot) : (o.setLine l v).codeq = o.codeq := rfl
@[simp] theorem setLine_doneCyc (o : Core) (l : Nat) (v : Slot) : (o.setLine l v).doneCyc = o.doneCyc := rfl
@[simp] theorem setLine_nmIssued (o : Core) (l : Nat) (v : Slot) : (o.setLine l v).nmIssued = o.nmIssued := rfl
@[simp] theorem setLine_nmSlice (o : Core) (l : Nat) (v : Slot) : (o.setLine l v).nmSlice = o.nmSlice := rfl
@[simp] theorem setLine_nmDone (o : Core) (l : Nat) (v : Slot) : (o.setLine l v).nmDone = o.nmDone := rfl
@[simp] theorem setLine_nmTick (o : Core) (l : Nat) (v : Slot) : (o.setLine l v).nmTick = o.nmTick := rfl
@[simp] theorem setLine_lastTimed (o : Core) (l : Nat) (v : Slot) : (o.setLine l v).lastTimed = o.lastTimed := rfl
@[simp] theorem setLine_lastFree (o : Core) (l : Nat) (v : Slot) : (o.setLine l v).lastFree = o.lastFree := rfl
@[simp] theorem setLine_reserveLeft (o : Core) (l : Nat) (v : Slot) : (o.setLine l v).reserveLeft = o.reserveLeft := rfl
@[simp] theorem setLine_posted (o : Core) (l : Nat) (v : Slot) : (o.setLine l v).posted = o.posted := rfl
@[simp] theorem setLine_postOrd (o : Core) (l : Nat) (v : Slot) : (o.setLine l v).postOrd = o.postOrd := rfl
@[simp] theorem setLine_held (o : Core) (l : Nat) (v : Slot) : (o.setLine l v).held = o.held := rfl
@[simp] theorem setLine_shadow (o : Core) (l : Nat) (v : Slot) : (o.setLine l v).shadow = o.shadow := rfl

end Sys2Proof.Machine
end

