-- ==== Sys2Proof/WellFormed.lean ====
section
/-! DEFINITION. Which commands are well formed: the operands that their types leave wider than the spec does lie in range.
What the spec itself answers (a packet's layout, a status, a violation) is well formed and has its effect. -/
namespace Sys2Proof

open Machine

/-- Memory errors lie at shaft addresses (07 R221). -/
def errsWf (l : List GErr) : Bool := l.all (fun e => decide (e.addr < 2 ^ 29))

/-- A cycle of an exposure (01 R16). -/
def cycWf (cyc : Nat) : Bool := decide (cyc < 3318)

/-- A time in an exposure in ns (01 R17). -/
def timeWf (t : Nat) : Bool := decide (t < 8000)

/-- The energies measured name each domain once (16 R457). -/
def energyWf (l : List (DomainId × Nat)) : Bool := decide ((l.map (fun x => x.1)).Nodup)
def envWf (e : TickEnv) : Bool := energyWf e.energy

/-- A page of the register window (21 R539). -/
def pageWf (pg inst : Nat) : Bool :=
  match Machine.Pg.ofNum pg with
  | some q => decide (inst < q.count)
  | none => false

/-- A sensor number of a tower (17 R472). -/
def sensorWf (i : Nat) : Bool := decide (i < 116)

/-- A list with one value for each of `n` units. -/
def lenWf {α : Type} (n : Nat) (l : List α) : Bool := decide (l.length = n)

/-- A handle index (09 R275). -/
def handleWf (i : Nat) : Bool := decide (i < 262144)

/-- Outcomes of a checker batch (07 R237). -/
def batchWf (n : Nat) : Bool := decide (n ≤ 1024)

/-- What a test unit finds: at most 7 phases of a region (16 R460). -/
def unitWf (r : UnitRes) : Bool := decide (r.phases ≤ 7)

/-- Fused maximum stops are stops (16 R448). -/
def fusesWf (f : Fuses) : Bool := f.stops.all (fun x => decide (x.2 ≤ 8))

/-- A Ray flit of a type, or one whose TYPE is reserved (11 R326, R350). -/
def flitWf (t : Nat) (w : RayWords) : Bool := decide (w.type = t) || decide (11 ≤ w.type)

/-- A flit of the Abaes link of a type, or one that no packet to the device has (15 R433, R442). -/
def abaWf (t : Nat) (w : RayWords) : Bool := decide (w.abaType = t) || [2, 5, 6, 7, 9].contains w.abaType || decide (14 ≤ w.abaType)

/-- The data of a packet are those of its data flits, as many as its descriptor says (15 R433, R434). -/
def packetWf (t : Nat) (w : RayWords) (more : List RayWords) (data : List Byte) : Bool :=
  abaWf t w && decide (more.length = ceilDiv data.length 128) && decide (data.length = descLen w)
    && decide (data = packetBytes more data.length)

/-- A command is well formed; one whose operands the types bound is. -/
def Instr.wf : Instr → Bool
  | .tick env => envWf env
  | .shutterEdge _ _ env => envWf env
  | .bundleIssue _ cyc _ => cycWf cyc
  | .operationComplete _ _ errs => errsWf errs
  | .shaftLoadLand _ errs => errsWf errs
  | .hostSlot _ errs => errsWf errs
  | .nmChunkEnd _ _ errs => errsWf errs
  | .nmWrite _ _ errs => errsWf errs
  | .racc _ _ errs => errsWf errs
  | .xacc _ _ errs => errsWf errs
  | .scrubRead _ _ err => errsWf err.toList
  | .nmChunkStart _ _ t => timeWf t
  | .routeEntry _ idx => decide (idx < 4096)
  | .rayData _ h d => flitWf 0 ⟨h, d⟩
  | .rayEmpty _ w => flitWf 1 w
  | .arrDesc _ h d => flitWf 2 ⟨h, d⟩
  | .arrData _ h d => flitWf 3 ⟨h, d⟩
  | .epochMark _ w _ _ => flitWf 4 w
  | .rayCredit _ w => flitWf 5 w
  | .redSeal x _ _ _ => flitWf 6 x.words
  | .redRoster x _ => flitWf 6 x.words
  | .redPull x _ => flitWf 6 x.words
  | .redCheck x _ _ _ => flitWf 6 x.words
  | .redVerdict x _ _ => flitWf 6 x.words
  | .capNotice x _ _ => flitWf 6 x.words
  | .cleared x _ _ => flitWf 6 x.words
  | .parDone x _ _ => flitWf 6 x.words
  | .parCommit x _ => flitWf 6 x.words
  | .rebuild x _ => flitWf 6 x.words
  | .rayAckOnly _ w => flitWf 7 w
  | .rayNak _ h a b => flitWf 8 ⟨h, b ++ a⟩
  | .rayReplayReq _ h d => flitWf 9 ⟨h, d⟩
  | .beacon _ w _ => flitWf 10 w
  | .regRd w more tag addr n => abaWf 0 w && more.isEmpty && decide (tag.toNat = descTag w) && decide (addr.toNat = descAddr w % 2 ^ 26)
    && decide (n = descWords w)
  | .regWr w more tag addr data => abaWf 1 w && more.isEmpty && decide (tag.toNat = descTag w)
    && decide (addr.toNat = descAddr w % 2 ^ 26) && decide (data = (upFrom 0 (descWords w)).map (fun i => BitVec.ofNat 32 (descField w (256 + 32 * i) 32)))
  | .memRd w more tag core addr n => abaWf 3 w && more.isEmpty && decide (tag.toNat = descTag w) && decide (core = descCore w)
    && decide (addr.toNat = descAddr w) && decide (n = descLen w)
  | .memWr w more tag core addr data => packetWf 4 w more data && decide (tag.toNat = descTag w) && decide (core = descCore w)
    && decide (addr.toNat = descAddr w)
  | .dmaCpl f tag status data => packetWf 8 f.1 f.2 data && decide (tag.toNat = descTag f.1) && decide (status = descStatus f.1)
  | .abaCredit w => abaWf 10 w
  | .abaAckOnly w => abaWf 11 w
  | .abaNak w => abaWf 12 w
  | .abaReplayReq w first => abaWf 13 w && decide (first.toNat = descField w 0 12)
  | .checkerBatch _ d r => batchWf d && batchWf r
  | .copyOnWriteSwitch idx => handleWf idx
  | .sensorRead _ vals => lenWf 116 vals
  | .shadowCompute _ energy => energyWf energy
  | .backgroundCopy x => errsWf x.2
  | .telemetrySample smp => lenWf 106 smp.avg && lenWf 106 smp.peak
  | .thermtrip _ n => sensorWf n
  | .bootFuse f => fusesWf f
  | .testUnit res => unitWf res
  | .eventForce pg inst _ => pageWf pg inst
  | .softReset pg inst => pageWf pg inst
  | .pageLock pg inst => pageWf pg inst
  | .pageApply pg inst _ => pageWf pg inst
  | .nmAdd _ a => errsWf a.errs
  | .nmMul _ a => errsWf a.errs
  | .fma _ a => errsWf a.errs
  | .axpby _ a => errsWf a.errs
  | .scale _ a => errsWf a.errs
  | .nmMax _ a => errsWf a.errs
  | .nmMin _ a => errsWf a.errs
  | .cmplt _ a => errsWf a.errs
  | .cmpeq _ a => errsWf a.errs
  | .nmXor _ a => errsWf a.errs
  | .nmFill _ a => errsWf a.errs
  | .nmCopy _ a => errsWf a.errs
  | .relu _ a => errsWf a.errs
  | .gelu _ a => errsWf a.errs
  | .silu _ a => errsWf a.errs
  | .nmCvt _ a => errsWf a.errs
  | .setlayout _ a => errsWf a.errs
  | .plane _ a => errsWf a.errs
  | .unplane _ a => errsWf a.errs
  | .padd _ a => errsWf a.errs
  | .psub _ a => errsWf a.errs
  | .pcmplt _ a => errsWf a.errs
  | .pcmplti _ a => errsWf a.errs
  | .pand _ a => errsWf a.errs
  | .por _ a => errsWf a.errs
  | .pxor _ a => errsWf a.errs
  | .pcount _ a => errsWf a.errs
  | _ => true

end Sys2Proof
end

