-- ==== Sys2Proof/Tests/Slice0.lean ====
section
/-! SUPPORT. The model's own tests: the checks of well-formed commands, one step of some commands with the results that the
spec gives, and for each statement states and operands that meet its hypotheses together. -/
namespace Sys2Proof.Tests
open Sys2Proof Sys2Proof.Machine
set_option Elab.async false
set_option synthInstance.maxSize 2000
set_option synthInstance.maxHeartbeats 200000

/-! ### Small states -/

/-- The state that a command answers. -/
def after (i : Instr) (s : State) : State :=
  match exec i s with
  | .next t => t
  | _ => s

/-- The reset state with registers written. -/
def regs (l : List (Fld × Nat × Nat)) : State := l.foldl (fun s w => wr w.1 w.2.1 w.2.2 s) State.reset

/-- The reset state with the device in service. -/
def serving : State := regs [(R.BOOT_STAT_STATE, 0, 7)]

/-- The bundle that a test core holds at index 0 and at index 1. -/
def storeWith (a b : Nat) : SMap BWord := [(0, ⟨BitVec.ofNat 128 a, false⟩), (1, ⟨BitVec.ofNat 128 b, false⟩)]

/-- A lit core in its first cycle, with timed contexts `timed` and all cubes free. -/
def lit (timed : Nat) : Core :=
  { Core.idle with on := true, ctxs := [(0, ⟨0, .run, .none, 0, 0, [], 0, 0⟩), (1, ⟨0, .run, .none, 0, 0, [], 0, 0⟩)],
                   cfg := { CoreCfg.none with timed := timed, cycles := 1000, bd := 100000, bs := 100000, requests := 8, k := 2, g := 2000 } }

/-- The reset state with core 0 as given. -/
def withCore (o : Core) : State := State.reset.setCore 0 o

/-- The device in service after a purge of its memory, so that all of it reads as 0 (20 R531). -/
def purged : State := { serving with voids := [⟨0, memTop, false, none⟩] }

/-- A plate image with nothing in it. -/
def blank : Image :=
  { loose := false, training := false, mirel := false, hostSlot := false, regions := 1, floor := 0, period := 1, retakeStep := 0,
    snapReserve := 0, retakeReserve := 0, routeSets := 1, looseM := 0, looseBase := 0, resultCore := 0, bundles := 0, constLines := 0,
    argLine := 0, entries := 1, shelf := 0, recs := [], cores := [], code := [], consts := [], maps := [], starts := [[]], routes := [],
    streams := [], tables := [], seamBudget := [], brgBudget := [], layers := [], holes := [], ledger := [], hops := [], brgNeed := [], brgUse := [], rayNeed := [] }

/-- A job under way, of the first entry of ring 0. -/
def running : Job :=
  { tag := 7, entry := 0, slot := none, seq := 0, seed := 0, args := 0, ring := 0, idx := 0, fill := 0, begun := true, written := 0, ready := true,
    slices := 0, from_ := 0, stops := [], first := none, stopping := none }

/-- A Ray flit with a good CRC: type, class, sequence number, stream, tag and credits, and its payload. -/
def flitW (t cls seq stream tag crd pay : Nat) : RayWords :=
  withCrc (t + cls * 2 ^ 4 + seq * 2 ^ 8 + stream * 2 ^ 32 + tag * 2 ^ 37 + crd * 2 ^ 41) pay

/-- Port 17 is UP, in a role. -/
def linkUp (role : Nat) (s : State) : State := wr R.RAY_STAT_STATE 17 2 (wr R.RAY_CTRL_ROLE 17 role s)

/-- The reset state with plate 0 as given. -/
def withPlate (k : Plate) (s : State) : State := s.setPlate 0 k

/-! ### Witnesses: the scalar slot -/

/-- A free context, with s1 = 5 EARLY, s2 = 8, s3 = 6 (no multiple of 4), line 0 FULL and line 1 EMPTY. -/
def scalarCore : Core :=
  { lit 0 with sregs := [(1, ⟨5, true, false⟩), (2, ⟨8, false, false⟩), (3, ⟨6, false, false⟩)], tray := [(0, ⟨7, .full, false⟩)] }

theorem can_scalar : CanIssue 0 0 (withCore scalarCore) := by unfold CanIssue; decide
theorem can_timed : CanIssue 0 0 (withCore { scalarCore with cfg := { scalarCore.cfg with timed := 1 } }) := by unfold CanIssue; decide

/-- ScalarRegisterOps, ScalarImmediateOps, ScalarReads, TdsetWritesOneWord, EndAndHalt: a free context with an EARLY source,
and a timed one whose sources are not. -/
theorem test_witness_scalar :
    CanIssue 0 0 (withCore scalarCore) ∧ scalarCore.isTimed 0 = false ∧ (scalarCore.sreg 0 1).early = true
    ∧ (let o := { scalarCore with cfg := { scalarCore.cfg with timed := 1 } }
       CanIssue 0 0 (withCore o) ∧ o.isTimed 0 = true ∧ (o.sreg 0 2).early = false ∧ (o.sreg 0 2).poison = false) :=
  ⟨can_scalar, by decide, by decide, can_timed, by decide⟩

/-- ScalarReads: RDS of items 0 and 15, and PTEST of lines 0 and 1,983. -/
theorem test_witness_scalar_reads :
    (8 ≤ 15 ∧ 15 ≤ 15 ∧ (0 : BitVec 32) = BitVec.ofInt 32 (mgetD (15 - 8) 0 (scalarCore.ctx 0).scales))
    ∧ (scalarCore.sreg 0 0).poison = false ∧ (0 : Int) ≤ (((scalarCore.sreg 0 0).val.toNat : Int) + (0 : BitVec 14).toInt) % 2 ^ 32
    ∧ (((scalarCore.sreg 0 0).val.toNat : Int) + (1983 : BitVec 14).toInt) % 2 ^ 32 = 1983 := by decide

/-- TrayWords: LDS of the present line 0; STS to the EMPTY line 1983 at the last word, 0x3DFFC. -/
theorem test_witness_tray_words :
    let o := scalarCore
    let a (r : Nat) (imm : BitVec 14) := ((((o.sreg 0 r).val.toNat : Int) + imm.toInt * 4) % 2 ^ 32).toNat
    (o.sreg 0 2).poison = false ∧ a 2 0 % 4 = 0 ∧ a 2 0 ≤ 0x3DFFC ∧ (o.line (a 2 0 / 128)).pres.present = true
    ∧ (let k := { o with sregs := mput 4 ⟨0x3DFFC, false, false⟩ o.sregs }
       CanIssue 0 0 (withCore k) ∧ ((((k.sreg 0 4).val.toNat : Int) + (0 : BitVec 14).toInt * 4) % 2 ^ 32).toNat = 0x3DFFC
         ∧ (k.line (0x3DFFC / 128)).pres.free = true ∧ k.locked (0x3DFFC / 128, 1) = false) := by
  refine ⟨by decide, by decide, by decide, by decide, ?_, by decide⟩
  unfold CanIssue; decide

/-- TrayWordOutOfRange: address 6, and address 0x3E000. -/
theorem test_witness_tray_range :
    let a (imm : BitVec 14) (r : Nat) := ((((scalarCore.sreg 0 r).val.toNat : Int) + imm.toInt * 4) % 2 ^ 32).toNat
    a 0 3 % 4 ≠ 0 ∧ 0x3DFFC < a (BitVec.ofInt 14 (-1)) 0 := by decide

/-- Branches: a branch taken to index 2,047 and one to 0, one not taken whatever its target. -/
theorem test_witness_branches :
    ((0 : Int) ≤ ((scalarCore.ctx 0).ptr : Int) + (2047 : BitVec 14).toInt ∧ ((scalarCore.ctx 0).ptr : Int) + (2047 : BitVec 14).toInt ≤ 2047)
    ∧ (scalarCore.sreg 0 0).val = 0 ∧ (scalarCore.sreg 0 2).val ≠ 0 ∧ (scalarCore.sreg 0 2).poison = false := by decide

/-! ### One step: the scalar slot (03 R96 to R98, R116) -/

theorem test_add_wraps : let t := after (.addi 0 0 1 0 (BitVec.ofInt 14 (-1))) (withCore scalarCore)
    (((t.core 0).sreg 0 1).val, ((t.core 0).ctx 0).ptr, (t.core 0).cyc) = (0xFFFFFFFF, 1, 1) := by decide
theorem test_s0_discards : ((after (.add 0 0 0 1 2) (withCore scalarCore)).core 0).sreg 0 0 = ⟨0, false, false⟩ := by decide
theorem test_sra_sign : (((after (.srai 0 0 2 1 (BitVec.ofNat 14 33)) (withCore { scalarCore with sregs := [(1, ⟨0x80000000, false, false⟩)] })).core 0).sreg 0 2).val
    = 0xC0000000 := by decide
theorem test_lds_stalls : let t := after (.lds 0 0 4 0 0) (withCore scalarCore)
    (((t.core 0).sreg 0 4).val, ((t.core 0).ctx 0).readyAt) = (7, 4) := by decide +kernel
theorem test_lds_misaligned_faults : let t := after (.lds 0 0 4 3 0) (withCore scalarCore)
    ((t.core 0).stopped, rd R.TWR_RGN_MISS 0 t) = (true, 0) := by decide
theorem test_branch_back : ((after (.br 0 0 (BitVec.ofInt 14 (-2))) (withCore { scalarCore with ctxs := [(0, ⟨5, .run, .none, 0, 0, [], 0, 0⟩)] })).core 0).ctx 0
    = ⟨3, .run, .none, 1, 0, [], 0, 0⟩ := by decide
theorem test_halt : (((after (.halt 0 0) (withCore scalarCore)).core 0).ctx 0).mode = .halted := by decide
/-- ADDI s1, s0, −1 written out by R98: OP, SD = 1, SA = 0, IMM14 = 0x3FFF; VECTOR, CUBE, MOVE and SHAFT slots NOP. -/
theorem test_bundle_of_nops : decodeBundle 0 = some Bundle.nops := by decide
theorem test_end_and_halt_is_reserved : decodeBundle (BitVec.ofNat 128 (3 * 2 ^ 126)) = none := by decide

/-! ### Witnesses: the vector slot -/

/-- Vector registers v1 and v2 FULL and v3 EMPTY; mask m1 with lane 0 alone. -/
def vecCore (timed : Nat) : Core :=
  { lit timed with vregs := [(1, ⟨3, .full, false⟩), (2, ⟨0xFFFFFFFF, .full, false⟩)],
                   mregs := [(0, ⟨BitVec.ofNat 64 (2 ^ 64 - 1), false, false, false⟩), (1, ⟨1, false, false, false⟩)],
                   tray := [(0, ⟨9, .full, false⟩)] }

/-- An operation v3 := v1 op v2 under mask m1. -/
def vecOp (width : BitVec 2) : VFields := ⟨1, 3, 1, 2, 1, width, 0, false⟩

theorem can_vec (timed : Nat) : CanIssue 0 0 (withCore (vecCore timed)) := by
  unfold CanIssue; exact ⟨rfl, rfl, rfl, (by decide : (0 : Nat) < 1000), rfl, rfl, Nat.le_refl 0, Nat.le_refl 0⟩

/-- VectorIntegerOps, VectorFloatOps, VectorLaneOps, ToneOps: free and timed contexts, both widths, one, two and three
sources. -/
theorem test_witness_vector : ∀ timed ∈ [0, 1], ∀ w ∈ [(0 : BitVec 2), 1],
    CanIssue 0 0 (withCore (vecCore timed)) ∧ (vecOp w).width.toNat ≤ 1 ∧ (vecOp w).rnd ≠ 3 ∧ (vecOp w).rnd ≠ 1
      ∧ (vecOp w).f16 = false ∧ ((vecOp w).f16 = true → (vecOp w).width = 1)
      ∧ VecReady (vecCore timed) 0 (vecOp w) [] ∧ VecReady (vecCore timed) 0 (vecOp w) [1]
      ∧ VecReady (vecCore timed) 0 (vecOp w) [1, 2] ∧ VecReady (vecCore timed) 0 (vecOp w) [1, 2, 1] := by
  unfold CanIssue VecReady; decide +kernel

/-- VectorCompares: the destination mask register is 3. -/
theorem test_witness_compares : (3 : Nat) % 8 ≠ 0 ∧ ((vecCore 1).mreg 0 ((vecOp 0).vd.val % 8)).pending = false
    ∧ ((vecCore 1).mreg 0 ((vecOp 0).vd.val % 8)).early = false := by decide +kernel

/-- VectorConversion: FP32 to BF16 in 32-bit width. WeightUpdate: VD present. -/
theorem test_witness_conversion :
    (∃ a b, Fmt.ofCode 0 = some a ∧ Fmt.ofCode 1 = some b ∧ ((0 : BitVec 2) = 1 → a ≠ .fp32 ∧ b ≠ .fp32))
    ∧ VecReady (vecCore 0) 0 ⟨1, 3, 1, 0, 1, 0, 0, false⟩ [1]
    ∧ VecReady { vecCore 0 with vregs := mput 3 ⟨5, .full, false⟩ (vecCore 0).vregs } 0 (vecOp 0) [3, 1, 2]
    ∧ (vecCore 0).cfg.mirel = false := by
  refine ⟨⟨_, _, rfl, rfl, by decide⟩, ?_, ?_, rfl⟩ <;> (unfold VecReady; decide +kernel)

/-- VectorMoves: VLD of line 0 to the EMPTY v3, VST of v1 to the EMPTY line 1983, VSPLAT; in a timed context. -/
theorem test_witness_vector_moves :
    let o := vecCore 1
    (o.mreg 0 1).pending = false ∧ (o.mreg 0 1).early = false ∧ (o.sreg 0 0).early = false ∧ (o.sreg 0 0).poison = false
    ∧ (o.vreg 0 3).pres.free = true ∧ (o.vreg 0 3).pres.isShaftTimed = false
    ∧ ((o.sreg 0 0).val.toNat + (0 : BitVec 11).toNat) % 2 ^ 32 = 0 ∧ (o.line 0).pres.present = true ∧ (o.line 0).pres.isShaftTimed = false
    ∧ (o.vreg 0 1).pres.present = true ∧ (o.vreg 0 1).pres.isShaftTimed = false
    ∧ ((o.sreg 0 0).val.toNat + (1983 : BitVec 11).toNat) % 2 ^ 32 = 1983 ∧ (o.line 1983).pres.free = true
    ∧ o.locked (1983, 1) = false ∧ (o.line 1983).pres.isShaftTimed = false := by decide +kernel

/-! ### One step: the vector slot (03 R99) -/

/-- v3 after the operation issued alone and completed. -/
def vecRes (i : Instr) (o : Core) : Slot :=
  ((after (.operationComplete 0 o.nextId []) (after i (withCore o))).core 0).vreg 0 3

theorem test_iadd_masked : (vecRes (.iadd 0 0 (vecOp 0)) { vecCore 0 with vregs := mput 3 ⟨BitVec.ofNat 1024 (7 * 2 ^ 32), .full, false⟩ (vecCore 0).vregs })
    = ⟨BitVec.ofNat 1024 (7 * 2 ^ 32 + 2), .full, false⟩ := by decide +kernel
theorem test_isub_16_bit : (vecRes (.isub 0 0 ⟨0, 3, 1, 2, 1, 1, 0, false⟩) (vecCore 0)).data.toNat % 2 ^ 48 = 0x000000010004 := by decide +kernel
/-- 1.0 + 2^-24 lies halfway and goes to the even code (04 R153). -/
theorem test_fadd_ties_to_even : (vecRes (.fadd 0 0 ⟨0, 3, 1, 2, 1, 0, 0, false⟩)
    { vecCore 0 with vregs := [(1, ⟨0x3F800000, .full, false⟩), (2, ⟨0x33800000, .full, false⟩)] }).data.toNat % 2 ^ 32 = 0x3F800000 := by decide +kernel
theorem test_fadd_poison : (vecRes (.fadd 0 0 ⟨0, 3, 1, 2, 1, 0, 0, false⟩)
    { vecCore 0 with vregs := [(1, ⟨0, .full, true⟩), (2, ⟨0, .full, false⟩)] }).poison = true := by decide +kernel
/-- FMIN orders −0 below +0 (04 R155). -/
theorem test_fmin_zeros : (vecRes (.fmin 0 0 ⟨0, 3, 1, 2, 1, 0, 0, false⟩)
    { vecCore 0 with vregs := [(1, ⟨0, .full, false⟩), (2, ⟨0x80000000, .full, false⟩)] }).data.toNat % 2 ^ 32 = 0x80000000 := by decide +kernel

/-! ### Witnesses: the cube slot -/

/-- A tile descriptor by its fields (03 R101): A at line 0, B at line 16, C at line 100, the CONV result at line 200; M = 8,
N = 32, K = 4, BF16 by BF16 (codes 2), result code `out`. -/
def descOf (out : Nat) : BitVec 128 :=
  BitVec.ofNat 128 (16 * 2 ^ 11 + (100 + 1 * 2 ^ 15 + 2 * 2 ^ 21 + 2 * 2 ^ 25) * 2 ^ 32 + (200 + out * 2 ^ 11) * 2 ^ 96)

/-- A core whose lines 0 to 255 are FULL and hold `data`, with a tile reserve. -/
def cubeCore (data : Line) : Core :=
  { lit 0 with tray := (upFrom 0 256).map (fun l => (l, ⟨data, .full, false⟩)), tds := [(0, descOf 2)],
               cfg := { (lit 0).cfg with loose := true, reserve := 200, step := 3 }, reserveLeft := 200 }

def cubeDesc : Desc := (decodeDesc (descOf 2)).getD ⟨0, 0, 0, 0, 0, 0, 0, 0, 0, 0, false, false, 0, 0, false, 0, 0⟩

theorem test_descriptor_fields : decodeDesc (descOf 2)
    = some ⟨0, 16, 100, 8, 32, 4, 2, 2, 0, 0, false, false, 200, 2, false, 1, 0⟩ := by decide +kernel

/-- CubeOpsOccupyTheUnit: each operation is ready on that descriptor. -/
theorem test_witness_cube : CanIssue 0 0 (withCore (cubeCore 0)) ∧ (0 : BitVec 2) ≠ 3
    ∧ decodeDesc ((cubeCore 0).td 0 0) = some cubeDesc
    ∧ ∀ op ∈ [CubeOp.tile, .tileZ, .mv, .mvZ, .conv], CubeReady (cubeCore 0) 0 op cubeDesc := by
  unfold CanIssue CubeReady; decide +kernel

/-- The cube operation in flight. -/
def tileJob : CubeJob := ⟨.tileZ, cubeDesc, 0, 0, false, 0, 0⟩
def tileFlight : Flight := ⟨0, 0, 0, 27, [], Flg.none, [], false, [], none, some tileJob, false, false⟩

/-- TileRunEnds: a run of the largest BF16 values overflows and is retaken; one of zeros is kept. -/
theorem test_witness_tile_run :
    (let o := { cubeCore (BitVec.ofNat 1024 ((upFrom 0 64).foldl (fun n _ => n * 65536 + 0x7F7F) 0)) with flights := [tileFlight] }
     o.flights.find? (fun g => decide (g.id = 0)) = some tileFlight
      ∧ tileFlight.cube = some tileJob ∧ tileJob.op ≠ .conv ∧ (runOut o tileFlight tileJob).ovf = true ∧ tileJob.op = .tileZ
      ∧ o.cfg.reserve ≠ 0 ∧ o.cfg.mirel = false ∧ tileJob.runs < 2 ∧ tileJob.desc.cycles tileJob.op o.cfg.mirel ≤ o.reserveLeft)
    ∧ (runOut { cubeCore 0 with flights := [tileFlight] } tileFlight tileJob).ovf = false := by decide +kernel

/-- A TILE.Z whose C is zero has 0 in its C line (04 R145). -/
theorem test_tile_z_of_zeros : let t := after (.cubeRunEnd 0 0) (withCore { cubeCore 0 with flights := [tileFlight] })
    (((t.core 0).line 100).data, (t.core 0).flights.length) = (0, 0) := by decide +kernel

/-! ### Witnesses: completions, the move slot, the shaft slot -/

/-- OperationCompletes: an operation in flight with each kind of effect. -/
theorem test_witness_completion : ∀ e ∈ [Eff.vreg 0 1 5 false false, .line 3 5 true false, .mask 0 2 1 false false, .outSlot 31 5 false true],
    let f : Flight := ⟨0, 0, 0, 3, [e], Flg.none, [], false, [], none, none, false, false⟩
    ((withCore { lit 0 with flights := [f] }).core 0).flights.find? (fun g => decide (g.id = 0)) = some f ∧ f.cube = none ∧ f.effs = [e] := by
  decide +kernel

/-- A timed context whose core has v1 and line 0 FULL, outbound slot 31 EMPTY, inbound slots 0 and 31 FULL, v2 EMPTY. -/
def mailCore : Core :=
  { lit 1 with vregs := [(1, ⟨5, .full, false⟩)],
               tray := [(0, ⟨7, .full, false⟩), (2016, ⟨8, .full, false⟩), (2047, ⟨9, .full, false⟩)] }

/-- MailboxMoves: slot 31 of both mailboxes; the line of OUTL is 0 and of TAKEL 1983. -/
theorem test_witness_mailbox :
    CanIssue 0 0 (withCore mailCore) ∧ mailCore.cfg.loose = false ∧ mailCore.isTimed 0 = true
    ∧ (mailCore.vreg 0 1).pres = .full ∧ (mailCore.line (1984 + 31)).pres = .empty ∧ (mailCore.sreg 0 0).poison = false
    ∧ (mailCore.sreg 0 0).early = false ∧ (mailCore.line 0).pres = .full ∧ (mailCore.line (2016 + 31)).pres = .full
    ∧ (mailCore.vreg 0 2).pres.free = true ∧ (mailCore.vreg 0 2).pres.isShaftTimed = false
    ∧ (mailCore.line 1983).pres.free = true ∧ mailCore.locked (1983, 1) = false ∧ (mailCore.line 1983).pres.isShaftTimed = false := by
  unfold CanIssue; decide +kernel

/-- LooseMessages: the first outbound slot is taken, slot 1 is EMPTY; an arrival from core 9 is held in slot 31. -/
theorem test_witness_loose :
    let o : Core := { lit 0 with cfg := { (lit 0).cfg with loose := true }, held := [(31, 9)],
                                 tray := [(0, ⟨7, .full, false⟩), (1984, ⟨8, .full, false⟩), (2047, ⟨9, .full, false⟩)] }
    CanIssue 0 0 (withCore o) ∧ o.cfg.loose = true ∧ (o.sreg 0 0).poison = false ∧ (o.line 0).pres.present = true
    ∧ (o.line (1984 + 1)).pres = .empty ∧ (∀ j, j < 1 → (o.line (1984 + j)).pres ≠ .empty)
    ∧ o.held = (31, 9) :: [] ∧ (o.line 5).pres.free = true ∧ o.locked (5, 1) = false := by
  unfold CanIssue; decide +kernel

/-- ShaftRequests: 64 lines up to the end of the DRAM window to the last lines of the tray; the last line of the SRAM window;
a CODE request that ends at bundle 2,047. -/
theorem test_witness_shaft :
    let o : Core := { lit 1 with sregs := [(1, ⟨0x8000000 - 8192, false, false⟩), (2, ⟨1920, false, false⟩), (3, ⟨0x1017FF80, false, false⟩),
                                           (4, ⟨255, false, false⟩)],
                                 tray := (upFrom 1920 64).map (fun l => (l, ⟨1, .full, false⟩)) }
    CanIssue 0 0 (withCore o) ∧ (o.sreg 0 1).poison = false ∧ (o.sreg 0 1).early = false ∧ (o.sreg 0 2).poison = false
    ∧ (o.sreg 0 2).early = false ∧ (o.sreg 0 1).val.toNat % 32 = 0 ∧ (o.sreg 0 1).val.toNat + 64 * 128 ≤ 0x8000000
    ∧ BudgetOk o (o.sreg 0 1).val.toNat 64 ∧ 1920 + 64 ≤ 1984
    ∧ (∀ l, l < 64 → (o.line (1920 + l)).pres.free = true ∧ (o.line (1920 + l)).pres.present = true ∧ (o.line (1920 + l)).pres.isShaftTimed = false)
    ∧ o.locked (1920, 64) = false ∧ nmHazard 0 ((o.sreg 0 1).val.toNat, 64 * 128) (withCore o) = false
    ∧ (o.sreg 0 3).val.toNat % 32 = 0 ∧ 0x10000000 ≤ (o.sreg 0 3).val.toNat ∧ (o.sreg 0 3).val.toNat + 128 ≤ 0x10180000
    ∧ BudgetOk o (o.sreg 0 3).val.toNat 1 ∧ (o.sreg 0 4).val.toNat * 8 + 1 * 8 ≤ 2048 := by
  unfold CanIssue BudgetOk; decide +kernel

/-- The line of a FILL of 8 INT32 elements, one granule at address 0, with 5 (08 R251, R252). -/
def fillLine : Line := BitVec.ofNat 1024 (0x0B + 10 * 2 ^ 8 + 8 * 2 ^ 160 + 5 * 2 ^ 192)
def fillCmd : NmCmd := ⟨.fill, 10, 0, 0, 0, 0, 0, 0, 0, 8, 5, 0⟩

/-- NearMemoryRequests: the FILL is accepted; a line of zeros is no command. -/
theorem test_witness_near_memory_request :
    let o (l : Line) : Core := { lit 1 with tray := [(0, ⟨l, .full, false⟩)] }
    CanIssue 0 0 (withCore (o fillLine)) ∧ ((o fillLine).sreg 0 0).poison = false ∧ ((o fillLine).sreg 0 0).early = false
    ∧ ((o fillLine).line 0).pres.present = true ∧ ((o fillLine).line 0).poison = false ∧ ((o fillLine).line 0).pres.isShaftTimed = false
    ∧ (o fillLine).used + 1 ≤ min 64 (o fillLine).cfg.requests ∧ (o fillLine).usedD ≤ (o fillLine).cfg.bd
    ∧ (o fillLine).usedS ≤ (o fillLine).cfg.bs
    ∧ (match nmCheck 0 fillLine (withCore (o fillLine)) with | .ok k => decide (k = fillCmd) | .error _ => false) = true
    ∧ (match nmCheck 0 0 (withCore (o 0)) with | .ok _ => false | .error e => decide (e = .nmCommand)) = true := by
  unfold CanIssue; decide +kernel

/-- FencesAndInvalidation: a free context; a poison-free register. FencesComplete: a waiting context with no request, and
with no command left. -/
theorem test_witness_fences :
    CanIssue 0 0 (withCore (lit 0)) ∧ (lit 0).isTimed 0 = false ∧ ((lit 0).sreg 0 1).poison = false ∧ ((lit 0).sreg 0 1).early = false
    ∧ (let o := { lit 0 with ctxs := [(0, ⟨1, .run, .shaft 3 0, 0, 0, [], 0, 0⟩)], shq := [⟨3, 0, 1, .ld, 0, 0, 1, 0, false⟩] }
       ((withCore o).core 0).ctx 0 = ⟨1, .run, .shaft 3 0, 0, 0, [], 0, 0⟩ ∧ ∀ q ∈ o.shq, q.ctx = 0 → 3 ≤ q.id)
    ∧ (let o := { lit 0 with ctxs := [(0, ⟨1, .run, .nm 2 0 4096 0 [], 0, 0, [], 0, 0⟩)] }
       (((withCore o).core 0).ctx 0).wait = .nm 2 0 4096 0 []
         ∧ ((withCore o).shaft (posOf 0)).works ++ ((withCore o).shaft (posOf 0)).fin = []
         ∧ ∀ r ∈ runningRanges ((withCore o).shaft (posOf 0)), meets (0, 4096) r = false) := by
  unfold CanIssue; decide +kernel

/-! ### One step: requests and fences -/

theorem test_take_empties_the_slot : let t := after (.mTake 0 0 31 2) (withCore mailCore)
    (((t.core 0).line 2047).pres, ((t.core 0).vreg 0 2).pres) = (.empty, .pending) := by decide +kernel
/-- FILL of one granule of INT32 with 5: the last element is written, and nothing after it (08 R249, R252). -/
theorem test_nm_fill : let t := after (.nmFill 0 ⟨10, 0, 0, 0, 0, 0, 0, 0, 8, 5, 0, 0, 0, 0, 0, []⟩) State.reset
    (readBytes 0 28 4 t, t.mem.length) = ([5, 0, 0, 0], 8 * 4) := by decide +kernel

/-! ### Witnesses: the issue stage and the declared cycles -/

/-- BundleIssueOrder: both contexts can issue, context 0 timed; one context's next bundle is reserved; nothing can issue; a
parity hit on the line that context 0's VLD reads. -/
def nopCore (timed : Nat) : Core := { lit timed with store := storeWith 0 0 }

/-- The turn is context 0's alone. -/
theorem turn_of_zero (x : Nat) :
    decide (x = 0) = true ↔ ∃ b, HasTurn (nopCore 1) 0 x b ∧ parityHits (nopCore 1) x b [] = [] := by
  constructor
  · intro h
    obtain rfl : x = 0 := of_decide_eq_true h
    refine ⟨Bundle.nops, ⟨by decide, by unfold CouldIssue; decide +kernel, ?_, fun h => absurd h (by decide)⟩, by decide +kernel⟩
    intro _ y b' hy h0 ht _
    have h : ∀ y, y < 16 → y ≠ 0 → (nopCore 1).isTimed y = false := by decide
    exact absurd ht (by rw [h y hy h0]; decide)
  · rintro ⟨b, ⟨hx, hc, _, hf⟩, _⟩
    match x, hx with
    | 0, _ => rfl
    | 1, _ =>
      have h := hf (by decide) 0 Bundle.nops (by decide) (by decide) (by unfold CouldIssue; decide +kernel)
      exact absurd h.1 (by decide)
    | n + 2, hx =>
      have h : ∀ k, k < 14 → ((nopCore 1).ctx (k + 2)).mode ≠ .run := by decide
      exact absurd hc.1 (h n (by omega))

theorem test_witness_issue_order :
    let o := nopCore 1
    let s := withCore o
    inFix s = false ∧ (s.core 0).on = true ∧ o.stopped = false ∧ o.cyc < o.cfg.cycles
    ∧ (∀ y, y < 16 → nextFault 0 y 0 (decide (y = 0)) s = none)
    ∧ CouldIssue o 0 o.cyc Bundle.nops ∧ CouldIssue o 1 o.cyc Bundle.nops ∧ o.isTimed 0 = true ∧ o.isTimed 1 = false
    ∧ (∀ y, y < 16 → y ≠ 0 → o.isTimed y = false) ∧ parityHits o 0 Bundle.nops [] = []
    ∧ rrPlace 1 0 = 14 ∧ rrPlace 15 0 = 0 := by
  unfold CouldIssue; decide +kernel

/-- A reserved bundle, one past bundle 2,047, and a core none of whose contexts has a bundle to issue. -/
theorem test_witness_issue_faults :
    (let o := { nopCore 0 with store := storeWith (3 * 2 ^ 126) 0 }
     nextFault 0 0 0 false (withCore o) = some (.illegalBundle, 0))
    ∧ (let o := { nopCore 0 with ctxs := [(0, ⟨2048, .run, .none, 0, 0, [], 0, 0⟩)] }
       nextFault 0 0 0 false (withCore o) = some (.bundleRange, 2047))
    ∧ (let o := { nopCore 0 with ctxs := [] }
       (∀ y, y < 16 → nextFault 0 y 0 false (withCore o) = none) ∧ ∀ y, y < 16 → (o.ctx y).mode ≠ .run) := by decide +kernel

/-- A bundle of context 0 that reads line 0 with VLD, and the line's parity error. -/
def vldBundle : Bundle := { Bundle.nops with v := .vld 0 2 0 0 }
theorem test_witness_parity :
    let o := { lit 0 with tray := [(0, ⟨1, .full, false⟩)] }
    parityHits o 0 vldBundle [⟨0, false⟩] = [⟨0, false⟩] ∧ parityHits o 0 Bundle.nops [⟨0, false⟩] = [] := by decide +kernel

/-- A request over its budget meets its cause at issue. -/
theorem test_witness_issue_cause :
    issueCause 0 0 { Bundle.nops with sh := .ld 0 0 0 false } (withCore { lit 0 with used := 8 }) = some .shaftBudget := by decide +kernel

/-- ShaftLoadLands: the last line of a bypassing load, and one whose line the read cache holds, in the loads' window; in the slot
no load lands. -/
theorem test_witness_load :
    let q : ShReq := ⟨3, 0, 0, .ld, 0, 5, 2, 1, true⟩
    let p : ShReq := ⟨3, 0, 0, .ld, 0, 5, 1, 0, false⟩
    let o := { lit 0 with shq := [p], cache := [(0, [(0, 7, false)])] }
    let s := { withCore o with timebase := 40 }
    q.done + 1 = q.count ∧ q.kind = .ld ∧ q.bypass = true ∧ o.shq = p :: [] ∧ p.kind = .ld ∧ p.bypass = false
    ∧ p.addr + 128 * p.done < 0x8000000
    ∧ (mgetD ((p.addr + 128 * p.done) / 128 % 64) [] o.cache).find? (fun w => decide (w.1 = 0)) = some (0, 7, false)
    ∧ (mgetD (128 / 128 % 64) [] o.cache).find? (fun w => decide (w.1 = 128)) = none
    ∧ (∀ r ∈ runningDests (s.shaft (posOf 0)), meets (0, 128) r = false)
    ∧ inWindow s = true ∧ layerShut (posOf 0) 0 s = false ∧ inWindow (withCore o) = false ∧ (s.shaft (posOf 0)).lent = false := by
  decide +kernel

/-- DeclaredCyclesEnd: core 0 is lit in its region; it is unfinished, or all its contexts have ended. -/
theorem test_witness_declared_cycles :
    0 ∈ regionCores 0 ∧ ((withCore (lit 0)).core 0).on = true ∧ unfinished (lit 0) ≠ none
    ∧ unfinished { lit 0 with ctxs := [(0, ⟨3, .ended, .none, 0, 0, [], 0, 0⟩)] } = none := by decide +kernel

/-- LooseDepartures: the message of a core with relative number 2 for its partner in slot 1 of slice 0; the others wait. The partner
of the test lies in the same half; another half's is reached over the seam, up or lost. -/
def looseMsg (ord dst slot : Nat) : LooseMsg := ⟨ord, 2, dst, slot, 0, 0, 4, false, 0, [], 0, false⟩

def looseCore : Core :=
  { lit 0 with cfg := { (lit 0).cfg with loose := true, looseM := 3, rel := 2 }, tray := [(1984, ⟨4, .full, false⟩)],
               posted := [looseMsg 0 5 1, looseMsg 1 3 0] }

theorem test_witness_loose_departure :
    let o := looseCore
    let off := (8 * o.slice + 1) % 2 ^ o.cfg.looseM
    let mine (m : LooseMsg) : Bool := decide (m.dst = o.cfg.rel ^^^ off) && (o.line (1984 + m.slot)).pres.present
    o.on = true ∧ o.cfg.loose = true ∧ off ≠ 0 ∧ isHole 0 (withCore o) = false ∧ fenced 0 (withCore o) = false
    ∧ o.posted = [looseMsg 0 5 1] ++ looseMsg 1 3 0 :: []
    ∧ (∀ q ∈ [looseMsg 0 5 1], mine q = false ∧ q.ord ≠ 1) ∧ mine (looseMsg 1 3 0) = true
    ∧ loosePath 0 1 = [] ∧ loosePath 0 512 = 0 :: [] ∧ crossUp 0 0 State.reset = true
    ∧ crossUp 0 0 (regs [(R.SEAM_LINK_W2E, 0, 0)]) = false ∧ fenced 0 (regs [(R.TWR_RGN_FENCED, 0, 1)]) = true := by
  decide +kernel

/-- A destination that is a hole. -/
theorem test_witness_hole : isHole 0 (regs [(R.TWR_SHIFT_HOLE 0, 0, 1)]) = true := by decide +kernel

/-- TickAdvancesTheFrame: in service, nothing waiting; and before start-up. -/
theorem test_witness_tick : inService serving = true ∧ serving.acts = [] ∧ inService State.reset = false ∧ State.reset.boot.edge = false := by
  decide +kernel

/-! ### One step: the issue stage -/

theorem test_timed_before_free : let t := after (.bundleIssue 0 0 []) (withCore (nopCore 2))
    (((t.core 0).ctx 1).ptr, ((t.core 0).ctx 0).ptr) = (1, 0) := by decide +kernel
theorem test_round_robin : let t := after (.bundleIssue 0 0 []) (withCore { nopCore 0 with lastFree := 0 })
    (((t.core 0).ctx 1).ptr, (t.core 0).lastFree) = (1, 1) := by decide +kernel

/-! ### Witnesses: the fabric -/

/-- Core c is lit with outbound slot 31 FULL and inbound slot 31 EMPTY, and the route entries of its plate apply. -/
def routed (c : Nat) (l : List RouteEntry) : State :=
  withPlate { Plate.free with st := .running, img := some { blank with routes := [(c, l)] }, job := some running }
    (State.reset.setCore c { lit 0 with tray := [(1984 + 31, ⟨5, .full, false⟩)] })

/-- Entries of core 0 at cycle 8: slot 31 south, port 2 east, port 4 into slot 31, and slot 31 over the seam. -/
def entries : List RouteEntry := [⟨8, 0, 2, 31, 0, 0, 0⟩, ⟨8, 2, 4, 31, 0, 0, 0⟩, ⟨8, 4, 0, 31, 0, 0, 0⟩, ⟨8, 0, 5, 31, 0, 0, 0⟩]

/-- RouteEntries: each of the entries applies; a slot that is not FULL, and one that is not EMPTY. -/
theorem test_witness_routes :
    (∀ i ∈ [0, 1, 2, 3], ∃ e, entries[i]? = some e ∧ EntryApplies 0 i 0 e (routed 0 entries))
    ∧ deadCore 0 (routed 0 entries) = false ∧ ((routed 0 entries).core 0).line (1984 + 31) = ⟨5, .full, false⟩
    ∧ (((routed 0 entries).core 0).line (2016 + 31)).pres = .empty ∧ (((routed 0 entries).core 0).line (1984 + 30)).pres ≠ .full
    ∧ meshNext 0 2 = some (16, 1) ∧ meshNext 0 4 = some (1, 3) ∧ colOf 0 = 0
    ∧ seamUp (towerOf 0) (rowOf 0) (halfOf 0 % 2) (regs [(R.SEAM_LINK_W2E, 0, 2 ^ 32 - 1)]) = true
    ∧ (mgetD (wireKey 0 4 8) Flit.none [(wireKey 0 4 8, (⟨true, false, 0, 0, 3, none⟩ : Flit))]).valid = true
    ∧ (mgetD (wireKey 0 4 8) Flit.none (routed 0 entries).fab.wires).valid = false := by
  refine ⟨?_, by decide +kernel⟩
  intro i hi
  simp only [List.mem_cons, List.not_mem_nil, or_false] at hi
  rcases hi with rfl | rfl | rfl | rfl <;> exact ⟨_, rfl, { blank with routes := [(0, entries)] }, by decide +kernel⟩

/-- DeadCoreRoutes: core 0 is fenced. -/
def fencedRouted : State := wr R.TWR_RGN_FENCED 0 1 (routed 0 entries)

theorem test_witness_dead_routes :
    deadCore 0 fencedRouted = true ∧ EntryApplies 0 0 0 ⟨8, 0, 2, 31, 0, 0, 0⟩ fencedRouted
    ∧ EntryApplies 0 2 0 ⟨8, 4, 0, 31, 0, 0, 0⟩ fencedRouted ∧ meshNext 0 2 = some (16, 1) :=
  ⟨by decide +kernel, ⟨{ blank with routes := [(0, entries)] }, by decide +kernel⟩,
    ⟨{ blank with routes := [(0, entries)] }, by decide +kernel⟩, by decide +kernel⟩

/-- LaggedFlitsLand: a flit that waits on a seam and one in a bridge's landing queue, for cores that are not dead. -/
theorem test_witness_lagged :
    let f : Flit := ⟨true, false, 31, 3, 9, none⟩
    let g : BrgFlit := ⟨0, 0, f⟩
    let s := { State.reset with fab := { Fabric.init with seams := [(seamKey 0 31 1, [f])], brgs := [(1, { BrgDir.init with landq := [g], sendq := [g] })] } }
    mgetD (seamKey 0 31 1) [] s.fab.seams = f :: [] ∧ f.valid = true ∧ f.loose = none ∧ ({ f with loose := some 4 } : Flit).loose = some 4 ∧ deadCore (coreAt 0 31 3) s = false
    ∧ (s.brg 0 1).landq = g :: [] ∧ g.flit.valid = true ∧ deadCore (brgDest 0 1 g) s = false
    ∧ (s.brg 0 1).sendq.length ≤ 1024 := by decide +kernel

/-- BridgeArrivals: sequence 2,047, expected or not. -/
theorem test_witness_bridge :
    let g : BrgFlit := ⟨2047, 0, ⟨true, false, 31, 3, 9, none⟩⟩
    let q : BrgDir := { BrgDir.init with sendq := [g], expect := 2047 }
    (q.sendq.take 1024).find? (fun g => decide (g.seq = 2047)) = some g ∧ q.landq.any (fun g => decide (g.seq = 2047)) = false
    ∧ (2047 : Fin 2048).val = q.expect ∧ (2047 : Fin 2048).val ≠ BrgDir.init.expect
    ∧ q.landq.length < 64 ∧ (q.landq.filter (fun g => decide (g.tap = 0))).length < 4
    ∧ ¬((List.replicate 64 g).length < 64) := by decide +kernel

/-- FailedCoresAndRouters: in service, a core that is not fenced, and one that is; a half whose fabric runs. -/
theorem test_witness_core_check :
    inService serving = true ∧ fenced 4095 serving = false ∧ fenced 4095 (after (.coreCheckFail 4095) serving) = true
    ∧ inService (after (.coreCheckFail 4095) serving) = true ∧ flag R.HALF_FABRIC_LOST 7 serving = false := by decide +kernel

/-! ### Witnesses: the shafts -/

/-- A host read of the last granule of DRAM, a host write of it, and of a core's memory whose core is a hole. -/
def hread : HReq := ⟨.host, 3, false, 0, 0x8000000 - 32, 32, [], true⟩
def hwrite : HReq := ⟨.host, 3, true, 0, 0x8000000 - 32, 32, (upFrom 0 32).map (fun i => BitVec.ofNat 8 i), true⟩

def served (q : HReq) (s : State) : State := s.setShaft 0 { s.shaft 0 with hostq := [q] }

theorem test_witness_host_slot :
    inService purged = true ∧ (served hread purged).aba.held = [] ∧ ((served hread purged).shaft 0).hostq = [hread] ∧ hread.src = .host
    ∧ hread.last = true ∧ hostStop 0 hread purged = none ∧ ((served hread purged).shaft 0).slotNs + hostTime hread ≤ 50400
    ∧ ((served hread purged).shaft 0).slotGran < 2 ∧ kvView hread.core hread.addr false purged = .stored
    ∧ inSlot (served hread purged) = true
    ∧ ((served hread purged).shaft 0).lent = false ∧ inSlot { served hread purged with timebase := 20 } = false
    ∧ hwrite.addr + hwrite.len ≤ 2 ^ 29
    ∧ hostStop 0 hwrite purged = none ∧ hostWaits 0 hwrite purged = false ∧ partials hwrite.addr hwrite.len = []
    ∧ hwrite.data.length = hwrite.len ∧ hwrite.addr + hwrite.len ≤ 0x8000000
    ∧ hostStop 0 hread (wr (R.TWR_SHIFT_HOLE 0) 0 1 purged) = some 0x12 := by
  decide +kernel

theorem test_witness_host_slot_clean : CleanFixed 0 hread.addr hread.len (served hread purged) := by
  have h : ∀ u ∈ unitsOf hread.addr hread.len,
      storedPoison 0 u (served hread purged) = false ∧ unwrittenBad 0 u (served hread purged) = false := by decide +kernel
  exact ⟨by decide, fun u hu => h u hu⟩

/-- RefreshRotates: the refresh of this exposure has not run; its interval, and another time. -/
theorem test_witness_refresh : inRefresh { serving with timebase := 20 } = true ∧ inRefresh serving = false ∧ inService { serving with timebase := 20 } = true
    ∧ serving.refAt ≠ some serving.frame ∧ rd R.GLB_REFRESH_FIRST 0 serving < 4 ∧ rd R.GLB_REFRESH_SECOND 0 serving < 4 := by
  decide +kernel

/-- ScrubberAndWriteBack: line 12,286 of stack SRAM with its last word correctable; pages 63 of layer 0 and 2,047 of
layer 3 touched;
scrubbing switched off; a unit that waits to be written back. -/
def scrubbing : State :=
  { (wr R.SHF_SCRUB_CTRL_EN 0 1 (wr R.SHF_SCRUB_POS_LINE 0 12286 purged)).setShaft 0 { Shaft.init with touch := 2 ^ 2047 + 2 ^ 63 } with timebase := 50 }

theorem test_witness_scrub :
    inService scrubbing = true ∧ flag R.SHF_SCRUB_CTRL_EN 0 scrubbing = true ∧ rd R.SHF_SCRUB_POS_LINE 0 scrubbing < 12287
    ∧ CleanRange 0 (0x10000000 + 128 * 12286) 128 scrubbing ∧ (⟨0x10000000 + 128 * 12286 + 8 * 15, true, 3⟩ : GErr).corr = true
    ∧ sramIdle 0 scrubbing = true ∧ scrubDue (scrubbing.shaft 0).scrubS (2 ^ rd R.SHF_SCRUB_CTRL_SRATE 0 scrubbing) 1260 scrubbing = true
    ∧ scrubDue (scrubbing.shaft 0).scrubD (2 ^ rd R.SHF_SCRUB_CTRL_DRATE 0 scrubbing) 1050 scrubbing = true
    ∧ (scrubbing.shaft 0).touch ≠ 0 ∧ (scrubbing.shaft 0).untrusted = false
    ∧ ScrubHead 0 0 scrubbing = some (63 * 2048) ∧ ScrubHead 0 1 scrubbing = none ∧ ScrubHead 0 2 scrubbing = none
    ∧ ScrubHead 0 3 scrubbing = some (2047 * 2048)
    ∧ (∀ g ∈ [63 * 2048, 2047 * 2048], storedPoison 0 (g * 32) scrubbing = false ∧ unwrittenBad 0 (g * 32) scrubbing = false)
    ∧ scrubNext (scrubbing.shaft 0).touch 0 (63 * 2048 + 1) ≠ none
    ∧ portIdle 0 (layerOf 64) scrubbing = true ∧ portIdle 0 (layerOf 64) { scrubbing with timebase := 20 } = false ∧ isDram 64 = true
    ∧ flag R.SHF_SCRUB_CTRL_EN 0 (wr R.SHF_SCRUB_CTRL_EN 0 0 scrubbing) = false
    ∧ ({ Shaft.init with backs := [64] }).backs = 64 :: [] := by
  unfold CleanRange; decide +kernel

/-- CheckerTests: a run with 1,025 vectors left, one with 1,024, in a dark and in a lit frame. -/
theorem test_witness_checker :
    flag (H.EN .shf) 0 (regs [(H.EN .shf, 0, 1)]) = true
    ∧ (let s (n : Nat) := serving.setShaft 0 { Shaft.init with check := some ⟨none, n, 0, 0⟩ }
       inService (s 1025) = true ∧ ((s 1025).shaft 0).check = some ⟨none, 1025, 0, 0⟩ ∧ flag R.GLB_EXP_DARK 0 (s 1025) = false
         ∧ flag R.GLB_EXP_DARK 0 (wr R.GLB_EXP_DARK 0 1 (s 1025)) = true ∧ ((s 1024).shaft 0).check = some ⟨none, 1024, 0, 0⟩
         ∧ (some 0 : Option Nat) = some serving.frame ∧ (none : Option Nat) ≠ some serving.frame) := by
  decide +kernel

/-- RowBusCopies: the last granule of an evacuation in the row of tower 3; and one that waits for a chunk at its end. -/
theorem test_witness_row_bus :
    let e : Evac := ⟨1, 31, 0, 15, 0x8000000 - 8192, 0x8000000 - 8192, 2, 1⟩
    let s := { serving with evacs := [(3, e)], timebase := 50 }
    let p := posOf (coreAt (3 * 2 + e.half) e.row e.src)
    let q := posOf (coreAt (3 * 2 + e.half) e.row e.dst)
    inService s = true ∧ mget 3 s.evacs = some e ∧ e.done < e.len ∧ (s.shaft p).runs = [] ∧ (s.shaft q).runs = [] ∧ p ≠ q
    ∧ portIdle p (layerOf (e.saddr + 4096 * e.done)) s = true ∧ portIdle q (layerOf (e.daddr + 4096 * e.done)) s = true
    ∧ s.snap.on = false ∧ (e.daddr + 4096 * e.done) % 32 = 0 ∧ e.saddr + 4096 * e.done + 4096 ≤ 0x8000000
    ∧ e.daddr + 4096 * e.done + 4096 ≤ 0x8000000
    ∧ ((s.setShaft p { Shaft.init with runs := [(0, ⟨0, [], 0, 8, false⟩)] }).shaft p).runs ≠ [] := by decide +kernel

/-! ### One step: memory -/

/-- A granule that the host writes reads back byte for byte. -/
theorem test_host_write : let t := after (.hostSlot 0 []) (served hwrite purged)
    (readByte 0 (0x8000000 - 1) t, t.mem.length, (t.shaft 0).hostq) = (31, 31, []) := by decide +kernel
/-- Nothing has written DRAM after a cold power-on: what a byte reads as is a free value (07 R235). -/
theorem test_unwritten_is_free : readByte 4351 77 State.reset = Config.unwrittenByte (voidIdx 0 (cellKey 4351 77)) := by rfl

/-! ### Witnesses: near-memory units -/

/-- A command's fields: format, second format, width less 1, destination, sources, count, immediates. -/
def nmArgs (fmt fmt2 : BitVec 4) (w1 : BitVec 5) (dst a b c count i0 i1 : Nat) : NmArgs :=
  ⟨fmt, fmt2, 0, w1, BitVec.ofNat 32 dst, BitVec.ofNat 32 a, BitVec.ofNat 32 b, BitVec.ofNat 32 c, BitVec.ofNat 32 count,
    BitVec.ofNat 32 i0, BitVec.ofNat 32 i1, 0, 0, 0, 0, []⟩

/-- Memory that a purge filled, with page 1 of position 0 in bit-plane layout. -/
def planes : State := wr (R.SHF_NM_LAYOUT 0) 0 2 purged

/-- One command of every operation over elements of memory: word layout in page 0, bit planes in page 1. -/
def nmExamples : List (NmOp × NmArgs) :=
  [(.add, nmArgs 0 0 0 0 1024 2048 0 8 0 0), (.mul, nmArgs 10 0 0 0 1024 2048 0 8 0 0), (.fma, nmArgs 0 0 0 0 1024 2048 4096 8 0 0),
   (.axpby, nmArgs 0 0 0 0 1024 2048 0 8 1 2), (.scale, nmArgs 8 0 0 0 1024 0 0 32 3 0), (.max, nmArgs 10 0 0 0 1024 2048 0 8 0 0),
   (.min, nmArgs 1 0 0 0 1024 2048 0 16 0 0), (.cmplt, nmArgs 10 0 0 0 1024 2048 0 256 0 0), (.cmpeq, nmArgs 0 0 0 0 1024 2048 0 256 0 0),
   (.xor, nmArgs 10 0 0 0 1024 2048 0 8 0 0), (.fill, nmArgs 10 0 0 0x7FFFFE0 0 0 0 8 5 0), (.copy, nmArgs 8 0 0 0 1024 0 0 32 0 0),
   (.relu, nmArgs 0 0 0 0 1024 0 0 8 0 0), (.gelu, nmArgs 0 0 0 0 1024 0 0 8 0 0), (.silu, nmArgs 2 0 0 0 1024 0 0 16 0 0),
   (.cvt, nmArgs 0 1 0 0 1024 0 0 16 0 0), (.plane, nmArgs 0 0 3 0x10000 1024 0 0 256 0 0), (.unplane, nmArgs 0 0 3 0 0x10000 0 0 256 0 0),
   (.padd, nmArgs 0 0 31 0x10000 0x12000 0x14000 0 256 0 0), (.psub, nmArgs 0 0 0 0x10000 0x12000 0x14000 0 256 0 0),
   (.pcmplt, nmArgs 0 0 3 0x10000 0x12000 0x14000 0 256 1 0), (.pcmplti, nmArgs 0 0 3 0x10000 0x12000 0 0 256 0 7),
   (.pand, nmArgs 0 0 3 0x10000 0x12000 0x14000 0 256 0 0), (.por, nmArgs 0 0 3 0x10000 0x12000 0x14000 0 256 0 0),
   (.pxor, nmArgs 0 0 3 0x10000 0x12000 0x14000 0 256 0 0), (.pcount, nmArgs 0 0 0 0 0x12000 0 0 2048 0 0)]

/-- NearMemoryOperations: each of them is ready. -/
theorem test_witness_near_memory : coreOfPos 0 = some 0 ∧ nmExamples.length = 26
    ∧ ∀ e ∈ nmExamples, e.2.errs = [] ∧ NmReady 0 (nmCmdOf e.1 e.2) planes := by
  unfold NmReady CleanRange; decide +kernel

/-- SetlayoutWritesLayoutBits: the last page. NearMemoryStops: RND 3 is malformed; PLANE to a page in word layout is aborted. -/
theorem test_witness_near_memory_stops :
    nmBad (nmCmdOf .setlayout (nmArgs 0 0 0 0x7FF0000 0 0 0 1 1 0)) = false
    ∧ nmBad (nmCmdOf .add { nmArgs 0 0 0 0 1024 2048 0 8 0 0 with rnd := 3 }) = true
    ∧ (let k := nmCmdOf .plane (nmArgs 0 0 3 0x20000 1024 0 0 256 0 0)
       nmBad k = false ∧ layoutsOk 0 0 (chunkLen k 0) k planes = false) := by decide +kernel

/-- A unit whose oldest entry is the FILL of 8 words; one whose chunk of it runs; one whose chunks are over. -/
def nmCmdState (done : Nat) (run : Bool) : State :=
  { purged with timebase := 50 }.setShaft 0 { Shaft.init with
    queues := [(0, [.cmd 0 fillCmd ⟨none, 0, 0, 0, false, 0, 0, 0, 0, none⟩ done false])],
    runs := if run then [(0, ⟨0, [0], 0, 8, false⟩)] else [] }

theorem test_witness_chunks :
    inService (nmCmdState 0 false) = true
    ∧ (match nextWork 0 0 (nmCmdState 0 false) with
       | some (.cmd a k b d x) => mayStart 0 0 500 (.cmd a k b d x) (nmCmdState 0 false) && layoutsOk 0 d (chunkLen k d) k (nmCmdState 0 false)
       | _ => false) = true
    ∧ nextWork 0 0 purged = none
    ∧ (match nextWork 0 0 (nmCmdState 0 false) with
       | some w => !mayStart 0 0 7999 w (nmCmdState 0 false)
       | none => false) = true
    ∧ mget 0 ((nmCmdState 0 true).shaft 0).runs = some ⟨0, [0], 0, 8, false⟩
    ∧ (((nmCmdState 0 true).shaft 0).running 0 ⟨0, [0], 0, 8, false⟩).isSome = true
    ∧ (ripe 0 0 (nmCmdState 8 false)).isSome = true := by decide +kernel

/-- RemoteChunks: an arrival at an idle unit; a remote chunk of one granule, the last of DRAM, of each kind. -/
theorem test_witness_remote : ∀ kind ∈ [RemKind.write, .racc, .xacc],
    let g : RGran := ⟨0x8000000 - 32, 5, false, none⟩
    let s := purged.setShaft 0 { Shaft.init with queues := [(7, [.remote 0 kind [g]])], runs := [(7, ⟨0, [3], 0, 1, true⟩)], inbox := 1 }
    inService s = true ∧ mget 7 (s.shaft 0).runs = some ⟨0, [3], 0, 1, true⟩
    ∧ (s.shaft 0).running 7 ⟨0, [3], 0, 1, true⟩ = some (.remote 0 kind [g]) ∧ s.snap.on = false ∧ g.addr % 32 = 0
    ∧ g.addr + 32 ≤ 0x8000000 ∧ CleanRange 0 g.addr 32 s ∧ (purged.shaft 0).inbox < 2048 ∧ (purged.shaft 0).queue (bankCol 0) = [] := by
  unfold CleanRange; decide +kernel

/-! ### One step: near-memory units (08 R249 to R257) -/

/-- Two INT8 elements: 127 + 1 saturates, and 1 + 2 = 3. -/
theorem test_nm_add_saturates :
    let s := writeBytes 0 1024 [127, 1] (writeBytes 0 2048 [1, 2] purged)
    readBytes 0 0 2 (after (.nmAdd 0 (nmArgs 8 0 0 0 1024 2048 0 32 0 0)) s) = [127, 3] := by decide +kernel
/-- Bit 0 of element 9 lies in bit 1 of byte 1 of granule 0 of its group. -/
theorem test_plane : let s := writeBytes 0 (1024 + 36) [1] planes
    readBytes 0 0x10000 2 (after (.plane 0 (nmArgs 0 0 3 0x10000 1024 0 0 256 0 0)) s) = [0, 2] := by decide +kernel
theorem test_setlayout : layoutOf 0 2047 (after (.setlayout 0 (nmArgs 0 0 0 0x7FF0000 0 0 0 1 1 0)) purged) = true := by decide +kernel

/-! ### Witnesses: the KV page ledger -/

/-- Blocks of 16 tokens and one page in pages 8 to 15 of tower 0; holder 1 of pool 0 with a quota of 1,000 pages. -/
def kvEmpty : State :=
  wr R.KVL_CTRL 0 1 (wr (R.KVL_POOL_CFG0_EN 0) 0 1 (wr (R.KVL_POOL_CFG0_TOWERS 0) 0 1 (wr (R.KVL_POOL_CFG0_PAGE_LO 0) 0 8
    (wr (R.KVL_POOL_CFG0_PAGE_HI 0) 0 15 (wr (R.KVL_POOL_CFG1_TOK_SHIFT 0) 0 4 (wr (R.KVL_POOL_CFG1_DEPTH 0) 0 1
      (wr (R.KVL_HOLDER_CFG_EN 1) 0 1 (wr (R.KVL_HOLDER_CFG_QUOTA 1) 0 1000 purged))))))))

def kvReq (w0 w1 a0 a1 : Nat) : KvReq := ⟨.host, BitVec.ofNat 32 w0, BitVec.ofNat 32 w1, BitVec.ofNat 64 a0, BitVec.ofNat 64 a1, 0, 0⟩

/-- Sequence 0 of holder 1 at tower 0 over 2^2 cores: empty; with 20 tokens fixed; and with 20 more latent. -/
def kvSeq0 (fixed lat : Nat) (blks : SMap KvBlk) (tabs : SMap KvTab) : KvSeq := ⟨0, 1, 0, 2, fixed, lat, 1, blks, tabs, false⟩
def kvWith (k : KvSeq) (f : SMap KvFrame) : State := { kvEmpty with kv := { Kv.init with seqs := [(0, k)], frames := f } }
def kvOpened : State := kvWith (kvSeq0 0 0 [] []) []
def liveFrame (table : Bool) (refs : Nat) : KvFrame := ⟨0, 1, .live, table, refs, none⟩
def kvBlks : SMap KvBlk := [(0, ⟨0, [8, 9], true, .live⟩), (1, ⟨1, [8, 9], true, .live⟩)]
def kvTabs : SMap KvTab := [(0, ⟨1, [(0, 10)]⟩), (1, ⟨1, [(0, 10)]⟩)]
def kvFrames (refs : Nat) : SMap KvFrame :=
  [(8, liveFrame false refs), (9, liveFrame false refs), (10, liveFrame true 1), (2056, liveFrame false refs), (2057, liveFrame false refs),
   (2058, liveFrame true 1)]
def kvFixed : State := kvWith (kvSeq0 20 20 kvBlks kvTabs) (kvFrames 1)
def kvGrown : State :=
  kvWith (kvSeq0 20 40 (kvBlks ++ [(2, ⟨2, [8, 9], true, .latent⟩)]) (kvTabs ++ [(2, ⟨1, [(0, 10)]⟩)]))
    (kvFrames 1 ++ [(4104, ⟨0, 1, .latent, false, 1, none⟩), (4105, ⟨0, 1, .latent, false, 1, none⟩), (4106, liveFrame true 1)])

/-- Sequence 1 of holder 1 beside sequence 0: its blocks hold the whole pool on core 2. -/
def kvFull : State :=
  { kvFixed with kv := { kvFixed.kv with
      seqs := kvFixed.kv.seqs ++ [(1, ⟨0, 1, 0, 2, 320, 320, 1, (upFrom 0 4).map (fun m => (2 + 4 * m, ⟨2, [8 + 2 * m, 9 + 2 * m], true, .live⟩)),
        [(2, ⟨1, [(0, 16)]⟩)], false⟩)]
      frames := kvFixed.kv.frames ++ (upFrom 4104 8).map (fun f => (f, liveFrame false 1)) } }

/-- The sequence that handle 0 names has a property. -/
def kvHas (s : State) (P : KvSeq → Bool) : Bool :=
  match kvHandle 0 s with
  | some (0, k) => P k
  | _ => false

/-- KvHandleCommands: FIX of a sequence with and without latent tokens, CLEAR, STAT, FREE, FADEHIT, and FADEQ with a fade record
after the token asked for and with none. -/
theorem test_witness_kv_handles :
    kvHas kvGrown (fun k => decide (k.fixed < k.lat)) = true ∧ kvHas kvFixed (fun k => decide (k.lat = k.fixed)) = true
    ∧ KvGoes .fix (kvReq 0 0 7 0) kvGrown ∧ KvGoes .fix (kvReq 0 0 7 0) kvFixed
    ∧ (∀ op ∈ [KvOp.clear, .stat, .free, .fadehit, .fadeq], KvGoes op (kvReq 0 0 0 0) kvGrown)
    ∧ (let s := { kvGrown with kv := { kvGrown.kv with fades := [⟨0, 0, 16⟩, ⟨0, 32, 8⟩] } }
       KvGoes .fadeq (kvReq 0 0 15 0) s
       ∧ (∀ g ∈ s.kv.fades, g.idx = 0 → 15 < g.start + g.len → g = ⟨0, 0, 16⟩ ∨ (0 : Nat) < g.start)
       ∧ KvGoes .fadeq (kvReq 0 0 40 0) s ∧ ∀ g ∈ s.kv.fades, g.idx = 0 → g.start + g.len ≤ 40) := by
  unfold KvGoes; decide +kernel

/-- KvReceipt: requests with the ledger on and off; one behind a waiting command that names its handle. -/
theorem test_witness_kv_receipt :
    (inService kvEmpty = true ∧ flag R.KVL_CTRL 0 kvEmpty = true) ∧ flag R.KVL_CTRL 0 serving = false
    ∧ kvBlocked (kvReq 2 0 5 0) [⟨kvReq 2 0 5 0, .held, []⟩] = true
    ∧ ((⟨5, 0, false, kvReq 2 0 5 0⟩ : KvIn).late = false ∧ (1 : Nat) < 2) := by decide +kernel

/-- KvOpenAndRefusals: no handle is open; a reserved field; OPEN of index 0; QUOTA of holders that are and are not enabled, and
from a window. -/
theorem test_witness_kv_open :
    kvHandle 0 kvEmpty = none
    ∧ (∀ op ∈ [KvOp.append, .fix, .clear, .fork, .free, .fadeq, .refill, .fadehit, .stat], KvGoes op (kvReq 0 0 1 0) kvEmpty)
    ∧ (let q := kvWithOp (kvReq 0x200 0 1 0) .fix
       kvBlocked q kvEmpty.kv.waits = false ∧ kvReservedOk .fix q = false)
    ∧ KvGoes .open_ (kvReq 0 1 0 0x20) kvEmpty ∧ flag (R.KVL_HOLDER_CFG_EN 1) 0 kvEmpty = true
    ∧ flag (R.KVL_POOL_CFG0_EN (rd (R.KVL_HOLDER_CFG_POOL 1) 0 kvEmpty)) 0 kvEmpty = true
    ∧ (rd (R.KVL_POOL_CFG0_TOWERS (rd (R.KVL_HOLDER_CFG_POOL 1) 0 kvEmpty)) 0 kvEmpty).testBit (bitsAt 0x20 0 2) = true
    ∧ bitsAt 0x20 2 2 = 0 ∧ bitsAt 0x20 4 4 ≤ 10 ∧ mhas 0 kvEmpty.kv.seqs = false
    ∧ KvGoes .quota (kvReq 0 255 (2 ^ 24 - 1) 0) kvEmpty ∧ flag (R.KVL_HOLDER_CFG_EN 255) 0 kvEmpty = false
    ∧ KvGoes .quota (kvReq 0 1 0 0) kvEmpty
    ∧ KvGoes .quota { kvReq 0 255 5 0 with src := .window 0 3 } kvEmpty := by
  unfold KvGoes; decide +kernel

/-- What the engine decides on an append of 20 tokens to sequence 0. -/
def appendGrant (s : State) (P : KvGrant → Bool) : Bool :=
  kvHas s (fun k => decide (k.lat ≤ k.fixed)
    && (match appendBlocks k (kvReq 0 0 20 0) s with
        | some bs => decide (sharedTail k (kvShift (seqPool k s) s) s = none) && !countOver k (kvDepth (seqPool k s) s) bs
          && P (kvGrant (seqPool k s) k.holder 0 (blockNeeds k (kvDepth (seqPool k s) s) bs) s)
        | none => false))

/-- KvAllocations: an append that is granted, one over its holder's quota, and one for which two blocks must fade. -/
theorem test_witness_kv_append :
    KvGoes .append (kvReq 0 0 20 0) kvOpened ∧ KvGoes .append (kvReq 0 0 20 0) kvFull
    ∧ appendGrant kvOpened (fun g => match g with | .now _ => true | _ => false) = true
    ∧ appendGrant (wr (R.KVL_HOLDER_CFG_QUOTA 1) 0 2 kvOpened) (fun g => match g with | .refuse st => decide (st = 0x12) | _ => false) = true
    ∧ appendGrant kvFull (fun g => match g with | .fade vs _ => decide (vs = [(1, 2), (1, 6)]) | _ => false) = true := by
  unfold KvGoes; decide +kernel

/-- Sequence 0 with its blocks faded, in the tables or out of them. -/
def kvAllFaded (tab : Bool) : State :=
  { kvFixed with kv := { kvFixed.kv with seqs := kvFixed.kv.seqs.map (fun e =>
      (e.1, { e.2 with blks := e.2.blks.map (fun b => (b.1, { b.2 with cls := .faded, inTab := tab })) })) } }

/-- KvAllocations: FORK of 20 tokens to holder 1, and REFILL of block 0 once it has faded, in its table and after a fence. -/
theorem test_witness_kv_fork_refill :
    KvGoes .fork (kvReq 0 0 20 1) kvFixed ∧ freeIndex kvFixed = some 1 ∧ rd (R.KVL_HOLDER_CFG_POOL 1) 0 kvFixed = 0
    ∧ flag (R.KVL_HOLDER_CFG_EN 1) 0 kvFixed = true
    ∧ kvHas kvFixed (fun k => decide ((forkFades k 1 (ceilDiv 20 (2 ^ kvShift 0 kvFixed)) (kvShift 0 kvFixed) kvFixed.kv.fades).length ≤ fadeMax)
        && (match kvGrant 0 1 0 (forkNeeds k (ceilDiv 20 (2 ^ kvShift 0 kvFixed)) (kvDepth 0 kvFixed)) kvFixed with
            | .now _ => true | _ => false)) = true
    ∧ (∀ tab ∈ [true, false], let s := kvAllFaded tab
       KvGoes .refill (kvReq 0 0 5 0) s ∧ kvHas s (fun k => match mget (5 / 2 ^ kvShift 0 s) k.blks with
        | some b => decide (b.cls = .faded)
          && (match refillNeeds k (kvDepth 0 s) 0 b s with
              | some ns => (match kvGrant 0 k.holder 0 ns s with | .now _ => true | _ => false)
              | none => false)
        | none => false) = true) := by
  unfold KvGoes; decide +kernel

/-- The read of the ledger window of core 0 stands at the head of its shaft's queue, with one plate over core 0. -/
def kvWindowAt (tail : Nat) : State :=
  let s := withPlate { Plate.free with st := .loaded, img := some { blank with ledger := [0] }, active := some 0 } kvEmpty
  let s := { s with kv := { s.kv with tails := [(0, tail)] } }
  s.setShaft 0 { s.shaft 0 with hostq := [⟨.window .ledger, 0, false, 0, ledgerBase, 2048, [], true⟩] }

/-- KvEngine: a served window read with 63 and with 64 new requests, and one of a hole. -/
theorem test_witness_kv_window :
    let s := kvWindowAt (2 ^ 32 - 63)
    inService s = true ∧ posOf 0 = 0 ∧ (s.shaft 0).hostq = [⟨.window .ledger, 0, false, 0, ledgerBase, 2048, [], true⟩] ∧ inSlot s = true
    ∧ (s.shaft 0).lent = false ∧ isHole 0 s = false ∧ (s.shaft (pathOf 0 s)).lost = false ∧ (s.shaft 0).slotNs + 10240 ≤ 50400
    ∧ (s.shaft 0).slotGran < 2 ∧ isLedgerCore 0 s = true ∧ flag R.KVL_CTRL 0 s = true
    ∧ leNat (((upFrom ledgerBase 2048).map (fun a => fixedByte 0 a s)).take 4) = 0
    ∧ (0 + 2 ^ 32 - mgetD 0 0 s.kv.tails) % 2 ^ 32 = 63
    ∧ (0 + 2 ^ 32 - mgetD 0 0 (kvWindowAt (2 ^ 32 - 64)).kv.tails) % 2 ^ 32 = 64
    ∧ isHole 0 (wr (R.TWR_SHIFT_HOLE 0) 0 1 s) = true := by decide +kernel

theorem test_witness_kv_window_clean : CleanFixed 0 ledgerBase 2048 (kvWindowAt (2 ^ 32 - 63)) := by
  have h : ∀ u ∈ unitsOf ledgerBase 2048,
      storedPoison 0 u (kvWindowAt (2 ^ 32 - 63)) = false ∧ unwrittenBad 0 u (kvWindowAt (2 ^ 32 - 63)) = false := by decide +kernel
  exact ⟨by decide, fun u hu => h u hu⟩

/-- Block 1 is shared by a fork, and an append of 5 tokens waits for its copies; nothing is left to copy. -/
def kvWaiting (ready : Bool) : KvWait :=
  ⟨kvReq 2 0 5 0, .copying false true ready, [(⟨1, some 0, .copy 1 0⟩, 12), (⟨1, some 0, .copy 1 1⟩, 13)]⟩
def kvCopied : State :=
  let s := kvWith (kvSeq0 20 20 kvBlks kvTabs) (kvFrames 2)
  { s with kv := { s.kv with waits := [kvWaiting false], resv := [2060, 2061] } }

/-- KvEngine: the copies of an append are made, and it switches; configuration words, and a pool that is busy, wrongly or rightly
configured; the sorter's first round, and one that is not over. -/
theorem test_witness_kv_engine :
    (inService kvCopied = true ∧ kvCopied.kv.waits[0]? = some (kvWaiting false) ∧ copiesDone (kvWaiting false) kvCopied = true)
    ∧ (let w := kvWaiting true
       w.stage = .copying false true true ∧ kvLost w kvCopied = false ∧ kvOp w.req = some .append ∧ kvNames w.req = some 0
        ∧ kvCopied.kvSeq 0 = some (kvSeq0 20 20 kvBlks kvTabs)
        ∧ mget (20 / 2 ^ kvShift (seqPool (kvSeq0 20 20 kvBlks kvTabs) kvCopied) kvCopied) kvBlks = some ⟨1, [8, 9], true, .live⟩
        ∧ gotBlocks w.got = [])
    ∧ (flag (H.EN .kvl) 0 (wr (H.EN .kvl) 0 1 serving) = true ∧ serving.late = [])
    ∧ (rd (R.KVL_POOL_LIVE 0) 0 (wr (R.KVL_POOL_LIVE 0) 0 1 serving) = 1
      ∧ rd (R.KVL_POOL_LIVE 1) 0 kvEmpty + rd (R.KVL_POOL_LATENT 1) 0 kvEmpty + rd (R.KVL_POOL_FADED 1) 0 kvEmpty = 0
      ∧ (let bad (cfg : Nat) := poolReserved (bitsAt cfg 5 11) (bitsAt cfg 16 11) (bitsAt cfg 1 4) kvEmpty
           || poolOverlaps 1 (bitsAt cfg 5 11) (bitsAt cfg 16 11) (bitsAt cfg 1 4) kvEmpty || decide (bitsAt cfg 16 11 < bitsAt cfg 5 11)
         bad (1 + 2 + 256 * 32 + 271 * 65536) = false ∧ bad (1 + 2 + 8 * 32 + 271 * 65536) = true ∧ bad (1 + 2 + 271 * 32 + 256 * 65536) = true))
    ∧ (let s := wr R.KVL_BUCKET_CTRL_EN 0 1 (wr R.KVL_BUCKET_N 0 5 kvEmpty)
       inService s = true ∧ flag R.KVL_BUCKET_CTRL_EN 0 s = true ∧ rd R.KVL_BUCKET_N 0 s ≠ 0 ∧ s.frame % rd R.KVL_BUCKET_N 0 s = 0
        ∧ s.kv.round = none ∧ (⟨5, 0, 0, 2, [], .sorting⟩ : KvRound).gen ≠ s.frame) := by decide +kernel

/-! ### One step: the ledger (09 R284 to R289) -/

theorem test_kv_open : ((kvAt .open_ (kvReq 0x70000 1 0 0x20) 5 kvEmpty).kv.resps.map (fun r => (r.op, r.status, r.tag, r.word1))) = [(1, 0, 7, 0)] := by
  decide +kernel
theorem test_kv_fix_clamps : let t := kvAt .fix (kvReq 0 0 50 0) 5 kvGrown
    (t.kv.resps.map (fun r => (r.status, r.res0, r.res1))) = [(3, 40, 40)] := by decide +kernel
theorem test_kv_clear : ((kvAt .clear (kvReq 0 0 0 0) 5 kvGrown).kvSeq 0).map (fun k => (k.lat, k.blks.length)) = some (20, 2) := by decide +kernel

/-! ### Witnesses: reduction channels -/

/-- Channel 63 is open; this device is rank 0 of ranks 0 and 1, so that it leads; spans of two cores from core 0. -/
def redState : State :=
  wr R.RED_CTRL_EN 63 1 (wr R.RED_STAT_STATE 63 1 (wr R.RED_MEMBERS 63 3 (wr R.RED_SPAN_K 63 1 purged)))

/-- Bucket 5 with 256 segments, FP32 throughout. -/
def bucket (phase : RedPhase) (roster : Option Nat) (first : Nat) (passed : SMap Nat) (got : List Nat) : RedBkt :=
  { seq := 5, idx := 0, core := 0, w0 := 63, src := 0, acc := 0x100000, res := 0x200000, phase := phase, roster := roster,
    first := first, dropped := 0, misses := 0, passed := passed, pulls := [(1, 255)], held := [], checked := [], miss := false,
    sent := false, mirror := [], got := got, resHeld := [], conv := [], poison := false, gone := 0, tag := 0 }

def redWith (k : RedChan) : State := redState.setChan 63 k

/-- The read of a seal or parity window of core 0 heads its shaft's queue. -/
def windowAt (k : WinKind) (base : Nat) (s : State) : State :=
  s.setShaft 0 { s.shaft 0 with hostq := [⟨.window k, 0, false, 0, base, 2048, [], true⟩] }

theorem test_witness_seal_window : ∃ z, WindowHead .seal 0 0x1017E000 (windowAt .seal 0x1017E000 redState) z := by
  have h : ∀ u ∈ unitsOf 0x1017E000 2048, storedPoison 0 u (windowAt .seal 0x1017E000 redState) = false
      ∧ unwrittenBad 0 u (windowAt .seal 0x1017E000 redState) = false := by decide +kernel
  exact ⟨_, [], by decide +kernel, by decide +kernel, by decide +kernel, by decide +kernel, by decide +kernel, by decide +kernel,
    by decide +kernel, ⟨by decide +kernel, fun u hu => h u hu⟩, rfl⟩

/-- SealsAndRosters: a seal window with 63 and with 64 new requests; SEALs of ranks 0 and 63; every rank has sealed bucket 5. -/
theorem test_witness_seals :
    inService redState = true ∧ flag R.RED_CTRL_EN 63 redState = true ∧ redBase 63 redState = 0 ∧ redState.red.sealTails = []
    ∧ (0 + 2 ^ 32 - (2 ^ 32 - 63)) % 2 ^ 32 = 63 ∧ 63 < (0 + 2 ^ 32 - (2 ^ 32 - 64)) % 2 ^ 32
    ∧ RedChan.init.fixed.contains 5 = false ∧ (∀ e ∈ mgetD 5 [] (⟨[], [(5, [(0, 63)])], [], [], []⟩ : RedChan).heard, e.1 ≠ 63)
    ∧ FlitNext 17 6 (flitW 6 3 0 0 0 0 0) (linkUp 1 redState)
    ∧ (let s := redWith ⟨[], [(5, [(0, 63), (1, 64)])], [], [], []⟩
       redLeader 63 s = redRank 63 s ∧ keysRise (s.chan 63).heard = true ∧ mget 5 (s.chan 63).heard = some [(0, 63), (1, 64)]
        ∧ ∀ r, r < 64 → (redMembers 63 s).testBit r = true → ([(0, 63), (1, 64)] : List (Nat × Nat)).any (fun e => decide (e.1 = r)) = true) := by
  unfold FlitNext FlitGood; decide +kernel

/-- The flits of a segment of rank 1 that came as stream 3 of port 2, then one flit of stream 4. -/
def segment (kind seq w : Nat) : SegMsg := ⟨1, BitVec.ofNat 16 kind, BitVec.ofNat 32 seq, 255, BitVec.ofNat 32768 (w + 2 ^ 1024), 0⟩
def segmentCame (first kind w : Nat) (m : SegMsg) (s : State) : State :=
  s.setPort 2 { s.port 2 with redq := (segWant first kind w m).map (fun f => (3, f)) ++ [(4, Flit.none)], redHeld := w + 2 }

/-- ReductionMessages, ReductionResults: a contribution and a result whose flits have come on the port of rank 1, and ones
whose have not. -/
theorem test_witness_segment :
    let s := wr (R.RED_ROUTE_PORT 1) 63 2 (redWith ⟨[bucket .apply (some 3) 3 [] []], [], [], [5], []⟩)
    rd (R.RED_ROUTE_PORT (segment 0 5 7).rank.val) 63 s = 2
    ∧ (segTaken 2 63 0 32 (segment 0 5 7) (segmentCame 63 0 32 (segment 0 5 7) s)).isSome = true
    ∧ segTaken 2 63 0 32 (segment 0 5 8) (segmentCame 63 0 32 (segment 0 5 7) s) = none
    ∧ (segTaken 2 63 1 32 (segment 0 5 7) (segmentCame 63 1 32 (segment 0 5 7) s)).isSome = true
    ∧ (segTaken 2 67 2 32 (segment 0 4 7) (segmentCame 67 2 32 (segment 0 4 7) s)).isSome = true := by decide +kernel

/-- ReductionMessages: PULL and contribution of a bucket that is open, awaited or not; a CHECK of one of two ranks and of both; a
verdict in the check phase. -/
theorem test_witness_reduction :
    let b := bucket .apply (some 3) 3 [] []
    let s := redWith ⟨[b], [], [], [5], []⟩
    inService s = true ∧ FlitNext 17 6 (flitW 6 3 0 0 0 0 0) (linkUp 7 s) ∧ s.bkt 63 5 = some b ∧ b.pulls.contains (1, 255) = true ∧ b.pulls.contains (1, 254) = false ∧ b.phase ≠ .spread
    ∧ redLeader 63 s = redRank 63 s ∧ ranksOf 3 = [0, 1]
    ∧ (∃ r ∈ ranksOf (b.roster.getD 0), ∀ e ∈ [((1 : Nat), true)], e.1 ≠ r)
    ∧ (∀ r ∈ ranksOf (b.roster.getD 0), ∃ e ∈ [((0 : Nat), true), (1, true)], e.1 = r) := by unfold FlitNext FlitGood; decide +kernel

/-- ReductionMessages: the mirror check of one of two shares that this rank owns, whose segments have been passed. -/
theorem test_witness_mirror :
    let b := bucket .apply (some 1) 3 ((upFrom 0 256).map (fun g => (g, 1))) []
    let s := redWith ⟨[b], [], [], [5], []⟩
    redActive 63 s = some b ∧ (b.myShares (redRank 63 s)).contains 0 = true ∧ b.checked.contains 0 = false
    ∧ shareApplied 63 b 0 s = true ∧ (1 ∈ b.myShares (redRank 63 s) ∧ b.checked.contains 1 = false) := by decide +kernel

/-- ReductionResults: the last result segment; all of them written; one missing. -/
theorem test_witness_results :
    let b := bucket .spread (some 3) 3 [] []
    let s := redWith ⟨[b], [], [], [5], []⟩
    b.got.contains 255 = false ∧ 255 < b.segs ∧ b.resHeld = []
    ∧ (s.shaft (posOf (segCore 63 255 s))).inbox + 4 * redBits b.outFmt ≤ 2048 ∧ 2048 < 2000 + 4 * redBits b.outFmt
    ∧ (let d := bucket .spread (some 3) 3 [] (upFrom 0 256)
       (redWith ⟨[d], [], [], [5], []⟩).bkt 63 5 = some d ∧ d.roster.isSome = true ∧ d.segs ≤ d.got.length
        ∧ openTags (resKey 63 5) (redWith ⟨[d], [], [], [5], []⟩) = [])
    ∧ b.got.length < b.segs := by decide +kernel

/-- ReductionFailures: SEALs that wait; a pull and a CHECK of rank 1 that wait; a leader other than this rank; the hold. -/
theorem test_witness_reduction_failures :
    let b := bucket .apply (some 3) 3 [] []
    let s := redWith ⟨[b], [(6, [(0, 63)])], [], [5], []⟩
    Awake s ∧ redLeader 63 s = redRank 63 s ∧ mhas 6 (s.chan 63).heard = true ∧ s.bkt 63 5 = some b ∧ b.phase ≠ .spread
    ∧ (3 : Nat).testBit 1 = true ∧ b.pulls.any (fun x => decide (x.1 = 1)) = true
    ∧ (mgetD 5 [] (s.chan 63).checks).any (fun e => decide (e.1 = 1)) = false
    ∧ (let t := wr R.RED_CTRL_RANK 63 1 redState
       redLeader 63 t ≠ redRank 63 t ∧ (redMembers 63 t).testBit 0 = true ∧ (t.chan 63).bkts = [])
    ∧ flag (H.EN .red) 63 (wr (H.EN .red) 63 1 redState) = true
    ∧ FlitNext 17 6 (flitW 6 3 0 0 0 0 0) (linkUp 1 s)
    ∧ ({ redState with red := { Red.init with hold := some [] } } : State).red.hold.isSome = true := by
  unfold Awake FlitNext FlitGood; decide +kernel

/-! ### Witnesses: parity groups and snapshots -/

/-- Parity group 3 of ranks 0 and 1 at generation 4, in a state of PAR_STAT; this device is rank 0; units of one segment. -/
def parS (st : Nat) (k : ParGrp) : State :=
  let s := wr (R.PAR_CFG_EN 3) 0 1 (wr (R.PAR_CFG_GM1 3) 0 1 (wr (R.PAR_STAT_STATE 3) 0 st purged))
  s.setGrp 3 k
def parK : ParGrp := { ParGrp.init with present := 3, gen := 4 }

theorem test_witness_parity_messages :
    inService (parS 1 parK) = true ∧ FlitNext 17 6 (flitW 6 3 0 0 0 0 0) (linkUp 1 (parS 1 parK)) ∧ flag (R.PAR_CFG_EN 3) 0 (parS 1 parK) = true ∧ parBase 3 (parS 1 parK) = 0
    ∧ (parS 1 parK).red.parTails = [] ∧ ((parS 1 parK).grp 3).gen = 4 ∧ parK.cleared.contains 15 = false ∧ parState 3 (parS 1 parK) = 1
    ∧ parK.posted = none ∧ 0 < parSegs 3 (parS 1 parK) ∧ parK.got.contains (1, 0) = false
    ∧ parLeader 3 (parS 1 parK) = parRank 3 (parS 1 parK) ∧ parK.dones.contains 1 = false
    ∧ (0 ∈ ranksOf parK.present ∧ (0 : Nat) ≠ 1 ∧ 0 ∉ parK.dones)
    ∧ (∀ r ∈ ranksOf parK.present, r = 1 ∨ r ∈ ({ parK with dones := [0] } : ParGrp).dones) ∧ parK.present.testBit 1 = true
    ∧ parState 3 (parS 2 parK) = 2 ∧ parState 3 (parS 3 parK) = 3
    ∧ flag (H.EN .par) 0 (wr (H.EN .par) 0 1 (parS 1 parK)) = true ∧ parState 3 (parS 1 parK) ≠ 4 := by
  unfold FlitNext FlitGood; decide +kernel

theorem test_witness_parity_window : ∃ z, WindowHead .parity 0 0x1017D000 (windowAt .parity 0x1017D000 (parS 1 parK)) z := by
  have h : ∀ u ∈ unitsOf 0x1017D000 2048, storedPoison 0 u (windowAt .parity 0x1017D000 (parS 1 parK)) = false
      ∧ unwrittenBad 0 u (windowAt .parity 0x1017D000 (parS 1 parK)) = false := by decide +kernel
  exact ⟨_, [], by decide +kernel, by decide +kernel, by decide +kernel, by decide +kernel, by decide +kernel, by decide +kernel,
    by decide +kernel, ⟨by decide +kernel, fun u hu => h u hu⟩, rfl⟩

/-- The last segment of a rebuild; a PULL of the generation that is committed. -/
theorem test_witness_rebuild :
    let k : ParGrp := { parK with rebuild := some 4, mine := true, pulls := [(1, 0, 0)] }
    k.rebuild = some 4 ∧ k.mine = true ∧ k.pulls.contains (1, 0, 0) = true
    ∧ parState 3 (parS 3 k) = 3 ∧ (4 : Word).toNat = rd (R.PAR_COMMIT 3) 0 (wr (R.PAR_COMMIT 3) 0 4 (parS 3 k)) := by decide +kernel

/-- A set of page 2,047 of core 0, staged in pages 0 to 3. -/
def snapSet : State :=
  wr (R.SNAP_DESC_VALID 0) 0 1 (wr (R.SNAP_DESC_PAGES 0) 0 1 (wr (R.SNAP_DESC_BASE 0) 0 (2047 * 65536)
    (wr R.SNAP_STAGE_COUNT 0 4 (wr (H.EN .snap) 0 1 purged))))
/-- A snapshot of it runs, with the pages copied so far. -/
def snapping (pages : SMap SnapPage) (ps : Nat) : State :=
  { snapSet with snap := ⟨none, true, [⟨0, 1, 2047, 1⟩], 0, 4, pages, []⟩ }.setCore 0
    { lit 0 with cfg := { (lit 0).cfg with ps := ps } }

/-- Snapshots: a set that is armed, one without descriptors, one whose core runs a plate without a reserve. -/
theorem test_witness_snapshot_arm :
    flag (H.EN .snap) 0 snapSet = true ∧ flag (H.APPLY .snap) 0 snapSet = false ∧ snapSet.snap.on = false
    ∧ snapBadSet snapSet = false ∧ snapNoReserve snapSet = false ∧ snapBadSet (wr (R.SNAP_DESC_VALID 0) 0 0 snapSet) = true
    ∧ snapNoReserve (withPlate { Plate.free with
        st := .running, img := some { blank with recs := [⟨0, 1000, 0, 0, 8, 2, 0⟩] }, job := some running } snapSet) = true := by
  decide +kernel

/-- Snapshots: the first write of the last page, one over P_s, the last piece in the background, a page to drain, a CANCEL. -/
theorem test_witness_snapshot_copy :
    inService (snapping [] 1) = true ∧ (snapping [] 1).snap.on = true ∧ protectedPage 0 2047 (snapping [] 1) = true
    ∧ freeStage 0 (snapping [] 1) = some 0 ∧ mgetD 0 0 (snapping [] 1).snap.firsts < ((snapping [] 1).core 0).cfg.ps
    ∧ ((snapping [] 0).core 0).cfg.ps ≤ mgetD 0 0 (snapping [] 0).snap.firsts
    ∧ mget (snapKey 0 2047) (snapping [(snapKey 0 2047, ⟨3, 15, false⟩)] 1).snap.pages = some ⟨3, 15, false⟩
    ∧ protectedPage 0 2047 (snapping [(snapKey 0 2047, ⟨3, 15, false⟩)] 1) = true
    ∧ (snapping [(snapKey 0 2047, ⟨3, 16, false⟩)] 1).snap.pages.find? (fun e => decide (e.1 / 2048 = 0) && decide (e.2.pieces = 16) && !e.2.drained)
        = some (snapKey 0 2047, ⟨3, 16, false⟩)
    ∧ (let s := wr (R.ABA_WIN_CTRL_EN 0) 0 1 (wr (R.ABA_WIN_CTRL_WRITE 0) 0 1 (wr (R.ABA_WIN_SIZE 0) 0 65536 (snapping [] 1)))
       flag R.SNAP_CTRL_DEST 0 s = false
       ∧ ∀ i, i < 16 → dmaOk true (rd R.SNAP_DEST 0 s + (imageOffset 0 2047 s.snap.descs 0 0).1 + 4096 * i) 4096 s = true) := by
  decide +kernel

/-- The copier takes the lowest protected page, between the chunks of its DRAM layer and of the stage's: the last piece of a page
under way, and the first of one that has four stage slots free. -/
theorem test_witness_copier :
    let s (pages : SMap SnapPage) := { snapping pages 1 with timebase := 50 }
    (let t := s [(snapKey 0 2047, ⟨3, 15, false⟩)]
     inService t = true ∧ copierPage 0 t = some 2047 ∧ portIdle 0 (pageLayer 2047) t = true ∧ portIdle 0 (pageLayer (t.snap.stage + 3)) t = true
      ∧ t.snap.stage + 3 < 2048 ∧ t.snap.stage + 3 ≠ 2047 ∧ protectedPage 0 2047 t = true)
    ∧ (let t := s []
       copierPage 0 t = some 2047 ∧ mget (snapKey 0 2047) t.snap.pages = none ∧ (slotsUsed 0 t).length + 4 ≤ t.snap.count
        ∧ freeStage 0 t = some 0 ∧ portIdle 0 (pageLayer t.snap.stage) t = true) := by decide +kernel

/-! ### Witnesses: the Ray ports -/

/-- Port 17 in a state and a role, in group frame 9; `k` is the port's record. -/
def rayS (st role : Nat) (k : RayPort) : State :=
  let s := wr R.RAY_STAT_STATE 17 st (wr R.RAY_CTRL_ROLE 17 role (wr R.GLB_GROUP_FRAME 0 9 serving))
  { s with ray := [(17, k)] }

/-- A plate whose stream 31 of port 17 ends here (bit 0 clear) or goes on to port 3, stream 2. -/
def streamed (w : Nat) (s : State) : State :=
  withPlate { Plate.free with img := some { blank with streams := [(17 * 32 + 31, w)] } } s

/-- RayLinkTakes: flits that are next, of every type; and ones that the link refuses: a wrong CRC, a wrong type, a class that the
role does not carry, a full buffer, one out of order and a repeat; a port that is not UP. -/
theorem test_witness_ray_link :
    let s := rayS 2 1 { RayPort.init with rxSeq := 4095, occMain := 12287 }
    Linked s ∧ FlitNext 17 0 (flitW 0 0 4095 31 9 127 5) s ∧ FlitNext 17 1 (flitW 1 1 4095 31 9 0 0) s
    ∧ FlitNext 17 5 (flitW 5 3 4095 0 0 1 0) s ∧ FlitNext 17 6 (flitW 6 3 4095 0 0 0 0) s := by
  unfold Linked FlitNext FlitGood; decide +kernel

theorem test_witness_ray_link_refuses :
    let s := rayS 2 1 { RayPort.init with rxSeq := 4095, occMain := 12287 }
    FlitNext 17 3 (flitW 3 2 4095 0 0 0 0) (rayS 2 6 { RayPort.init with rxSeq := 4095 })
    ∧ crcGood ⟨0, 1⟩ = false ∧ (flitW 4 2 0 0 0 0 0).type ≠ 3 ∧ typeCls 0 (flitW 0 2 0 0 0 0 0).cls = false
    ∧ roleCarries 17 (clsOf (flitW 3 2 0 0 0 0 0).cls) s = false
    ∧ FlitGood 17 0 (flitW 0 0 4095 0 0 0 0) s ∧ classFull 17 false (rayS 2 1 { RayPort.init with occMain := 12288 }) = true
    ∧ FlitGood 17 0 (flitW 0 0 0 0 0 0 0) s ∧ ((flitW 0 0 0 0 0 0 0).seq + 4096 - 4095) % 4096 = 1
    ∧ ((flitW 0 0 4094 0 0 0 0).seq + 4096 - 4095) % 4096 = 4095 ∧ rayUp 17 (rayS 3 1 RayPort.init) = false := by
  unfold FlitNext FlitGood; decide +kernel

/-- RayMeshFlits: a flit of this frame, of a frame long past, of a missed release, for a transit port, and without a stream; a RED
flit; sequence 4,095. -/
theorem test_witness_mesh :
    let k := { RayPort.init with rxSeq := 4095, missed := [(31, 8)] }
    let s (w : Nat) := streamed w (rayS 2 1 k)
    Linked (s 0) ∧ tagFrame 9 (s 0) = 9 ∧ FlitNext 17 0 (flitW 0 0 4095 31 9 0 0) (s 0) ∧ streamOf 17 31 9 (s 0) = some (0, 1)
    ∧ groupFrame (s 0) ≤ 9 + 1 + 1 ∧ ((s 0).port 17).missed.contains (31, 9 + 1 + 1) = false
    ∧ FlitNext 17 0 (flitW 0 0 4095 31 6 0 0) (s 0) ∧ tagFrame 6 (s 0) = 6 ∧ streamOf 17 31 6 (s 0) = some (0, 1)
    ∧ ((s 0).port 17).missed.contains (31, 6 + 1 + 1) = true ∧ tagFrame 5 (s 0) = 5 ∧ 5 + 1 + 1 < groupFrame (s 0)
    ∧ ((s 0).port 17).missed.contains (31, 5 + 1 + 1) = false
    ∧ FlitNext 17 0 (flitW 0 1 4095 31 9 0 0) (s 0) ∧ FlitNext 17 1 (flitW 1 0 4095 31 9 0 0) (s 0)
    ∧ streamOf 17 31 9 (s 0xC7) = some (0xC7, 1) ∧ 0xC7 % 2 = 1
    ∧ FlitNext 17 0 (flitW 0 0 4095 31 9 0 0) (rayS 2 1 k) ∧ streamOf 17 31 9 (rayS 2 1 k) = none := by
  unfold Linked FlitNext FlitGood; decide +kernel

/-- RayControlFlits: a credit; an ACK, a NAK and a REPLAY_REQ of the second of three unacknowledged flits. -/
def rf : RFlit := ⟨.slot, 0, some 0, .mesh Flit.none⟩
theorem test_witness_control :
    let l : List (Nat × Nat × RFlit) := [(4094, 0, rf), (4095, 0, rf), (0, 0, rf)]
    let s := rayS 2 1 { RayPort.init with replay := l }
    let ackW (t : Nat) := withCrc (t + 3 * 2 ^ 4 + 4094 * 2 ^ 20) 4095
    Linked s ∧ FlitNext 17 5 (flitW 5 3 0 0 0 5 0) s
    ∧ FlitGood 17 7 (withCrc (7 + 3 * 2 ^ 4 + 4095 * 2 ^ 20) 0) s ∧ (withCrc (7 + 3 * 2 ^ 4 + 4095 * 2 ^ 20) 0).ack = 4095
    ∧ (s.port 17).replay = [(4094, 0, rf)] ++ (4095, 0, rf) :: [(0, 0, rf)] ∧ (∀ g ∈ [((4094 : Nat), (0 : Nat), rf)], g.1 ≠ 4095)
    ∧ FlitGood 17 8 (ackW 8) s ∧ ((rayAck 17 (ackW 8).ack s).port 17).replay ≠ []
    ∧ FlitGood 17 9 (ackW 9) s ∧ bitsAt (ackW 9).pay.toNat 0 12 = 4095
    ∧ ((rayAck 17 (ackW 9).ack s).port 17).replay = [] ++ (4095, 0, rf) :: [(0, 0, rf)] := by
  unfold Linked FlitNext FlitGood; decide +kernel

/-- RayControlFlits: a beacon toward the leader of a board, a proposal at the leader, and one on the wrong side. -/
theorem test_witness_beacon :
    (let s := { rayS 2 1 RayPort.init with img := { ImgVals.init with level := 4, devId := 6 } }
     Linked s ∧ FlitGood 17 10 (flitW 10 3 0 0 0 0 9) s ∧ towardLeader 17 s = true ∧ flag R.GLB_SYNC_STAT_JOINING 0 s = false
      ∧ s.sync.beacon = none ∧ flag R.GLB_SYNC_STAT_JOINING 0 (wr R.GLB_SYNC_STAT_JOINING 0 1 s) = true)
    ∧ (let s := wr R.GLB_SYNC_LEADER 0 1 (rayS 2 1 RayPort.init)
       FlitGood 17 10 (flitW 10 3 0 0 0 0 9) s ∧ towardLeader 17 s = false ∧ isLeader s = true) := by
  unfold Linked FlitGood; decide +kernel

/-- RayArrayFlits: a descriptor for the last 128 granules of core 4,095, one of 129, and one for another device, toward a z port
with room; data of a transfer under way; a mark of another cell. -/
def descr (dev : BitVec 16) (granules : Nat) : ArrDesc := ⟨dev, 4095, 0x8000000 - 32 * 128, granules, 2, 0⟩
theorem test_witness_array :
    let s := wr R.RAY_CTRL_ROLE 3 7 (rayS 2 6 { RayPort.init with cur := some ⟨some (descr 0 128), 1, 124⟩ })
    Linked s ∧ FlitNext 17 2 (flitW 2 2 0 0 0 0 0) s ∧ (s.port 17).rxArr = [] ∧ descOk (descr 0 128) s = true
    ∧ (descr 0 128).dev.toNat = devId s ∧ descOk (descr 512 128) s = true ∧ (descr 512 128).dev.toNat ≠ devId s
    ∧ onward 17 s = some 3 ∧ arrRoom 3 s = true ∧ descOk (descr 0 129) s = false
    ∧ FlitNext 17 3 (flitW 3 2 0 0 0 0 7) s ∧ (s.port 17).cur = some ⟨some (descr 0 128), 1, 124⟩
    ∧ (s.shaft (posOf 4095)).inbox + 4 ≤ 2048 ∧ FlitNext 17 4 (flitW 4 2 0 0 0 0 0) s ∧ (512 : BitVec 16).toNat ≠ devId s
    ∧ (0 : BitVec 16).toNat = devId s
    ∧ flag (H.EN .ray) 17 (wr (H.EN .ray) 17 1 s) = true ∧ rayZ 17 s = true ∧ (s.port 17).epoch < 1 ∧ (0 : Word).toNat ≤ (s.port 17).epoch
    ∧ rayZ 17 (rayS 2 1 RayPort.init) = false := by
  unfold Linked FlitNext FlitGood; decide +kernel

/-- RaySending: a flit for a credit, one that must wait, the port's own flit, the second resend of two, a transit flit in its frame,
and one that is late. -/
theorem test_witness_sending :
    (let s := wr R.RAY_CRD_AVAIL 17 1 (rayS 2 1 { RayPort.init with sendq := [rf] })
     Linked s ∧ rayUp 17 s = true ∧ (s.port 17).ctl = [] ∧ (s.port 17).resend = 0 ∧ dueTransit 17 s = none ∧ (s.port 17).sendq = rf :: []
      ∧ mayFirst 17 rf.cls s = true ∧ mayFirst 17 rf.cls (wr R.RAY_CRD_AVAIL 17 0 s) = false)
    ∧ ((rayS 2 1 { RayPort.init with ctl := [rf] }).port 17).ctl = rf :: []
    ∧ (let q := (rayS 2 1 { RayPort.init with replay := [(4094, 0, rf), (4095, 127, rf)], resend := 1 }).port 17
       q.ctl = [] ∧ q.replay = [(4094, 0, rf)] ++ (4095, 127, rf) :: [] ∧ q.resend = 0 + 1)
    ∧ (let x : TxTransit := ⟨3, 9, rf⟩
       let s := { wr R.RAY_CRD_AVAIL 17 1 (wr R.GLB_EXP_CUR_LEN 0 100 (rayS 2 1 { RayPort.init with transit := [x] })) with timebase := 60 }
       let late := { s with timebase := 90 }
       inService s = true ∧ dueTransit 17 s = some x ∧ inFix s = false ∧ groupFrame s ≤ x.due
        ∧ rayUp 17 s = true ∧ mayFirst 17 x.flit.cls s = true ∧ (s.port 17).ctl = [] ∧ (s.port 17).resend = 0
        ∧ dueTransit 17 late = some x ∧ inFix late = true) := by
  unfold Linked; decide +kernel

/-- RayTraining: training and retraining that reach four lanes, or one; none; the limits; a retrain with one left and with none. -/
theorem test_witness_training :
    let s (st : Nat) := wr R.RAY_THRESH_RETRAINS 17 1 (wr R.RAY_CTRL_EXP_WIDTH 17 2 (rayS st 1 RayPort.init))
    Linked (s 1) ∧ Awake (s 1) ∧ rayState 17 (s 1) = 1 ∧ rayState 17 (s 3) = 3
    ∧ (⟨3, 0, 0, 0, 1500⟩ : TrainRes).width ≠ 0 ∧ (⟨3, 0, 0, 0, 1500⟩ : TrainRes).latency.toNat ≤ 1500
    ∧ wrongPartner 17 ⟨3, 0, 0, 0, 1500⟩ (s 1) = false ∧ ¬((⟨3, 0, 0, 0, 1500⟩ : TrainRes).width.toNat < rd R.RAY_CTRL_EXP_WIDTH 17 (s 1) + 1)
    ∧ (⟨1, 0, 0, 0, 0⟩ : TrainRes).width.toNat < rd R.RAY_CTRL_EXP_WIDTH 17 (s 1) + 1 ∧ flag R.RAY_CTRL_STRICT 17 (s 1) = false
    ∧ rayState 17 (s 0) = 0 ∧ rayRole 17 (s 0) ≠ 0 ∧ flag R.RAY_CTRL_DISABLE 17 (s 0) = false ∧ 4 ≤ rd R.BOOT_STAT_STATE 0 (s 0)
    ∧ rd R.BOOT_STAT_STATE 0 (s 0) ≠ 9 ∧ rayState 17 (s 2) = 2 ∧ rayState 17 (s 4) = 4
    ∧ flag (H.EN .ray) 17 (wr (H.EN .ray) 17 1 (s 2)) = true
    ∧ ((s 2).port 17).retrains.length < rd R.RAY_THRESH_RETRAINS 17 (s 2)
    ∧ rd R.RAY_THRESH_RETRAINS 17 (s 2) ≤ ({ RayPort.init with retrains := [0] } : RayPort).retrains.length
    ∧ ((s 2).port 17).viol + 1 ≤ rd R.RAY_THRESH_VIOL 17 (wr R.RAY_THRESH_VIOL 17 1 (s 2))
    ∧ rd R.RAY_THRESH_VIOL 17 (s 2) < ({ RayPort.init with viol := 1 } : RayPort).viol
    ∧ (flag (H.APPLY .ray) 17 (s 2) && ticksRun (s 2)) = false := by
  unfold Linked Awake; decide +kernel

/-- SyncGroup: a member of a board, one that rejoins, one that is joining; a swap one frame ahead and one of this frame; a
held view. -/
theorem test_witness_sync :
    let s := wr (H.EN .glb) 0 1 (wr R.GLB_SYNC_LEVEL 0 4 serving)
    inService s = true ∧ isLeader s = false ∧ syncLevel s ≠ 0 ∧ s.acts = [] ∧ Awake s ∧ flag (H.EN .glb) 0 s = true
    ∧ (let t := { wr R.GLB_SYNC_LEVEL 0 0 s with img := { s.img with level := 4 } }
       flag (H.EN .glb) 0 t = true ∧ syncLevel t = 0 ∧ t.img.level ≠ 0)
    ∧ flag R.GLB_SYNC_STAT_JOINING 0 (wr R.GLB_SYNC_STAT_JOINING 0 1 s) = true ∧ flag (H.APPLY .glb) 0 s = false
    ∧ ((1 : Word).toNat + 2 ^ 32 - groupFrame s % 2 ^ 32) % 2 ^ 32 = 1 ∧ ((0 : Word).toNat + 2 ^ 32 - groupFrame s % 2 ^ 32) % 2 ^ 32 = 0
    ∧ flag R.GLB_VIEW_CTRL_HELD 0 (wr R.GLB_VIEW_CTRL_HELD 0 1 s) = true := by
  unfold Awake; decide +kernel

/-! ### Witnesses: plates, rings and results -/

/-- An entry of ring 0 that has been fetched. -/
def entry (op : Nat) : REntry :=
  { idx := 0, op := op, signal := false, barrier := false, tag := 7, plate := 0, entry := 0, slot := 31, noSlot := false, addr := 0,
    length := 0, target := 0, args := 0, bad := false, started := false, held := false, buf := [] }

/-- Ring 0 runs and has come to the entry; all of host memory below 2^27 is in window 0; plate 0 is as given. -/
def ringS (e : REntry) (k : Plate) : State :=
  let s := wr R.RING_CFG_EN 0 1 (wr (R.ABA_WIN_CTRL_EN 0) 0 1 (wr (R.ABA_WIN_CTRL_READ 0) 0 1 (wr (R.ABA_WIN_CTRL_WRITE 0) 0 1
    (wr (R.ABA_WIN_SIZE 0) 0 (2 ^ 27) serving))))
  withPlate k (s.setRing 0 { Ring.init with queue := [e] })

def loaded (st : PlateSt) (job : Option Job) : Plate := { Plate.free with st := st, img := some blank, active := some 0, job := job }

/-- RingEntries: LOADs of 0 bytes, of 2^26 and of one more. -/
theorem test_witness_load_entries :
    ∀ n ∈ [0, 2 ^ 26, 2 ^ 26 + 1],
      let e := { entry 1 with length := n }
      let s := ringS e Plate.free
      AtEntry 0 1 e s ∧ failed s = false ∧ dmaOk false 0 (min (2 ^ 26) (4096 - 0 % 4096)) s = true ∧ RecordFits 0 s := by
  unfold AtEntry RecordFits; decide +kernel

/-- RingEntries: UNLOADs and STOPs of a free plate, of a plate whose job has the tag, and of one without a job; SETLRs of them. -/
theorem test_witness_plate_entries :
    (∀ n ∈ [3, 4, 6], ∀ k ∈ [Plate.free, loaded .running (some running), loaded .loaded none], AtEntry 0 n (entry n) (ringS (entry n) k))
    ∧ ((ringS (entry 3) (loaded .loaded none)).plate 0).unload = false ∧ running.tag = (entry 4).tag := by
  unfold AtEntry; decide +kernel

/-- RingEntries: a WAIT that is met, the value of one that is not, and a SETLR of 65,535 layers. -/
theorem test_witness_wait_entries :
    (let s := ringS (entry 5) Plate.free
     AtEntry 0 5 (entry 5) s ∧ (waitValue (entry 5) s + 2 ^ 32 - (entry 5).target) % 2 ^ 32 < 2 ^ 31
      ∧ 2 ^ 31 ≤ (waitValue (entry 5) s + 2 ^ 32 - 1) % 2 ^ 32)
    ∧ (let e := { entry 6 with length := 65535 * 65536 }
       let s := ringS e (loaded .loaded none)
       AtEntry 0 6 e s ∧ lrCount e = 65535 ∧ dmaOk false 0 (min (4 * 65535) (4096 - 0 % 4096)) s = true) := by
  unfold AtEntry; decide +kernel

/-- RingEntries: an entry held when its timer ends, and one whose BARRIER holds it behind a started entry. -/
theorem test_witness_held :
    (let e := { entry 5 with held := true }
     let s := ringS e Plate.free
     Awake s ∧ ringRuns 0 s = true ∧ (s.ring 0).head = some e ∧ findEntry 0 e.idx s = some e ∧ e.held = true)
    ∧ (let e := { entry 3 with barrier := true }
       let s := (ringS e Plate.free).setRing 0 { Ring.init with queue := [{ entry 5 with idx := 1, started := true }, e] }
       inService s = true ∧ ringRuns 0 s = true ∧ (s.ring 0).head = some e ∧ (s.ring 0).queue.any (fun x => x.started) = true) := by
  unfold Awake; decide +kernel

/-- Launch: no plate; an entry the plate does not have; its job runs; a core that is fenced, a link that is down, a snapshot, a slot
that is FIXED; and none of these. -/
theorem test_witness_launch :
    let s := ringS (entry 2) (loaded .loaded none)
    AtEntry 0 2 (entry 2) s ∧ failed s = false ∧ ((ringS (entry 2) Plate.free).plate 0).img = none
    ∧ (s.plate 0).img = some blank ∧ (s.plate 0).active.isSome = true ∧ (s.plate 0).unload = false ∧ (entry 2).entry < blank.entries
    ∧ blank.entries ≤ 1 ∧ ((ringS (entry 2) (loaded .running (some running))).plate 0).job.isSome = true
    ∧ (s.plate 0).job = none ∧ testBars blank s = false ∧ badHole blank s = false ∧ linkShort blank s = false ∧ snapBars blank s = false
    ∧ slotBusy 31 s = false ∧ badHole { blank with cores := [0] } (wr R.TWR_RGN_FENCED 0 1 s) = true
    ∧ linkShort { blank with rayNeed := [(17, 4)] } s = true
    ∧ snapBars { blank with cores := [0] } { s with snap := { Snap.init with on := true, descs := [⟨0, 1, 0, 1⟩] } } = true
    ∧ slotBusy 31 (s.setRslot 31 { RSlot.init with st := .fixed }) = true := by
  unfold AtEntry; decide +kernel

/-- RingsAndSlots: a sampled ring with 16 new entries, with 17, with none, and with 9 (of which 8 are taken). -/
def sampledRing (v : Nat) : State :=
  let s := ringS (entry 1) Plate.free
  { s with rings := [(0, { Ring.init with sampled := true, value := v, bell := v })] }

theorem test_witness_rings :
    ∀ v ∈ [0, 9, 16, 17],
      let s := sampledRing v
      let k := s.ring 0
      inService s = true ∧ s.rings = [(0, k)] ∧ k.sampled = true ∧ ringRuns 0 s = true ∧ ringSize 0 s = 16
      ∧ (k.value + 2 ^ 32 - rd R.RING_CONS 0 s % 2 ^ 32) % 2 ^ 32 = v ∧ (k.value + 2 ^ 32 - k.fetched % 2 ^ 32) % 2 ^ 32 = v
      ∧ dmaOk false (rd R.RING_BASE 0 s + k.fetched % ringSize 0 s * 128) 128 s = true := by decide +kernel

/-- RingsAndSlots and ResultAcks: a ring to reset; a FIXED slot with SEQ 2^24 − 1, and one that is not. -/
theorem test_witness_slots :
    flag (H.EN .ring) 0 (regs [(H.EN .ring, 0, 1)]) = true
    ∧ (let s := State.reset.setRslot 1023 { RSlot.init with st := .fixed, seq := 2 ^ 24 - 1 }
       (s.rslot 1023).st = .fixed ∧ (s.rslot 1023).seq = (BitVec.ofNat 24 (2 ^ 24 - 1)).toNat ∧ (s.rslot 0).st ≠ .fixed) := by decide +kernel

/-- PlateProgress: a plate whose LOAD waits for nothing more; a job whose fill ends; a completed job. -/
theorem test_witness_plate_progress :
    (let m := { blank with recs := [⟨0, 1000, 0, 0, 8, 2, 0⟩] }
     let s := ringS { entry 1 with started := true } { Plate.free with st := .loading, img := some m, loader := some (0, 0, 0) }
     let s := wr R.PDN_STAT_STATE 0 2 (wr R.GLB_EXP_CUR_LEN 0 1000 { s with sync := { s.sync with own := ⟨1000, 0, false⟩ } })
     inService s = true ∧ (s.plate 0).img = some m ∧ (s.plate 0).st = .loading ∧ (s.plate 0).loader = some (0, 0, 0)
      ∧ kvServed 0 s = true ∧ (m.recs.all (fun q => decide (rd R.PDN_STAT_STATE q.region s = 2)
          && coversAll (regionWish q (stopOf (q.region / 8) s) s) s
          && decide (regionWish q (stopOf (q.region / 8) s) s ≤ 10 * s.sync.own.len))) = true)
    ∧ (let j := { running with ready := false, fill := 1 }
       ((ringS (entry 2) (loaded .running (some j))).plate 0).job = some j ∧ j.begun = true ∧ j.ready = false ∧ j.fill ≠ 0)
    ∧ (let x : EndedJob := ⟨running, 0, 0, 5, 3⟩
       let s := ringS (entry 2) { loaded .loaded none with ended := [x] }
       (s.plate 0).ended = x :: [] ∧ x.job.stops = [] ∧ (findEntry x.job.ring x.job.idx s).isSome = true ∧ RecordFits x.job.ring s) := by
  unfold RecordFits; decide +kernel

/-! ### One step: results (14 R422, R423) -/

theorem test_ack_consumes : ((after (.resultAck 3 9) (State.reset.setRslot 3 { RSlot.init with st := .fixed, seq := 9 })).rslot 3).st = .consumed := by
  decide +kernel
theorem test_stale_ack : let t := after (.resultAck 3 8) (State.reset.setRslot 3 { RSlot.init with st := .fixed, seq := 9 })
    ((t.rslot 3).st, rd R.RING_STALE_ACK 0 t) = (.fixed, 1) := by decide +kernel


/-! ### Witnesses: power and heat -/

/-- In service for 100,000 units, with a plate of region 0 under way, at a stop, a target, a cap and a dark ratio. -/
def controlled (stop top cap k : Nat) : State :=
  let q : RegionRec := ⟨0, 1000, 1000, 1000, 8, 2, 2⟩
  withPlate { Plate.free with img := some { blank with recs := [q] }, active := some 0 }
    { regs [(R.BOOT_STAT_STATE, 0, 7), (R.APT_HALF_STOP_STOP 0, 0, stop), (R.APT_STAT_TARGET, 0, top), (R.APT_CAP, 0, cap),
            (R.APT_STAT_LOCAL_K, 0, k), (R.APT_CTRL_MAX_STOP, 0, 8), (R.GLB_ID_GRADE_STOP, 0, 8)] with timebase := 100000, apt := { Apt.init with samples := [500] } }

/-- ApertureController: a waiting controller; power above the cap with a stop to give up, with none and a dark ratio below 15, and
with neither; power below it with a dark ratio to give back, and with a stop to take. -/
theorem test_witness_controller :
    ControllerWaits serving ∧ inService serving = true
    ∧ (∀ x ∈ [(3, 0), (0, 0), (0, 15)], ¬ControllerWaits (controlled x.1 x.1 600 x.2) ∧ inService (controlled x.1 x.1 600 x.2) = true
        ∧ mayDown (controlled x.1 x.1 600 x.2) = decide (0 < x.1) ∧ rd R.APT_CAP 0 (controlled x.1 x.1 600 x.2) < 601)
    ∧ (∀ k ∈ [0, 1], let s := controlled 3 3 600 k
        ¬ControllerWaits s ∧ inService s = true ∧ 100 * 570 ≤ 95 * rd R.APT_CAP 0 s
        ∧ 100 * average ((570 :: s.apt.samples).take (capWindow s)) ≤ 95 * rd R.APT_CAP 0 s ∧ flag R.APT_CTRL_FIXED 0 s = false
        ∧ rd R.APT_STAT_TARGET 0 s < 8 ∧ (liveHalves s).any (fun h => decide (rd R.APT_STAT_TARGET 0 s < ceilOf h false s)) = true) := by
  unfold ControllerWaits; decide +kernel

/-- ApertureController: a write of the cap in service and before it; a ramp to end; the brake's pin; the telemetry ring off, full,
and with place for a record. -/
theorem test_witness_cap :
    (∀ v ∈ [0, 7], let s := regs [(R.BOOT_STAT_STATE, 0, v), (H.EN .apt, 0, 1)]
      flag (H.EN .apt) 0 s = true ∧ ticksRun s = decide (v = 7))
    ∧ rd R.GLB_ID_GRADE_CAP 0 (regs [(R.GLB_ID_GRADE_CAP, 0, 1000)]) < 1001 % 2048
    ∧ (let s := { serving with apt := { Apt.init with ramp := [(7, 3)] } }
       inService s = true ∧ mget (7 : HalfId).val s.apt.ramp = some 3 ∧ syncLevel s = 0 ∧ inFix s = false
        ∧ inFix { s with timebase := 90 } = true ∧ syncLevel (wr R.GLB_SYNC_LEVEL 0 4 s) ≠ 0)
    ∧ (let s := { serving with boot := { serving.boot with powered := true, alive := true } }
       awake s = true ∧ s.apt.pin = false ∧ s.apt.brakeOff ≠ some (actFrame s) ∧ s.apt.brakeOn ≠ some (actFrame s) ∧ awake { s with apt := { s.apt with pin := true } } = true)
    ∧ (let f (prod : Nat) := wr R.APT_TELEM_EN 0 1 (wr R.APT_TELEM_SIZE 0 4 (wr R.APT_TELEM_PROD 0 prod (wr (R.ABA_WIN_CTRL_EN 0) 0 1
          (wr (R.ABA_WIN_CTRL_WRITE 0) 0 1 (wr (R.ABA_WIN_SIZE 0) 0 8192 serving)))))
       let full (prod : Nat) := decide ((prod + 2 ^ 64 - rd R.APT_TELEM_CONS 0 (f prod)) % 2 ^ 64 = 2 ^ rd R.APT_TELEM_SIZE 0 (f prod))
       inService (f 16) = true ∧ flag R.APT_TELEM_EN 0 serving = false ∧ flag R.APT_TELEM_EN 0 (f 16) = true ∧ full 16 = true ∧ full 15 = false
        ∧ rd R.APT_TELEM_WINDOW 0 (f 15) = 0 ∧ flag (R.ABA_WIN_CTRL_EN 0) 0 (f 15) = true ∧ flag (R.ABA_WIN_CTRL_WRITE 0) 0 (f 15) = true
        ∧ (15 % 2 ^ 4 + 1) * 512 ≤ rd (R.ABA_WIN_SIZE 0) 0 (f 15)) := by decide +kernel

/-- The device in service, powered, with registers written. -/
def live (l : List (Fld × Nat × Nat)) : State :=
  let s := regs ((R.BOOT_STAT_STATE, 0, 7) :: l)
  { s with boot := { s.boot with powered := true, alive := true } }

/-- PowerDomains: two phases lost and three; a ramp step held, taken and the last; a wake that starts; feeds lost. -/
theorem test_witness_power_domains :
    (∀ n ∈ [0, 1, 2, 6], let s := live [(R.PDN_STAT_PHASES_LOST, 63, n)]
      awake s = true ∧ (7 ≤ rd R.BOOT_STAT_STATE 0 s) ∧ rd R.PDN_STAT_PHASE_CEIL 63 s ≠ 15
        ∧ min 6 (rd R.PDN_STAT_PHASES_LOST 63 s + 1) = min 6 (n + 1))
    ∧ rd R.BOOT_STAT_STATE 0 (wr R.BOOT_STAT_STATE 0 4 (live [])) < 7 ∧ awake (wr R.BOOT_STAT_STATE 0 4 (live [])) = true
    ∧ (∀ b ∈ [0, 1], let s := live [(H.EN .pdn, 63, 1), (H.APPLY .pdn, 63, b)]
      flag (H.EN .pdn) 63 s = true ∧ flag (H.APPLY .pdn) 63 s = decide (b = 1) ∧ ticksRun s = true
        ∧ rd R.PDN_STAT_STATE 63 s = 0 ∧ rd R.PDN_STAT_PHASE_CEIL 63 s ≠ 15)
    ∧ (∀ n ∈ [0, 14, 15], let s := live [(R.PDN_STAT_STATE, 63, 1), (R.PDN_STAT_STEP, 63, n)]
      awake s = true ∧ Awake s ∧ rd R.PDN_STAT_STATE 63 s = 1 ∧ flag R.PDN_STAT_DEFERRED 63 s = false ∧ rd R.PDN_STAT_STEP 63 s = n
        ∧ flag R.PDN_STAT_DEFERRED 63 (wr R.PDN_STAT_DEFERRED 63 1 s) = true ∧ inService s = true ∧ rampHeld ⟨68000, 25⟩ s = false ∧ rampHeld ⟨68001, 0⟩ s = true)
    ∧ (let s := live [(R.APT_FEED_A_OK, 0, 1), (R.APT_FEED_B_OK, 0, 1)]
       rd R.APT_FEED_A_OK 0 s ≠ 0 ∧ rd R.APT_FEED_B_OK 0 s ≠ 0 ∧ rd R.APT_FEED_B_OK 0 (wr R.APT_FEED_B_OK 0 0 s) = 0) := by
  unfold Awake; decide +kernel

/-- EndsOfService: the device awake and released; comparators 63, 96 and 111, and one that is no DRAM sensor; no trip yet, and
none recorded. -/
theorem test_witness_ends :
    awake (live []) = true ∧ (live []).boot.powered = true ∧ (live []).released = true ∧ (live []).therm.trip = false
    ∧ tripKind 63 = some 0 ∧ tripKind 96 = some 1 ∧ tripKind 111 = some 1 ∧ tripKind 112 = none ∧ flag R.SAFE_TRIP_VALID 0 (live []) = false
    ∧ { State.reset with boot := { State.reset.boot with powered := false } }.boot.powered = false
    ∧ { live [] with boot := { (live []).boot with alive := false } }.boot.alive = false ∧ (live []).boot.alive = true
    ∧ rd R.BOOT_STAT_STATE 0 State.reset = 0 := by decide +kernel

/-- The device in service with one shadow temperature, in disagreement with its sensors, of layer l in quadrant 0 of tower 0. -/
def heated (l : Nat) (v : Int) : State :=
  let s := live [(R.APT_HALF_STOP_STOP 0, 0, 5)]
  { s with therm := { Therm.init with shadow := [(lqKey 0 l 0, v)], dis := [lqKey 0 l 0] } }

/-- Heat: sensor values at the ends of the range; at limit, warm, and neither, by logic and by DRAM; a disagreement that ends and
one that begins; a half that is cool. -/
theorem test_witness_heat :
    awake (heated 0 0) = true ∧ inService (heated 0 0) = true ∧ Awake (heated 0 0)
    ∧ atLeast (governing 0 0 3 (heated 0 105000000)) 105000000 = true ∧ atLeast (governing 0 3 4 (heated 3 95000000)) 95000000 = true
    ∧ (∀ x ∈ [(0, 104999999), (3, 94999999)], let s := heated x.1 x.2
      atLeast (governing 0 0 3 s) 105000000 = false ∧ atLeast (governing 0 3 4 s) 95000000 = false
        ∧ (atLeast (governing 0 0 3 s) (logicThr s) = true ∨ atLeast (governing 0 3 4 s) (dramThr s) = true)
        ∧ stopOf 0 s ≤ thmBase 0 s ∧ s.therm.runs.contains 0 = false)
    ∧ (let s := heated 0 40000000
       atLeast (governing 0 0 3 s) (logicThr s) = false ∧ atLeast (governing 0 3 4 s) (dramThr s) = false)
    ∧ stopOf 0 State.reset = 0 := by
  unfold Awake; decide +kernel

theorem test_witness_heat_timers :
    (let s := heated 0 40000000
     inDis 0 0 0 s = true ∧ { s.therm with low := [lqKey 0 0 0] }.low.contains (lqKey 0 0 0) = true)
    ∧ (let s := live []
       Awake s ∧ inDis 3 7 3 s = false ∧ { s.therm with high := [lqKey 3 7 3] }.high.contains (lqKey 3 7 3) = true ∧ isCool 7 s = true)
    ∧ isCool 0 (heated 0 105000000) = false ∧ rd R.THM_STAT_K_TH 0 (live [(R.THM_STAT_K_TH, 0, 15)]) = 15
    ∧ (let s := live [(R.GLB_REFRESH_HOT, 0, 8)]
       (rd R.GLB_REFRESH_HOT 0 s).testBit (3 : TowerId).val = true ∧ (dramTemps 3 s).all (fun v => decide (v ≤ 83000000)) = true) := by
  unfold Awake; decide +kernel

/-! ### One step: power and heat (16 R452, R465; 17 R473) -/

theorem test_cap_steps_down : rd R.APT_STAT_TARGET 0 (after (.apertureEvaluation 601) (controlled 3 3 600 0)) = 2 := by decide +kernel
theorem test_third_phase_darkens : let t := after (.phaseLost 0) (live [(R.PDN_STAT_PHASES_LOST, 0, 2)])
    (rd R.PDN_STAT_PHASE_CEIL 0 t, rd R.PDN_STAT_STATE 0 t, fenced 0 t) = (15, 0, true) := by decide +kernel
theorem test_sensor_out_of_range : let t := after (.sensorRead 0 [601, 600, -80, -81]) (live [])
    (upFrom 0 4).map (fun i => rd (R.THM_SENSOR_FAIL 0 i) 0 t) = [1, 0, 0, 1] := by decide +kernel

/-! ### Witnesses: the Abaes link -/

/-- The first flit that the link expects, of type `t` and without credits; further ones; a first flit with a wrong CRC. -/
def firstW (t pay : Nat) : RayWords := abaWords t true 5 4 0 pay
def moreW (t n : Nat) : List RayWords := (upFrom 0 n).map (fun i => abaWords t false (6 + i) 4 0 0)
def badCrc : RayWords := ⟨0x45, 0⟩

/-- The link up, in service, with all of window 0 open and the towers' domains on; some packets and requests stand. -/
def linked (reqs : List (Nat × Bool)) (held : List HeldReg) (dmas : List DmaRd) : State :=
  let s := live ([(R.ABA_STAT_STATE, 0, 2), (R.ABA_BUF_FREE, 0, 64), (R.RING_CFG_EN, 0, 1), (R.ABA_CRD_OUT, 0, 3)]
    ++ (upFrom 72 4).map (fun d => (R.PDN_STAT_STATE, d, 2)))
  { s with aba := { Aba.init with rxSeq := 5, reqs := reqs, held := held, dmas := dmas } }

/-- The link's state once it has taken a packet of one flit, of n data flits behind it. -/
def takes (t n : Nat) (s : State) : Bool × State := abaRx t (firstW t 0) (moreW t n) s
def taken (t n : Nat) (s : State) : State := (takes t n s).2

/-- HostRequests: the link takes a packet; register accesses laid out wrong, at a full queue, served, of no page and in the recovery
state, behind a held one, and at a doorbell behind a memory write. -/
theorem test_witness_register_requests :
    AbaNext 1 (firstW 1 0) [] (linked [] [] []) ∧ (takes 0 0 (linked [] [] [])).1 = true ∧ (takes 1 0 (linked [] [] [])).1 = true
    ∧ descBad 0 (firstW 0 0) = false ∧ descBad 0 (firstW 0 (2 ^ 27)) = true ∧ descBad 1 (firstW 1 0) = false
    ∧ regLayout 0 0 = false ∧ regLayout 0 9 = false ∧ regLayout 0xFF8 3 = false ∧ regLayout 2 1 = false ∧ regLayout 0xFF8 2 = true
    ∧ (let s := linked (List.replicate 1024 (1, false)) [] []
       (takes 0 0 s).1 = true ∧ reqsFull (taken 0 0 s) = true ∧ tagBusy 1 (taken 0 0 s) = true ∧ tagBusy 2 (taken 0 0 s) = false)
    ∧ (let z := taken 0 0 (linked [] [] [])
       reqsFull z = false ∧ z.aba.held = [] ∧ regStatus 0 z = 0 ∧ regStatus 0x3FFF000 z = 1
        ∧ regStatus 0x3000000 (wr R.BOOT_STAT_STATE 0 9 z) = 2 ∧ bellWaits 0 z = [])
    ∧ (let s := linked [(1, true)] [⟨[1], .read 2 0 1⟩] []
       (takes 1 0 s).1 = true ∧ (taken 1 0 s).aba.held ≠ [] ∧ bellWaits 0x3000000 (taken 1 0 s) ≠ []) := by
  unfold AbaNext; decide +kernel

/-- HostRequests: memory requests with each status, and at the ends of both windows; a packet with a bad CRC. -/
theorem test_witness_memory_requests :
    (let z := taken 3 0 (linked [] [] [])
     memStop true 1 0 0 1 z = some 4 ∧ memStop false 1 4096 0 1 z = some 0x15 ∧ memStop false 1 0 0x7FFFFFF 2 z = some 0x15
      ∧ memStop false 1 0 0 1 (wr R.PDN_STAT_STATE 72 0 z) = some 0x16 ∧ memStop false 1 0 0 1 (wr R.BOOT_STAT_STATE 0 9 z) = some 2
      ∧ memStop false 1 4095 0x7FF0000 65536 z = none ∧ memStop false 1 0 0x1017FFFF 1 z = none ∧ memStop false 1 0 0x10000000 1 z = none)
    ∧ memStop false 1 0 0 1 (taken 3 0 (linked (List.replicate 1024 (2, false)) [] [])) = some 3
    ∧ (takes 3 0 (linked [] [] [])).1 = true ∧ (takes 4 32 (linked [] [] [])).1 = true
    ∧ abaUp (linked [] [] []) = true ∧ crcGood badCrc = false := by decide +kernel

/-- 128 bytes that are a WAIT entry of ring 0 (14 R415), and 128 bytes of 0, which are no entry. -/
def waitBytes : List Byte := 5 :: List.replicate 127 0

/-- DmaCompletions: a stray tag; a read of ring entries that comes whole with a good entry or a bad one, fails, and times out. -/
theorem test_witness_dma :
    (let z := taken 8 1 (linked [] [] [])
     (takes 8 1 (linked [] [] [])).1 = true ∧ (firstW 8 0 :: moreW 8 1).any (fun x => x.abaPoison) = false ∧ (∀ d ∈ z.aba.dmas, d.tag ≠ (3 : BitVec 16).toNat))
    ∧ (let d : DmaRd := ⟨3, 0, 128, .entries 0 0 1⟩
       let s := linked [] [] [d]
       let z := taken 8 1 s
       Awake s ∧ (s.aba.dmas.find? (fun x => decide (x.tag = (3 : BitVec 16).toNat)) = some d)
        ∧ (z.aba.dmas.find? (fun x => decide (x.tag = (3 : BitVec 16).toNat)) = some d) ∧ ringRuns 0 z = true
        ∧ waitBytes.length = d.len ∧ (entryOf 0 waitBytes).bad = false ∧ (entryOf 0 (List.replicate 128 0)).bad = true) := by
  unfold Awake; decide +kernel


/-- Little-endian bytes of a number. -/
def le (n v : Nat) : List Byte := (upFrom 0 n).map (fun i => BitVec.ofNat 8 (v / 256 ^ i))

/-- The image of a small loose plate of region 0 (14 R397 to R400): 64 cores without code, one entry. -/
def looseImage : List Byte :=
  le 4 0x54414C50 ++ le 4 0x10001 ++ le 4 4608 ++ le 4 0x53AEAB8A ++ le 8 1 ++ le 8 0x06010000_00000100 ++ le 8 0x00010001_00000000
    ++ le 8 0x10000000_00010000 ++ le 8 3 ++ List.replicate 200 0 ++ le 8 (576 * 65536) ++ le 24 (2 ^ 32) ++ List.replicate 2016 0
    ++ le 16 (1 + 4096 * 2 ^ 32 + 512 * 2 ^ 64) ++ le 16 (3 + 4096 * 2 ^ 32 + 512 * 2 ^ 64) ++ le 16 (4 + 4096 * 2 ^ 32 + 32 * 2 ^ 64)
    ++ List.replicate 2256 0

/-- The CRC's fold with each value known before the next byte is taken; it is the same fold. -/
def crcFrom : List Byte → Nat → Nat
  | [], c => c
  | x :: l, c => if crcBit 8 (c ^^^ x.toNat) = 0 then crcFrom l 0 else crcFrom l (crcBit 8 (c ^^^ x.toNat))

theorem crcFrom_eq (l : List Byte) (c : Nat) : crcFrom l c = l.foldl (fun c x => crcBit 8 (c ^^^ x.toNat)) c := by
  induction l generalizing c with
  | nil => rfl
  | cons x l ih =>
    simp only [crcFrom, List.foldl_cons, ih]
    split
    · next h => rw [h]
    · rfl

theorem crcFrom_parts (b : List Byte) (c n d : Nat) (h : crcFrom (b.take n) c = d) :
    crcFrom b c = crcFrom (b.drop n) d := by
  subst h; simp only [crcFrom_eq]; rw [← List.foldl_append, List.take_append_drop]

theorem crc32_of (b : List Byte) (c n : Nat) (h : crcFrom b 0xFFFFFFFF = c) (g : c ^^^ 0xFFFFFFFF = n) : crc32 b = n := by
  subst h g; rw [crc32, crcFrom_eq]

/-- The bytes that the CRC of the image is over. -/
def imageZeroed : List Byte := Machine.blank looseImage 0xC 4

theorem test_image_crc_fold : crcFrom imageZeroed 0xFFFFFFFF = 0xAC515475 := by
  rw [crcFrom_parts _ _ 1024 0xDB1C91B9 (by decide +kernel),
    crcFrom_parts _ _ 1024 0xA689C07D (by decide +kernel),
    crcFrom_parts _ _ 1024 0x8F52D7B7 (by decide +kernel),
    crcFrom_parts _ _ 1024 0xED1AF91B (by decide +kernel)]
  decide +kernel

theorem test_image_crc : crc32 (Machine.blank looseImage 0xC 4) = 0x53AEAB8A :=
  crc32_of imageZeroed 0xAC515475 _ test_image_crc_fold (by decide)

theorem test_image_length : looseImage.length = 4608 := by decide +kernel
theorem test_image_header : headerOk looseImage = true := by
  have h := test_image_crc
  have g := test_image_length
  unfold headerOk
  generalize crc32 (Machine.blank looseImage 0xC 4) = n at h ⊢
  generalize looseImage.length = k at g ⊢
  subst h g
  decide +kernel
theorem test_image_records : recordsOk looseImage = true := by decide +kernel
theorem test_image_table : tableOk looseImage = true := by decide +kernel

/-- The state at which the image is examined. -/
def imageState : State := { linked [] [] [] with rings := [(0, { Ring.init with queue := [{ entry 1 with length := 4608, started := true }] })] }

theorem test_image_checks : (loadChecks looseImage (readImage looseImage) 0 imageState).find? (fun c => c.2) = none := by
  decide +kernel

theorem loads_of (b : List Byte) (p : Nat) (s : State) (h : formatOk b = true)
    (g : (loadChecks b (readImage b) p s).find? (fun c => c.2) = none) : ∃ m, loadImage b p s = .inr m := by
  simp [loadImage, h, g]

/-- DmaCompletions: an image that the loader takes. -/
theorem test_witness_image_taken : ∃ m, loadImage looseImage 0 imageState = .inr m :=
  loads_of looseImage 0 imageState
    (by unfold formatOk; rw [test_image_header, test_image_records, test_image_table]; rfl) test_image_checks

/-- DmaCompletions: a LOAD whose bytes have all come and are no image; a SETLR of 2 layers of an active plate. -/
theorem test_witness_dma_entry :
    loadImage [] 0 imageState = .inl 2
    ∧ (let e := { entry 6 with length := 2 * 65536 + 1022 }
       let s := { linked [] [] [⟨3, 0, 8, .entry 0 0⟩] with
                  rings := [(0, { Ring.init with queue := [e] })], plates := [(0, loaded .loaded none)] }
       let z := taken 8 1 s
       (takes 8 1 s).1 = true ∧ findEntry 0 0 z = some e ∧ e.op = 6 ∧ 8 = 4 * lrCount e
        ∧ (z.plate e.plate).active.isSome = true) := by
  unfold loadImage; decide +kernel

/-- AbaesLink: credits within those taken and beyond them; an acknowledged packet at the head of the replay buffer, whole and
in part. -/
theorem test_witness_link :
    (linked [] [] []).aba.txq = [] ∧ AbaNext 10 (firstW 10 0) [] (linked [] [] []) ∧ (firstW 10 0).abaCrd ≤ 3
    ∧ 3 < (abaWords 10 true 5 4 127 0).abaCrd ∧ AbaNext 10 (abaWords 10 true 5 4 127 0) [] (linked [] [] [])
    ∧ rd R.ABA_CRD_OUT 0 (linked [] [] []) = 3 ∧ (∀ t ∈ [11, 12, 13], crcGood (firstW t 0) = true ∧ abaMalformed t true (firstW t 0) = false)
    ∧ (firstW 11 0).abaAck = 4 ∧ (∀ n ∈ [1, 2], decide ((4 + 4096 - 4) % 4096 < n) = true) ∧ (4 + 1 + 4095) % 4096 = 4
    ∧ (4 + 2 + 4095) % 4096 ≠ 4 ∧ decide ((4 + 4096 - 3) % 4096 < 1) = false := by
  unfold AbaNext; decide +kernel

/-- AbaesLink: training in states 1 and 3 with lanes and without; its limit at 1 lane and at 4; the retrain thresholds. -/
theorem test_witness_link_training :
    (∀ n ∈ [0, 1, 3], let s := wr R.ABA_STAT_STATE 0 n (linked [] [] [])
      abaState s = n ∧ s.aba.sigHeld = [] ∧ Awake s ∧ s.aba.width ≤ 1 ∧ 1 < { s.aba with width := 4 }.width
        ∧ 3 ≤ rd R.BOOT_STAT_STATE 0 s)
    ∧ ((0 : Fin 5).val = 0 ∧ (4 : Fin 5).val ≠ 0)
    ∧ (let s := wr (H.EN .aba) 0 1 (linked [] [] [])
       flag (H.EN .aba) 0 s = true ∧ abaUp s = true ∧ s.aba.viol ≤ rd R.ABA_THRESH_VIOL 0 s
        ∧ rd R.ABA_THRESH_VIOL 0 s < { s.aba with viol := 2 ^ 16 }.viol)
    ∧ (let s := { linked [] [] [] with aba := { Aba.init with retrains := [0, 0, 0, 0] } }
       let recent := s.aba.retrains.filter (fun t => decide (s.timebase < t + 1000000000))
       decide (rd R.ABA_THRESH_RETRAINS 0 s ≤ recent.length) && recent.any (fun t => decide (s.timebase < t + 100000000))) = true := by
  unfold Awake; decide +kernel

/-! ### One step: the link (15 R434, R435, R439) -/

theorem test_reg_read_of_no_page :
    (after (.regRd (firstW 0 0) [] 9 0x3FFF000 1) (wr R.ABA_CRD_AVAIL 0 1 (linked [] [] []))).aba.out.map (fun x => x.pkt) = [.regCpl 9 1 [0]] := by
  decide +kernel
theorem test_bad_crc_nak : (after (.regRd badCrc [] 9 0 1) (linked [] [] [])).aba.out.map (fun x => x.pkt) = [.nak 1 0] := by
  decide +kernel
theorem test_stray_completion : rd R.ABA_VIOL 0 (after (.dmaCpl (firstW 8 0, []) 3 0 []) (linked [] [] [])) = 1 := by decide +kernel

/-! ### Witnesses: start-up, tests, sleep, recovery -/

/-- The device in a state of start-up, powered and alive, with one feed. -/
def starting (n : Nat) : State := wr R.APT_FEED_A_OK 0 1 (wr R.BOOT_STAT_STATE 0 n (live []))

def noFaults : StripRes := ⟨[], [], [], [], [], [], [], []⟩

/-- A firmware image of 288 bytes with a signature block of key 0 (20 R519, R520), and an empty user page (18 R493). -/
def firmware : List Byte :=
  le 4 0x4D574644 ++ le 4 0x20001 ++ le 4 288 ++ le 4 0 ++ le 4 0x98a819a0 ++ le 4 0x40 ++ List.replicate 40 0
    ++ le 8 0x4E474953 ++ List.replicate 216 0
def userPage : List Byte := le 4 0x47464E43 ++ le 4 0x10001 ++ le 4 64 ++ le 4 0 ++ le 4 0xdb2160a3 ++ List.replicate 44 0
def factoryPage : List Byte :=
  le 4 0x47464E43 ++ le 4 1 ++ le 4 288 ++ le 4 0 ++ le 4 0x997414ff ++ le 4 0x40 ++ List.replicate 40 0
    ++ le 8 0x4E474953 ++ List.replicate 216 0

/-- StartUp: SAFELIGHT before it is alive and after; fuses that are correctable or not; STRIP with a tower or without a fault. -/
theorem test_witness_start :
    (rd R.BOOT_STAT_STATE 0 State.reset = 0 ∧ State.reset.boot.alive = false ∧ (starting 0).boot.alive = true)
    ∧ mayFuse (starting 0) = true ∧ mayFuse State.reset = false
    ∧ (∀ n ∈ [1, 2, 3, 4, 5, 6], rd R.BOOT_STAT_STATE 0 (starting n) = n)
    ∧ (∀ h < 8, flag R.HALF_FABRIC_LOST h (starting 2) = false) ∧ plannedSkip (255 * 16) (wr (R.TWR_SHIFT_SKIP 63) 3 31 (starting 2)) = 31
    ∧ noFaults.towers = [] ∧ noFaults.routers = [] ∧ { noFaults with towers := [3] }.towers ≠ [] := by decide +kernel

theorem flashHead_of (b : List Byte) (magic kind limit : Nat) (h : crc32 (Machine.blank (b.take (field b 8 4)) 0x10 4) = field b 0x10 4)
    (g : (decide (0x40 ≤ b.length) && decide (field b 0 4 = magic) && decide (field b 4 2 = 1) && decide (field b 6 2 = kind)
      && decide (0x40 ≤ field b 8 4) && decide (field b 8 4 ≤ limit) && decide (field b 8 4 ≤ b.length) && zeros b 0x18 0x28) = true) :
    flashHead b magic kind limit = true := by
  simp only [flashHead, h, decide_true, Bool.and_true]; exact g

theorem test_firmware_crc : crc32 (Machine.blank (firmware.take (field firmware 8 4)) 0x10 4) = field firmware 0x10 4 :=
  crc32_of _ (0xFFFFFFFF ^^^ 0x98a819a0) _ (by decide +kernel) (by decide +kernel)
theorem test_factory_crc : crc32 (Machine.blank (factoryPage.take (field factoryPage 8 4)) 0x10 4) = field factoryPage 0x10 4 :=
  crc32_of _ (0xFFFFFFFF ^^^ 0x997414ff) _ (by decide +kernel) (by decide +kernel)

/-- StartUp: a firmware image and a factory page of the right format; their signature blocks; an empty user page; no image. -/
theorem test_witness_firmware : fwFormat firmware = true := by
  unfold fwFormat; rw [flashHead_of firmware _ _ _ test_firmware_crc (by decide +kernel)]; decide +kernel
theorem test_witness_factory : pageFormat factoryPage 0 = true := by
  unfold pageFormat; rw [flashHead_of factoryPage _ _ _ test_factory_crc (by decide +kernel)]; decide +kernel
theorem test_witness_flash :
    fwCheck [] 0 0 = some .format ∧ factoryOk [] 0 = false ∧ userAbsent (List.replicate 64 0xFF) = true ∧ userAbsent userPage = false
    ∧ svnOf firmware = 0 ∧ rlVerify true [] State.reset = some 4 ∧ rlVerify true userPage State.reset = none := by decide +kernel

/-- StartUp: what is signed verifies where the key's hash is the ROM's and the signature checks, which no model decides (entry
14). -/
theorem test_witness_signed (b : List Byte) (blk : List Byte) (fw : Bool) (h : sigAt b = some blk) (g : blockOk blk 0 fw = true)
    (k : Config.sha384 (pubKey blk) = Config.romHash (keyIndex blk)) (l : sigChecks b blk = true) : zorSigned b fw 0 = true := by
  simp [zorSigned, h, g, k, l]

theorem test_witness_blocks :
    sigAt firmware = some (part firmware 0x40 224) ∧ blockOk (part firmware 0x40 224) 0 true = true
    ∧ sigAt factoryPage = some (part factoryPage 0x40 224) ∧ blockOk (part factoryPage 0x40 224) 0 false = true := by decide +kernel

/-- StartUp: TRAIN with the purge and without; a port that is used; SHEET complete, held back, and awaited. -/
theorem test_witness_sheet :
    (∀ v ∈ [0, 1], let s := wr R.SEC_POLICY_PURGE 0 v (starting 4)
      s.boot.trained = false ∧ flag R.SEC_POLICY_PURGE 0 s = decide (v = 1) ∧ s.boot.resume = none)
    ∧ (let s := wr (R.RAY_CTRL_ROLE) 17 1 (starting 4)
       rayRole 17 s ≠ 0 ∧ flag R.RAY_CTRL_DISABLE 17 s = false)
    ∧ (let s := starting 4
       let t := { s with boot := { s.boot with trained := true } }
       trainDone t = true ∧ sheetDone { t with img := { t.img with level := 1 } } = false ∧ leadsGroup t = false)
    ∧ (let s := starting 5
       sheetDone s = true ∧ sheetHolds s = false ∧ s.img.level = 0 ∧ s.boot.edge = false
        ∧ sheetHolds (wr R.RAY_CTRL_STRICT 0 1 { s with img := { s.img with partners := [(0, 2 ^ 31)] } }) = true
        ∧ leadsGroup { s with img := { s.img with level := 4 } } = true
        ∧ leadsGroup { s with img := { s.img with level := 1 } } = false
        ∧ sheetDone { s with img := { s.img with level := 1 }, sync := { s.sync with heard := true } } = true) := by decide +kernel

/-- RequestedTests: a test under way, barred, with no tower, and with all; a march's last unit and one before it, in a dark
frame. -/
theorem test_witness_tests :
    (let s := live [(H.EN .boot, 0, 1), (R.GLB_EXP_DARK, 0, 1)]
     flag (H.EN .boot) 0 s = true ∧ rd R.BOOT_TEST_STATUS 0 (wr R.BOOT_TEST_STATUS 0 1 s) = 1 ∧ rd R.BOOT_TEST_STATUS 0 s ≠ 1
      ∧ (!s.released || (decide (4 ≤ 5) && testBlocked 15 s)) = false ∧ (!(starting 6).released) = true
      ∧ testBlocked 1 { s with snap := { Snap.init with on := true } } = true ∧ inService s = true ∧ flag R.GLB_EXP_DARK 0 s = true
      ∧ flag R.GLB_EXP_DARK 0 (live []) = false)
    ∧ (∀ n ∈ [0, 1087], let k : Test := ⟨5, 8, true, n, false, false⟩
      decide (k.unit + 1 < (towersIn k.towers).length * unitsPer k.code) = decide (n = 0))
    ∧ (let k : Test := ⟨1, 1, false, 1, false, false⟩
       let s := live [(R.GLB_EXP_DARK, 0, 1)]
       let at_ (last : Option Nat) := s.setShaft 0 { Shaft.init with check := some ⟨last, 8976, 0, 0⟩ }
       testWaits k (at_ none) = false ∧ testWaits k (at_ (some 0)) = true)
    ∧ LanesFail 0 [⟨2271, 63, true⟩] State.reset = true ∧ LanesFail 0 [⟨2271, 62, false⟩] State.reset = false := by decide +kernel

/-- SleepAndWake: a sleep request in service and before it; Dim; a Dark sleep with each wake enabled. -/
theorem test_witness_sleep :
    (let s := live [(H.EN .boot, 0, 1)]
     flag (H.EN .boot) 0 s = true ∧ s.released = true ∧ (wr R.BOOT_STAT_STATE 0 5 s).released = false
      ∧ rd R.BOOT_STAT_STATE 0 (wr R.BOOT_STAT_STATE 0 11 s) = 11)
    ∧ (let s := wr R.SAFE_WAKE_TIMER 0 1 (wr R.SAFE_WAKE_SMBUS 0 1 (wr R.SAFE_WAKE_ABAES 0 1 (starting 0)))
       let t := { s with boot := { s.boot with resume := some 7 } }
       flag R.SAFE_WAKE_TIMER 0 t = true ∧ rd R.SAFE_WAKE_AT 0 t ≤ t.timebase ∧ flag R.SAFE_WAKE_SMBUS 0 t = true
        ∧ flag R.SAFE_WAKE_ABAES 0 t = true ∧ t.boot.resume.isSome = true ∧ t.boot.woken = false
        ∧ flag R.SAFE_WAKE_TIMER 0 (starting 0) = false) := by decide +kernel

/-- RecoveryLoads: lengths of 0, up to each limit and beyond; in window 0 and outside it; a load under way. -/
theorem test_witness_recovery :
    (let s := wr (H.EN .boot) 0 1 (wr R.BOOT_RL_LEN 0 5000 (linked [] [] []))
     let t := wr (R.ABA_WIN_CTRL_EN 0) 0 1 (wr (R.ABA_WIN_CTRL_READ 0) 0 1 (wr (R.ABA_WIN_SIZE 0) 0 8192 s))
     awake s = true ∧ flag (H.EN .boot) 0 s = true ∧ s.boot.rl = none ∧ rd R.BOOT_RL_LEN 0 s = 5000 ∧ 5000 ≤ rlLimit false
      ∧ rlLimit false < 0x2000001 ∧ rlLimit true < 0x100001 ∧ inWindow0 0 4096 s = false ∧ inWindow0 0 4096 t = true
      ∧ dmaOk false 0 4096 t = true ∧ { s.boot with rl := some ⟨true, true, 1, 64, [], []⟩ }.rl.isSome = true)
    ∧ userPage.length ≠ 0 ∧ userPage.length ≤ rlLimit true := by decide +kernel

/-! ### One step: start-up (18 R488, R489; 21 R542) -/

theorem test_safelight_then_fuse : rd R.BOOT_STAT_STATE 0 (after (.bootFuse ⟨true, true, 0, [], [], [], 0⟩) (starting 0)) = 2 := by
  decide +kernel
theorem test_bad_firmware_recovers : rd R.BOOT_STAT_STATE 0 (after (.loadPhase ⟨[], [], []⟩) (starting 3)) = 9 := by decide +kernel
theorem test_flash_failure : let t := after (.smbusRecoveryLoad true userPage false) (starting 9)
    (rd R.BOOT_RL_CTRL_STATUS 0 t, rd R.BOOT_RL_CTRL_CAUSE 0 t) = (3, 7) := by decide +kernel

/-! ### Witnesses: events, pages, security, and the whole block -/

/-- RegisterPages: codes depend on numbers that the spec does not give (entry 11): the first event's code names an event. -/
theorem test_witness_event_code : ∃ (c : BitVec 16) (e : Ev), evOfCode c.toNat = some e ∧ e ≠ .ringOverflow := by
  refine ⟨BitVec.ofNat 16 Ev.abaCreditClip.code, .abaCreditClip, ?_, by decide⟩
  have h : (BitVec.ofNat 16 Ev.abaCreditClip.code).toNat = Ev.abaCreditClip.code := by simp [Ev.code]
  rw [h]; simp [evOfCode, Ev.all]

/-- RegisterPages: a page with a soft reset and one without, at the last instance; a low word, a high word and neither; words of a
disabled page, of the severities, of the event enables, and of a fault record. -/
theorem test_witness_pages :
    Pg.sreset .shf = true ∧ Pg.sreset .glb = false ∧ 4351 < Pg.count .shf ∧ evOn .ringFault .ring 0 State.reset = true
    ∧ isLow .safe 0x48 = true ∧ isHigh .safe 0x48 = false ∧ isLow .safe 0x4C = false
    ∧ placeOf 0x2048 = some (.page .safe 0 0x48) ∧ placeOf 0x2010 = some (.page .safe 0 0x10) ∧ placeOf 0x2014 = some (.page .safe 0 0x14)
    ∧ regStatus 0x2048 (live []) = 0 ∧ flag (H.EN .safe) 0 (wr (H.EN .safe) 0 0 (live [])) = false ∧ regStatus 0x3FFF000 (live []) ≠ 0
    ∧ (let s := live [(H.EN .rgn, 0, 1)]
       flag (H.EN .rgn) 0 s = true ∧ (upFrom 0 0x4000).any (fun n => decide (pageAt n = some (.rgn, 0))) = true) := by decide +kernel

/-- EventsAndFences: a ring with a record and a place, in a window and without one; an evacuation that may start, and each
cause that refuses one; one whose granules are all done. -/
theorem test_witness_events :
    (let s := live [(R.EVT_RING_CTRL_EN 3, 0, 1), (R.EVT_RING_CTRL_SIZE 3, 0, 4), (R.ABA_WIN_SIZE 0, 0, 4096), (R.ABA_WIN_CTRL_WRITE 0, 0, 1)]
     let s := { s with evt := { s.evt with queues := [(3, [evRec .ringFault .ring 0 0 false s])] } }
     let t := wr (R.ABA_WIN_CTRL_EN 0) 0 1 s
     inService s = true ∧ evRingOpen 3 s = true ∧ queueOf 3 s = [evRec .ringFault .ring 0 0 false s] ∧ evRingOpen 0 s = false
      ∧ flag (R.ABA_WIN_CTRL_EN 0) 0 s = false ∧ flag (R.ABA_WIN_CTRL_EN 0) 0 t = true ∧ flag (R.ABA_WIN_CTRL_WRITE 0) 0 t = true
      ∧ (rd (R.EVT_RING_PROD 3) 0 t % 2 ^ rd (R.EVT_RING_CTRL_SIZE 3) 0 t + 1) * 32 ≤ rd (R.ABA_WIN_SIZE 0) 0 t)
    ∧ (let s := live [(H.EN .rgn, 63, 1), (H.EN .twr, 3, 1)]
       let u := s.setShaft (posOf (coreAt 6 0 0)) { s.shaft (posOf (coreAt 6 0 0)) with untrusted := true }
       let e : Evac := ⟨0, 0, 0, 1, 0, 0, 1, 0⟩
       flag (H.EN .rgn) 63 s = true ∧ flag (H.EN .twr) 3 s = true ∧ evacCause 3 e u = none ∧ evacCause 3 e s = some 1
        ∧ evacCause 3 { e with len := 0 } u = some 2 ∧ evacCause 3 e { u with evacs := [(3, e)] } = some 3
        ∧ evacCause 3 e (wr R.HALF_FABRIC_LOST 6 1 u) = some 4 ∧ { e with done := 1 }.len ≤ { e with done := 1 }.done) := by decide +kernel

/-- OwnerKeysAndDebug: OTP without an owner and with one; a key in use; attempts left and none; a level that unlocks nothing. -/
theorem test_witness_security :
    (let s := live [(H.EN .sec, 0, 1), (R.SEC_STAT_FW_VALID, 0, 1)]
     flag (H.EN .sec) 0 s = true ∧ s.released = true ∧ s.sec.otp.owner = none ∧ flag R.SEC_STAT_FW_VALID 0 s = true
      ∧ flag R.SEC_STAT_FW_VALID 0 (live []) = false ∧ (2 : BitVec 4).toNat.testBit s.sec.key = false
      ∧ (1 : BitVec 4).toNat.testBit s.sec.key = true ∧ debugBarred s = false ∧ rd R.SEC_DBG_CTRL_LEVEL 0 s = 0
      ∧ debugBarred (wr R.SEC_DBG_CTRL_FAILS 0 8 s) = true ∧ debugBarred (wr R.SEC_DBG_CTRL_FAILS 0 7 s) = false) := by decide +kernel

/-- OwnerKeysAndDebug: a response unlocks at level 2 where the signature checks, which no model decides (entry 14). -/
theorem test_witness_unlock (s : State) (n : Nat) (h : Config.sigOk (Config.zorKey 0) n (debugSig s) = true)
    (g : s.plates = []) (k : s.sec.revoked = 0) : vendorUnlock n s = true := by
  simp [vendorUnlock, g, k, upFrom, h]

/-- SpdmResponder: both endpoints are served, at each stage of a connection. -/
theorem test_witness_spdm :
    ∀ b ∈ [true, false], ∀ n ∈ [0, 1, 2, 3],
      let m : SpdmMsg := { smbus := b, body := [1], off := 0, len := 0, idx := 255, signed := true }
      let s := linked [] [] []
      let t := { s with sec := { Sec.init with conns := [(connOf m, ⟨n, []⟩)] } }
      spdmServes m t = true ∧ (spdmConn m t).stage = n := by decide +kernel

/-- PlateFaults: a job that runs, of core 0's plate, with no fault record held, with one of its own, and with one of a higher core
in the same cycle. -/
theorem test_witness_plate_fault :
    let s := withPlate { Plate.free with job := some running, img := some blank } State.reset
    let held := wr R.TWR_RGN_FAULT_VALID 0 1 s
    (s.plate ((s.core 0).cfg.plate)).job = some running ∧ (s.plate ((s.core 0).cfg.plate)).img = some blank ∧ running.stopping = none
    ∧ blank.regions.testBit 0 = true ∧ flag R.TWR_RGN_FAULT_VALID 0 s = false ∧ flag R.TWR_RGN_FAULT_VALID 0 held = true
    ∧ laterCore 0 5 held = false ∧ laterCore 0 5 (wr R.TWR_RGN_FAULT_CORE 0 9 (wr R.TWR_RGN_FAULT_CYC_CYCLE 0 5 held)) = true := by
  decide +kernel

/-- TimersInDim: the device in Dim. -/
theorem test_witness_dim : rd R.BOOT_STAT_STATE 0 (live [(R.BOOT_STAT_STATE, 0, 11)]) = 11 := by decide +kernel

/-- StepRunsTheFrontCommand, IdleStepPassesTime, StepKeepsInv: a sound state; a queue with a command, and without. -/
theorem test_witness_inv : State.Inv { serving with pending := [.pwrBrakeAssert], mem := [(5, (1 : Byte))], timebase := 9 } :=
  ⟨by unfold State.memOk; decide +kernel, by unfold State.voidsOk; decide +kernel, by decide +kernel⟩
theorem test_witness_step :
    (match step { State.reset with pending := [.pwrBrakeAssert] } with
     | .next t => decide (t.pending = [] ∧ t.timebase = 0)
     | _ => false) = true
    ∧ (match step State.reset with
       | .next t => decide (t = { State.reset with timebase := 1 })
       | _ => false) = true := by decide +kernel

/-! ### Well-formed commands: one term for each check that the check refuses -/

def memErr : List GErr := [⟨2 ^ 29, true, 0⟩]
def tickEnv : TickEnv := ⟨[], [], [(5, 1), (5, 2)], 0, []⟩
def nmWide : NmArgs := ⟨0, 0, 0, 0, 0, 0, 0, 0, 0, 0, 0, 0, 0, 0, 0, memErr⟩

theorem test_wf_ticks : ∀ i ∈ [Instr.tick tickEnv, .shutterEdge false 0 tickEnv, .bundleIssue 0 3318 [], .nmChunkStart 0 0 8000,
    .routeEntry 0 4096, .checkerBatch 0 1025 0, .checkerBatch 0 0 1025, .copyOnWriteSwitch 262144], i.wf = false := by decide +kernel
theorem test_wf_errors : ∀ i ∈ [Instr.operationComplete 0 0 memErr, .shaftLoadLand 0 memErr, .hostSlot 0 memErr, .nmChunkEnd 0 0 memErr,
    .nmWrite 0 0 memErr, .racc 0 0 memErr, .xacc 0 0 memErr, .scrubRead 0 true memErr.head?], i.wf = false := by decide +kernel
theorem test_wf_sensors : ∀ i ∈ [Instr.sensorRead 0 [], .telemetrySample ⟨0, 0, 0, 0, 0, [], [], []⟩, .thermtrip 0 116,
    .bootFuse ⟨true, true, 0, [(0, 9)], [], [], 0⟩, .testUnit ⟨0, 0, [], 8, []⟩], i.wf = false := by decide +kernel
theorem test_wf_flits : ∀ i ∈ [Instr.rayData 0 ((flitW 1 0 0 0 0 0 0)).head 0, .rayEmpty 0 (flitW 0 0 0 0 0 0 0), .arrDesc 0 ((flitW 3 0 0 0 0 0 0)).head 0,
    .arrData 0 ((flitW 10 0 0 0 0 0 0)).head 0, .epochMark 0 (flitW 5 0 0 0 0 0 0) 0 0, .rayCredit 0 (flitW 6 0 0 0 0 0 0),
    .redSeal ⟨0, (flitW 5 0 0 0 0 0 0)⟩ 0 0 (0, 0), .rayAckOnly 0 (flitW 8 0 0 0 0 0 0), .rayNak 0 ((flitW 9 0 0 0 0 0 0)).head 0 0,
    .rayReplayReq 0 ((flitW 7 0 0 0 0 0 0)).head 0, .beacon 0 (flitW 9 0 0 0 0 0 0) (false, 0, false)], i.wf = false := by decide +kernel
theorem test_wf_pages : ∀ i ∈ [Instr.eventForce 22 0 0, .softReset 13 4352, .pageLock 0 1, .pageApply 9 4 true], i.wf = false := by
  decide +kernel
theorem test_wf_near_memory : ∀ f ∈ [Instr.nmAdd, .nmMul, .fma, .axpby, .scale, .nmMax, .nmMin, .cmplt, .cmpeq, .nmXor, .nmFill, .nmCopy,
    .relu, .gelu, .silu, .nmCvt, .setlayout, .plane, .unplane, .padd, .psub, .pcmplt, .pcmplti, .pand, .por, .pxor, .pcount],
    (f 0 nmWide).wf = false := by decide +kernel
theorem test_wf_abaes : ∀ i ∈ [Instr.regRd (firstW 1 0) [] 0 0 1, .regRd (firstW 0 0) [firstW 0 0] 0 0 1, .regRd (firstW 0 0) [] 1 0 1,
    .regWr (firstW 0 0) [] 0 0 [0], .memRd (firstW 4 0) [] 0 0 0 0, .memWr (firstW 4 (2 ^ 96)) [] 0 0 0 [0], .dmaCpl (firstW 8 (2 ^ 16), moreW 8 1) 0 0 [],
    .abaCredit (firstW 11 0), .abaAckOnly (firstW 10 0), .abaNak (firstW 13 0), .abaReplayReq (firstW 13 1) 0], i.wf = false := by decide +kernel
theorem test_wf_heat : ∀ i ∈ [Instr.shadowCompute 0 [(0, 1), (0, 2)], .backgroundCopy (0, [⟨2 ^ 29, true, 0⟩])], i.wf = false := by decide +kernel
/-- Terms at the bounds are well formed. -/
theorem test_wf_bounds : ∀ i ∈ [Instr.bundleIssue 0 3317 [], .nmChunkStart 0 0 7999, .checkerBatch 0 1024 1024, .thermtrip 0 115,
    .regRd (firstW 0 0) [] 0 0 1, .memWr (firstW 4 (2 ^ 96)) (moreW 4 1) 0 0 0 [0], .softReset 13 4351, .copyOnWriteSwitch 262143, .nmAdd 0 { nmWide with errs := [⟨2 ^ 29 - 1, true, 0⟩] }], i.wf = true := by
  decide +kernel

end Sys2Proof.Tests
end

section
/-! SUPPORT. Rules of register fields and register pages (00 R4 to R6; 19 R509; 21 R536, R537), and the statements on
the state after a cold power-on and on the page commands. -/
namespace Sys2Proof.Machine

/-! ### The state after a cold power-on -/

/-- No register is listed, so each reads its constant reset value; one that the image or the fuses give reads 0 until they do
(entries 4 and 5). -/
@[simp] theorem rd_reset (f : Fld) (i : Nat) : rd f i State.reset = f.dflt := rfl

/-- Settles O57: no map of the reset state lists a value, so every unit reads its state at reset. -/
theorem resetState : Obligations.ResetState := by
  unfold Obligations.ResetState
  exact ⟨rd_reset, rfl, rfl, rfl, rfl, fun _ => ⟨rfl, rfl⟩, fun _ => rfl, fun _ => rfl, fun _ _ => rfl, rfl, rfl, rfl, rfl⟩

/-! ### Fields at different places of a page -/

/-- Where a field begins in its page: the bit offset of its word and bit, as its key holds it. -/
def Fld.place (f : Fld) : Nat := (f.off * 64 + f.lo) % 2 ^ 18

@[simp] theorem place_sev (q : Pg) : (H.SEV q).place = 0x400 := by simp [Fld.place, H.SEV]
@[simp] theorem place_evtEn (q : Pg) : (H.EVT_EN q).place = 0x500 := by simp [Fld.place, H.EVT_EN]
@[simp] theorem place_evtCnt (q : Pg) : (H.EVT_CNT q).place = 0x800 := by simp [Fld.place, H.EVT_CNT]
@[simp] theorem place_bootState : R.BOOT_STAT_STATE.place = 0x1000 := rfl
@[simp] theorem place_curLen : R.GLB_EXP_CUR_LEN.place = 0x1200 := rfl

/-- Fields at different places have different keys, whatever their pages and instances. -/
theorem key_ne_of_place_ne {f g : Fld} (h : f.place ≠ g.place) (i j : Nat) : f.key i ≠ g.key j := by
  unfold Fld.place at h
  unfold Fld.key
  omega

theorem rd_wr_of_place_ne {f g : Fld} (h : f.place ≠ g.place) (i j v : Nat) (s : State) :
    rd f i (wr g j v s) = rd f i s :=
  rd_wr_of_ne (key_ne_of_place_ne h i j) v s

theorem rd_wr_of_lt (f : Fld) (i : Nat) {v : Nat} (h : v < 2 ^ f.w) (s : State) : rd f i (wr f i v s) = v := by
  rw [rd_wr_same, Nat.mod_eq_of_lt h]

theorem rd_bump_same (f : Fld) (i n : Nat) (s : State) : rd f i (bump f i n s) = min (rd f i s + n) (2 ^ f.w - 1) := by
  have : 0 < 2 ^ f.w := Nat.two_pow_pos f.w
  exact rd_wr_of_lt f i (by omega) s

theorem rd_orIn_same (f : Fld) (i v : Nat) (s : State) : rd f i (orIn f i v s) = (rd f i s ||| v) % 2 ^ f.w := by
  rw [orIn, rd_wr_same]

theorem flag_wr_same (f : Fld) (i v : Nat) (s : State) : flag f i (wr f i v s) = decide (v % 2 ^ f.w ≠ 0) := by
  rw [flag, rd_wr_same]

/-! ### Writes that are ignored, and actions that wait -/

/-- A write ignored under 21 R537 changes its counter alone. -/
theorem wrIgnored_counts (s : State) : wrIgnored s = { s with regs := (wrIgnored s).regs }
    ∧ rd R.GLB_WR_IGNORED 0 (wrIgnored s) = min (rd R.GLB_WR_IGNORED 0 s + 1) (2 ^ R.GLB_WR_IGNORED.w - 1) :=
  ⟨rfl, rd_bump_same ..⟩

/-- A write ignored for its status (15 R435) changes its counter alone. -/
theorem regIgnored_counts (s : State) : regIgnored s = { s with regs := (regIgnored s).regs }
    ∧ rd R.ABA_REG_IGNORED 0 (regIgnored s) = min (rd R.ABA_REG_IGNORED 0 s + 1) (2 ^ R.ABA_REG_IGNORED.w - 1) :=
  ⟨rfl, rd_bump_same ..⟩

theorem queued_later (a : TickAct) (s : State) : Queued a s (later a s) := by
  unfold Queued
  rcases later_cases a s with ⟨ht, hfix⟩ | ⟨ht, hfix⟩ <;> simp [ht, hfix]

/-! ### Page commands -/

@[simp] theorem Pg.ofNum_num (q : Pg) : Pg.ofNum q.num = some q := by
  cases q <;> rfl

theorem onPage_num {q : Pg} {i : Nat} (h : i < q.count) (f : Pg → State → State) (s : State) :
    onPage q.num i f s = f q s := by
  simp [onPage, h]

theorem exec_eventForce {q : Pg} {i : Nat} (h : i < q.count) (c : BitVec 16) (s : State) :
    exec (.eventForce q.num i c) s = .next (forceEvent q i c.toNat s) :=
  congrArg Host.Outcome.next (onPage_num h ..)

theorem exec_softReset {q : Pg} {i : Nat} (h : i < q.count) (s : State) :
    exec (.softReset q.num i) s = .next (softRequest q i s) :=
  congrArg Host.Outcome.next (onPage_num h ..)

theorem exec_pageLock {q : Pg} {i : Nat} (h : i < q.count) (s : State) :
    exec (.pageLock q.num i) s = .next (lockPage q i s) :=
  congrArg Host.Outcome.next (onPage_num h ..)

theorem exec_pageApply {q : Pg} {i : Nat} (h : i < q.count) (on : Bool) (s : State) :
    exec (.pageApply q.num i on) s = .next (applyPage q i on s) :=
  congrArg Host.Outcome.next (onPage_num h ..)

theorem flag_lockPage (q : Pg) (i : Nat) (s : State) : flag (H.LOCK q) i (lockPage q i s) = true :=
  flag_wr_same ..

theorem flag_applyPage (q : Pg) (i : Nat) (on : Bool) (s : State) : flag (H.APPLY q) i (applyPage q i on s) = on := by
  rw [applyPage, flag_wr_same]
  cases on <;> rfl

/-! ### Raised events (19 R509) -/

theorem Sev.code_lt (v : Sev) : v.code < 4 := by
  cases v <;> decide

section raise
variable (e : Ev) (q : Pg) (i : Nat) (s : State)

/-- An event's mark writes PG_EVT and PG_EVT_CNT alone. -/
theorem evMark_regs :
    (evMark e q i s).regs = (bump (H.EVT_CNT q) i 1 (orIn (H.SEV q) i (2 ^ e.sev.code) s)).regs := rfl

theorem rd_evMark_of_place_ne {f : Fld} (hsev : f.place ≠ (H.SEV q).place) (hcnt : f.place ≠ (H.EVT_CNT q).place)
    (j : Nat) : rd f j (evMark e q i s) = rd f j s := by
  rw [rd_congr (evMark_regs e q i s), bump, rd_wr_of_place_ne hcnt, orIn, rd_wr_of_place_ne hsev]

theorem raisedOn_evMark : RaisedOn e q i s (evMark e q i s) := by
  unfold RaisedOn
  rw [rd_congr (evMark_regs e q i s), rd_congr (evMark_regs e q i s)]
  constructor
  · rw [rd_bump_same, orIn, rd_wr_of_place_ne (by simp)]
  · have hbit : e.sev.code < (H.SEV q).w := e.sev.code_lt
    rw [bump, rd_wr_of_place_ne (by simp), rd_orIn_same, Nat.testBit_mod_two_pow, Nat.testBit_or,
      Nat.testBit_two_pow_self]
    simp [hbit]

theorem evOn_evMark : evOn e q i (evMark e q i s) = evOn e q i s := by
  unfold evOn
  rw [rd_evMark_of_place_ne e q i s (f := H.EVT_EN q) (by simp) (by simp)]

@[simp] theorem bootState_evMark : rd R.BOOT_STAT_STATE 0 (evMark e q i s) = rd R.BOOT_STAT_STATE 0 s :=
  rd_evMark_of_place_ne e q i s (by simp) (by simp) 0

theorem inFix_evMark : inFix (evMark e q i s) = inFix s := by
  have hlen : rd R.GLB_EXP_CUR_LEN 0 (evMark e q i s) = rd R.GLB_EXP_CUR_LEN 0 s :=
    rd_evMark_of_place_ne e q i s (by simp) (by simp) 0
  unfold inFix inService State.released
  rw [bootState_evMark, hlen]
  rfl

/-- What a raise does: its mark, and one record or count among the events. -/
theorem raiseRec_eq (tag : Nat) (forced : Bool) : raiseRec e q i tag forced s
    = { evMark e q i s with evt := (raiseRec e q i tag forced s).evt } := by
  unfold raiseRec
  dsimp only
  split
  · rfl
  · split
    · rfl
    · rfl

/-- In service, a raise whose records are written files one. -/
theorem raiseRec_files (tag : Nat) (forced : Bool) (hon : evOn e q i s = true) (hst : 7 ≤ rd R.BOOT_STAT_STATE 0 s) :
    (raiseRec e q i tag forced s).evt = fileRec (evRec e q i tag forced s) (inFix s) s.evt := by
  unfold raiseRec
  simp only [evOn_evMark, hon, bootState_evMark, Nat.not_lt.mpr hst, inFix_evMark]
  rfl

theorem raisedOn_raiseRec (tag : Nat) (forced : Bool) : RaisedOn e q i s (raiseRec e q i tag forced s) := by
  rw [raiseRec_eq]
  exact raisedOn_evMark e q i s

theorem bootState_raiseRec (tag : Nat) (forced : Bool) :
    rd R.BOOT_STAT_STATE 0 (raiseRec e q i tag forced s) = rd R.BOOT_STAT_STATE 0 s := by
  rw [raiseRec_eq]
  exact bootState_evMark e q i s

end raise

theorem forceEvent_raises {c : Nat} {e : Ev} (hc : evOfCode c = some e) (he : e ≠ .ringOverflow) (q : Pg) (i : Nat)
    (s : State) : forceEvent q i c s = raiseRec e q i noTag true s := by
  simp [forceEvent, hc, he]

theorem forceEvent_ignored {c : Nat} (hc : evOfCode c = none ∨ evOfCode c = some .ringOverflow) (q : Pg) (i : Nat)
    (s : State) : forceEvent q i c s = wrIgnored s := by
  rcases hc with hc | hc <;> simp [forceEvent, hc]

/-! ### Words of a page -/

/-- A low word read latches its high word (00 R4); the read of another word latches nothing. -/
theorem lowWordRead_low {a : Nat} {q : Pg} {i o : Nat} (hp : placeOf a = some (.page q i o)) (hlo : isLow q o = true)
    (hhi : isHigh q o = false) (s : State) :
    lowWordRead a s = { s with latches := mput (latchKey q i o) (regValue q i o s / 2 ^ 32) s.latches } := by
  simp [lowWordRead, readPage, hp, hlo, hhi]

theorem lowWordRead_other {a : Nat} {q : Pg} {i o : Nat} (hp : placeOf a = some (.page q i o)) (hlo : isLow q o = false)
    (s : State) : lowWordRead a s = s := by
  simp [lowWordRead, hp, hlo]

theorem exec_registerWrite_ignored {a : BitVec 26} {s : State} (h : regStatus a.toNat s ≠ 0) (w : Word) :
    exec (.registerWrite a w) s = .next (regIgnored s) :=
  congrArg Host.Outcome.next (if_neg h)

theorem exec_registerWrite_page {a : BitVec 26} {s : State} {q : Pg} {i o : Nat}
    (hp : placeOf a.toNat = some (.page q i o)) (hs : regStatus a.toNat s = 0) (w : Word) :
    exec (.registerWrite a w) s = .next (writePage q i o w.toNat s) := by
  show Host.Outcome.next (hostWriteRegs a.toNat [w.toNat] s) = _
  simp [hostWriteRegs, hs, writeWords, writeWordAt, hp]

theorem writePage_disabled {q : Pg} {i o : Nat} {s : State} (ho : 0x40 ≤ o) (hen : flag (H.EN q) i s = false) (v : Nat) :
    writePage q i o v s = wrIgnored s := by
  simp [writePage, ifEn, Nat.not_lt.mpr ho, hen]

/-- A value that touches no reserved bit of PG_EVT clears the severities it names (19 R509). -/
theorem writePage_sev {v : Nat} (hv : v < 16) (q : Pg) (i : Nat) (s : State) :
    writePage q i 0x10 v s = wr (H.SEV q) i (rd (H.SEV q) i s &&& (15 - v)) s := by
  have hrsvd : v &&& (0xFFFFFFFF - headerBits 0x10) = 0 := by
    decide +revert
  simp [writePage, writeHeader, hrsvd, Nat.mod_eq_of_lt hv]

theorem writePage_evtEn {v : Nat} (hv : v < 4) (q : Pg) (i : Nat) (s : State) :
    writePage q i 0x14 v s = wr (H.EVT_EN q) i v s := by
  have hrsvd : v &&& (0xFFFFFFFF - headerBits 0x14) = 0 := by
    decide +revert
  simp [writePage, writeHeader, hrsvd]

theorem writePage_block {q : Pg} {i o : Nat} {s : State} (ho : 0x40 ≤ o) (hen : flag (H.EN q) i s = true) (v : Nat) :
    writePage q i o v s = writeBlock q i o v s := by
  simp [writePage, ifEn, Nat.not_lt.mpr ho, hen]

/-- A word with no RWL field and no configuration of the page ledger, written with its reserved bits 0, is written field by
field. -/
theorem writeBlock_fields {q : Pg} {o v : Nat} (hrwl : ∀ f ∈ wordFields q o, f.1.acc ≠ .rwl)
    (hrsvd : v &&& (0xFFFFFFFF - definedBits (wordFields q o)) = 0) (hkv : kvConfigures q o = false) (i : Nat) (s : State) :
    writeBlock q i o v s = trigger q i o v (putFields i v (wordFields q o) s) := by
  have hlock : (wordFields q o).any (fun f => decide (f.1.acc = .rwl)) = false := by
    simpa using hrwl
  simp [writeBlock, hlock, hrsvd, hkv]

/-- Fields that refuse nothing are written one after another. -/
theorem putFields_accepted {i : Nat} {fs : List (Fld × Bool)} {s : State} (h : ∀ f ∈ fs, refuses f.1 i s = false)
    (v : Nat) : putFields i v fs s = fs.foldl (fun s f => putField f.1 i f.2 (sliceOf f.1 v) s) s := by
  have hno : fs.filter (fun f => refuses f.1 i s) = [] := by
    simpa using h
  have hyes : fs.filter (fun f => !refuses f.1 i s) = fs := by
    simpa using h
  simp [putFields, List.partition_eq_filter_filter, Function.comp_def, hno, hyes]

theorem putField_w1c {f : Fld} (h : f.acc = .w1c) (i : Nat) (hi : Bool) (v : Nat) (s : State) :
    putField f i hi v s = wr f i (rd f i s &&& (2 ^ f.w - 1 - v % 2 ^ f.w)) s := by
  simp [putField, h]

/-! ### The fault record of a region (03 R129) -/

/-- The word of TWR_RGN_FAULT holds the record and its VALID bit. -/
theorem wordFields_rgnFault : wordFields .rgn 0x40
    = [(R.TWR_RGN_FAULT_CORE, false), (R.TWR_RGN_FAULT_CONTEXT, false), (R.TWR_RGN_FAULT_CAUSE, false),
      (R.TWR_RGN_FAULT_BUNDLE, false), (R.TWR_RGN_FAULT_VALID, false)] := by
  decide

/-- A field of a region's page refuses no write. -/
theorem refuses_rgn {f : Fld} (hpg : f.pg = .rgn) (hsel : f.sel = .page) (i : Nat) (s : State) : refuses f i s = false := by
  simp [refuses, hpg, hsel]

/-- A 1 written to VALID alone clears it: the rest of the record is read-only. -/
theorem writePage_rgnFault {i : Nat} {s : State} (hen : flag (H.EN .rgn) i s = true) :
    writePage .rgn i R.TWR_RGN_FAULT_VALID.off (2 ^ R.TWR_RGN_FAULT_VALID.lo) s = wr R.TWR_RGN_FAULT_VALID i 0 s := by
  have hfields : ∀ f ∈ wordFields .rgn 0x40, f.1.pg = .rgn ∧ f.1.sel = .page ∧ f.1.acc ≠ .rwl := by decide
  have hacc : ∀ f ∈ wordFields .rgn 0x40, refuses f.1 i s = false := fun f hf =>
    refuses_rgn (hfields f hf).1 (hfields f hf).2.1 i s
  calc writePage .rgn i 0x40 (2 ^ 31) s
      = writeBlock .rgn i 0x40 (2 ^ 31) s := writePage_block (by decide) hen _
    _ = trigger .rgn i 0x40 (2 ^ 31) (putFields i (2 ^ 31) (wordFields .rgn 0x40) s) :=
        writeBlock_fields (fun f hf => (hfields f hf).2.2) (by decide) (by decide) i s
    _ = (wordFields .rgn 0x40).foldl (fun s f => putField f.1 i f.2 (sliceOf f.1 (2 ^ 31)) s) s :=
        putFields_accepted hacc _
    _ = putField R.TWR_RGN_FAULT_VALID i false (sliceOf R.TWR_RGN_FAULT_VALID (2 ^ 31)) s := by
        -- the four fields of the record are ROF: their writes leave the state as it is
        rw [wordFields_rgnFault]
        rfl
    _ = wr R.TWR_RGN_FAULT_VALID i 0 s := by
        rw [putField_w1c rfl]
        exact congrArg (wr R.TWR_RGN_FAULT_VALID i · s) (Nat.and_zero _)

/-! ### The page commands -/

/-- Settles O51: each command is its rule above, on the page or the word that its operands name. -/
theorem registerPages : Obligations.RegisterPages := by
  intro s Ignored
  refine ⟨fun q i hi => ⟨?force, ?badForce, ?reset, ?noReset, ?lock, ?apply⟩, fun a q i o hp => ⟨?low, ?other⟩, ?ratio,
    fun a w => ⟨?status, fun q i o hp hs => ⟨?disabled, ?sev, ?evtEn, ?fault⟩⟩⟩
  case force =>
    intro c e hc he
    refine ⟨_, exec_eventForce hi c s, ?_⟩
    rw [forceEvent_raises hc he]
    exact ⟨raisedOn_raiseRec .., bootState_raiseRec .., by rw [raiseRec_eq]; rfl, by rw [raiseRec_eq]; rfl,
      raiseRec_files e q i s noTag true⟩
  case badForce =>
    intro c hc
    refine ⟨_, exec_eventForce hi c s, ?_⟩
    rw [forceEvent_ignored hc]
    exact wrIgnored_counts s
  case reset =>
    intro hq
    refine ⟨_, exec_softReset hi s, ?_⟩
    rw [softRequest, if_pos hq]
    exact ⟨queued_later .., later_regs ..⟩
  case noReset =>
    intro hq
    refine ⟨_, exec_softReset hi s, ?_⟩
    rw [softRequest, hq, if_neg Bool.false_ne_true]
    exact wrIgnored_counts s
  case lock => exact ⟨_, exec_pageLock hi s, flag_lockPage .., rfl⟩
  case apply => exact fun on => ⟨_, exec_pageApply hi on s, flag_applyPage .., rfl⟩
  case low => exact fun hlo hhi => congrArg Host.Outcome.next (lowWordRead_low hp hlo hhi s)
  case other => exact fun hlo => congrArg Host.Outcome.next (lowWordRead_other hp hlo s)
  case ratio =>
    intro r sets hen
    exact ⟨_, congrArg Host.Outcome.next (if_pos hen), queued_later .., later_regs ..⟩
  case status =>
    intro hs
    exact ⟨_, exec_registerWrite_ignored hs w, regIgnored_counts s⟩
  case disabled =>
    intro ho hen
    refine ⟨_, exec_registerWrite_page hp hs w, ?_⟩
    rw [writePage_disabled ho hen]
    exact wrIgnored_counts s
  case sev =>
    intro ho hw
    subst ho
    refine ⟨_, exec_registerWrite_page hp hs w, ?_⟩
    rw [writePage_sev hw]
    exact ⟨rfl, rd_wr_of_lt _ _ (Nat.lt_of_le_of_lt Nat.and_le_right (by simp [H.SEV]; omega)) s⟩
  case evtEn =>
    intro ho hw
    subst ho
    refine ⟨_, exec_registerWrite_page hp hs w, ?_⟩
    rw [writePage_evtEn hw]
    exact ⟨rfl, rd_wr_of_lt _ _ hw s⟩
  case fault =>
    intro hq ho hen hw
    subst hq ho
    refine ⟨_, exec_registerWrite_page hp hs w, ?_⟩
    rw [hw, writePage_rgnFault hen]
    exact ⟨rfl, flag_wr_same .., fun f k hk => rd_wr_of_ne hk 0 s⟩

end Sys2Proof.Machine
end

section
/-! SUPPORT. What an event that is not FATAL leaves when the device raises it (19 R509), and what waits for the next tick
(00 R7): rules that the statements on tests, event rings, fences and evacuations use. -/
namespace Sys2Proof.Machine

/-! ### Events raised by the device (19 R509) -/

section raise
variable {e : Ev} (he : e.sev ≠ .fatal) (q : Pg) (i : Nat) (s : State)
include he

theorem raise_eq_raiseRec : raise e q i s = raiseRec e q i noTag false s :=
  if_neg he

/-- A raise writes PG_EVT and PG_EVT_CNT, the page's last event, and the records. -/
theorem raise_frame : raise e q i s
    = { s with regs := (raise e q i s).regs, lastEv := (raise e q i s).lastEv, evt := (raise e q i s).evt } := by
  rw [raise_eq_raiseRec he, raiseRec_eq]
  rfl

theorem raise_boot : (raise e q i s).boot = s.boot := by rw [raise_frame he]
theorem raise_mem : (raise e q i s).mem = s.mem := by rw [raise_frame he]
theorem raise_aba : (raise e q i s).aba = s.aba := by rw [raise_frame he]
theorem raise_acts : (raise e q i s).acts = s.acts := by rw [raise_frame he]
theorem raise_late : (raise e q i s).late = s.late := by rw [raise_frame he]
theorem raise_evacs : (raise e q i s).evacs = s.evacs := by rw [raise_frame he]
theorem sinceTick_raise : sinceTick (raise e q i s) = sinceTick s := by
  rw [raise_frame he]
  rfl

theorem rd_raise_of_place_ne {f : Fld} (hsev : f.place ≠ (H.SEV q).place) (hcnt : f.place ≠ (H.EVT_CNT q).place)
    (j : Nat) : rd f j (raise e q i s) = rd f j s := by
  rw [raise_eq_raiseRec he, raiseRec_eq]
  exact rd_evMark_of_place_ne e q i s hsev hcnt j

/-- A raise counts from the state before the operation that makes it, where that leaves the page's count. -/
theorem raisedOn_raise {s₀ : State} (hcnt : rd (H.EVT_CNT q) i s = rd (H.EVT_CNT q) i s₀) :
    RaisedOn e q i s₀ (raise e q i s) := by
  rw [RaisedOn, ← hcnt, raise_eq_raiseRec he]
  exact raisedOn_raiseRec ..

/-- A raise opens or counts a record: none joins a device queue before the tick (19 R507). -/
theorem queueOf_raise (v : Nat) : queueOf v (raise e q i s) = queueOf v s := by
  rw [raise_eq_raiseRec he]
  unfold raiseRec queueOf
  dsimp only
  split
  · unfold fileSilent
    split <;> rfl
  · split
    · unfold addStartup
      split
      · rfl
      · split <;> rfl
    · unfold fileRec
      split <;> rfl

end raise

/-! ### Actions that wait for the tick (00 R7) -/

theorem later_frame (a : TickAct) (s : State) :
    later a s = { s with acts := (later a s).acts, late := (later a s).late } := by
  rcases later_cases a s with ⟨h, -⟩ | ⟨h, -⟩ <;> rw [h]

/-- The fix window is read from the start-up state, the exposure's length and its time. -/
theorem inFix_congr {s t : State} (hst : rd R.BOOT_STAT_STATE 0 t = rd R.BOOT_STAT_STATE 0 s)
    (hlen : rd R.GLB_EXP_CUR_LEN 0 t = rd R.GLB_EXP_CUR_LEN 0 s) (hboot : t.boot = s.boot)
    (hnow : sinceTick t = sinceTick s) : inFix t = inFix s := by
  unfold inFix inService State.released
  rw [hst, hlen, hboot, hnow]

theorem inFix_wr_of_place_ne {f : Fld} (hst : f.place ≠ R.BOOT_STAT_STATE.place)
    (hlen : f.place ≠ R.GLB_EXP_CUR_LEN.place) (i v : Nat) (s : State) : inFix (wr f i v s) = inFix s :=
  inFix_congr (rd_wr_of_place_ne hst.symm ..) (rd_wr_of_place_ne hlen.symm ..) rfl rfl

theorem inFix_raise {e : Ev} (he : e.sev ≠ .fatal) (q : Pg) (i : Nat) (s : State) : inFix (raise e q i s) = inFix s :=
  inFix_congr (rd_raise_of_place_ne he q i s (by simp) (by simp) 0) (rd_raise_of_place_ne he q i s (by simp) (by simp) 0)
    (raise_boot he q i s) (sinceTick_raise he q i s)

/-- An action queued after steps that queue nothing and leave the fix window as it is, is queued from before them. -/
theorem Queued.of_same {a : TickAct} {s₀ s t : State} (h : Queued a s t) (hfix : inFix s = inFix s₀)
    (hacts : s.acts = s₀.acts) (hlate : s.late = s₀.late) : Queued a s₀ t := by
  rwa [Queued, ← hfix, ← hacts, ← hlate]

end Sys2Proof.Machine
end

section
/-! SUPPORT. Requested tests (02 R67; 18 R498): how BOOT_TEST.GO is answered, and what a unit of a test does. -/
namespace Sys2Proof.Machine

/-! ### The word of BOOT_TEST -/

/-- The field lies in the word at offset 0x50 of its page, which in BOOT is BOOT_TEST. -/
abbrev Fld.InTestWord (f : Fld) : Prop := f.place / 64 = 0x50

theorem rd_wr_of_inTestWord {f g : Fld} (hg : g.InTestWord) (hf : ¬f.InTestWord) (j i v : Nat) (s : State) :
    rd f j (wr g i v s) = rd f j s :=
  rd_wr_of_place_ne (fun h => hf ((congrArg (· / 64) h).trans hg)) ..

theorem released_wr_of_inTestWord {g : Fld} (hg : g.InTestWord) (i v : Nat) (s : State) :
    (wr g i v s).released = s.released := by
  unfold State.released
  rw [rd_wr_of_inTestWord hg (by decide)]

/-- What bars a destructive test is read from plates, snapshots, parity groups and buckets, none of it from BOOT_TEST. -/
theorem testBlocked_wr_of_inTestWord {g : Fld} (hg : g.InTestWord) (mask i v : Nat) (s : State) :
    testBlocked mask (wr g i v s) = testBlocked mask s := by
  simp (disch := decide) only [testBlocked, flag, upFrom, List.any_cons, List.any_nil, rd_wr_of_inTestWord hg,
    wr_plates, wr_snap, wr_red]

/-! ### A request (18 R498) -/

/-- What refuses a test that may be asked for: the device is not released, or the test destroys what is in use. -/
def testBarred (code towers : Nat) (s : State) : Bool :=
  !s.released || (decide (4 ≤ code) && testBlocked towers s)

/-- BOOT_TEST after a request has been written to it. -/
def testNoted (code : Nat) (force : Bool) (towers : Nat) (s : State) : State :=
  wr R.BOOT_TEST_CODE 0 code (wr R.BOOT_TEST_FORCE 0 force.toNat (wr R.BOOT_TEST_TOWERS 0 towers s))

theorem testBarred_testNoted (code towers c : Nat) (force : Bool) (m : Nat) (s : State) :
    testBarred code towers (testNoted c force m s) = testBarred code towers s := by
  simp (disch := decide) only [testBarred, testNoted, released_wr_of_inTestWord, testBlocked_wr_of_inTestWord]

section request
variable {code towers : Nat} {force : Bool} {s : State}

/-- A request while a test runs. -/
theorem testRequest_busy (h : rd R.BOOT_TEST_STATUS 0 s = 1) :
    testRequest code force towers s = raise .testRefused .boot 0 s :=
  if_pos h

variable (h : rd R.BOOT_TEST_STATUS 0 s ≠ 1) (hcode : 1 ≤ code ∧ code ≤ 5)
include h hcode

/-- A request while none runs is noted, and then refused, or complete, or started. -/
theorem testRequest_idle : testRequest code force towers s =
    if testBarred code towers s then testRefused (testNoted code force towers s)
    else if towers % 16 = 0 then
      raise .testDone .boot 0 (wr R.BOOT_TEST_STATUS 0 2 (wr R.BOOT_TEST_RESULT 0 0 (testNoted code force towers s)))
    else
      wr R.BOOT_TEST_STATUS 0 1 (wr R.BOOT_TEST_RESULT 0 0
        { testNoted code force towers s with
          boot := { s.boot with test := some ⟨code, towers % 16, force, 0, false, false⟩ } }) := by
  rw [← testBarred_testNoted code towers code force towers s]
  have h0 : decide (code = 0) = false := decide_eq_false (by omega)
  have h5 : decide (5 < code) = false := decide_eq_false (by omega)
  unfold testRequest testBarred
  rw [if_neg h, h0, h5]
  simp only [Bool.or_false]
  rfl

theorem testRequest_barred (hb : testBarred code towers s = true) :
    testRequest code force towers s = testRefused (testNoted code force towers s) := by
  rw [testRequest_idle h hcode, if_pos hb]

theorem testRequest_done (hb : testBarred code towers s = false) (h0 : towers % 16 = 0) :
    testRequest code force towers s = raise .testDone .boot 0
      (wr R.BOOT_TEST_STATUS 0 2 (wr R.BOOT_TEST_RESULT 0 0 (testNoted code force towers s))) := by
  rw [testRequest_idle h hcode, hb, if_neg Bool.false_ne_true, if_pos h0]

theorem testRequest_starts (hb : testBarred code towers s = false) (h0 : towers % 16 ≠ 0) :
    testRequest code force towers s = wr R.BOOT_TEST_STATUS 0 1 (wr R.BOOT_TEST_RESULT 0 0
      { testNoted code force towers s with
        boot := { s.boot with test := some ⟨code, towers % 16, force, 0, false, false⟩ } }) := by
  rw [testRequest_idle h hcode, hb, if_neg Bool.false_ne_true, if_neg h0]

end request

/-- The commands of BOOT_TEST's five codes are requests, where the page is enabled. -/
theorem exec_testRequest {code : Nat} {i : Instr} {force : Bool} {tw : BitVec 4} {s : State}
    (h : (code, i) ∈ [(1, Instr.checkerTest force tw), (2, .delayTrainingTest force tw), (3, .regulatorTest force tw),
      (4, .sramMarch force tw), (5, .dramMarch force tw)]) (hen : flag (H.EN .boot) 0 s = true) :
    (1 ≤ code ∧ code ≤ 5) ∧ exec i s = .next (testRequest code force tw.toNat s) := by
  simp only [List.mem_cons, List.not_mem_nil, or_false, Prod.mk.injEq] at h
  rcases h with ⟨rfl, rfl⟩ | ⟨rfl, rfl⟩ | ⟨rfl, rfl⟩ | ⟨rfl, rfl⟩ | ⟨rfl, rfl⟩ <;>
    exact ⟨by decide, congrArg Host.Outcome.next (if_pos hen)⟩

/-! ### Delay training (02 R67, R69) -/

/-- A lane fails its training where its best trim lies at an end and it had not failed before; one that does not fail
joins no failed lane. -/
theorem trainLane_fails (k best : Nat) (ok : Bool) (s : State) :
    (trainLane k best ok s).1 = (trimEnd best && !s.fab.tune.dead.contains k)
    ∧ ((trainLane k best ok s).1 = false → (trainLane k best ok s).2.fab.tune.dead = s.fab.tune.dead) := by
  unfold trainLane
  dsimp only
  split
  · rename_i hd
    exact ⟨by rw [hd, Bool.not_true, Bool.and_false], fun _ => rfl⟩
  · rename_i hd
    rw [Bool.not_eq_true] at hd
    split
    · rename_i he
      exact ⟨by rw [he, hd]; rfl, nofun⟩
    · rename_i he
      exact ⟨by rw [Bool.eq_false_iff.mpr he]; rfl, fun _ => rfl⟩

/-- One lane of a training: what it adds to the answer, and the state in which the next one is trained. -/
def trainOne (x : Bool × State) (o : Nat × LaneObs) : Bool × State :=
  match trainLane (laneKey o.1 o.2.lane.val) o.2.best.val o.2.ok x.2 with
  | (bad, s) => (x.1 || bad, if bad then laneFailed o.1 o.2.lane.val s else s)

/-- Once a lane has failed the training has. -/
theorem foldl_trainOne_failed (l : List (Nat × LaneObs)) (s : State) : (l.foldl trainOne (true, s)).1 = true := by
  induction l generalizing s with
  | nil => rfl
  | cons o l ih => exact ih _

/-- Training lanes of one shaft fails where one of them does. What a failed lane does to its path decides nothing more: the
answer stands by then. -/
theorem trainLanes_fails (p : Nat) (l : List LaneObs) (s : State) :
    (trainLanes (l.map (fun o => (p, o))) s).1 = LanesFail p l s := by
  show ((l.map (fun o => (p, o))).foldl trainOne (false, s)).1 = _
  induction l generalizing s with
  | nil => rfl
  | cons o l ih =>
    obtain ⟨hbad, hdead⟩ := trainLane_fails (laneKey p o.lane.val) o.best.val o.ok s
    have hfirst : LanesFail p (o :: l) s
        = ((trainLane (laneKey p o.lane.val) o.best.val o.ok s).1 || LanesFail p l s) := by
      rw [hbad]
      rfl
    rw [hfirst, List.map_cons, List.foldl_cons]
    cases hb : (trainLane (laneKey p o.lane.val) o.best.val o.ok s).1 with
    | true =>
      have : trainOne (false, s) (p, o) = (true, (trainOne (false, s) (p, o)).2) := Prod.ext (by simp [trainOne, hb]) rfl
      rw [this, foldl_trainOne_failed]
      rfl
    | false =>
      have : trainOne (false, s) (p, o) = (false, (trainLane (laneKey p o.lane.val) o.best.val o.ok s).2) :=
        Prod.ext (by simp [trainOne, hb]) (by simp [trainOne, hb])
      rw [this, ih, Bool.false_or]
      unfold LanesFail
      rw [hdead hb]

/-! ### A march (18 R498) -/

theorem mget_filter_of_excluded {β : Type} {k : Nat} {p : Nat × β → Bool} (h : ∀ v, p (k, v) = false) (m : SMap β) :
    mget k (m.filter p) = none := by
  induction m with
  | nil => rfl
  | cons e r ih =>
    obtain ⟨a, b⟩ := e
    rw [List.filter_cons]
    split
    · rename_i hp
      have hne : k ≠ a := fun he => by simp [he ▸ h b] at hp
      rw [mget, if_neg hne, ih]
    · exact ih

/-- No byte of a range that has become undefined is listed (07 R235). -/
theorem mget_forgetRange {p a n x : Nat} (hlo : a ≤ x) (hhi : x < a + n) (s : State) :
    mget (cellKey p x) (forgetRange p a n s).mem = none := by
  refine mget_filter_of_excluded (fun v => ?_) _
  have h1 : cellKey p a ≤ cellKey p x := Nat.add_le_add_left hlo _
  have h2 : cellKey p x < cellKey p (a + n) := Nat.add_lt_add_left hhi _
  simp [h1, h2]

/-! ### A unit of a test (18 R498) -/

/-- The unit of test `k` with result `r` fails. -/
def unitFails (k : Test) (r : UnitRes) (s : State) : Bool :=
  if k.code = 1 then decide (r.dram + r.sram ≠ 0)
  else if k.code = 2 then LanesFail ((unitAt k).1 * 1088 + (unitAt k).2) r.lanes s
  else if k.code = 3 then decide (r.phases ≠ 0) else !r.march.isEmpty

theorem unitWork_fails (k : Test) (r : UnitRes) (s : State) : (unitWork k r s).1 = unitFails k r s := by
  unfold unitWork unitFails
  dsimp only
  split
  · rfl
  · split
    · exact trainLanes_fails ..
    · split <;> rfl

/-- A march leaves nothing known of the memory that it covers: stack SRAM, or DRAM. -/
theorem unitWork_march (k : Test) (r : UnitRes) (s : State) :
    (k.code = 4 → ∀ a, 0x10000000 ≤ a → a < 0x10180000 →
      mget (cellKey ((unitAt k).1 * 1088 + (unitAt k).2) a) (unitWork k r s).2.mem = none)
    ∧ (k.code = 5 → ∀ a, a < 0x8000000 →
      mget (cellKey ((unitAt k).1 * 1088 + (unitAt k).2) a) (unitWork k r s).2.mem = none) := by
  constructor
  · intro hk a hlo hhi
    simp only [unitWork, hk]
    exact mget_forgetRange hlo hhi _
  · intro hk a ha
    simp only [unitWork, hk]
    exact mget_forgetRange (Nat.zero_le a) (by omega) _

section unit
variable {k : Test} {r : UnitRes} {s : State}

/-- No test under way, or no dark frame: no unit runs. -/
theorem testUnit_none (h : s.boot.test = none ∨ flag R.GLB_EXP_DARK 0 s = false) : testUnit r s = s := by
  unfold testUnit
  split
  · rfl
  · rename_i k hk
    have hd : flag R.GLB_EXP_DARK 0 s = false := h.resolve_left (by simp [hk])
    rw [hd]
    rfl

theorem testUnit_waits (hk : s.boot.test = some k) (hw : testWaits k s = true) : testUnit r s = s := by
  unfold testUnit
  simp [hk, hw]

/-- A unit runs: its test goes on with the next one, or ends with its result after the last. -/
theorem testUnit_runs (hk : s.boot.test = some k) (hs : inService s = true) (hd : flag R.GLB_EXP_DARK 0 s = true)
    (hw : testWaits k s = false) :
    testUnit r s =
      if k.unit + 1 < (towersIn k.towers).length * unitsPer k.code then
        { (unitWork k r s).2 with
          boot := { (unitWork k r s).2.boot with
            test := some { k with unit := k.unit + 1, fails := k.fails || unitFails k r s } } }
      else raise .testDone .boot 0 (wr R.BOOT_TEST_STATUS 0 2 (wr R.BOOT_TEST_RESULT 0 (k.fails || unitFails k r s).toNat
        { (unitWork k r s).2 with boot := { (unitWork k r s).2.boot with test := none } })) := by
  unfold testUnit
  simp only [hk, hs, hd, hw, ← unitWork_fails]
  rfl

end unit

/-! ### The statement on requested tests -/

theorem testRefused_not_fatal : Ev.testRefused.sev ≠ .fatal := by decide
theorem testDone_not_fatal : Ev.testDone.sev ≠ .fatal := by decide

/-- A request or a test ends: BOOT_TEST shows how, and an event says so. -/
def testOutcome (e : Ev) (status result : Nat) (s : State) : State :=
  raise e .boot 0 (wr R.BOOT_TEST_STATUS 0 status (wr R.BOOT_TEST_RESULT 0 result s))

theorem testOutcome_shows {e : Ev} (he : e.sev ≠ .fatal) {status result : Nat} (hst : status < 4) (hres : result < 4)
    {s₀ s : State} (hcnt : rd (H.EVT_CNT .boot) 0 s = rd (H.EVT_CNT .boot) 0 s₀) :
    RaisedOn e .boot 0 s₀ (testOutcome e status result s)
    ∧ rd R.BOOT_TEST_STATUS 0 (testOutcome e status result s) = status
    ∧ rd R.BOOT_TEST_RESULT 0 (testOutcome e status result s) = result := by
  unfold testOutcome
  refine ⟨raisedOn_raise he _ _ _ ?_, ?_, ?_⟩
  · rw [rd_wr_of_inTestWord rfl (by decide), rd_wr_of_inTestWord rfl (by decide), hcnt]
  · rw [rd_raise_of_place_ne he _ _ _ (by decide) (by decide), rd_wr_of_lt _ _ hst]
  · rw [rd_raise_of_place_ne he _ _ _ (by decide) (by decide), rd_wr_of_place_ne (by decide), rd_wr_of_lt _ _ hres]

theorem evtCnt_testNoted (code : Nat) (force : Bool) (towers : Nat) (s : State) :
    rd (H.EVT_CNT .boot) 0 (testNoted code force towers s) = rd (H.EVT_CNT .boot) 0 s := by
  simp (disch := decide) only [testNoted, rd_wr_of_inTestWord]

/-- Settles O48: a request is answered as BOOT_TEST and what is in use say, and a unit does its work and moves its test on,
or ends it. -/
theorem requestedTests : Obligations.RequestedTests := by
  intro s
  refine ⟨fun force tw code i hi hen => ?_, fun res k hk hs hd => ⟨?waits, fun hw => ?unit⟩, ?none⟩
  · obtain ⟨hcode, hexec⟩ := exec_testRequest hi hen
    rw [hexec]
    have htw : tw.toNat % 16 = tw.toNat := Nat.mod_eq_of_lt tw.isLt
    refine ⟨fun h => ⟨_, rfl, ?busy⟩, fun h hb => ⟨_, rfl, ?barred⟩, fun h hb h0 => ⟨_, rfl, ?noTower⟩,
      fun h hb h0 => ⟨_, rfl, ?starts⟩⟩
    case busy =>
      rw [testRequest_busy h]
      exact ⟨raisedOn_raise testRefused_not_fatal _ _ _ rfl, raise_boot testRefused_not_fatal ..,
        (rd_raise_of_place_ne testRefused_not_fatal _ _ _ (by decide) (by decide) _).trans h⟩
    case barred =>
      obtain ⟨hraised, hshown⟩ := testOutcome_shows testRefused_not_fatal (status := 3) (result := 2) (by decide)
        (by decide) (evtCnt_testNoted code force tw.toNat s)
      rw [testRequest_barred h hcode hb]
      exact ⟨hraised, raise_boot testRefused_not_fatal .., hshown⟩
    case noTower =>
      rw [testRequest_done h hcode hb (by rw [h0]; rfl)]
      exact testOutcome_shows testDone_not_fatal (by decide) (by decide) (evtCnt_testNoted ..)
    case starts =>
      rw [testRequest_starts h hcode hb (fun hz => h0 (BitVec.eq_of_toNat_eq (htw ▸ hz))), htw]
      exact ⟨rfl, rd_wr_of_lt _ _ (by decide) _, rfl⟩
  case waits => exact fun hw => congrArg Host.Outcome.next (testUnit_waits hk hw)
  case unit =>
    intro bad more
    obtain ⟨hsram, hdram⟩ := unitWork_march k res s
    refine ⟨_, rfl, ?_⟩
    rw [testUnit_runs hk hs hd hw]
    by_cases hm : k.unit + 1 < (towersIn k.towers).length * unitsPer k.code
    · rw [if_pos hm]
      exact ⟨fun _ => rfl, fun hlast => absurd hm (of_decide_eq_false hlast), hsram, hdram⟩
    · rw [if_neg hm]
      obtain ⟨-, hshown⟩ := testOutcome_shows testDone_not_fatal (status := 2) (by decide)
        (Nat.lt_of_lt_of_le (k.fails || unitFails k res s).toNat_lt (by decide)) rfl
      refine ⟨fun hmore => absurd (of_decide_eq_true hmore) hm, fun _ => ⟨?_, hshown⟩, ?_⟩
      · rw [raise_boot testDone_not_fatal]
        rfl
      · rw [raise_mem testDone_not_fatal]
        exact ⟨hsram, hdram⟩
  case none => exact fun res h => congrArg Host.Outcome.next (testUnit_none h)

end Sys2Proof.Machine
end

section
/-! SUPPORT. Event records written to the host (19 R506 to R508; 15 R438, R440): what is sent stays sent, and records leave
their device queue oldest first. -/
namespace Sys2Proof.Machine

/-! ### Packets that leave over the Abaes link (15 R434) -/

/-- The packet leaves as it was queued: all but a SIGNAL do, which names the exposure in which it leaves. -/
def AbaPkt.Fixed (k : AbaPkt) : Prop := ∀ s, k.leaving s = k

theorem fixed_dmaWr (a : Nat) (d : List Byte) : (AbaPkt.dmaWr a d).Fixed := fun _ => rfl

theorem sent_iff {k : AbaPkt} {s : State} : Sent k s ↔ k ∈ s.aba.txq ∨ ∃ x ∈ s.aba.out, x.pkt = k := by
  simp [Sent]

/-- Between `s` and `t` the link has sent what it could: `t` differs in the link and in registers, and no packet is lost. -/
structure LinkMoves (s t : State) : Prop where
  frame : t = { s with regs := t.regs, aba := t.aba }
  sent : ∀ k : AbaPkt, k.Fixed → Sent k s → Sent k t

theorem LinkMoves.refl (s : State) : LinkMoves s s := ⟨rfl, fun _ _ h => h⟩

theorem LinkMoves.trans {s t u : State} (h : LinkMoves s t) (g : LinkMoves t u) : LinkMoves s u :=
  ⟨by rw [g.frame, h.frame], fun k hk hs => g.sent k hk (h.sent k hk hs)⟩

/-- The packet in front of those that wait goes out. -/
theorem LinkMoves.of_front_leaves {s t : State} {k : AbaPkt} {r : List AbaPkt} {x : AbaSent} (hq : s.aba.txq = k :: r)
    (hx : x.pkt = k.leaving s) (hframe : t = { s with regs := t.regs, aba := t.aba }) (htxq : t.aba.txq = r)
    (hout : t.aba.out = s.aba.out ++ [x]) : LinkMoves s t := by
  refine ⟨hframe, fun j hj hs => ?_⟩
  rw [sent_iff] at hs ⊢
  rw [htxq, hout]
  rcases hs with hs | ⟨y, hy, hyj⟩
  · rw [hq, List.mem_cons] at hs
    rcases hs with rfl | hs
    · exact .inr ⟨x, by simp, hx.trans (hj s)⟩
    · exact .inl hs
  · exact .inr ⟨y, List.mem_append_left _ hy, hyj⟩

theorem linkMoves_abaDrain (n : Nat) (s : State) : LinkMoves s (abaDrain n s) := by
  induction n generalizing s with
  | zero => exact .refl s
  | succ n ih =>
    unfold abaDrain
    split
    · exact .refl s
    · rename_i k r hq
      dsimp only
      split
      · exact .refl s
      · split
        · exact (LinkMoves.of_front_leaves hq (x := abaSent none ((s.aba.rxSeq + 4095) % 4096) 0 (k.leaving s))
            rfl rfl rfl rfl).trans (ih _)
        · split
          · exact .refl s
          · exact (LinkMoves.of_front_leaves hq
              (x := abaSent (some s.aba.txSeq) ((s.aba.rxSeq + 4095) % 4096) (min s.aba.owed 127) (k.leaving s))
              rfl rfl rfl rfl).trans (ih _)

/-- The packets that wait, with one more among them. -/
theorem linkMoves_queued {s : State} {l : List AbaPkt} (h : ∀ k ∈ s.aba.txq, k ∈ l) :
    LinkMoves s (setAba (fun a => { a with txq := l }) s) :=
  ⟨rfl, fun k _ hs => by
    rw [sent_iff] at hs ⊢
    exact hs.imp_left (h k)⟩

theorem linkMoves_abaSend (k : AbaPkt) (s : State) : LinkMoves s (abaSend k s) := by
  refine .trans (linkMoves_queued fun j hj => ?_) (linkMoves_abaDrain _ _)
  split <;> simp [hj]

theorem sent_abaSend {k : AbaPkt} (hk : k.Fixed) (s : State) : Sent k (abaSend k s) := by
  refine (linkMoves_abaDrain _ _).sent k hk (sent_iff.mpr (.inl ?_))
  dsimp only [setAba]
  split <;> simp

/-- A signal goes out or is held. -/
theorem linkMoves_signal (n : Nat) (s : State) : LinkMoves s (signal n s) := by
  unfold signal
  split
  · exact .trans (t := setAba (fun a => { a with sent := n :: a.sent }) s) ⟨rfl, fun _ _ h => h⟩ (linkMoves_abaSend _ _)
  · exact ⟨rfl, fun _ _ h => h⟩

/-! ### DMA writes (15 R438, R439) -/

theorem abaDmaError_not_fatal : Ev.abaDmaError.sev ≠ .fatal := by decide

theorem inFix_dmaFail (s : State) : inFix (dmaFail s) = inFix s :=
  (inFix_raise abaDmaError_not_fatal ..).trans (inFix_wr_of_place_ne (by decide) (by decide) ..)

theorem raisedOn_dmaFail (s : State) : RaisedOn .abaDmaError .aba 0 s (dmaFail s) :=
  raisedOn_raise abaDmaError_not_fatal _ _ _ (rd_wr_of_place_ne (by decide) ..)

theorem windowWrite_made {w i size : Nat} {s : State} (hen : flag (R.ABA_WIN_CTRL_EN w) 0 s = true)
    (hwr : flag (R.ABA_WIN_CTRL_WRITE w) 0 s = true) (hsize : (i + 1) * size ≤ rd (R.ABA_WIN_SIZE w) 0 s) (d : List Byte) :
    windowWrite w i size d s = (true, abaSend (.dmaWr (rd (R.ABA_WIN_BASE w) 0 s + i * size) d) s) := by
  simp [windowWrite, hen, hwr, Nat.not_lt.mpr hsize]

theorem windowWrite_disabled {w : Nat} {s : State} (hen : flag (R.ABA_WIN_CTRL_EN w) 0 s = false) (i size : Nat)
    (d : List Byte) : windowWrite w i size d s = (false, dmaFail s) := by
  simp [windowWrite, hen]

/-! ### Records of one severity (19 R508) -/

/-- Between `s` and `t` the first `n` records of severity `v`'s queue have gone: memory is as it was, and what had been sent
stays sent. -/
structure RecordsGo (v n : Nat) (s t : State) : Prop where
  mem : t.mem = s.mem
  queue : queueOf v t = (queueOf v s).drop n
  sent : ∀ k : AbaPkt, k.Fixed → Sent k s → Sent k t

theorem RecordsGo.refl (v : Nat) (s : State) : RecordsGo v 0 s s := ⟨rfl, rfl, fun _ _ h => h⟩

theorem RecordsGo.trans {v m n : Nat} {s t u : State} (h : RecordsGo v m s t) (g : RecordsGo v n t u) :
    RecordsGo v (m + n) s u :=
  ⟨g.mem.trans h.mem, by rw [g.queue, h.queue, List.drop_drop], fun k hk hs => g.sent k hk (h.sent k hk hs)⟩

theorem LinkMoves.recordsGo {s t : State} (h : LinkMoves s t) (v : Nat) : RecordsGo v 0 s t :=
  ⟨by rw [h.frame], by rw [h.frame]; rfl, h.sent⟩

/-- A step that leaves memory, the link and the device queue. -/
theorem RecordsGo.of_eq {v : Nat} {s t : State} (hmem : t.mem = s.mem) (haba : t.aba = s.aba)
    (hqueue : queueOf v t = queueOf v s) : RecordsGo v 0 s t :=
  ⟨hmem, hqueue, fun k _ hs => by rwa [Sent, haba]⟩

theorem recordsGo_dmaFail (v : Nat) (s : State) : RecordsGo v 0 s (dmaFail s) :=
  .of_eq (raise_mem abaDmaError_not_fatal ..) (raise_aba abaDmaError_not_fatal ..) (queueOf_raise abaDmaError_not_fatal ..)

theorem recordsGo_wr (v : Nat) (f : Fld) (i x : Nat) (s : State) : RecordsGo v 0 s (wr f i x s) := .of_eq rfl rfl rfl

theorem recordsGo_later (v : Nat) (a : TickAct) (s : State) : RecordsGo v 0 s (later a s) := by
  rw [later_frame]
  exact .of_eq rfl rfl rfl

/-- The overflow record goes once its queue is empty. -/
theorem recordsGo_overflow {v : Nat} {s : State} (hq : queueOf v s = []) (m : SMap ERec) :
    RecordsGo v 1 s { s with evt := { s.evt with overflow := m } } :=
  ⟨rfl, by rw [hq]; exact hq, fun _ _ h => h⟩

/-- The queue's oldest record leaves it. -/
theorem recordsGo_setQueue {v : Nat} {r : ERec} {l : List ERec} {s : State} (hq : queueOf v s = r :: l) :
    RecordsGo v 1 s (setQueue v l s) :=
  ⟨rfl, by rw [hq, queueOf, setQueue]; exact mgetD_mput_same .., fun _ _ h => h⟩

theorem recordsGo_windowWrite (v w i size : Nat) (d : List Byte) (s : State) :
    RecordsGo v 0 s (windowWrite w i size d s).2 := by
  unfold windowWrite
  dsimp only
  split
  · exact recordsGo_dmaFail v s
  · exact (linkMoves_abaSend _ s).recordsGo v

/-- The window that severity `v`'s ring lies in, and the slot of it that the next record goes to. -/
abbrev evWindow (v : Nat) (s : State) : Nat := rd (R.EVT_RING_CTRL_WINDOW v) 0 s
abbrev evSlot (v : Nat) (s : State) : Nat := rd (R.EVT_RING_PROD v) 0 s % 2 ^ rd (R.EVT_RING_CTRL_SIZE v) 0 s

/-- The DMA write of a record to the next slot of its ring. -/
def recWrite (v : Nat) (r : ERec) (s : State) : Bool × State :=
  windowWrite (evWindow v s) (evSlot v s) 32 (recBytes r) s

section put
variable {v : Nat} {r : ERec} {s t : State}

theorem evPut_made (h : recWrite v r s = (true, t)) :
    evPut v r s = (true, wr (R.EVT_RING_PROD v) 0 (rd (R.EVT_RING_PROD v) 0 s + 1) t) := by
  unfold recWrite at h
  unfold evPut
  dsimp only
  rw [h]

theorem evPut_failed (h : recWrite v r s = (false, t)) : evPut v r s = (false, later (.ringOff v) t) := by
  unfold recWrite at h
  unfold evPut
  dsimp only
  rw [h]

theorem recordsGo_evPut (v : Nat) (r : ERec) (s : State) : RecordsGo v 0 s (evPut v r s).2 := by
  have hw : RecordsGo v 0 s (recWrite v r s).2 := recordsGo_windowWrite ..
  rcases h : recWrite v r s with ⟨_ | _, t⟩ <;> rw [h] at hw
  · rw [evPut_failed h]
    exact hw.trans (recordsGo_later ..)
  · rw [evPut_made h]
    exact hw.trans (recordsGo_wr ..)

end put

/-! ### A batch (19 R508) -/

theorem evBatch_closed {v : Nat} {s : State} (h : evRingOpen v s = false) (n : Nat) : evBatch v n s = (0, s) := by
  cases n <;> simp [evBatch, h]

section batch
variable {v : Nat} {r : ERec} {l : List ERec} {s : State} (hopen : evRingOpen v s = true) (hq : queueOf v s = r :: l)
include hopen hq

/-- The oldest record is written, and the rest of the batch follows. -/
theorem evBatch_written (hput : (evPut v r s).1 = true) (n : Nat) : evBatch v (n + 1) s
    = ((evBatch v n (setQueue v l (evPut v r s).2)).1 + 1, (evBatch v n (setQueue v l (evPut v r s).2)).2) := by
  obtain ⟨t, ht⟩ : ∃ t, evPut v r s = (true, t) := ⟨_, Prod.ext hput rfl⟩
  simp [evBatch, hopen, hq, ht]

/-- The write of the oldest record fails, and ends the batch. -/
theorem evBatch_failed (hput : (evPut v r s).1 = false) (n : Nat) : evBatch v (n + 1) s = (0, (evPut v r s).2) := by
  obtain ⟨t, ht⟩ : ∃ t, evPut v r s = (false, t) := ⟨_, Prod.ext hput rfl⟩
  simp [evBatch, hopen, hq, ht]

end batch

/-- With no record left, the overflow record is written if there is one. -/
theorem recordsGo_evBatch_empty {v : Nat} {s : State} (hopen : evRingOpen v s = true) (hq : queueOf v s = []) (n : Nat) :
    RecordsGo v (evBatch v (n + 1) s).1 s (evBatch v (n + 1) s).2 := by
  cases ho : mget v s.evt.overflow with
  | none =>
    simp only [evBatch, hopen, hq, ho]
    exact .refl v s
  | some r =>
    have hgo := recordsGo_evPut v r s
    have hempty : queueOf v (evPut v r s).2 = [] := by rw [hgo.queue, hq]; rfl
    rcases hput : evPut v r s with ⟨made, t⟩
    rw [hput] at hgo hempty
    cases made with
    | false =>
      simp only [evBatch, hopen, hq, ho, hput]
      exact hgo
    | true =>
      simp only [evBatch, hopen, hq, ho, hput]
      exact hgo.trans (recordsGo_overflow hempty _)

/-- A batch takes as many records as it counts, oldest first. -/
theorem recordsGo_evBatch (v n : Nat) (s : State) : RecordsGo v (evBatch v n s).1 s (evBatch v n s).2 := by
  induction n generalizing s with
  | zero => exact .refl v s
  | succ n ih =>
    cases hopen : evRingOpen v s with
    | false =>
      rw [evBatch_closed hopen]
      exact .refl v s
    | true =>
      cases hq : queueOf v s with
      | nil => exact recordsGo_evBatch_empty hopen hq n
      | cons r l =>
        have hgo := recordsGo_evPut v r s
        cases hput : (evPut v r s).1 with
        | false =>
          rw [evBatch_failed hopen hq hput]
          exact hgo
        | true =>
          rw [evBatch_written hopen hq hput, Nat.add_comm]
          have htail : queueOf v (evPut v r s).2 = r :: l := by rw [hgo.queue, hq]; rfl
          have h1 := (hgo.trans (recordsGo_setQueue htail)).trans (ih _)
          rwa [Nat.zero_add] at h1

/-- EVENT_RECORD_WRITE: a batch that moved a record is followed by the ring's signal. -/
theorem eventWrite_eq (v : Nat) (s : State) : eventWrite v s =
    let b := evBatch v ((queueOf v s).length + 1) s
    if b.1 = 0 then b.2 else signal (rd (R.EVT_RING_CTRL_SIGNAL v) 0 b.2) b.2 := by
  unfold eventWrite
  dsimp only
  split
  · rename_i h
    rw [h]
    rfl
  · rename_i k t hne h
    rw [h]
    exact (if_neg (fun hk : k = 0 => hne hk)).symm

theorem eventWrite_closed {v : Nat} {s : State} (h : evRingOpen v s = false) : eventWrite v s = s := by
  rw [eventWrite_eq, evBatch_closed h]
  rfl

section write
variable {v : Nat} {r : ERec} {l : List ERec} {s : State} (hopen : evRingOpen v s = true) (hq : queueOf v s = r :: l)
include hopen hq

/-- The oldest record is written: it goes, and those behind it that the batch counts. -/
theorem eventWrite_written (hput : (evPut v r s).1 = true) :
    ∃ n, RecordsGo v (1 + n) (evPut v r s).2 (eventWrite v s) := by
  have htail : queueOf v (evPut v r s).2 = r :: l := by rw [(recordsGo_evPut v r s).queue, hq]; rfl
  rw [eventWrite_eq, evBatch_written hopen hq hput]
  exact ⟨_, ((recordsGo_setQueue htail).trans (recordsGo_evBatch ..)).trans ((linkMoves_signal ..).recordsGo v)⟩

/-- The oldest record's write fails: nothing else is tried. -/
theorem eventWrite_failed (hput : (evPut v r s).1 = false) : eventWrite v s = (evPut v r s).2 := by
  rw [eventWrite_eq, evBatch_failed hopen hq hput]
  rfl

end write

/-! ### The statement on event records, fences, re-seats and evacuations -/

theorem exec_eventRecordWrite {s : State} (hs : inService s = true) (v : Fin 4) :
    exec (.eventRecordWrite v) s = .next (eventWrite v.val s) :=
  congrArg Host.Outcome.next (if_pos hs)

section window
variable {v : Nat} {r : ERec} {l : List ERec} {s : State} (hopen : evRingOpen v s = true) (hq : queueOf v s = r :: l)
include hopen hq

/-- A slot in a window that may be written: the oldest record goes there. -/
theorem eventWrite_inWindow (hen : flag (R.ABA_WIN_CTRL_EN (evWindow v s)) 0 s = true)
    (hwr : flag (R.ABA_WIN_CTRL_WRITE (evWindow v s)) 0 s = true)
    (hsize : (evSlot v s + 1) * 32 ≤ rd (R.ABA_WIN_SIZE (evWindow v s)) 0 s) :
    Sent (.dmaWr (rd (R.ABA_WIN_BASE (evWindow v s)) 0 s + evSlot v s * 32) (recBytes r)) (eventWrite v s)
    ∧ (∃ k, queueOf v (eventWrite v s) = l.drop k) ∧ (eventWrite v s).mem = s.mem := by
  have hput := evPut_made (windowWrite_made hen hwr hsize (recBytes r))
  have hfirst := recordsGo_evPut v r s
  obtain ⟨n, hrest⟩ := eventWrite_written hopen hq (congrArg Prod.fst hput)
  rw [hput] at hfirst hrest
  refine ⟨?_, ⟨n, ?_⟩, hrest.mem.trans hfirst.mem⟩
  · exact hrest.sent _ (fixed_dmaWr _ _) ((recordsGo_wr v ..).sent _ (fixed_dmaWr _ _) (sent_abaSend (fixed_dmaWr _ _) s))
  · rw [hrest.queue, hfirst.queue, hq, Nat.add_comm]
    rfl

/-- A window that is not enabled: the write fails, and the ring is disabled at the next tick. -/
theorem eventWrite_noWindow (hen : flag (R.ABA_WIN_CTRL_EN (evWindow v s)) 0 s = false) :
    eventWrite v s = later (.ringOff v) (dmaFail s) := by
  have hput : evPut v r s = (false, later (.ringOff v) (dmaFail s)) := evPut_failed (windowWrite_disabled hen ..)
  rw [eventWrite_failed hopen hq (congrArg Prod.fst hput), hput]

end window

/-! ### Fences, re-seats and evacuations (02 R77; 19 R512, R514, R517) -/

theorem queued_ringOff_dmaFail (v : Nat) (s : State) : Queued (.ringOff v) s (later (.ringOff v) (dmaFail s)) :=
  Queued.of_same (queued_later ..) (inFix_dmaFail s) (raise_acts abaDmaError_not_fatal ..) (raise_late abaDmaError_not_fatal ..)

theorem exec_fenceRequest {r : RegionId} {s : State} (hen : flag (H.EN .rgn) r.val s = true) (c : Fin 64) :
    exec (.fenceRequest r c) s = .next (later (.fence (regionCore r.val c.val) 8) s) :=
  congrArg Host.Outcome.next (if_pos hen)

theorem exec_reseatRequest {tw : TowerId} {s : State} (hen : flag (H.EN .twr) tw.val s = true) (half : Fin 2)
    (row : Fin 32) : exec (.reseatRequest tw half row) s = .next (reseatRequest tw.val half.val row.val s) :=
  congrArg Host.Outcome.next (if_pos hen)

theorem exec_evacuation {tw : TowerId} {s : State} (hen : flag (H.EN .twr) tw.val s = true) :
    exec (.evacuation tw) s = .next (evacuation tw.val s) :=
  congrArg Host.Outcome.next (if_pos hen)

theorem queued_reseatRequest (t half row : Nat) (s : State) :
    Queued (.reseat t half row) s (reseatRequest t half row s) := by
  refine Queued.of_same (queued_later ..) ?_ rfl rfl
  rw [inFix_wr_of_place_ne (by decide) (by decide), inFix_wr_of_place_ne (by decide) (by decide)]

/-- What an evacuation that a tower's registers ask for would be. -/
def evacAsked (t : Nat) (s : State) : Evac :=
  ⟨rd R.TWR_EVAC_CTRL_HALF t s, rd R.TWR_EVAC_CTRL_ROW t s, rd R.TWR_EVAC_CTRL_SRC_COL t s,
    rd R.TWR_EVAC_CTRL_DST_COL t s, rd R.TWR_EVAC_SADDR t s, rd R.TWR_EVAC_DADDR t s, rd R.TWR_EVAC_LEN t s, 0⟩

theorem evacuation_starts {t : Nat} {s : State} (h : evacCause t (evacAsked t s) s = none) :
    evacuation t s = wr R.TWR_EVAC_CTRL_STATUS t 1 (wr R.TWR_EVAC_CTRL_CAUSE t 0 (wr R.TWR_EVAC_DONE t 0
      { s with evacs := mput t (evacAsked t s) s.evacs })) := by
  unfold evacuation
  dsimp only
  unfold evacAsked at h
  rw [h]
  rfl

theorem evacuation_refused {t k : Nat} {s : State} (h : evacCause t (evacAsked t s) s = some k) :
    evacuation t s = if mhas t s.evacs then wr R.TWR_EVAC_CTRL_CAUSE t k s
      else wr R.TWR_EVAC_CTRL_STATUS t 3 (wr R.TWR_EVAC_CTRL_CAUSE t k s) := by
  unfold evacuation
  dsimp only
  unfold evacAsked at h
  rw [h]
  rfl

/-- The causes of 19 R517 are numbered up to 4. -/
theorem evacCause_le {t k : Nat} {e : Evac} {s : State} (h : evacCause t e s = some k) : k ≤ 4 := by
  unfold evacCause at h
  dsimp only at h
  repeat' split at h
  all_goals simp only [Option.some.injEq, reduceCtorEq] at h
  all_goals omega

theorem evacDone_not_fatal : Ev.evacDone.sev ≠ .fatal := by decide

theorem evacDone_ends {t : Nat} {e : Evac} {s : State} (hget : mget t s.evacs = some e) (hdone : e.len ≤ e.done) :
    evacDone t s = raise .evacDone .twr t (wr R.TWR_EVAC_CTRL_STATUS t 2 { s with evacs := mdel t s.evacs }) := by
  unfold evacDone
  rw [hget]
  exact if_neg (Nat.not_lt.mpr hdone)

/-- Settles O52: an event ring takes its oldest records, as many as its batch counts, or fails and is disabled at the tick;
fences and re-seats only queue; an evacuation starts or shows its cause, and ends with its last granule done. -/
theorem eventsAndFences : Obligations.EventsAndFences := by
  intro s
  refine ⟨fun v hs => ⟨?closed, fun r l hopen hq => ⟨?written, ?failed⟩⟩, ?fence, ?reseat,
    fun tw hen => ⟨?starts, ?refused⟩, ?ends⟩
  case closed =>
    intro h
    rw [exec_eventRecordWrite hs, eventWrite_closed h]
  case written => exact fun hen hwr hsize => ⟨_, exec_eventRecordWrite hs v, eventWrite_inWindow hopen hq hen hwr hsize⟩
  case failed =>
    intro hen
    refine ⟨_, exec_eventRecordWrite hs v, ?_⟩
    rw [eventWrite_noWindow hopen hq hen]
    refine ⟨queued_ringOff_dmaFail .., ?_, ?_⟩
    · exact ((recordsGo_dmaFail v.val s).trans (recordsGo_later ..)).queue.trans hq
    · rw [RaisedOn, rd_later, rd_later]
      exact raisedOn_dmaFail s
  case fence =>
    intro r c hen
    exact ⟨_, exec_fenceRequest hen c, queued_later .., later_regs .., by rw [later_frame]⟩
  case reseat =>
    intro tw half row hen
    refine ⟨_, exec_reseatRequest hen half row, queued_reseatRequest .., ?_, ?_, by rw [reseatRequest, later_frame]; rfl⟩
    · rw [reseatRequest, rd_later, rd_wr_of_lt _ _ half.isLt]
    · rw [reseatRequest, rd_later, rd_wr_of_place_ne (by decide), rd_wr_of_lt _ _ row.isLt]
  case starts =>
    intro h
    refine ⟨_, exec_evacuation hen, ?_⟩
    rw [evacuation_starts h]
    refine ⟨mget_mput_same .., rd_wr_of_lt _ _ (by decide) _, ?_, rfl⟩
    rw [rd_wr_of_place_ne (by decide), rd_wr_of_place_ne (by decide), rd_wr_of_lt _ _ (by decide)]
  case refused =>
    intro k h
    refine ⟨_, exec_evacuation hen, ?_⟩
    rw [evacuation_refused h]
    have hk : k < 2 ^ R.TWR_EVAC_CTRL_CAUSE.w := Nat.lt_of_le_of_lt (evacCause_le h) (by decide)
    split
    · exact ⟨rfl, rd_wr_of_lt _ _ hk _, rd_wr_of_place_ne (by decide) ..⟩
    · refine ⟨rfl, ?_, rd_wr_of_lt _ _ (by decide) _⟩
      rw [rd_wr_of_place_ne (by decide), rd_wr_of_lt _ _ hk]
  case ends =>
    intro tw e hs hget hdone
    refine ⟨_, congrArg Host.Outcome.next (if_pos hs), ?_⟩
    rw [evacDone_ends hget hdone]
    refine ⟨?_, ?_, raisedOn_raise evacDone_not_fatal _ _ _ (rd_wr_of_place_ne (by decide) ..),
      raise_mem evacDone_not_fatal ..⟩
    · rw [raise_evacs evacDone_not_fatal]
      exact mget_mdel_same ..
    · rw [rd_raise_of_place_ne evacDone_not_fatal _ _ _ (by decide) (by decide), rd_wr_of_lt _ _ (by decide)]

end Sys2Proof.Machine
end

section
/-! SUPPORT. Rules of the vector slot's tone operations, of CVT and of WUPD (04 R151 to R157; 05 R168, R172; 10 R307 to R309),
and the statement on them. -/
namespace Sys2Proof.Machine

/-! ### Tone operations -/

theorem lanewise_of_isTone {op : VOp} (h : op.isTone = true) : op ∈ [VOp.fadd, .fsub, .fmul, .ffma, .fmin, .fmax, .iadd,
    .isub, .imul, .and, .or, .xor, .shl, .shr, .exp, .exp2, .ln, .rcp, .rsq, .rscl, .pexp, .rcpz] := by
  cases op <;> simp [VOp.isTone] at h ⊢

theorem cycles_of_isTone {op : VOp} (h : op.isTone = true) : op.cycles = 8 := by
  cases op <;> simp [VOp.isTone, VOp.cycles] at h ⊢

theorem laneOp_of_isTone {op : VOp} (h : op.isTone = true) (fm : Fmt) (md : Rmode) (mirel : Bool) (w a b c : Nat) (k : Bool) :
    laneOp op fm md mirel w a b c k = toneLane op a b := by
  cases op <;> simp [VOp.isTone, laneOp] at h ⊢

theorem vFieldsOk_of_isTone {op : VOp} (h : op.isTone = true) {f : VFields} (hw : f.width = 0) (hrnd : f.rnd ≠ 3)
    (h16 : f.f16 = false) (mirel : Bool) : vFieldsOk op f mirel = true := by
  have hop : op.isArith = false ∧ op.isCmp = false ∧ op ≠ .wupd ∧ op ≠ .cvt := by
    cases op <;> simp [VOp.isTone, VOp.isArith, VOp.isCmp] at h ⊢
  obtain ⟨harith, hcmp, hwupd, hcvt⟩ := hop
  exact vFieldsOk_of (by rw [hw]; decide) hrnd h16 (fun _ => hw) (by simp [harith]) hcmp (.inl hwupd) hcvt

/-- An operation of the tone unit, issued: its lanes are those of `toneLane`, and they take 8 cycles. -/
theorem tone_step {op : VOp} {c x : Nat} {f : VFields} {s : State} (ht : op.isTone = true) (h : CanIssue c x s)
    (hw : f.width = 0) (hrnd : f.rnd ≠ 3) (h16 : f.f16 = false) (hr : VecReady (s.core c) x f (op.reads f)) :
    VectorStep c x 8 f (op.reads f) false
      (fun i => (toneLane op ((s.core c).lane x f f.va i) ((s.core c).lane x f f.vb i)).1) s (issueVector c x (.op op f) s) :=
  vector_lane_step (lanewise_of_isTone ht) h (vFieldsOk_of_isTone ht hw hrnd h16 _) rfl hr (cycles_of_isTone ht)
    (fun i _ => by rw [laneOp_of_isTone ht])

theorem toneOps : ToneOps := by
  intro c x f s o a b val diff h hw hrnd h16 res one two
  have step (op : VOp) (ht : op.isTone = true) (hr : VecReady o x.val f (op.reads f)) :=
    tone_step ht h hw hrnd h16 hr
  exact ⟨fun hr => ⟨_, rfl, step .exp rfl hr⟩, fun hr => ⟨_, rfl, step .exp2 rfl hr⟩, fun hr => ⟨_, rfl, step .ln rfl hr⟩,
    fun hr => ⟨_, rfl, step .rcp rfl hr⟩, fun hr => ⟨_, rfl, step .rsq rfl hr⟩, fun hr => ⟨_, rfl, step .rcpz rfl hr⟩,
    fun hr => ⟨_, rfl, step .rscl rfl hr⟩, fun hr => ⟨_, rfl, step .pexp rfl hr⟩⟩

/-! ### CVT -/

theorem addFlight_flights (w : Core) (fl : Flight) :
    (addFlight w fl).flights = w.flights ++ [{ fl with id := w.nextId }] := by
  unfold addFlight
  refine List.foldlRecOn (motive := fun k : Core => k.flights = w.flights ++ [({ fl with id := w.nextId } : Flight)])
    fl.effs _ ?start ?pend
  case start => rfl
  case pend =>
    intro k hk e _
    cases e <;> simpa using hk

/-- A register operation of the vector slot starts one flight, marked as a conversion where it is CVT. -/
theorem doVector_flights (o : Core) (c x ptr cyc : Nat) (op : VOp) (f : VFields) (w : Work) :
    ∃ g, (doVector o c x ptr cyc (.op op f) w).1.flights = w.1.flights ++ [g] ∧ g.conv = decide (op = .cvt) := by
  simp only [doVector]
  split <;> exact ⟨_, addFlight_flights .., rfl⟩

/-- What a register operation of the vector slot puts in flight is a conversion where it is CVT. -/
theorem issueVector_conv {c x : Nat} {op : VOp} {f : VFields} {fl : Flight} {s : State} (h : CanIssue c x s)
    (hf : vFieldsOk op f (s.core c).cfg.mirel = true) (hr : VecReady (s.core c) x f (op.reads f))
    (hcmp : op.isCmp = false) (hstep : FlightStep c x fl s (issueVector c x (.op op f) s)) :
    fl.conv = decide (op = .cvt) := by
  obtain ⟨he, hready, hi⟩ := issueVector_op_faults hf hr (by simp [hcmp])
  obtain ⟨w, hw, hc⟩ := commit_eq c x (s.core c).cyc { Bundle.nops with v := .op op f } s (fun _ => rfl)
  obtain ⟨g, hg, hconv⟩ := doVector_flights (s.core c) c x ((s.core c).ctx x).ptr (s.core c).cyc op f (s.core c, s.free)
  have hcore : ((issueVector c x (.op op f) s).core c).flights = (s.core c).flights ++ [g] := by
    rw [issueVector, issueSlot_commit h he hready hi, hc, core_setCore_same, ← hg, hw]
    rfl
  obtain ⟨-, -, hstill, -⟩ := hstep
  have hflights : ((issueVector c x (.op op f) s).core c).still.flights = (addFlight (s.core c) fl).still.flights := by
    rw [hstill]
  change ((issueVector c x (.op op f) s).core c).flights = (addFlight (s.core c) fl).flights at hflights
  rw [hcore, addFlight_flights] at hflights
  obtain rfl : g = { fl with id := (s.core c).nextId } := List.singleton_inj.mp (List.append_cancel_left hflights)
  exact hconv

theorem vFieldsOk_cvt {f : VFields} {src dst : Fmt} (hrnd : f.rnd ≠ 3) (h16 : f.f16 = false) (hw : f.width.toNat ≤ 1)
    (hsrc : Fmt.ofCode f.vb.val = some src) (hdst : Fmt.ofCode f.vc.val = some dst)
    (h32 : f.width = 1 → src ≠ .fp32 ∧ dst ≠ .fp32) (mirel : Bool) : vFieldsOk .cvt f mirel = true := by
  have hn : (decide (f.width = 1) && (decide (src = .fp32) || decide (dst = .fp32))) = false := by
    by_cases h : f.width = 1
    · obtain ⟨hs, hd⟩ := h32 h
      simp [hs, hd]
    · rw [decide_eq_false h, Bool.false_and]
  simp only [vFieldsOk, hsrc, hdst, h16, hn, decide_eq_true hw, decide_eq_true hrnd]
  rfl

theorem vecStoch_cvt {f : VFields} {src dst : Fmt} (hsrc : Fmt.ofCode f.vb.val = some src)
    (hdst : Fmt.ofCode f.vc.val = some dst) (o : Core) (x : Nat) :
    vecStoch o x .cvt f = if o.isGradient x then !src.subsetOf dst else decide (f.rnd = 1) := by
  simp [vecStoch, isStoch, exactCvt, hsrc, hdst]

theorem bits_le_of_ofCode {n : Nat} {g : Fmt} (h : Fmt.ofCode n = some g) : g.bits ≤ if g = .fp32 then 32 else 16 := by
  cases g with
  | int32 => unfold Fmt.ofCode at h; split at h <;> cases h
  | _ => decide

/-- The converted elements fit a register (05 R168). -/
theorem cvt_fill {f : VFields} {dst : Fmt} (hdst : Fmt.ofCode f.vc.val = some dst) (h32 : f.width = 1 → dst ≠ .fp32) :
    dst.bits * (1024 / laneBits f) ≤ 1024 := by
  have hb := bits_le_of_ofCode hdst
  unfold laneBits
  split
  · rw [if_neg (h32 ‹_›)] at hb
    omega
  · split at hb <;> omega

theorem lanes_eq (f : VFields) : (if f.width = 1 then 64 else 32) = 1024 / laneBits f := by
  unfold laneBits
  split <;> rfl

/-- An active element of a conversion. -/
theorem vecExec_cvt {f : VFields} {src dst : Fmt} (hsrc : Fmt.ofCode f.vb.val = some src)
    (hdst : Fmt.ofCode f.vc.val = some dst) (h32 : f.width = 1 → dst ≠ .fp32) (mirel st : Bool) (a b c old : Line)
    {mk : BitVec 64} (om : BitVec 64) (draw : Nat → Nat) {i : Nat} (hi : i < 1024 / laneBits f) (hm : mk.getLsbD i = true) :
    elemAt dst.bits i (vecExec .cvt f mirel st a b c old mk om draw).data.toNat =
      (let raw := elemAt src.bits i a.toNat
       let n := (narrow dst (if st then stochMode mirel (draw i) else rmodeOf f.rnd)
         (src.decode (if mirel then src.flush raw else raw))).bits
       if mirel then dst.flush n else n) % 2 ^ dst.bits := by
  simp only [vecExec, hsrc, hdst, decide_eq_true_eq, lanes_eq, List.map_map]
  rw [elemAt_lineOf_map hi (cvt_fill hdst h32)]
  simp only [Function.comp_apply, hm, if_true]

theorem vectorConversion : VectorConversion := by
  intro c x f src dst s o m flush st draw md h hrnd h16 hw hsrc hdst h32 hr
  have hf := vFieldsOk_cvt hrnd h16 hw hsrc hdst h32 m
  obtain ⟨fl, old, hstep, hdue, -, -, heffs, hdraw, -⟩ := issueVector_op (op := .cvt) h hf hr rfl
  have hst := vecStoch_cvt hsrc hdst o x.val
  refine ⟨_, fl, _, _, _, rfl, hstep, hdue, heffs, issueVector_conv h hf hr rfl hstep, fun i hi hm => ?_, ?_⟩
  · rw [vecExec_cvt hsrc hdst (fun h1 => (h32 h1).2) _ _ _ _ _ _ _ _ hi hm, hst]
    rfl
  · rw [hst] at hdraw
    rw [hdraw, show decide (VOp.cvt = VOp.vrand) = false from rfl, Bool.or_false]

/-! ### WUPD -/

/-- An element below the place where a second part begins. -/
theorem elemAt_add_shiftLeft {w i k : Nat} (h : i * w + w ≤ k) (a b : Nat) : elemAt w i (a + b <<< k) = elemAt w i a := by
  obtain ⟨d, rfl⟩ := Nat.exists_eq_add_of_le h
  have hb : b * 2 ^ (i * w + w + d) = b * 2 ^ d * 2 ^ w * 2 ^ (i * w) := by
    rw [Nat.pow_add, Nat.pow_add]
    ac_rfl
  simp only [elemAt, bitsAt, Nat.shiftRight_eq_div_pow, Nat.shiftLeft_eq]
  rw [hb, Nat.add_mul_div_right _ _ (Nat.two_pow_pos _), Nat.add_mul_mod_self_right]

/-- An element of the second part, which begins at element `j`. -/
theorem elemAt_shiftLeft_add {w j a : Nat} (h : a < 2 ^ (j * w)) (i b : Nat) :
    elemAt w (j + i) (a + b <<< (j * w)) = elemAt w i b := by
  simp only [elemAt, bitsAt, Nat.shiftRight_eq_div_pow, Nat.shiftLeft_eq]
  rw [Nat.add_mul, Nat.pow_add, ← Nat.div_div_eq_div_mul, Nat.add_mul_div_right _ _ (Nat.two_pow_pos _),
    Nat.div_eq_of_lt h, Nat.zero_add]

/-- An element of a number cut to `k` bits that hold it. -/
theorem elemAt_mod {w i k : Nat} (h : i * w + w ≤ k) (n : Nat) : elemAt w i (n % 2 ^ k) = elemAt w i n := by
  have hn : n = n % 2 ^ k + (n / 2 ^ k) <<< k := by
    rw [Nat.shiftLeft_eq, Nat.mul_comm]
    exact (Nat.mod_add_div n (2 ^ k)).symm
  exact (elemAt_add_shiftLeft h _ _).symm.trans (congrArg (elemAt w i) hn.symm)

/-- An element of a bit vector made of a number. -/
theorem elemAt_ofNat {w i k : Nat} (h : i * w + w ≤ k) (n : Nat) : elemAt w i (BitVec.ofNat k n).toNat = elemAt w i n := by
  rw [BitVec.toNat_ofNat, elemAt_mod h]

/-- The exact sum of a BF16 weight, its remainder and its delta (05 R172). -/
def wupdSum (w r delta : Nat) : Val :=
  Val.add (Val.add (Fmt.decode .bf16 w) ((Val.ofInt (signed 8 r)).shift (bfUlp w - 7))) (Fmt.decode .fp32 delta)

theorem wupdLane_nan {w r delta : Nat} (h : (wupdSum w r delta).isNan = true ∨ (Fmt.decode .fp32 delta).isNan = true)
    (md : Rmode) (vb set : Nat) :
    (wupdLane md w r delta vb set).1 = 0x7FC0 ∧ (wupdLane md w r delta vb set).2.1 = 0 := by
  have hn : ((wupdSum w r delta).isNan || (Fmt.decode .fp32 delta).isNan) = true := by simpa using h
  unfold wupdSum at hn
  simp only [wupdLane, hn, if_true]
  exact ⟨rfl, trivial⟩

theorem wupdLane_weight {w r delta : Nat} (hs : (wupdSum w r delta).isNan = false)
    (hd : (Fmt.decode .fp32 delta).isNan = false) (md : Rmode) (vb set : Nat) :
    (wupdLane md w r delta vb set).1 = (narrow .bf16 md (wupdSum w r delta)).bits := by
  unfold wupdSum at hs
  simp only [wupdLane, hs, hd, Bool.or_self, Bool.false_eq_true, if_false]
  rfl

theorem wupdLane_remainder {w r delta n mag : Nat} {sg : Bool} {e : Int} {md : Rmode}
    (hs : (wupdSum w r delta).isNan = false) (hd : (Fmt.decode .fp32 delta).isNan = false)
    (hn : (narrow .bf16 md (wupdSum w r delta)).bits = n)
    (hq : (Val.add (wupdSum w r delta) (Fmt.decode .bf16 n).flip).shift (7 - bfUlp n) = .fin sg mag e) (vb set : Nat) :
    (wupdLane md w r delta vb set).2.1 = withSign .int8 sg (min 127 (toUnits .rne mag e 0)) := by
  subst hn
  unfold wupdSum at hs hq
  simp only [wupdLane, hs, hd, hq, Bool.or_self, Bool.false_eq_true, if_false]
  split
  · rw [Nat.min_eq_left (by omega)]
  · rw [Nat.min_eq_right (by omega)]

/-- Lane i of a weight update on register `old`, were it active. -/
def wupdAt (f : VFields) (mirel st : Bool) (a b old : Line) (draw : Nat → Nat) (i : Nat) : Nat × Nat × Flg × RwUpd :=
  wupdLane (if st then stochMode mirel (draw i) else rmodeOf f.rnd) (elemAt 16 i old.toNat) (elemAt 8 (64 + i) old.toNat)
    (elemAt 32 i a.toNat) (elemAt 32 i b.toNat) f.vc.val

/-- The 32 weights that a weight update leaves. -/
def wupdWeights (f : VFields) (mirel st : Bool) (a b old : Line) (mk : BitVec 64) (draw : Nat → Nat) : List Nat :=
  (upFrom 0 32).map (fun i => if mk.getLsbD i then (wupdAt f mirel st a b old draw i).1 else elemAt 16 i old.toNat)

/-- The 32 remainders that a weight update leaves. -/
def wupdRemainders (f : VFields) (mirel st : Bool) (a b old : Line) (mk : BitVec 64) (draw : Nat → Nat) : List Nat :=
  (upFrom 0 32).map (fun i => if mk.getLsbD i then (wupdAt f mirel st a b old draw i).2.1 else elemAt 8 (64 + i) old.toNat)

theorem vecExec_wupd {f : VFields} (hw : f.width = 0) (mirel st : Bool) (a b c old : Line) (mk om : BitVec 64)
    (draw : Nat → Nat) :
    (vecExec .wupd f mirel st a b c old mk om draw).data = BitVec.ofNat 1024
      (packElems 16 (wupdWeights f mirel st a b old mk draw)
        + packElems 8 (wupdRemainders f mirel st a b old mk draw) <<< 512) := by
  have h32 : decide (f.width = 1) = false := by rw [hw]; rfl
  simp only [vecExec, h32, Bool.false_eq_true, if_false, List.map_map, wupdWeights, wupdRemainders]
  simp only [Function.comp_def, apply_ite Prod.fst, apply_ite Prod.snd]
  rfl

/-- Lane i of a weight update: its weight from bit 0 on, its remainder from bit 512 on. -/
theorem elemAt_vecExec_wupd {f : VFields} (hw : f.width = 0) (mirel st : Bool) (a b c old : Line) (mk om : BitVec 64)
    (draw : Nat → Nat) {i : Nat} (hi : i < 32) :
    elemAt 16 i (vecExec .wupd f mirel st a b c old mk om draw).data.toNat
        = (if mk.getLsbD i then (wupdAt f mirel st a b old draw i).1 else elemAt 16 i old.toNat) % 2 ^ 16
      ∧ elemAt 8 (64 + i) (vecExec .wupd f mirel st a b c old mk om draw).data.toNat
        = (if mk.getLsbD i then (wupdAt f mirel st a b old draw i).2.1 else elemAt 8 (64 + i) old.toNat) % 2 ^ 8 := by
  have hws : packElems 16 (wupdWeights f mirel st a b old mk draw) < 2 ^ (64 * 8) :=
    Nat.lt_of_lt_of_eq (packElems_lt _ _) (congrArg (2 ^ ·) (by simp [wupdWeights]))
  rw [vecExec_wupd hw, elemAt_ofNat (by omega), elemAt_ofNat (by omega), elemAt_add_shiftLeft (by omega),
    elemAt_shiftLeft_add (j := 64) hws]
  constructor
  · rw [elemAt_packElems (by simpa [wupdWeights] using hi)]
    simp [wupdWeights, getElem_upFrom]
  · rw [elemAt_packElems (by simpa [wupdRemainders] using hi)]
    simp [wupdRemainders, getElem_upFrom]

theorem vecStoch_wupd (o : Core) (x : Nat) (f : VFields) :
    vecStoch o x .wupd f = (o.isGradient x || decide (f.rnd = 1)) := by
  simp only [vecStoch, isStoch]
  cases o.isGradient x <;> rfl

theorem weightUpdate : WeightUpdate := by
  intro c x f s o mk old draw st md wt rm delta sum h hrnd h16 hw hmirel hr
  have hf : vFieldsOk .wupd f o.cfg.mirel = true :=
    vFieldsOk_of (by rw [hw]; decide) hrnd h16 (fun _ => hw) nofun rfl (.inr hmirel) nofun
  obtain ⟨fl, held, hstep, hdue, hheld, -, heffs, -, -⟩ := issueVector_op (op := .wupd) h hf hr rfl
  obtain ⟨hpres, -⟩ := hr
  have hfull : (o.vreg x.val f.vd.val).pres ≠ .empty := by
    intro he
    simpa [he, Pres.present] using hpres f.vd.val (List.mem_cons_self ..)
  obtain rfl : held = (o.vreg x.val f.vd.val).data := (hheld (by simp)).trans (if_neg hfull)
  refine ⟨_, fl, _, _, _, rfl, hstep, hdue, heffs, fun i hi => ?_⟩
  have hlane : wupdAt f o.cfg.mirel (vecStoch o x.val .wupd f) (o.vreg x.val f.va.val).data (o.vreg x.val f.vb.val).data
      (o.vreg x.val f.vd.val).data draw i
      = wupdLane (md i) (wt i) (rm i) (o.lane x.val f f.va i) (o.lane x.val f f.vb i) f.vc.val := by
    rw [vecStoch_wupd, hmirel, Core.lane, Core.lane, laneBits, hw]
    rfl
  obtain ⟨hweight, hrem⟩ := elemAt_vecExec_wupd hw o.cfg.mirel (vecStoch o x.val .wupd f) (o.vreg x.val f.va.val).data
    (o.vreg x.val f.vb.val).data (o.vreg x.val f.vc.val).data (o.vreg x.val f.vd.val).data mk.val
    (o.mreg x.val (f.vd.val % 8)).val draw hi
  rw [hlane] at hweight hrem
  refine ⟨fun hm => ?inactive, fun hm hnan => ?nan, fun hm hs hd => ?rounded⟩
  case inactive =>
    rw [hm] at hweight hrem
    exact ⟨hweight.trans (Nat.mod_eq_of_lt (elemAt_lt ..)), hrem.trans (Nat.mod_eq_of_lt (elemAt_lt ..))⟩
  case nan =>
    obtain ⟨hw0, hr0⟩ := wupdLane_nan (w := wt i) (r := rm i) hnan (md i) (o.lane x.val f f.vb i) f.vc.val
    rw [if_pos hm, hw0] at hweight
    rw [if_pos hm, hr0] at hrem
    exact ⟨hweight, hrem⟩
  case rounded =>
    rw [if_pos hm, wupdLane_weight hs hd] at hweight
    rw [if_pos hm] at hrem
    exact ⟨hweight, fun sg m ex hq => by rw [wupdLane_remainder hs hd rfl hq] at hrem; exact hrem⟩

/-- Settles O10: a tone operation works lane by lane; CVT writes the elements of `vecExec_cvt`; WUPD writes the weights and
remainders of `elemAt_vecExec_wupd`, each lane by the cases of `wupdLane`. -/
theorem tonesAndConversions : Obligations.TonesAndConversions := ⟨toneOps, vectorConversion, weightUpdate⟩

end Sys2Proof.Machine
end

section
/-! SUPPORT. Rules of flits that land over seam links and bridges and of flits that arrive at a bridge (06 R195 to R213), and the
statement on them. -/
namespace Sys2Proof.Machine

/-! ### Dead cores (06 R214, R215) -/

/-- The field may say that a core is fenced or is the hole of its half-row: the place of TWR_RGN_FENCED, or the bits of HOLE and
HOLE_COL in a word. -/
abbrev Fld.TellsDead (f : Fld) : Prop :=
  f.place = R.TWR_RGN_FENCED.place ∨ f.place % 64 = 6 ∨ f.place % 64 = 8

theorem tellsDead_hole (i : Nat) : (R.TWR_SHIFT_HOLE i).TellsDead := by
  refine .inr (.inl ?_)
  simp only [Fld.place, R.TWR_SHIFT_HOLE]
  omega

theorem tellsDead_holeCol (i : Nat) : (R.TWR_SHIFT_HOLE_COL i).TellsDead := by
  refine .inr (.inr ?_)
  simp only [Fld.place, R.TWR_SHIFT_HOLE_COL]
  omega

theorem fenced_congr {c : Nat} {s t : State} (h : ∀ i, rd R.TWR_RGN_FENCED i t = rd R.TWR_RGN_FENCED i s) :
    fenced c t = fenced c s := by
  unfold fenced
  rw [h]

theorem deadCore_congr {c : Nat} {s t : State} (h : ∀ f : Fld, f.TellsDead → ∀ i, rd f i t = rd f i s) :
    deadCore c t = deadCore c s := by
  unfold deadCore isHole flag
  rw [fenced_congr (h _ (.inl rfl)), h _ (tellsDead_hole _), h _ (tellsDead_holeCol _)]

theorem rd_wr_of_tellsDead {f g : Fld} (hf : f.TellsDead) (hg : ¬g.TellsDead) (i j v : Nat) (s : State) :
    rd f i (wr g j v s) = rd f i s :=
  rd_wr_of_place_ne (fun h => hg (by rwa [Fld.TellsDead, ← h])) ..

theorem deadCore_wr {g : Fld} (hg : ¬g.TellsDead) (c j v : Nat) (s : State) : deadCore c (wr g j v s) = deadCore c s :=
  deadCore_congr fun _ hf i => rd_wr_of_tellsDead hf hg i j v s

theorem deadCore_raise {e : Ev} (he : e.sev ≠ .fatal) (q : Pg) (c i : Nat) (s : State) :
    deadCore c (raise e q i s) = deadCore c s :=
  deadCore_congr fun f hf j => by
    have hfenced : R.TWR_RGN_FENCED.place = 0x2400 := rfl
    exact rd_raise_of_place_ne he q i s (by rw [place_sev]; omega) (by rw [place_evtCnt]; omega) j

/-! ### Lagged flits that land (06 R195, R213) -/

theorem laggedIn_loose {f : Flit} {id : Nat} (h : f.loose = some id) (c k : Nat) (s : State) :
    laggedIn c k f s = looseLanded id f s := by
  simp [laggedIn, h]

/-- Core `c` with the flit `f` in its shadow slot `k`. -/
def Core.withShadow (o : Core) (k : Nat) (f : Flit) : Core := { o with shadow := mput k ⟨f.data, .full, f.poison⟩ o.shadow }

/-- A flit that carries no loose message lands in its shadow slot, at a core that is not dead. -/
theorem laggedIn_shadow {c : Nat} {f : Flit} {s : State} (hl : f.loose = none) (hv : f.valid = true)
    (hd : deadCore c s = false) (k : Nat) : laggedIn c k f s = s.setCore c ((s.core c).withShadow k f) := by
  simp only [laggedIn, hl, shadowFlit, hv, hd]
  rfl

/-- The slot holds the flit; the tray is as it was. -/
theorem withShadow_holds (c : Nat) (o : Core) (k : Nat) (f : Flit) (s : State) :
    mgetD k Slot.empty ((s.setCore c (o.withShadow k f)).core c).shadow = ⟨f.data, .full, f.poison⟩
    ∧ ((s.setCore c (o.withShadow k f)).core c).tray = o.tray := by
  rw [core_setCore_same]
  exact ⟨mgetD_mput_same .., rfl⟩

/-! ### Seam links (06 R198, R200) -/

/-- The seam crossing queue `k` holds `q`. -/
def State.setSeam (s : State) (k : Nat) (q : List Flit) : State :=
  { s with fab := { s.fab with seams := mput k q s.fab.seams } }

theorem deadCore_setSeam (c k : Nat) (q : List Flit) (s : State) : deadCore c (s.setSeam k q) = deadCore c s := rfl

theorem seamParity_not_fatal : Ev.seamParity.sev ≠ .fatal := by decide

/-- A parity error on tower `t`'s seam is raised and counted (06 R200). -/
def parityCounted (t : Nat) (s : State) : State := bump R.SEAM_PARITY t 1 (raise .seamParity .seam t s)

theorem parityCounted_frame (t : Nat) (s : State) :
    (parityCounted t s).fab = s.fab ∧ (parityCounted t s).cores = s.cores := by
  rw [parityCounted, raise_frame seamParity_not_fatal]
  exact ⟨rfl, rfl⟩

theorem deadCore_parityCounted (c t : Nat) (s : State) : deadCore c (parityCounted t s) = deadCore c s := by
  rw [parityCounted, bump, deadCore_wr (by decide), deadCore_raise seamParity_not_fatal]

theorem seamParity_parityCounted (t : Nat) (s : State) : rd R.SEAM_PARITY t (parityCounted t s)
    = min (rd R.SEAM_PARITY t s + 1) (2 ^ R.SEAM_PARITY.w - 1) := by
  rw [parityCounted, rd_bump_same, rd_raise_of_place_ne seamParity_not_fatal _ _ _ (by decide) (by decide)]

section seam
variable {t row d : Nat} {f : Flit} {rest : List Flit} {s : State} (hq : mgetD (seamKey t row d) [] s.fab.seams = f :: rest)
include hq

theorem seamLand_good : seamLand t row d false s
    = laggedIn (coreAt (t * 2 + (1 - d)) row f.dcol) f.dslot f (s.setSeam (seamKey t row d) rest) := by
  simp only [seamLand, hq]
  rfl

theorem seamLand_parity : seamLand t row d true s
    = laggedIn (coreAt (t * 2 + (1 - d)) row f.dcol) f.dslot f.spoilt
        (parityCounted t (s.setSeam (seamKey t row d) rest)) := by
  simp only [seamLand, hq]
  rfl

end seam

/-! ### Bridges (06 R206) -/

@[simp] theorem brg_setBrg_same (s : State) (b d : Nat) (q : BrgDir) : (s.setBrg b d q).brg b d = q := by
  simp [State.brg, State.setBrg]

theorem deadCore_setBrg (c b d : Nat) (q : BrgDir) (s : State) : deadCore c (s.setBrg b d q) = deadCore c s := rfl

/-- A place of the landing buffer is freed, and the credit of the flit that held it returns. -/
def placeFreed (b d : Nat) (s : State) : State :=
  bump (R.BRG_CRD_AVAIL d) b 1 (drop (R.BRG_CRD_OUT d) b 1 (bump (R.BRG_BUF_FREE d) b 1 (drop (R.BRG_BUF_OCC d) b 1 s)))

/-- A place of the landing buffer is taken. -/
def placeTaken (b d : Nat) (s : State) : State := bump (R.BRG_BUF_OCC d) b 1 (drop (R.BRG_BUF_FREE d) b 1 s)

theorem rd_drop_same (f : Fld) (i n : Nat) (s : State) : rd f i (drop f i n s) = (rd f i s - n) % 2 ^ f.w :=
  rd_wr_same ..

theorem rd_bump_of_place_ne {f g : Fld} (h : f.place ≠ g.place) (i j n : Nat) (s : State) :
    rd f i (bump g j n s) = rd f i s := rd_wr_of_place_ne h ..

theorem rd_drop_of_place_ne {f g : Fld} (h : f.place ≠ g.place) (i j n : Nat) (s : State) :
    rd f i (drop g j n s) = rd f i s := rd_wr_of_place_ne h ..

@[simp] theorem place_crdAvail (d : Fin 2) : (R.BRG_CRD_AVAIL d.val).place = 0x2000 + 0xC00 * d.val := by decide +revert
@[simp] theorem place_crdOut (d : Fin 2) : (R.BRG_CRD_OUT d.val).place = 0x2200 + 0xC00 * d.val := by decide +revert
@[simp] theorem place_bufFree (d : Fin 2) : (R.BRG_BUF_FREE d.val).place = 0x2600 + 0xC00 * d.val := by decide +revert
@[simp] theorem place_bufOcc (d : Fin 2) : (R.BRG_BUF_OCC d.val).place = 0x2800 + 0xC00 * d.val := by decide +revert

@[simp] theorem place_brgReplay (d : Fin 2) : (R.BRG_REPLAY d.val).place = 0x1200 + 0x200 * d.val := by decide +revert

/-- The ledgers of a direction say nothing of cores. -/
theorem not_tellsDead_ledgers (d : Fin 2) : ¬(R.BRG_CRD_AVAIL d.val).TellsDead ∧ ¬(R.BRG_CRD_OUT d.val).TellsDead
    ∧ ¬(R.BRG_BUF_FREE d.val).TellsDead ∧ ¬(R.BRG_BUF_OCC d.val).TellsDead := by decide +revert

section places
variable (b : Nat) (d : Fin 2) (s : State)

theorem bufOcc_placeFreed : rd (R.BRG_BUF_OCC d.val) b (placeFreed b d.val s)
    = (rd (R.BRG_BUF_OCC d.val) b s - 1) % 2 ^ (R.BRG_BUF_OCC d.val).w := by
  rw [placeFreed, rd_bump_of_place_ne (by simp), rd_drop_of_place_ne (by simp),
    rd_bump_of_place_ne (by simp), rd_drop_same]

theorem crdOut_placeFreed : rd (R.BRG_CRD_OUT d.val) b (placeFreed b d.val s)
    = (rd (R.BRG_CRD_OUT d.val) b s - 1) % 2 ^ (R.BRG_CRD_OUT d.val).w := by
  rw [placeFreed, rd_bump_of_place_ne (by simp), rd_drop_same, rd_bump_of_place_ne (by simp),
    rd_drop_of_place_ne (by simp)]

theorem deadCore_placeFreed (c : Nat) : deadCore c (placeFreed b d.val s) = deadCore c s := by
  obtain ⟨havail, hout, hfree, hocc⟩ := not_tellsDead_ledgers d
  rw [placeFreed, bump, deadCore_wr havail, drop, deadCore_wr hout, bump, deadCore_wr hfree, drop, deadCore_wr hocc]

theorem bufFree_placeTaken : rd (R.BRG_BUF_FREE d.val) b (placeTaken b d.val s)
    = (rd (R.BRG_BUF_FREE d.val) b s - 1) % 2 ^ (R.BRG_BUF_FREE d.val).w := by
  rw [placeTaken, rd_bump_of_place_ne (by simp), rd_drop_same]

theorem bufOcc_placeTaken : rd (R.BRG_BUF_OCC d.val) b (placeTaken b d.val s)
    = min (rd (R.BRG_BUF_OCC d.val) b s + 1) (2 ^ (R.BRG_BUF_OCC d.val).w - 1) := by
  rw [placeTaken, rd_bump_same, rd_drop_of_place_ne (by simp)]

end places

/-- A landing queue's oldest flit lands once it has freed its place and been retired, where no flit waits for a credit. -/
theorem brgLand_eq {b d : Nat} {f : BrgFlit} {rest : List BrgFlit} {s : State} (hq : (s.brg b d).landq = f :: rest)
    (hlen : (s.brg b d).sendq.length ≤ 1024) : brgLand b d s
    = laggedIn (brgDest b d f) f.flit.dslot f.flit ((placeFreed b d (s.setBrg b d { s.brg b d with landq := rest })).setBrg b d
        { s.brg b d with landq := rest, sendq := (s.brg b d).sendq.eraseP (fun g => decide (g.seq = f.seq)) }) := by
  have hbrg (q : BrgDir) : (bump (R.BRG_BUF_FREE d) b 1 (drop (R.BRG_BUF_OCC d) b 1 (s.setBrg b d q))).brg b d = q :=
    brg_setBrg_same s b d q
  simp only [brgLand, hq, brgRetire, hbrg, Nat.not_lt.mpr hlen]
  rfl

/-- What arrives at the landing end: a flit that is under way and not there yet. -/
theorem brgArrive_eq {b d seq : Nat} {f : BrgFlit} {s : State}
    (hf : ((s.brg b d).sendq.take 1024).find? (fun g => decide (g.seq = seq)) = some f)
    (hnew : (s.brg b d).landq.any (fun g => decide (g.seq = seq)) = false) (good : Bool) : brgArrive b d seq good s
    = if good = true ∧ seq = (s.brg b d).expect then
        if (s.brg b d).landq.length < 64 ∧ ((s.brg b d).landq.filter (fun g => decide (g.tap = f.tap))).length < 4 then
          placeTaken b d (s.setBrg b d { s.brg b d with landq := (s.brg b d).landq ++ [f], expect := (seq + 1) % 2048 })
        else s
      else raise .bridgeReplay .brg b (bump (R.BRG_REPLAY d) b 1 s) := by
  simp only [brgArrive, hf, hnew, Bool.and_eq_true, decide_eq_true_eq, Bool.or_eq_true, ← not_lt, ← not_and_or, ite_not]
  rfl

/-! ### The statement on flits that land -/

theorem bridgeReplay_not_fatal : Ev.bridgeReplay.sev ≠ .fatal := by decide

theorem laggedFlitsLand : LaggedFlitsLand := by
  intro s
  refine ⟨?seam, ?bridge⟩
  case seam =>
    intro tw row d f rest k dst hq
    refine ⟨fun hl hv hd => ⟨?good, ?parity⟩, fun id hl => ?loose⟩
    case good =>
      have hland : exec (.laggedFlitLand (.seam tw row d) false) s = .next _ :=
        congrArg Host.Outcome.next ((seamLand_good hq).trans (laggedIn_shadow hl hv ((deadCore_setSeam ..).trans hd) _))
      obtain ⟨hshadow, htray⟩ := withShadow_holds dst (s.core dst) f.dslot f (s.setSeam k rest)
      exact ⟨_, hland, mgetD_mput_same .., hshadow, htray, rfl⟩
    case parity =>
      have hdead := (deadCore_parityCounted dst tw.val _).trans ((deadCore_setSeam dst k rest s).trans hd)
      obtain ⟨hfab, hcores⟩ := parityCounted_frame tw.val (s.setSeam k rest)
      have hland : exec (.laggedFlitLand (.seam tw row d) true) s = .next _ :=
        congrArg Host.Outcome.next ((seamLand_parity hq).trans (laggedIn_shadow (f := f.spoilt) hl rfl hdead _))
      obtain ⟨hshadow, htray⟩ := withShadow_holds dst _ f.dslot f.spoilt _
      refine ⟨_, hland, ?_, congrArg Slot.poison hshadow, htray.trans ?_, seamParity_parityCounted ..⟩
      · rw [setCore_fab, hfab]
        exact mgetD_mput_same ..
      · rw [State.core, hcores]
        rfl
    case loose =>
      have hland : exec (.laggedFlitLand (.seam tw row d) false) s = .next _ :=
        congrArg Host.Outcome.next ((seamLand_good hq).trans (laggedIn_loose hl ..))
      exact ⟨_, hland, rfl, mgetD_mput_same .., rfl⟩
  case bridge =>
    intro b d parity f rest q dst hq hl hv hd hlen
    have hdead := (deadCore_placeFreed b.val d _ dst).trans
      ((deadCore_setBrg dst b.val d.val { q with landq := rest } s).trans hd)
    have hland : exec (.laggedFlitLand (.bridge b d) parity) s = .next _ :=
      congrArg Host.Outcome.next ((brgLand_eq hq hlen).trans (laggedIn_shadow hl hv ((deadCore_setBrg ..).trans hdead) _))
    obtain ⟨hshadow, -⟩ := withShadow_holds dst _ f.flit.dslot f.flit _
    exact ⟨_, hland, brg_setBrg_same .., hshadow, bufOcc_placeFreed .., crdOut_placeFreed ..⟩

theorem bridgeArrivals : BridgeArrivals := by
  intro b d seq good f s q room hf hnew
  have harrive : exec (.bridgeFlitArrival b d seq good) s = .next _ :=
    congrArg Host.Outcome.next (brgArrive_eq hf hnew good)
  refine ⟨fun hgood hseq hroom => ?joins, fun hgood hseq hfull => ?stays, fun hbad => ?discarded⟩
  case joins =>
    rw [if_pos ⟨hgood, hseq⟩, if_pos hroom] at harrive
    exact ⟨_, harrive, brg_setBrg_same .., rfl, bufFree_placeTaken .., bufOcc_placeTaken ..⟩
  case stays => rw [harrive, if_pos ⟨hgood, hseq⟩, if_neg hfull]
  case discarded =>
    have hno : ¬(good = true ∧ seq.val = (s.brg b.val d.val).expect) := fun ⟨hg, hs⟩ =>
      hbad.elim (fun h => by simp [h] at hg) (· hs)
    rw [if_neg hno] at harrive
    refine ⟨_, harrive, ?_, ?_, ?_⟩
    · rw [raise_frame bridgeReplay_not_fatal]
      rfl
    · rw [raise_frame bridgeReplay_not_fatal]
      rfl
    · rw [rd_raise_of_place_ne bridgeReplay_not_fatal _ _ _ (by simp; omega) (by simp; omega), rd_bump_same]

/-- Settles O20: each lane takes its oldest flit, which lands by `laggedIn_shadow` or `laggedIn_loose`; an arrival joins the
landing queue, stays or is discarded by `brgArrive_eq`. -/
theorem fabricArrivals : Obligations.FabricArrivals := ⟨laggedFlitsLand, bridgeArrivals⟩

end Sys2Proof.Machine
end

section
/-! SUPPORT. Rules of what waits for the tick and of a core that is fenced (00 R7; 19 R511, R512), and the statement on failed
cores and routers (06 R216). -/
namespace Sys2Proof.Machine

/-! ### Actions queued and staging cleared (00 R7; 01 R44) -/

/-- Nothing but queued actions and staged exposures differs. -/
def Postpones (s t : State) : Prop := t = { s with acts := t.acts, late := t.late, seqr := t.seqr }

theorem Postpones.refl (s : State) : Postpones s s := rfl

theorem Postpones.trans {s t u : State} (h : Postpones s t) (g : Postpones t u) : Postpones s u := by
  unfold Postpones at *
  rw [g, h]

theorem Postpones.leaves {s t : State} (h : Postpones s t) :
    t.regs = s.regs ∧ t.cores = s.cores ∧ t.fences = s.fences ∧ t.mem = s.mem ∧ t.fab = s.fab := by
  unfold Postpones at h
  rw [h]
  exact ⟨rfl, rfl, rfl, rfl, rfl⟩

theorem postpones_later (a : TickAct) (s : State) : Postpones s (later a s) := by
  unfold Postpones
  rw [later_frame]

theorem mem_later (a : TickAct) (s : State) : a ∈ (later a s).acts ++ (later a s).late := by
  rcases later_cases a s with ⟨h, -⟩ | ⟨h, -⟩ <;> simp [h]

theorem postpones_invalidate (n r : Nat) (s : State) : Postpones s (invalidate n r s) := by
  unfold invalidate
  split <;> rfl

theorem postpones_invalidatePlate (n : Nat) (m : Image) (s : State) : Postpones s (invalidatePlate n m s) :=
  List.foldlRecOn (motive := Postpones s) _ _ (.refl s) fun _ h _ _ => h.trans (postpones_invalidate ..)

theorem postpones_stopRegion (r : Nat) (s : State) : Postpones s (stopRegion r s) := by
  unfold stopRegion
  split
  · split
    · exact postpones_later ..
    · exact .refl s
  · exact .refl s

theorem postpones_stopPlates (f : Image → Bool) (s : State) : Postpones s (stopPlates f s) := by
  refine List.foldlRecOn (motive := Postpones s) _ _ (.refl s) fun t h p _ => h.trans ?_
  split
  · split
    · exact (postpones_invalidatePlate ..).trans (postpones_later ..)
    · exact .refl t
  · exact .refl t

/-! ### A core is fenced (19 R512) -/

theorem regionOf_eq (c : Nat) : regionOf c = c / 64 := by
  unfold regionOf halfOf rowOf
  omega

theorem coreInRegion_eq (c : Nat) : coreInRegion c = c % 64 := by
  unfold coreInRegion rowOf colOf
  omega

/-- FENCED with core `c`'s bit set. -/
def fencedSet (c : Nat) (s : State) : State := orIn R.TWR_RGN_FENCED (regionOf c) (2 ^ coreInRegion c) s

theorem fenced_fencedSet (c d : Nat) (s : State) : fenced d (fencedSet c s) = (decide (d = c) || fenced d s) := by
  unfold fenced fencedSet orIn
  have hlt : coreInRegion d < R.TWR_RGN_FENCED.w := by
    rw [coreInRegion_eq]
    exact Nat.mod_lt _ (by decide)
  by_cases hr : regionOf d = regionOf c
  · rw [hr, rd_wr_same, Nat.testBit_mod_two_pow, Nat.testBit_or, Nat.testBit_two_pow]
    have hd : d = c ↔ coreInRegion c = coreInRegion d := by
      rw [coreInRegion_eq, coreInRegion_eq]
      rw [regionOf_eq, regionOf_eq] at hr
      omega
    simp [hlt, hd, Bool.or_comm]
  · have hne : d ≠ c := fun h => hr (congrArg regionOf h)
    rw [rd_wr_of_ne]
    · simp [hne]
    · unfold Fld.key
      omega

/-- What stops at once: issue, and operations in flight. -/
def Core.abandoned (o : Core) : Core := { o with stopped := true, flights := [], shq := [] }

/-- Commands that enter their units' queues change the shafts alone. -/
theorem enterNow_frame (c : Nat) (s : State) : enterNow c s = { s with shafts := (enterNow c s).shafts } := by
  refine List.foldlRecOn (motive := fun t : State => t = { s with shafts := t.shafts }) _ _ rfl fun t h w _ => ?_
  rw [h]
  rfl

theorem fenceLog_frame (c k : Nat) (s : State) : fenceLog c k s = { s with regs := (fenceLog c k s).regs } := by
  unfold fenceLog
  dsimp only
  split <;> rfl

theorem fenced_fenceLog (c k d : Nat) (s : State) : fenced d (fenceLog c k s) = fenced d s := by
  refine fenced_congr fun i => ?_
  unfold fenceLog
  dsimp only
  split
  · rfl
  · rw [rd_wr_of_place_ne (by decide), rd_wr_of_place_ne (by decide), rd_wr_of_place_ne (by decide),
      rd_wr_of_place_ne (by decide)]

/-- The fence of core `c` as it is made at once, with its cause. -/
def fenceMade (c k : Nat) (s : State) : State :=
  let u := enterNow c (s.setCore c (s.core c).abandoned)
  fenceLog c k (fencedSet c { u with fences := mput c k u.fences })

theorem fenceMade_frame (c k : Nat) (s : State) : fenceMade c k s = { s.setCore c (s.core c).abandoned with
    shafts := (fenceMade c k s).shafts, fences := mput c k s.fences, regs := (fenceMade c k s).regs } := by
  unfold fenceMade
  dsimp only
  rw [fenceLog_frame, enterNow_frame]
  rfl

theorem fenced_fenceMade (c k d : Nat) (s : State) : fenced d (fenceMade c k s) = (decide (d = c) || fenced d s) := by
  unfold fenceMade
  dsimp only
  rw [fenced_fenceLog, fenced_fencedSet, enterNow_frame]
  rfl

/-- A core that is fenced: its fence is made, and its job and the rest of the fence wait for the tick. -/
theorem fenceCore_eq {c : Nat} {s : State} (h : fenced c s = false) (k : Nat) : fenceCore c k s
    = later (.fence c 0) (stopRegion (regionOf c)
        (invalidate (actFrame (fenceMade c k s)) (regionOf c) (fenceMade c k s))) := by
  simp only [fenceCore, h]
  rfl

theorem mem_fenceCore {c : Nat} {s : State} (h : fenced c s = false) (k : Nat) :
    TickAct.fence c 0 ∈ (fenceCore c k s).acts ++ (fenceCore c k s).late := by
  rw [fenceCore_eq h]
  exact mem_later ..

theorem postpones_fenceCore {c : Nat} {s : State} (h : fenced c s = false) (k : Nat) :
    Postpones (fenceMade c k s) (fenceCore c k s) := by
  rw [fenceCore_eq h]
  exact ((postpones_invalidate ..).trans (postpones_stopRegion ..)).trans (postpones_later ..)

theorem fenced_fenceCore {c : Nat} {s : State} (h : fenced c s = false) (k d : Nat) :
    fenced d (fenceCore c k s) = (decide (d = c) || fenced d s) := by
  rw [← fenced_fenceMade c k d s]
  exact fenced_congr fun _ => rd_congr (postpones_fenceCore h k).leaves.1

/-- The core's operations are abandoned and the cause is noted; memory and the other cores are as they were. -/
theorem fenceCore_leaves {c : Nat} {s : State} (h : fenced c s = false) (k : Nat) :
    (fenceCore c k s).cores = (s.setCore c (s.core c).abandoned).cores
    ∧ (fenceCore c k s).fences = mput c k s.fences ∧ (fenceCore c k s).mem = s.mem := by
  obtain ⟨-, hcores, hfences, hmem, -⟩ := (postpones_fenceCore h k).leaves
  rw [hcores, hfences, hmem, fenceMade_frame]
  exact ⟨rfl, rfl, rfl⟩

/-! ### The statement on failed cores and routers -/

theorem exec_coreCheckFail {s : State} (hs : inService s = true) (c : CoreId) :
    exec (.coreCheckFail c) s = .next (coreCheckFail c.val s) :=
  congrArg Host.Outcome.next (if_pos hs)

theorem exec_routerLost {s : State} (hs : inService s = true) (h : HalfId) (row : Fin 32) (col : Fin 16) :
    exec (.routerLost h row col) s = .next (routerLost h.val row.val col.val s) :=
  congrArg Host.Outcome.next (if_pos hs)

/-- The event of a core that fails its checks (19 R511). -/
def coreFailRaised (c : Nat) (s : State) : State := raiseRec .coreFail .rgn (regionOf c) (tagOf c s) false s

theorem coreFailRaised_frame (c : Nat) (s : State) : (coreFailRaised c s).cores = s.cores
    ∧ (coreFailRaised c s).fences = s.fences ∧ (coreFailRaised c s).mem = s.mem := by
  rw [coreFailRaised, raiseRec_eq]
  exact ⟨rfl, rfl, rfl⟩

theorem fenced_coreFailRaised (c d : Nat) (s : State) : fenced d (coreFailRaised c s) = fenced d s := by
  refine fenced_congr fun i => ?_
  have hregs : (coreFailRaised c s).regs = (evMark .coreFail .rgn (regionOf c) s).regs := by
    rw [coreFailRaised, raiseRec_eq]
  rw [rd_congr hregs, rd_evMark_of_place_ne _ _ _ _ (by decide) (by decide)]

theorem coreCheckFail_fences {c : Nat} {s : State} (h : fenced c s = false) :
    coreCheckFail c s = fenceCore c 1 (coreFailRaised c s) := by
  simp only [coreCheckFail, h]
  rfl

theorem core_congr {s t : State} (h : t.cores = s.cores) (d : Nat) : t.core d = s.core d := by
  rw [State.core, State.core, h]

/-- What a core that fails its checks leaves: its own operations are abandoned, and its bit is the one set. -/
theorem coreCheckFail_leaves {c : Nat} {s : State} (h : fenced c s = false) :
    (∀ d, (coreCheckFail c s).core d = (s.setCore c (s.core c).abandoned).core d)
    ∧ (∀ d, fenced d (coreCheckFail c s) = (decide (d = c) || fenced d s))
    ∧ (coreCheckFail c s).fences = mput c 1 s.fences ∧ (coreCheckFail c s).mem = s.mem
    ∧ TickAct.fence c 0 ∈ (coreCheckFail c s).acts ++ (coreCheckFail c s).late := by
  have hfree : fenced c (coreFailRaised c s) = false := (fenced_coreFailRaised ..).trans h
  obtain ⟨hcores, hfences, hmem⟩ := fenceCore_leaves hfree 1
  obtain ⟨hcores₀, hfences₀, hmem₀⟩ := coreFailRaised_frame c s
  rw [State.setCore, core_congr hcores₀, hcores₀] at hcores
  rw [coreCheckFail_fences h]
  refine ⟨core_congr hcores, fun d => ?_, hfences.trans (congrArg _ hfences₀), hmem.trans hmem₀, mem_fenceCore hfree 1⟩
  rw [fenced_fenceCore hfree, fenced_coreFailRaised]

theorem coreCheckFail_fenced {c : Nat} {s : State} (h : fenced c s = true) : coreCheckFail c s = s := if_pos h

theorem routerLost_not_fatal : Ev.routerLost.sev ≠ .fatal := by decide

theorem routerLost_eq {h : Nat} {s : State} (hf : flag R.HALF_FABRIC_LOST h s = false) (row col : Nat) :
    routerLost h row col s = raise .routerLost .half h (later (.halfLost h row col) (stopPlates (needsHalf h) s)) := by
  simp only [routerLost, hf]
  rfl

/-- Settles O18: a core that fails its checks raises its event and is fenced, by `coreCheckFail_leaves`; a lost router queues
the loss of its half behind the stops of the plates that need it, and raises an event. -/
theorem failedCoresAndRouters : Obligations.FailedCoresAndRouters := by
  intro s hs
  refine ⟨fun c hc => ?fails, fun c hc => ?already, fun h row col hf => ?router⟩
  case fails =>
    obtain ⟨hcore, hfenced, hfences, hmem, hqueued⟩ := coreCheckFail_leaves hc
    refine ⟨_, exec_coreCheckFail hs c, ?_, fun d hd => ⟨?_, ?_⟩, ?_, ?_, hqueued, hmem⟩
    · simp [hfenced]
    · simp [hfenced, Fin.val_ne_of_ne hd]
    · rw [hcore, core_setCore_of_ne (Fin.val_ne_of_ne hd)]
    · rw [hcore, core_setCore_same, Core.abandoned]
    · rw [hfences, mget_mput_same]
  case already => rw [exec_coreCheckFail hs, coreCheckFail_fenced hc]
  case router =>
    refine ⟨_, exec_routerLost hs h row col, ?_⟩
    obtain ⟨-, hcores, -, hmem, hfab⟩ := ((postpones_stopPlates (needsHalf h.val) s).trans
      (postpones_later (.halfLost h.val row.val col.val) _)).leaves
    rw [routerLost_eq hf]
    refine ⟨?_, ?_, ?_, ?_⟩
    · rw [raise_acts routerLost_not_fatal, raise_late routerLost_not_fatal]
      exact mem_later ..
    · rw [raise_frame routerLost_not_fatal, hcores]
    · rw [raise_frame routerLost_not_fatal, hfab]
    · rw [raise_mem routerLost_not_fatal, hmem]

end Sys2Proof.Machine
end

section
/-! SUPPORT. The bits of packed elements and of bytes (00 Conventions; 04 R133): each number here is known by its bits. -/
namespace Sys2Proof.Machine

theorem upFrom_eq_range' (a n : Nat) : upFrom a n = List.range' a n := by
  induction n generalizing a with
  | zero => rfl
  | succ n ih => rw [upFrom, ih, List.range'_succ]

theorem getElem?_upFrom {a n i : Nat} (h : i < n) : (upFrom a n)[i]? = some (a + i) := by
  rw [List.getElem?_eq_getElem (by simpa using h), getElem_upFrom]

/-- The number whose bits below `w` are those of `b`. -/
def bitSum (w : Nat) (b : Nat → Bool) : Nat := ((upFrom 0 w).map (fun j => if b j then 2 ^ j else 0)).sum

theorem bitSum_succ (w : Nat) (b : Nat → Bool) : bitSum (w + 1) b = 2 ^ w * (b w).toNat + bitSum w b := by
  simp only [bitSum, upFrom_eq_range', List.range'_1_concat, List.map_append, List.sum_append]
  cases h : b w <;> simp [h, Nat.add_comm]

theorem bitSum_lt (w : Nat) (b : Nat → Bool) : bitSum w b < 2 ^ w := by
  induction w with
  | zero => exact Nat.one_pos
  | succ w ih =>
    rw [bitSum_succ, Nat.pow_succ]
    have : (b w).toNat ≤ 1 := Bool.toNat_le ..
    have := Nat.mul_le_mul_left (2 ^ w) this
    omega

theorem testBit_bitSum (w : Nat) (b : Nat → Bool) (j : Nat) : (bitSum w b).testBit j = (decide (j < w) && b j) := by
  induction w with
  | zero => simp [bitSum, upFrom]
  | succ w ih =>
    rw [bitSum_succ, Nat.testBit_two_pow_mul_add _ (bitSum_lt w b), ih]
    rcases Nat.lt_trichotomy j w with h | rfl | h
    · simp [h, Nat.lt_succ_of_lt h]
    · cases b j <;> simp
    · rw [if_neg (by omega), decide_eq_false (by omega : ¬j < w + 1), Bool.false_and,
        Nat.testBit_lt_two_pow]
      exact Nat.lt_of_le_of_lt (Bool.toNat_le _) (Nat.one_lt_two_pow (by omega))

/-- A bit of a packed stream is the bit of the element that it lies in. -/
theorem testBit_packElems {w : Nat} (hw : 0 < w) (l : List Nat) (k : Nat) :
    (packElems w l).testBit k = ((l[k / w]?).getD 0).testBit (k % w) := by
  induction l generalizing k with
  | nil => simp [packElems]
  | cons x r ih =>
    have hs : packElems w (x :: r) = 2 ^ w * packElems w r + x % 2 ^ w := by
      rw [packElems, Nat.shiftLeft_eq, Nat.mul_comm, Nat.add_comm]
    rw [hs, Nat.testBit_two_pow_mul_add _ (Nat.mod_lt _ (Nat.two_pow_pos w))]
    split
    · next h => simp [Nat.div_eq_of_lt h, Nat.mod_eq_of_lt h, Nat.testBit_mod_two_pow, h]
    · next h =>
      obtain ⟨m, rfl⟩ := Nat.exists_eq_add_of_le (Nat.le_of_not_lt h)
      rw [ih, Nat.add_sub_cancel_left, Nat.add_mod_left, Nat.add_div_left _ hw, List.getElem?_cons_succ]

theorem leNat_eq_packElems (l : List Byte) : leNat l = packElems 8 (l.map BitVec.toNat) := by
  induction l with
  | nil => rfl
  | cons b r ih =>
    rw [leNat, List.map_cons, packElems, ih, Nat.mod_eq_of_lt b.isLt, Nat.shiftLeft_eq, Nat.mul_comm]

/-- A bit of a little-endian number is the bit of the byte that it lies in. -/
theorem testBit_leNat (l : List Byte) (k : Nat) : (leNat l).testBit k = ((l[k / 8]?).getD 0).getLsbD (k % 8) := by
  rw [leNat_eq_packElems, testBit_packElems (by decide), List.getElem?_map]
  cases l[k / 8]? <;> simp [BitVec.getLsbD]

@[simp] theorem length_leBytes (k n : Nat) : (leBytes k n).length = k := by
  induction k generalizing n with
  | zero => rfl
  | succ k ih => rw [leBytes, List.length_cons, ih]

theorem getElem_leBytes {k n i : Nat} (h : i < (leBytes k n).length) :
    (leBytes k n)[i] = BitVec.ofNat 8 (n >>> (8 * i)) := by
  induction k generalizing n i with
  | zero => simp at h
  | succ k ih =>
    cases i with
    | zero => rfl
    | succ i =>
      simp only [leBytes, List.getElem_cons_succ]
      rw [ih (by simpa [leBytes] using h), show (256 : Nat) = 2 ^ 8 from rfl, ← Nat.shiftRight_eq_div_pow,
        ← Nat.shiftRight_add, Nat.mul_succ, Nat.add_comm]

theorem leNat_leBytes (k n : Nat) : leNat (leBytes k n) = n % 2 ^ (8 * k) := by
  refine Nat.eq_of_testBit_eq fun j => ?_
  rw [testBit_leNat, Nat.testBit_mod_two_pow]
  by_cases h : j < 8 * k
  · have hj : j / 8 < (leBytes k n).length := by rw [length_leBytes]; omega
    rw [List.getElem?_eq_getElem hj, getElem_leBytes, Option.getD_some, BitVec.getLsbD_ofNat, Nat.testBit_shiftRight,
      Nat.div_add_mod]
    simp [h, Nat.mod_lt]
  · rw [List.getElem?_eq_none (by rw [length_leBytes]; omega)]
    simp [h]

end Sys2Proof.Machine
end

section
/-! SUPPORT. Rules of memory: bytes written and read back, units stored and checked (07 R227 to R235), and what such work on a
shaft leaves as it was. -/
namespace Sys2Proof.Machine

/-! ### Cells -/

/-- Position `q`'s byte at `x`, and the poison mark at `x`, are as they were. -/
structure SameCell (q x : Nat) (s t : State) : Prop where
  mem : mget (cellKey q x) t.mem = mget (cellKey q x) s.mem
  marks : mget (cellKey q x) t.marks = mget (cellKey q x) s.marks
  voids : t.voids = s.voids

section cell
variable {q x : Nat} {s t u : State}

theorem SameCell.refl : SameCell q x s s := ⟨rfl, rfl, rfl⟩

theorem SameCell.trans (h : SameCell q x s t) (g : SameCell q x t u) : SameCell q x s u :=
  ⟨g.mem.trans h.mem, g.marks.trans h.marks, g.voids.trans h.voids⟩

theorem SameCell.of_eq (hmem : t.mem = s.mem) (hmarks : t.marks = s.marks) (hvoids : t.voids = s.voids) :
    SameCell q x s t := ⟨by rw [hmem], by rw [hmarks], hvoids⟩

theorem SameCell.readByte (h : SameCell q x s t) : readByte q x t = readByte q x s := by
  rw [Machine.readByte, h.mem, h.voids, Machine.readByte]

theorem SameCell.storedPoison (h : SameCell q x s t) : storedPoison q x t = storedPoison q x s := by
  rw [Machine.storedPoison, mgetD, h.marks, Machine.storedPoison, mgetD]

theorem SameCell.unwrittenBad (h : SameCell q x s t) : unwrittenBad q x t = unwrittenBad q x s := by
  rw [Machine.unwrittenBad, unwritten, mhas, mhas, h.mem, h.marks, h.voids, Machine.unwrittenBad, unwritten, mhas, mhas]

end cell

/-! ### Bytes written -/

theorem cellKey_ne {p q a x : Nat} (ha : a < 2 ^ 29) (hx : x < 2 ^ 29) (h : ¬(q = p ∧ x = a)) :
    cellKey q x ≠ cellKey p a := fun hk => h ((cellKey_inj hx ha).mp hk)

theorem writeByte_frame (p a : Nat) (b : Byte) (s : State) : writeByte p a b s = { s with mem := (writeByte p a b s).mem } := by
  unfold writeByte
  split <;> rfl

theorem writeBytes_frame (p a : Nat) (l : List Byte) (s : State) :
    writeBytes p a l s = { s with mem := (writeBytes p a l s).mem } := by
  induction l generalizing a s with
  | nil => rfl
  | cons b l ih =>
    rw [writeBytes, ih, writeByte_frame]

theorem sameCell_writeByte {p a q x : Nat} (h : cellKey q x ≠ cellKey p a) (b : Byte) (s : State) :
    SameCell q x s (writeByte p a b s) := by
  unfold writeByte
  split
  · exact ⟨mget_mdel_of_ne h _, rfl, rfl⟩
  · exact ⟨mget_mput_of_ne h _ _, rfl, rfl⟩

section bytes
variable {p a : Nat} {l : List Byte} (hend : a + l.length ≤ 2 ^ 29)
include hend

theorem sameCell_writeBytes {q x : Nat} (hx : x < 2 ^ 29) (h : ¬(q = p ∧ a ≤ x ∧ x < a + l.length)) (s : State) :
    SameCell q x s (writeBytes p a l s) := by
  induction l generalizing a s with
  | nil => exact .refl
  | cons b l ih =>
    rw [List.length_cons] at hend h
    have hfirst : cellKey q x ≠ cellKey p a := cellKey_ne (by omega) hx (by omega)
    exact (sameCell_writeByte hfirst b s).trans (ih (by omega) (by omega) _)

theorem readByte_writeBytes {i : Nat} (hi : i < l.length) (s : State) : readByte p (a + i) (writeBytes p a l s) = l[i] := by
  induction l generalizing a i s with
  | nil => simp at hi
  | cons b l ih =>
    rw [List.length_cons] at hend hi
    cases i with
    | zero =>
      rw [writeBytes, Nat.add_zero, (sameCell_writeBytes (by omega) (by omega) (by omega) _).readByte,
        readByte_writeByte_same]
      rfl
    | succ i =>
      rw [writeBytes, show a + (i + 1) = a + 1 + i by omega, ih (by omega) (by omega)]
      rfl

end bytes

/-! ### Bits of memory -/

/-- Bit `k` of memory from address `a` on: its bytes follow one another. -/
def memBit (p a k : Nat) (s : State) : Bool := (readByte p (a + k / 8) s).getLsbD (k % 8)

theorem memBit_add (p a g k : Nat) (s : State) : memBit p (a + 32 * g) k s = memBit p a (256 * g + k) s := by
  rw [memBit, memBit, show a + 32 * g + k / 8 = a + (256 * g + k) / 8 by omega, show k % 8 = (256 * g + k) % 8 by omega]

theorem memBit_congr {p a k : Nat} {s t : State} (h : SameCell p (a + k / 8) s t) : memBit p a k t = memBit p a k s := by
  rw [memBit, h.readByte, memBit]

theorem testBit_readBytes {k n : Nat} (h : k < 8 * n) (p a : Nat) (s : State) :
    (leNat (readBytes p a n s)).testBit k = memBit p a k s := by
  rw [testBit_leNat, readBytes, List.getElem?_map, getElem?_upFrom (by omega)]
  rfl

/-! ### What the data path leaves -/

/-- Where the fields lie that a data path writes: the event counts and severities of its page, the touch map, SHF_ERR_LOG and
SHF_ERR_ADDR, the counts of errors and of poison, of granules added and of saturated elements, and those of a snapshot. -/
def dataPlaces : List Nat :=
  [(H.SEV .shf).place, (H.EVT_CNT .shf).place, R.SHF_TOUCH.place, R.SHF_ERR_LOG_VALID.place, R.SHF_ERR_LOG_STORE.place,
    R.SHF_ERR_LOG_KIND.place, R.SHF_ERR_LOG_POS.place, R.SHF_ERR_LOG_SOURCE.place, R.SHF_ERR_LOG_FRAME_LO.place,
    R.SHF_ERR_ADDR.place, R.SHF_DRAM_CORR.place, R.SHF_SRAM_CORR.place, R.SHF_DRAM_UNCORR.place, R.SHF_SRAM_UNCORR.place,
    R.SHF_POISON_READ.place, R.SHF_POISON_SEEN.place, R.SHF_NM_POISON.place, R.SHF_NM_SAT.place, R.SHF_NM_RACC.place,
    R.SNAP_COPIED.place, R.SNAP_TOUCHED.place, R.SNAP_STAT_STATE.place, R.SNAP_STAT_CAUSE.place]

/-- What moving data over a shaft leaves, whatever errors, poison and snapshots it meets: the cores, what nothing has written, a
snapshot that does not run, every register but those above, and of each shaft all but its touch map and pending write-backs. -/
structure DataMoves (s t : State) : Prop where
  cores : t.cores = s.cores
  voids : t.voids = s.voids
  snapOff : s.snap.on = false → t.snap.on = false
  fld : ∀ (f : Fld) (i : Nat), f.place ∉ dataPlaces → rd f i t = rd f i s
  shaft : ∀ q, t.shaft q = { s.shaft q with touch := (t.shaft q).touch, backs := (t.shaft q).backs }

section moves
variable {s t u : State}

theorem DataMoves.refl (s : State) : DataMoves s s := ⟨rfl, rfl, id, fun _ _ _ => rfl, fun _ => rfl⟩

theorem DataMoves.trans (h : DataMoves s t) (g : DataMoves t u) : DataMoves s u where
  cores := g.cores.trans h.cores
  voids := g.voids.trans h.voids
  snapOff := g.snapOff ∘ h.snapOff
  fld f i hf := (g.fld f i hf).trans (h.fld f i hf)
  shaft q := by rw [g.shaft, h.shaft]

theorem DataMoves.foldl {α : Type} {f : State → α → State} (hf : ∀ s x, DataMoves s (f s x)) (l : List α) (s : State) :
    DataMoves s (l.foldl f s) := by
  induction l generalizing s with
  | nil => exact .refl s
  | cons x l ih => exact (hf s x).trans (ih _)

/-- A step that writes no register and no shaft. -/
theorem DataMoves.of_eq (hcores : t.cores = s.cores) (hvoids : t.voids = s.voids)
    (hsnap : s.snap.on = false → t.snap.on = false) (hregs : t.regs = s.regs) (hshafts : t.shafts = s.shafts) : DataMoves s t :=
  ⟨hcores, hvoids, hsnap, fun _ _ _ => rd_congr hregs, fun q => by rw [State.shaft, hshafts]; rfl⟩

theorem DataMoves.free {n : Nat} (h : DataMoves s t) : DataMoves s { t with free := n } :=
  h.trans (.of_eq rfl rfl id rfl rfl)

theorem DataMoves.snap {k : Snap} (h : DataMoves s t) (hk : t.snap.on = false → k.on = false) :
    DataMoves s { t with snap := k } := h.trans (.of_eq rfl rfl hk rfl rfl)

theorem dataMoves_wr {f : Fld} (hf : f.place ∈ dataPlaces) (i v : Nat) (s : State) : DataMoves s (wr f i v s) :=
  ⟨rfl, rfl, id, fun g j hg => rd_wr_of_place_ne (fun h : g.place = f.place => hg (by rw [h]; exact hf)) j i v s,
    fun _ => rfl⟩

theorem DataMoves.wr {f : Fld} {i v : Nat} (h : DataMoves s t) (hf : f.place ∈ dataPlaces := by decide) :
    DataMoves s (wr f i v t) := h.trans (dataMoves_wr hf i v t)

theorem DataMoves.bump {f : Fld} {i n : Nat} (h : DataMoves s t) (hf : f.place ∈ dataPlaces := by decide) :
    DataMoves s (bump f i n t) := h.wr hf

theorem sev_mem_dataPlaces (q : Pg) : (H.SEV q).place ∈ dataPlaces := by rw [place_sev]; decide
theorem evtCnt_mem_dataPlaces (q : Pg) : (H.EVT_CNT q).place ∈ dataPlaces := by rw [place_evtCnt]; decide

theorem DataMoves.raise {e : Ev} {q : Pg} {i : Nat} (h : DataMoves s t) (he : e.sev ≠ .fatal := by decide) :
    DataMoves s (raise e q i t) :=
  h.trans
    { cores := by rw [raise_frame he]
      voids := by rw [raise_frame he]
      snapOff := fun hoff => by rw [raise_frame he]; exact hoff
      fld := fun f j hf => rd_raise_of_place_ne he q i t
        (fun heq => hf (by rw [heq]; exact sev_mem_dataPlaces q)) (fun heq => hf (by rw [heq]; exact evtCnt_mem_dataPlaces q)) j
      shaft := fun k => by rw [raise_frame he]; rfl }

theorem shaft_setShaft_same (p : Nat) (k : Shaft) (s : State) : (s.setShaft p k).shaft p = k := by
  simp [State.shaft, State.setShaft]

theorem shaft_setShaft_of_ne {p q : Nat} (h : q ≠ p) (k : Shaft) (s : State) : (s.setShaft p k).shaft q = s.shaft q := by
  simp [State.shaft, State.setShaft, mgetD_mput_of_ne h]

theorem dataMoves_setShaft (p touch : Nat) (backs : List Nat) (s : State) :
    DataMoves s (s.setShaft p { s.shaft p with touch := touch, backs := backs }) where
  cores := rfl
  voids := rfl
  snapOff := id
  fld _ _ _ := rfl
  shaft q := by
    by_cases h : q = p
    · subst h
      rw [shaft_setShaft_same]
    · rw [shaft_setShaft_of_ne h]

/-! ### Units stored -/

theorem dataMoves_shaftBytes (p n : Nat) (s : State) : DataMoves s (shaftBytes p n s) := .of_eq rfl rfl id rfl rfl

theorem dataMoves_markUnit (p a : Nat) (poison : Bool) (s : State) : DataMoves s (markUnit p a poison s) :=
  .of_eq rfl rfl id rfl rfl

theorem dataMoves_writeBytes (p a : Nat) (l : List Byte) (s : State) : DataMoves s (writeBytes p a l s) := by
  rw [writeBytes_frame]
  exact .of_eq rfl rfl id rfl rfl

theorem dataMoves_touchPage (p a : Nat) (s : State) : DataMoves s (touchPage p a s) := by
  unfold touchPage
  dsimp only
  split
  · split
    · exact .refl s
    · exact (dataMoves_setShaft p _ (s.shaft p).backs s).bump
  · exact .refl s

theorem dataMoves_storeUnit (p a : Nat) (bytes : List Byte) (poison : Bool) (s : State) :
    DataMoves s (storeUnit p a bytes poison s) :=
  (dataMoves_shaftBytes p (unitSize a) s).trans <| (dataMoves_writeBytes p a bytes _).trans <|
    (dataMoves_markUnit p a poison _).trans <| (dataMoves_setShaft p _ _ _).trans <| dataMoves_touchPage p a _

/-! ### Units checked -/

theorem dataMoves_errLog (p a kind pos : Nat) (src : ErrSrc) (s : State) : DataMoves s (errLog p a kind pos src s) := by
  unfold errLog
  split
  · exact .refl s
  · exact (DataMoves.refl s).wr.wr.wr.wr.wr.wr.wr

theorem dataMoves_uncorrect (p a pos : Nat) (src : ErrSrc) (s : State) : DataMoves s (uncorrect p a pos src s) := by
  have hmark := (dataMoves_markUnit p a true s).trans (dataMoves_touchPage p a _)
  unfold uncorrect
  dsimp only
  split
  · exact hmark.raise.bump.trans (dataMoves_errLog ..)
  · exact hmark.raise.bump.trans (dataMoves_errLog ..)

theorem dataMoves_correct (p a pos : Nat) (src : ErrSrc) (s : State) : DataMoves s (correct p a pos src s) := by
  have hback (l : List Nat) := dataMoves_setShaft p (s.shaft p).touch l s
  unfold correct
  dsimp only
  split
  · exact (hback _).raise.bump.trans (dataMoves_errLog ..)
  · exact (hback _).raise.bump.trans (dataMoves_errLog ..)

theorem dataMoves_poisonSeen (p a : Nat) (src : ErrSrc) (s : State) : DataMoves s (poisonSeen p a src s) := by
  cases src with
  | core => exact (DataMoves.refl s).raise.bump.trans (dataMoves_errLog ..)
  | host => exact (DataMoves.refl s).raise.bump.trans (dataMoves_errLog ..)
  | scrub => exact (DataMoves.refl s).bump
  | unit => exact dataMoves_errLog ..

theorem dataMoves_checkUnit (p a : Nat) (src : ErrSrc) (errs : List GErr) (s : State) :
    DataMoves s (checkUnit p a src errs s).2 := by
  have hbytes := dataMoves_shaftBytes p (unitSize a) s
  unfold checkUnit
  dsimp only
  split
  · exact hbytes.trans (dataMoves_poisonSeen ..)
  · split
    · split
      · exact hbytes.trans (dataMoves_correct ..)
      · exact hbytes.trans (dataMoves_uncorrect ..)
    · split
      · exact hbytes.free.trans (dataMoves_uncorrect ..)
      · exact hbytes

theorem dataMoves_checkUnits (p : Nat) (src : ErrSrc) (errs : List GErr) (l : List Nat) (s : State) :
    DataMoves s (checkUnits p src errs l s).2 := by
  induction l generalizing s with
  | nil => exact .refl s
  | cons a l ih => exact (dataMoves_checkUnit p a src errs s).trans (ih _)

/-! ### Units written under a snapshot (13 R390) -/

theorem dataMoves_copyGranules (p src dst : Nat) (errs : List GErr) (is : List Nat) (s : State) :
    DataMoves s (copyGranules p src dst errs is s) :=
  .foldl (fun s i => (dataMoves_checkUnit p (src + 32 * i) .unit errs s).trans (dataMoves_storeUnit ..)) is s

theorem dataMoves_copyPage (c pg slot done : Nat) (s : State) : DataMoves s (copyPage c pg slot done s) :=
  ((dataMoves_copyGranules ..).snap (by exact id)).bump

theorem dataMoves_snapCancel (cause : Nat) (s : State) : DataMoves s (snapCancel cause s) :=
  ((DataMoves.refl s).snap fun _ => rfl).raise.wr.wr

theorem dataMoves_snapHook (p a : Nat) (s : State) : DataMoves s (snapHook p a s) := by
  unfold snapHook
  dsimp only
  split
  · exact .refl s
  · split
    · exact .refl s
    · split
      · exact .refl s
      · split
        · split
          · exact ((dataMoves_copyPage ..).snap (by exact id)).bump
          · exact dataMoves_snapCancel 1 s
        · exact dataMoves_snapCancel 1 s

theorem dataMoves_writeUnit (p a : Nat) (bytes : List Byte) (poison : Bool) (s : State) :
    DataMoves s (writeUnit p a bytes poison s) :=
  (dataMoves_snapHook p a s).trans (dataMoves_storeUnit ..)

theorem snapHook_off {s : State} (h : s.snap.on = false) (p a : Nat) : snapHook p a s = s := by
  simp [snapHook, h]

end moves

/-! ### What a unit stored or checked leaves in memory -/

theorem readByte_congr {q x : Nat} {s t : State} (hmem : t.mem = s.mem) (hvoids : t.voids = s.voids) :
    readByte q x t = readByte q x s := by
  rw [readByte, readByte, hmem, hvoids]

theorem touchPage_mem (p a : Nat) (s : State) : (touchPage p a s).mem = s.mem := by
  unfold touchPage
  dsimp only
  split
  · split <;> rfl
  · rfl

theorem touchPage_marks (p a : Nat) (s : State) : (touchPage p a s).marks = s.marks := by
  unfold touchPage
  dsimp only
  split
  · split <;> rfl
  · rfl

/-- A unit's mark is its own. -/
theorem sameCell_markUnit {p a q x : Nat} (h : cellKey q x ≠ cellKey p a) (poison : Bool) (s : State) :
    SameCell q x s (markUnit p a poison s) := by
  refine ⟨rfl, ?_, rfl⟩
  cases poison
  · exact mget_mdel_of_ne h _
  · exact mget_mput_of_ne h _ _

theorem storedPoison_markUnit (p a : Nat) (poison : Bool) (s : State) : storedPoison p a (markUnit p a poison s) = poison := by
  cases poison
  · simp [storedPoison, markUnit, mgetD, mget_mdel_same]
  · simp [storedPoison, markUnit]

section store
variable {p a : Nat} {bytes : List Byte} (poison : Bool) (s : State)

theorem storeUnit_mem : (storeUnit p a bytes poison s).mem = (writeBytes p a bytes (shaftBytes p (unitSize a) s)).mem := by
  unfold storeUnit
  exact touchPage_mem ..

theorem storeUnit_marks : (storeUnit p a bytes poison s).marks
    = (markUnit p a poison (writeBytes p a bytes (shaftBytes p (unitSize a) s))).marks := by
  unfold storeUnit
  exact touchPage_marks ..

theorem storeUnit_voids : (storeUnit p a bytes poison s).voids = s.voids := (dataMoves_storeUnit p a bytes poison s).voids

theorem storedPoison_storeUnit : storedPoison p a (storeUnit p a bytes poison s) = poison := by
  rw [storedPoison, storeUnit_marks]
  exact storedPoison_markUnit ..

variable (hend : a + bytes.length ≤ 2 ^ 29)
include hend

theorem readByte_storeUnit {i : Nat} (hi : i < bytes.length) :
    readByte p (a + i) (storeUnit p a bytes poison s) = bytes[i] := by
  have hvoids := (dataMoves_writeBytes p a bytes (shaftBytes p (unitSize a) s)).voids
  rw [readByte_congr (storeUnit_mem poison s) ((storeUnit_voids poison s).trans hvoids.symm), readByte_writeBytes hend hi]

theorem readBytes_storeUnit : readBytes p a bytes.length (storeUnit p a bytes poison s) = bytes := by
  refine List.ext_getElem (by simp [readBytes]) fun i _ hi => ?_
  simp only [readBytes, List.getElem_map, getElem_upFrom]
  exact readByte_storeUnit poison s hend hi

theorem sameCell_storeUnit (hpos : 0 < bytes.length) {q x : Nat} (hx : x < 2 ^ 29)
    (h : ¬(q = p ∧ a ≤ x ∧ x < a + bytes.length)) : SameCell q x s (storeUnit p a bytes poison s) := by
  have hwrite : SameCell q x (shaftBytes p (unitSize a) s) (writeBytes p a bytes (shaftBytes p (unitSize a) s)) :=
    sameCell_writeBytes hend hx h _
  have hmark := sameCell_markUnit (cellKey_ne (p := p) (a := a) (q := q) (by omega) hx (by omega)) poison
    (writeBytes p a bytes (shaftBytes p (unitSize a) s))
  refine ⟨?_, ?_, storeUnit_voids poison s⟩
  · rw [storeUnit_mem, hwrite.mem]
    rfl
  · rw [storeUnit_marks, hmark.marks, hwrite.marks]
    rfl

end store

/-- A read of a trusted, clean unit that no error meets counts its bytes alone. -/
theorem checkUnit_clean {p a : Nat} {s : State} (htrust : (s.shaft p).untrusted = false) (hclean : storedPoison p a s = false)
    (hbad : unwrittenBad p a s = false) (src : ErrSrc) : checkUnit p a src [] s = (false, shaftBytes p (unitSize a) s) := by
  have htrust' : ((shaftBytes p (unitSize a) s).shaft p).untrusted = false := htrust
  have hclean' : storedPoison p a (shaftBytes p (unitSize a) s) = false := hclean
  have hbad' : unwrittenBad p a (shaftBytes p (unitSize a) s) = false := hbad
  simp [checkUnit, htrust', hclean', hbad']

theorem unitsOf_dram {a g : Nat} (ha : a < 0x8000000) (h32 : a % 32 = 0) :
    unitsOf a (32 * g) = (upFrom 0 g).map (fun i => a + 32 * i) := by
  have hsize : unitSize a = 32 := by simp [unitSize, isDram, ha]
  have hfirst : a / 32 * 32 = a := by omega
  simp only [unitsOf, unitOf, hsize, hfirst, ceilDiv]
  congr 2
  omega

/-! ### What near-memory work adds (08 R266) -/

theorem dataMoves_nmPoison (p n : Nat) (s : State) : DataMoves s (nmPoison p n s) := by
  unfold nmPoison
  split
  · exact .refl s
  · exact (DataMoves.refl s).raise.bump

theorem nmPoison_not_fatal : Ev.nmPoison.sev ≠ .fatal := by decide

theorem nmPoison_mem (p n : Nat) (s : State) : (nmPoison p n s).mem = s.mem := by
  unfold nmPoison
  split
  · rfl
  · exact raise_mem nmPoison_not_fatal ..

theorem nmPoison_marks (p n : Nat) (s : State) : (nmPoison p n s).marks = s.marks := by
  unfold nmPoison
  split
  · rfl
  · rw [bump_marks, raise_frame nmPoison_not_fatal]

end Sys2Proof.Machine
end

section
/-! SUPPORT. Rules of a near-memory unit's chunks (08 R259 to R267): what a chunk's work leaves, how its end moves the queue on,
what a completion reports, and the statement on them. -/
namespace Sys2Proof.Machine

/-! ### The commands of chunks -/

section exec
variable {s : State} (hs : inService s = true) (p : PosId) (u : UnitId)
include hs

theorem exec_nmChunkStart (t : Nat) : exec (.nmChunkStart p u t) s = .next (nmStart p.val u.val t s) :=
  congrArg Host.Outcome.next (if_pos hs)

theorem exec_nmChunkEnd (errs : List GErr) : exec (.nmChunkEnd p u errs) s = .next (chunkEnd p.val u.val none errs s) :=
  congrArg Host.Outcome.next (if_pos hs)

theorem exec_nmCommandComplete : exec (.nmCommandComplete p u) s = .next (nmDone p.val u.val s) :=
  congrArg Host.Outcome.next (if_pos hs)

theorem exec_remoteGranuleArrival (g : RemoteGran) : exec (.remoteGranuleArrival p g) s
    = .next (remoteArrive p.val g.kind ⟨g.addr.toNat / 32 * 32, g.data, g.poison, none⟩ s) :=
  congrArg Host.Outcome.next (if_pos hs)

theorem exec_nmWrite (errs : List GErr) : exec (.nmWrite p u errs) s = .next (chunkEnd p.val u.val (some .write) errs s) :=
  congrArg Host.Outcome.next (if_pos hs)

theorem exec_racc (errs : List GErr) : exec (.racc p u errs) s = .next (chunkEnd p.val u.val (some .racc) errs s) :=
  congrArg Host.Outcome.next (if_pos hs)

theorem exec_xacc (errs : List GErr) : exec (.xacc p u errs) s = .next (chunkEnd p.val u.val (some .xacc) errs s) :=
  congrArg Host.Outcome.next (if_pos hs)

end exec

/-! ### A chunk starts (08 R260, R267) -/

theorem nmStart_cmd {p u t age d : Nat} {k : NmCmd} {b : NmIssuer} {x : Bool} {s : State}
    (hnext : nextWork p u s = some (.cmd age k b d x)) (hmay : mayStart p u t (.cmd age k b d x) s = true)
    (hlay : layoutsOk p d (chunkLen k d) k s = true) :
    nmStart p u t s = s.setShaft p { s.shaft p with
      runs := mput u ⟨age, portLayers (fun l => chunkGranules k d (chunkLen k d) l), d, chunkLen k d, b.core.isNone⟩
        (s.shaft p).runs,
      remoteUsed := (s.shaft p).remoteUsed
        + (if b.core.isNone then portTime p (fun l => chunkGranules k d (chunkLen k d) l) s else 0) } := by
  rw [nmStart, hnext]
  simp only [hmay, hlay, Bool.not_true, Bool.false_eq_true, if_false]
  rfl

theorem nmStart_waits {p u t : Nat} {s : State}
    (h : nextWork p u s = none ∨ ∃ w, nextWork p u s = some w ∧ mayStart p u t w s = false) : nmStart p u t s = s := by
  rcases h with h | ⟨w, h, hw⟩
  · rw [nmStart, h]
  · rw [nmStart, h]
    simp only [hw, Bool.not_false, if_true]

/-! ### A chunk's work -/

/-- Item `i` of source `j` of a chunk, from the sources as read. -/
def chunkItem (os : List Opd) (srcs : List (Nat × List (Nat × Nat))) (j i : Nat) : Nat :=
  match os[j]?, srcs[j]? with
  | some o, some (v, _) => o.item v i
  | _, _ => 0

/-- The results of elements [f, f + n). -/
def chunkResults (c : NmCmd) (b : NmIssuer) (f n : Nat) (srcs : List (Nat × List (Nat × Nat))) : List (Nat × Bool) :=
  (upFrom 0 n).map (fun i => nmElem c b (f + i) (chunkItem (srcOpds c) srcs 0 i) (chunkItem (srcOpds c) srcs 1 i)
    (chunkItem (srcOpds c) srcs 2 i))

/-- The items that a chunk writes: its results, or their sums over groups (08 R253, PCOUNT). -/
def chunkItems (c : NmCmd) (n : Nat) (rs : List (Nat × Bool)) : List Nat :=
  if (dstOpd c).per = 1 then rs.map (fun r => r.1)
  else (upFrom 0 (n / (dstOpd c).per)).map
    (fun g => (((rs.drop (g * (dstOpd c).per)).take (dstOpd c).per).map (fun r => r.1)).sum)

/-- Granule `k` of a chunk's result is written as poison (08 R266). -/
def chunkPoisons (c : NmCmd) (srcs : List (Nat × List (Nat × Nat))) (k : Nat) : Bool :=
  (srcs.flatMap (fun x => x.2)).any (sharesElem ((dstOpd c).held k))

/-- The work of a chunk in order: its sources are read and checked, its granules written, its poison and saturations counted. -/
theorem runElems_eq {c : NmCmd} (hop : c.op ≠ .setlayout) (p f n : Nat) (b : NmIssuer) (errs : List GErr) (s : State) :
    runElems p f n c b errs s
      = bump R.SHF_NM_SAT p ((chunkResults c b f n (readOpds p f n errs (srcOpds c) s).1).filter (fun r => r.2)).length
        (nmPoison p ((upFrom 0 (((dstOpd c).range f n).2 / 32)).filter
            (chunkPoisons c (readOpds p f n errs (srcOpds c) s).1)).length
          (putGranules p ((dstOpd c).range f n).1
            ((dstOpd c).pack (chunkItems c n (chunkResults c b f n (readOpds p f n errs (srcOpds c) s).1)))
            (chunkPoisons c (readOpds p f n errs (srcOpds c) s).1) (upFrom 0 (((dstOpd c).range f n).2 / 32))
            (readOpds p f n errs (srcOpds c) s).2)) := by
  rw [runElems, if_neg hop]
  rfl

theorem dataMoves_readOpds (p f n : Nat) (errs : List GErr) (os : List Opd) (s : State) :
    DataMoves s (readOpds p f n errs os s).2 := by
  induction os generalizing s with
  | nil => exact .refl s
  | cons o os ih => exact (dataMoves_checkUnits p .unit errs (unitsOf (o.range f n).1 (o.range f n).2) s).trans (ih _)

theorem dataMoves_putGranules (p a bits : Nat) (poisoned : Nat → Bool) (ks : List Nat) (s : State) :
    DataMoves s (putGranules p a bits poisoned ks s) :=
  .foldl (fun s _ => dataMoves_writeUnit p _ _ _ s) ks s

theorem dataMoves_runElems {c : NmCmd} (hop : c.op ≠ .setlayout) (p f n : Nat) (b : NmIssuer) (errs : List GErr) (s : State) :
    DataMoves s (runElems p f n c b errs s) := by
  rw [runElems_eq hop]
  exact (((dataMoves_readOpds ..).trans (dataMoves_putGranules ..)).trans (dataMoves_nmPoison ..)).bump

/-- The layout bits lie behind every other register of a shaft's page. -/
theorem rd_setLayout {f : Fld} (hoff : f.off < 0x400) (hlo : f.lo < 64) (hpg : f.pg = .shf) (p pg : Nat) (v : Bool)
    (s : State) : rd f p (setLayout p pg v s) = rd f p s := by
  refine rd_wr_of_ne ?_ _ _
  unfold Fld.key
  simp only [hpg, R.SHF_NM_LAYOUT]
  omega

/-- A chunk's work leaves the work of every shaft, and the count of chunks. -/
theorem runElems_work (p f n : Nat) (c : NmCmd) (b : NmIssuer) (errs : List GErr) (s : State) :
    (∀ q, (runElems p f n c b errs s).shaft q = { s.shaft q with
        touch := ((runElems p f n c b errs s).shaft q).touch, backs := ((runElems p f n c b errs s).shaft q).backs })
      ∧ rd R.SHF_NM_CHUNKS p (runElems p f n c b errs s) = rd R.SHF_NM_CHUNKS p s := by
  by_cases hop : c.op = .setlayout
  · rw [runElems, if_pos hop]
    exact ⟨fun _ => rfl, rd_setLayout (by decide) (by decide) rfl ..⟩
  · have h := dataMoves_runElems hop p f n b errs s
    exact ⟨h.shaft, h.fld _ _ (by decide)⟩

/-! ### A chunk ends (08 R259, R260, R267) -/

/-- The end of the chunk that runs on unit `u`: its ports are free and it is counted; its queue entry becomes `w`, or leaves the
queue; `n` granules leave the inbound buffer. -/
def chunkOver (p u age n : Nat) (w : Option NmWork) (s : State) : State :=
  let k := s.shaft p
  (bump R.SHF_NM_CHUNKS p 1 s).setShaft p { k.setWork u age (fun _ => w) with runs := mdel u k.runs, inbox := k.inbox - n }

section ends
variable (p u age n : Nat) (w : Option NmWork) (s : State)

theorem setShaft_setShaft (k l : Shaft) : (s.setShaft p k).setShaft p l = s.setShaft p l := by
  have (m : SMap Shaft) : mput p l (mput p k m) = mput p l m := by
    induction m with
    | nil => simp [mput]
    | cons e r ih =>
      obtain ⟨a, b⟩ := e
      simp only [mput]
      split
      · simp [mput]
      · split
        · simp [mput]
        · next hne hlt => simp [mput, hne, hlt, ih]
  simp [State.setShaft, this]

theorem chunkOver_eq : chunkOver p u age n w s =
    (let t := bump R.SHF_NM_CHUNKS p 1 (s.setShaft p { s.shaft p with runs := mdel u (s.shaft p).runs })
     t.setShaft p { (t.shaft p).setWork u age (fun _ => w) with inbox := (t.shaft p).inbox - n }) := by
  have hsh : (bump R.SHF_NM_CHUNKS p 1 (s.setShaft p { s.shaft p with runs := mdel u (s.shaft p).runs })).shaft p
      = { s.shaft p with runs := mdel u (s.shaft p).runs } := shaft_setShaft_same ..
  dsimp only
  rw [hsh]
  exact (setShaft_setShaft p (bump R.SHF_NM_CHUNKS p 1 s) { s.shaft p with runs := mdel u (s.shaft p).runs } _).symm

theorem shaft_chunkOver : (chunkOver p u age n w s).shaft p
    = { (s.shaft p).setWork u age (fun _ => w) with runs := mdel u (s.shaft p).runs, inbox := (s.shaft p).inbox - n } :=
  shaft_setShaft_same ..

theorem runs_chunkOver : mget u ((chunkOver p u age n w s).shaft p).runs = none := by
  rw [shaft_chunkOver]
  exact mget_mdel_same u _

theorem chunks_chunkOver : rd R.SHF_NM_CHUNKS p (chunkOver p u age n w s)
    = min (rd R.SHF_NM_CHUNKS p s + 1) (2 ^ R.SHF_NM_CHUNKS.w - 1) := rd_bump_same ..

end ends

/-- The entries of a queue after one was changed or taken out. -/
theorem mem_queue_setWork {k : Shaft} {u age : Nat} {f : NmWork → Option NmWork} {w : NmWork} :
    w ∈ (k.setWork u age f).queue u ↔ ∃ v ∈ k.queue u, (if v.age = age then f v else some v) = some w := by
  rw [Shaft.setWork, Shaft.queue, mgetD_mput_same]
  exact List.mem_filterMap

theorem chunkEnd_cmd {p u age d : Nat} {run : NmRun} {k : NmCmd} {b : NmIssuer} {x : Bool} {s : State}
    (hrun : mget u (s.shaft p).runs = some run) (hent : (s.shaft p).running u run = some (.cmd age k b d x))
    (errs : List GErr) : chunkEnd p u none errs s
      = chunkOver p u age 0 (some (.cmd age k b (d + run.n) x)) (runElems p run.first run.n k b errs s) := by
  rw [chunkOver_eq, chunkEnd, hrun]
  simp only [hent]
  rfl

theorem chunkEnd_remote {p u age : Nat} {run : NmRun} {kind : RemKind} {gs : List RGran} {s : State}
    (hrun : mget u (s.shaft p).runs = some run) (hent : (s.shaft p).running u run = some (.remote age kind gs))
    (errs : List GErr) : chunkEnd p u (some kind) errs s = chunkOver p u age gs.length none (runRemote p kind errs gs s) := by
  rw [chunkOver_eq, chunkEnd, hrun]
  simp only [hent, Option.isSome_some, ne_eq, not_true_eq_false, decide_false, Bool.and_false, Bool.false_eq_true, if_false]
  rfl

/-! ### A command completes (08 R262, R263) -/

theorem nmLate_not_fatal : Ev.nmLate.sev ≠ .fatal := by decide

/-- A command completed: kept until its reported tick and counted, in its core too where its plate issued it. -/
def nmCounted (p : Nat) (w : NmWork) (b : NmIssuer) (s : State) : State :=
  let s := s.setShaft p { s.shaft p with fin := (s.shaft p).fin ++ [w] }
  let s := match b.core with
    | some c => if (s.core c).cfg.since ≤ b.frame then s.setCore c { s.core c with nmDone := (s.core c).nmDone + 1 } else s
    | none => s
  wr R.SHF_NM_LAST p (s.frame + 1) (bump R.SHF_NM_DONE p 1 s)

section report
variable {p age d : Nat} {k : NmCmd} {b : NmIssuer} {x : Bool} {w : NmWork} {s : State}

theorem nmCounted_frame : nmCounted p w b s = { s with
    regs := (nmCounted p w b s).regs, shafts := (nmCounted p w b s).shafts, cores := (nmCounted p w b s).cores } := by
  unfold nmCounted
  cases b.core with
  | none => rfl
  | some c =>
    dsimp only
    split <;> rfl

/-- The registers of a command counted. -/
theorem nmCounted_regs : (nmCounted p w b s).regs = (wr R.SHF_NM_LAST p (s.frame + 1) (bump R.SHF_NM_DONE p 1 s)).regs := by
  unfold nmCounted
  cases b.core with
  | none => rfl
  | some c =>
    dsimp only
    split <;> rfl

theorem rd_nmCounted {f : Fld} (hlast : f.place ≠ R.SHF_NM_LAST.place) (hdone : f.place ≠ R.SHF_NM_DONE.place) (i : Nat) :
    rd f i (nmCounted p w b s) = rd f i s := by
  rw [rd_congr nmCounted_regs, rd_wr_of_place_ne hlast, bump, rd_wr_of_place_ne hdone]

theorem last_nmCounted : rd R.SHF_NM_LAST p (nmCounted p w b s) = (s.frame + 1) % 2 ^ R.SHF_NM_LAST.w := by
  rw [rd_congr nmCounted_regs, rd_wr_same]

theorem done_nmCounted : rd R.SHF_NM_DONE p (nmCounted p w b s)
    = min (rd R.SHF_NM_DONE p s + 1) (2 ^ R.SHF_NM_DONE.w - 1) := by
  rw [rd_congr nmCounted_regs, rd_wr_of_place_ne (by decide), rd_bump_same]

theorem nmCounted_shafts : (nmCounted p w b s).shafts
    = (s.setShaft p { s.shaft p with fin := (s.shaft p).fin ++ [w] }).shafts := by
  unfold nmCounted
  cases b.core with
  | none => rfl
  | some c =>
    dsimp only
    split <;> rfl

theorem shaft_nmCounted : (nmCounted p w b s).shaft p = { s.shaft p with fin := (s.shaft p).fin ++ [w] } := by
  rw [State.shaft, nmCounted_shafts]
  exact shaft_setShaft_same ..

theorem nmReport_eq : nmReport p (.cmd age k b d x) s
    = if b.core.isSome = true ∧ b.frame + b.k < s.frame + 1 then
        bump R.SHF_NM_LATE p 1 (raise .nmLate .shf p (nmCounted p (.cmd age k b d x) b s))
      else nmCounted p (.cmd age k b d x) b s := by
  have hframe : (nmCounted p (.cmd age k b d x) b s).frame = s.frame := rd_nmCounted (by decide) (by decide) 0
  have hunfold : nmReport p (.cmd age k b d x) s
      = if b.core.isSome && b.frame + b.k < (nmCounted p (.cmd age k b d x) b s).frame + 1 then
          bump R.SHF_NM_LATE p 1 (raise .nmLate .shf p (nmCounted p (.cmd age k b d x) b s))
        else nmCounted p (.cmd age k b d x) b s := rfl
  rw [hunfold, hframe]
  simp only [Bool.and_eq_true, decide_eq_true_eq]

/-- Besides the counts of `nmCounted` a report counts and raises lateness alone. -/
theorem nmReport_rd {f : Fld}
    (hplace : f.place ∉ [R.SHF_NM_LATE.place, (H.SEV .shf).place, (H.EVT_CNT .shf).place]) (i : Nat) :
    rd f i (nmReport p (.cmd age k b d x) s) = rd f i (nmCounted p (.cmd age k b d x) b s) := by
  simp only [List.mem_cons, List.not_mem_nil, or_false, not_or] at hplace
  obtain ⟨hlate, hsev, hcnt⟩ := hplace
  rw [nmReport_eq]
  split
  · rw [bump, rd_wr_of_place_ne hlate, rd_raise_of_place_ne nmLate_not_fatal _ _ _ hsev hcnt]
  · rfl

theorem late_nmReport : rd R.SHF_NM_LATE p (nmReport p (.cmd age k b d x) s)
    = if b.core.isSome = true ∧ b.frame + b.k < s.frame + 1 then min (rd R.SHF_NM_LATE p s + 1) (2 ^ R.SHF_NM_LATE.w - 1)
      else rd R.SHF_NM_LATE p s := by
  rw [nmReport_eq]
  split
  · rw [rd_bump_same, rd_raise_of_place_ne nmLate_not_fatal _ _ _ (by decide) (by decide),
      rd_nmCounted (by decide) (by decide)]
  · exact rd_nmCounted (by decide) (by decide) p

theorem nmReport_frame : nmReport p (.cmd age k b d x) s = { s with
    regs := (nmReport p (.cmd age k b d x) s).regs, lastEv := (nmReport p (.cmd age k b d x) s).lastEv,
    evt := (nmReport p (.cmd age k b d x) s).evt, shafts := (nmCounted p (.cmd age k b d x) b s).shafts,
    cores := (nmCounted p (.cmd age k b d x) b s).cores } := by
  rw [nmReport_eq]
  split
  · rw [raise_frame nmLate_not_fatal, nmCounted_frame]
    rfl
  · rw [nmCounted_frame]

theorem shaft_nmReport : (nmReport p (.cmd age k b d x) s).shaft p
    = { s.shaft p with fin := (s.shaft p).fin ++ [.cmd age k b d x] } := by
  have hshafts : (nmReport p (.cmd age k b d x) s).shafts = (nmCounted p (.cmd age k b d x) b s).shafts := by
    rw [nmReport_frame]
  rw [State.shaft, hshafts, ← State.shaft, shaft_nmCounted]

end report

/-- A unit's oldest command whose chunks are over leaves the queue and reports. -/
theorem nmDone_ripe {p u age d : Nat} {k : NmCmd} {b : NmIssuer} {x : Bool} {s : State}
    (h : ripe p u s = some (.cmd age k b d x)) : nmDone p u s
      = nmReport p (.cmd age k b d x) (s.setShaft p ((s.shaft p).setWork u age (fun _ => none))) := by
  rw [nmDone, h]
  rfl

/-! ### The statement on chunks -/

theorem nearMemoryChunks : NearMemoryChunks := by
  intro p u s sh hs
  refine ⟨fun age k b d x time hnext hmay hlay => ?starts, fun time hwait => ?waits,
    fun errs run age k b d x hrun hent => ?ends, fun age k b d x hripe => ?completes⟩
  case starts => rw [exec_nmChunkStart hs, nmStart_cmd hnext hmay hlay]
  case waits => rw [exec_nmChunkStart hs, nmStart_waits hwait]
  case ends =>
    obtain ⟨hwork, hchunks⟩ := runElems_work p.val run.first run.n k b errs s
    refine ⟨_, (exec_nmChunkEnd hs p u errs).trans (by rw [chunkEnd_cmd hrun hent]), runs_chunkOver .., rfl, rfl,
      fun w => ?_, ?_⟩
    · have hqueue : ((runElems p.val run.first run.n k b errs s).shaft p.val).queue u.val = sh.queue u.val := by
        rw [hwork]
        rfl
      have hmem := mem_queue_setWork (k := (runElems p.val run.first run.n k b errs s).shaft p.val) (u := u.val) (age := age)
        (f := fun _ => some (.cmd age k b (d + run.n) x)) (w := w)
      rw [hqueue] at hmem
      rw [shaft_chunkOver]
      refine hmem.trans (exists_congr fun v => and_congr_right fun _ => ?_)
      rw [← apply_ite some, Option.some_inj, eq_comm]
    · rw [chunks_chunkOver, hchunks]
  case completes =>
    refine ⟨_, (exec_nmCommandComplete hs p u).trans (by rw [nmDone_ripe hripe]), ?_, fun w => ?_, ?_, ?_, ?_⟩
    · rw [nmReport_frame]
      rfl
    · rw [shaft_nmReport, shaft_setShaft_same]
      refine (mem_queue_setWork (w := w)).trans ⟨fun ⟨v, hv, h⟩ => ?_, fun ⟨hw, hage⟩ => ⟨w, hw, if_neg hage⟩⟩
      by_cases hage : v.age = age
      · rw [if_pos hage] at h
        cases h
      · rw [if_neg hage] at h
        cases h
        exact ⟨hv, hage⟩
    · rw [nmReport_rd (by decide), last_nmCounted]
      rfl
    · rw [nmReport_rd (by decide), done_nmCounted]
      rfl
    · exact late_nmReport

/-! ### Remote granules (08 R267) -/

theorem remoteArrive_idle {p : Nat} {g : RGran} {s : State} (hroom : (s.shaft p).inbox < 2048)
    (hidle : (s.shaft p).queue (bankCol g.addr) = []) (kind : RemKind) : remoteArrive p kind g s
      = enqueue p (bankCol g.addr) (fun a => .remote a kind [g])
          (s.setShaft p { s.shaft p with inbox := (s.shaft p).inbox + 1 }) := by
  have hidle' : ((s.setShaft p { s.shaft p with inbox := (s.shaft p).inbox + 1 }).shaft p).queue (bankCol g.addr) = [] := by
    rw [shaft_setShaft_same]
    exact hidle
  unfold remoteArrive
  simp only [if_neg (Nat.not_le.mpr hroom), hidle', List.getLast?_nil]

theorem shaft_enqueue (p u : Nat) (f : Nat → NmWork) (s : State) : (enqueue p u f s).shaft p
    = { s.shaft p with queues := mput u ((s.shaft p).queue u ++ [f (s.shaft p).age]) (s.shaft p).queues,
                       age := (s.shaft p).age + 1 } := shaft_setShaft_same ..

/-- The granule at `a` is stored whole, as the low bits of `n`, with its poison; nothing else of memory changes. -/
structure GranStored (p a n : Nat) (poison : Bool) (s t : State) : Prop where
  moves : DataMoves s t
  bytes : readBytes p a 32 t = leBytes 32 n
  poison : storedPoison p a t = poison
  same : ∀ q x, x < 2 ^ 29 → ¬(q = p ∧ a ≤ x ∧ x < a + 32) → SameCell q x s t

/-- What a remote chunk makes of a granule and of what its target holds. -/
def remoteValue (kind : RemKind) (old data : BitVec 256) : BitVec 256 :=
  match kind with
  | .write => data
  | .racc => raccVal old data
  | .xacc => old ^^^ data

/-- The granule that memory holds at `a`. -/
def granuleAt (p a : Nat) (s : State) : BitVec 256 := BitVec.ofNat 256 (leNat (readBytes p a 32 s))

section gran
variable {p a n : Nat} {poison : Bool} {s t u : State}

theorem GranStored.granuleAt {v : BitVec 256} (h : GranStored p a v.toNat poison s t) : granuleAt p a t = v := by
  rw [Machine.granuleAt, h.bytes, leNat_leBytes, Nat.mod_eq_of_lt v.isLt, BitVec.ofNat_toNat, BitVec.setWidth_eq]

/-- A step that writes no memory, after the granule was stored. -/
theorem GranStored.then (h : GranStored p a n poison s t) (hmoves : DataMoves t u) (hmem : u.mem = t.mem)
    (hmarks : u.marks = t.marks) : GranStored p a n poison s u where
  moves := h.moves.trans hmoves
  bytes := by
    rw [← h.bytes, readBytes, readBytes]
    exact List.map_congr_left fun x _ => readByte_congr hmem hmoves.voids
  poison := by rw [storedPoison, hmarks, ← storedPoison, h.poison]
  same q x hx hout := (h.same q x hx hout).trans (.of_eq hmem hmarks hmoves.voids)

theorem granStored_writeUnit (hsnap : s.snap.on = false) (hend : a + 32 ≤ 0x8000000) (n : Nat) (poison : Bool) :
    GranStored p a n poison s (writeUnit p a (leBytes 32 n) poison s) := by
  have hlen : (leBytes 32 n).length = 32 := length_leBytes ..
  have hbytes := readBytes_storeUnit (p := p) (a := a) (bytes := leBytes 32 n) poison s (by omega)
  rw [hlen] at hbytes
  rw [writeUnit, snapHook_off hsnap]
  exact ⟨dataMoves_storeUnit .., hbytes, storedPoison_storeUnit .., fun q x hx hout =>
    sameCell_storeUnit poison s (by omega) (by omega) hx (by rwa [hlen])⟩

theorem sameCell_shaftBytes (q x p n : Nat) (s : State) : SameCell q x s (shaftBytes p n s) := .of_eq rfl rfl rfl

theorem CleanRange.granule (h : CleanRange p a 32 s) (h32 : a % 32 = 0) (hend : a + 32 ≤ 0x8000000) :
    checkUnit p a .unit [] s = (false, shaftBytes p (unitSize a) s) := by
  obtain ⟨htrust, hunits⟩ := h
  obtain ⟨hclean, hbad⟩ := hunits a (by
    rw [show (32 : Nat) = 32 * 1 from rfl, unitsOf_dram (by omega) h32]
    simp [upFrom])
  exact checkUnit_clean htrust hclean hbad .unit

theorem granStored_applyGran {g : RGran} {kind : RemKind} (hsnap : s.snap.on = false) (h32 : g.addr % 32 = 0)
    (hend : g.addr + 32 ≤ 0x8000000) (hclean : kind ≠ .write → CleanRange p g.addr 32 s) :
    GranStored p g.addr (remoteValue kind (Machine.granuleAt p g.addr s) g.data).toNat g.poison s
      (applyGran p kind [] g s).2 := by
  have hadded (v : BitVec 256) : GranStored p g.addr v.toNat g.poison s
      (bump R.SHF_NM_RACC p 1 (writeUnit p g.addr (leBytes 32 v.toNat) g.poison (shaftBytes p (unitSize g.addr) s))) := by
    obtain ⟨hmoves, hbytes, hpoison, hsame⟩ :=
      granStored_writeUnit (p := p) (s := shaftBytes p (unitSize g.addr) s) hsnap hend v.toNat g.poison
    have hall : GranStored p g.addr v.toNat g.poison s _ := 
      ⟨(dataMoves_shaftBytes ..).trans hmoves, hbytes, hpoison, fun q x hx hout =>
        (sameCell_shaftBytes ..).trans (hsame q x hx hout)⟩
    exact hall.then (DataMoves.refl _).bump rfl rfl
  have hread (hk : kind ≠ .write) := CleanRange.granule (hclean hk) h32 hend
  cases kind with
  | write => exact granStored_writeUnit hsnap hend g.data.toNat g.poison
  | racc =>
    unfold applyGran
    rw [hread (by decide)]
    exact hadded (raccVal (Machine.granuleAt p g.addr s) g.data)
  | xacc =>
    unfold applyGran
    rw [hread (by decide)]
    exact hadded (Machine.granuleAt p g.addr s ^^^ g.data)

theorem granStored_runRemote {g : RGran} {kind : RemKind} (hsnap : s.snap.on = false) (h32 : g.addr % 32 = 0)
    (hend : g.addr + 32 ≤ 0x8000000) (hclean : kind ≠ .write → CleanRange p g.addr 32 s) :
    GranStored p g.addr (remoteValue kind (Machine.granuleAt p g.addr s) g.data).toNat g.poison s
      (runRemote p kind [] [g] s) := by
  refine (granStored_applyGran hsnap h32 hend hclean).then (dataMoves_nmPoison ..) ?_ ?_
  · exact nmPoison_mem ..
  · exact nmPoison_marks ..

end gran

theorem elemAt_raccVal {i : Nat} (hi : i < 8) (t v : BitVec 256) : elemAt 32 i (raccVal t v).toNat
    = (narrow .fp32 .rne (Val.add (Fmt.decode .fp32 (elemAt 32 i t.toNat)) (Fmt.decode .fp32 (elemAt 32 i v.toNat)))).bits
        % 2 ^ 32 := by
  rw [raccVal, elemAt_ofNat (by omega), elemAt_packElems (by simpa using hi), List.getElem_map, getElem_upFrom, Nat.zero_add]

/-! ### The statement on remote chunks -/

theorem remoteChunks : RemoteChunks := by
  intro p u s sh hs
  refine ⟨fun g hroom hidle => ?arrives, ?applies⟩
  case arrives =>
    refine ⟨_, (exec_remoteGranuleArrival hs p g).trans (congrArg _ (remoteArrive_idle hroom hidle g.kind)), ?_, rfl, ?_⟩
    · rw [shaft_enqueue, shaft_setShaft_same]
    · rw [shaft_enqueue, shaft_setShaft_same, Shaft.queue, mgetD_mput_same]
      exact congrArg (· ++ _) hidle
  intro run age kind g hrun hent hsnap h32 hend old sum ended
  have hended (i : Instr) (ok : BitVec 256 → Prop) (hclean : kind ≠ .write → CleanRange p.val g.addr 32 s)
      (hexec : exec i s = .next (chunkEnd p.val u.val (some kind) [] s)) (hok : ok (remoteValue kind old g.data)) :
      ended i g.poison ok := by
    have hst := granStored_runRemote hsnap h32 hend hclean
    refine ⟨chunkOver p.val u.val age 1 none (runRemote p.val kind [] [g] s),
      hexec.trans (congrArg _ (chunkEnd_remote hrun hent [])), ?_, hst.poison,
      fun q x hx hout => (hst.same q x hx hout).readByte, runs_chunkOver .., ?_, hst.moves.cores⟩
    · show ok (granuleAt p.val g.addr (runRemote p.val kind [] [g] s))
      rw [hst.granuleAt]
      exact hok
    · rw [shaft_chunkOver, hst.moves.shaft]
  refine ⟨?write, ?racc, ?xacc⟩
  case write =>
    rintro rfl
    exact hended (.nmWrite p u []) (fun v => v = g.data) (fun h => absurd rfl h) (exec_nmWrite hs p u []) rfl
  case racc =>
    rintro rfl hclean
    exact hended (.racc p u []) (fun v => ∀ i, i < 8 → elemAt 32 i v.toNat = sum i % 2 ^ 32) (fun _ => hclean)
      (exec_racc hs p u []) fun i hi => elemAt_raccVal hi ..
  case xacc =>
    rintro rfl hclean
    exact hended (.xacc p u []) (fun v => v = old ^^^ g.data) (fun _ => hclean) (exec_xacc hs p u []) rfl

/-- Settles O24: a chunk starts, ends and completes by `nmStart_cmd`, `chunkEnd_cmd` and `nmReport_eq`; a remote chunk of one
granule stores it by `granStored_runRemote`. -/
theorem nearMemoryWork : Obligations.NearMemoryWork := ⟨nearMemoryChunks, remoteChunks⟩

end Sys2Proof.Machine
end

section
/-! SUPPORT. Where the items of a near-memory operand lie (08 R249, R250): in word layout one after the other, in bit-plane layout
bit by bit in the granules of their group; how items are read and packed. -/
namespace Sys2Proof.Machine

theorem ceilDiv_mul {a : Nat} (ha : 0 < a) (b : Nat) : ceilDiv (a * b) a = b := by
  rw [ceilDiv, Nat.add_sub_assoc ha, Nat.mul_add_div ha, Nat.div_eq_of_lt (by omega), Nat.add_zero]

/-! ### The place of a bit -/

namespace Opd

/-- The bit, from the operand's address on, that holds bit `j` of item `e`. -/
def bitPos (o : Opd) (e j : Nat) : Nat := if o.plane then (e / 256 * o.bits + j) * 256 + e % 256 else e * o.bits + j

/-- The item that bit `k` of the operand belongs to. -/
def itemOf (o : Opd) (k : Nat) : Nat := if o.plane then k / 256 / o.bits * 256 + k % 256 else k / o.bits

/-- The bit of its item that bit `k` of the operand is. -/
def bitOf (o : Opd) (k : Nat) : Nat := if o.plane then k / 256 % o.bits else k % o.bits

/-- The operands that commands name: items of 1 to 32 bits, each for one element, or the counts of PCOUNT, each for a group. -/
structure Ok (o : Opd) : Prop where
  pos : 0 < o.bits
  le : o.bits ≤ 32
  per : o.per = 1 ∨ (o.per = 256 ∧ o.bits = 32 ∧ o.plane = false)

/-- The first `n` elements fill whole granules (08 R249), whole items, and in bit-plane layout whole groups (08 R250). -/
structure Spans (o : Opd) (n : Nat) : Prop where
  whole : 256 * o.per ∣ n * o.bits
  items : o.per ∣ n
  groups : o.plane = true → 256 ∣ n

/-- The granules that the first `n` elements fill. -/
def grans (o : Opd) (n : Nat) : Nat := n * o.bits / (256 * o.per)

section place
variable {o : Opd} {f n m : Nat}

theorem Ok.per_pos (h : o.Ok) : 0 < o.per := by
  obtain h | ⟨h, -, -⟩ := h.per <;> omega

theorem Ok.per_plane (h : o.Ok) (hp : o.plane = true) : o.per = 1 := by
  obtain h | ⟨-, -, hw⟩ := h.per
  · exact h
  · rw [hp] at hw
    cases hw

theorem itemOf_bitPos (e : Nat) {j : Nat} (hj : j < o.bits) : o.itemOf (o.bitPos e j) = e := by
  have hdiv (m : Nat) : (m * o.bits + j) / o.bits = m := by
    rw [Nat.mul_comm, Nat.mul_add_div (by omega), Nat.div_eq_of_lt hj, Nat.add_zero]
  unfold itemOf bitPos
  split
  · have h1 : ((e / 256 * o.bits + j) * 256 + e % 256) / 256 = e / 256 * o.bits + j := by omega
    have h2 : ((e / 256 * o.bits + j) * 256 + e % 256) % 256 = e % 256 := by omega
    rw [h1, h2, hdiv, Nat.div_add_mod']
  · exact hdiv e

theorem bitOf_bitPos (e : Nat) {j : Nat} (hj : j < o.bits) : o.bitOf (o.bitPos e j) = j := by
  have hmod (m : Nat) : (m * o.bits + j) % o.bits = j := by
    rw [Nat.mul_comm, Nat.mul_add_mod, Nat.mod_eq_of_lt hj]
  unfold bitOf bitPos
  split
  · rw [show ((e / 256 * o.bits + j) * 256 + e % 256) / 256 = e / 256 * o.bits + j by omega, hmod]
  · exact hmod e

/-! ### Whole granules -/

theorem Spans.of_dvd (h : o.Spans m) (hm : m ∣ n) : o.Spans n :=
  ⟨h.whole.trans (Nat.mul_dvd_mul_right hm _), h.items.trans hm, fun hp => (h.groups hp).trans hm⟩

theorem Spans.add (hf : o.Spans f) (hn : o.Spans n) : o.Spans (f + n) :=
  ⟨by rw [Nat.add_mul]; exact Nat.dvd_add hf.whole hn.whole, Nat.dvd_add hf.items hn.items,
    fun hp => Nat.dvd_add (hf.groups hp) (hn.groups hp)⟩

theorem Spans.sub (hn : o.Spans n) (hf : o.Spans f) : o.Spans (n - f) :=
  ⟨by rw [Nat.sub_mul]; exact Nat.dvd_sub hn.whole hf.whole, Nat.dvd_sub hn.items hf.items,
    fun hp => Nat.dvd_sub (hn.groups hp) (hf.groups hp)⟩

theorem Spans.mul_bits (h : o.Spans n) : n * o.bits = 256 * o.per * o.grans n := (Nat.mul_div_cancel' h.whole).symm

/-- The items of whole granules fill them. -/
theorem Spans.items_bits (h : o.Spans n) (hpos : 0 < o.per) : n / o.per * o.bits = 256 * o.grans n := by
  obtain ⟨m, rfl⟩ := h.items
  have hbits := h.mul_bits
  rw [Nat.mul_div_cancel_left m hpos]
  refine Nat.eq_of_mul_eq_mul_left hpos ?_
  rw [← Nat.mul_assoc, hbits]
  ring

theorem grans_mono (h : f ≤ n) : o.grans f ≤ o.grans n := Nat.div_le_div_right (Nat.mul_le_mul_right _ h)

theorem Spans.grans_add (hf : o.Spans f) : o.grans (f + n) = o.grans f + o.grans n := by
  rw [grans, Nat.add_mul, Nat.add_div_of_dvd_right hf.whole, grans, grans]

theorem Spans.range_eq (hf : o.Spans f) (hn : o.Spans n) (hpos : 0 < o.per) :
    o.range f n = (o.addr + 32 * o.grans f, 32 * o.grans n) := by
  have hsplit (g : Nat) : 256 * o.per * g = 8 * o.per * (32 * g) := by ring
  rw [range, hf.mul_bits, hn.mul_bits, hsplit, hsplit, Nat.mul_div_cancel_left _ (by omega), ceilDiv_mul (by omega)]

/-! ### Items that follow whole granules -/

section after
variable (hok : o.Ok) (hf : o.Spans f) (hgroup : 256 ∣ f)
include hok hf hgroup

theorem bitPos_add (i j : Nat) : o.bitPos (f / o.per + i) j = 256 * o.grans f + o.bitPos i j := by
  rw [← hf.items_bits hok.per_pos, bitPos, bitPos]
  split
  · next hp =>
    obtain ⟨m, rfl⟩ := hgroup
    rw [hok.per_plane hp, Nat.div_one, show (256 * m + i) / 256 = m + i / 256 by omega,
      show (256 * m + i) % 256 = i % 256 by omega]
    ring
  · ring

theorem itemOf_add (k : Nat) : o.itemOf (256 * o.grans f + k) = f / o.per + o.itemOf k := by
  have hbits := hf.items_bits hok.per_pos
  rw [itemOf, itemOf]
  split
  · next hp =>
    obtain ⟨m, rfl⟩ := hgroup
    rw [hok.per_plane hp, Nat.div_one] at hbits ⊢
    have hg : o.grans (256 * m) = o.bits * m := by
      refine Nat.eq_of_mul_eq_mul_left (by decide : 0 < 256) ?_
      rw [← hbits]
      ring
    rw [hg, show (256 * (o.bits * m) + k) / 256 = o.bits * m + k / 256 by omega,
      show (256 * (o.bits * m) + k) % 256 = k % 256 by omega, Nat.mul_add_div hok.pos]
    ring
  · rw [← hbits, Nat.mul_comm, Nat.mul_add_div hok.pos]

theorem bitOf_add (k : Nat) : o.bitOf (256 * o.grans f + k) = o.bitOf k := by
  have hbits := hf.items_bits hok.per_pos
  rw [bitOf, bitOf]
  split
  · next hp =>
    obtain ⟨m, rfl⟩ := hgroup
    rw [hok.per_plane hp, Nat.div_one] at hbits
    have hg : o.grans (256 * m) = o.bits * m := by
      refine Nat.eq_of_mul_eq_mul_left (by decide : 0 < 256) ?_
      rw [← hbits]
      ring
    rw [hg, show (256 * (o.bits * m) + k) / 256 = o.bits * m + k / 256 by omega, Nat.mul_add_mod]
  · rw [← hbits, Nat.mul_comm, Nat.mul_add_mod]

end after

theorem itemOf_lt (hok : o.Ok) (hn : o.Spans n) {k : Nat} (hk : k < 256 * o.grans n) : o.itemOf k < n / o.per := by
  have hbits := hn.items_bits hok.per_pos
  rw [itemOf]
  split
  · next hp =>
    obtain ⟨m, rfl⟩ := hn.groups hp
    rw [hok.per_plane hp, Nat.div_one] at hbits ⊢
    have hg : k / 256 < m * o.bits := by
      rw [← hbits] at hk
      exact Nat.div_lt_of_lt_mul (by rw [← Nat.mul_assoc]; exact hk)
    have := Nat.div_lt_of_lt_mul (Nat.mul_comm m _ ▸ hg)
    omega
  · exact Nat.div_lt_of_lt_mul (by rw [Nat.mul_comm, hbits]; exact hk)

theorem bitPos_lt (hok : o.Ok) (hn : o.Spans n) {i j : Nat} (hi : i < n / o.per) (hj : j < o.bits) :
    o.bitPos i j < 256 * o.grans n := by
  rw [← hn.items_bits hok.per_pos, bitPos]
  split
  · next hp =>
    obtain ⟨m, rfl⟩ := hn.groups hp
    rw [hok.per_plane hp, Nat.div_one] at hi ⊢
    have hrow : (i / 256 + 1) * o.bits ≤ m * o.bits := Nat.mul_le_mul_right _ (by omega)
    rw [Nat.add_mul, Nat.one_mul] at hrow
    rw [Nat.mul_assoc]
    omega
  · have : (i + 1) * o.bits ≤ n / o.per * o.bits := Nat.mul_le_mul_right _ hi
    rw [Nat.add_mul, Nat.one_mul] at this
    omega

end place

end Opd

/-! ### Items read and packed -/

theorem testBit_bitsAt_one (n i j : Nat) : (bitsAt n i 1).testBit j = (decide (j < 1) && n.testBit (i + j)) := by
  rw [bitsAt, Nat.testBit_mod_two_pow, Nat.testBit_shiftRight]

theorem itemAt_eq_bitSum (p : Nat) (o : Opd) (e : Nat) (s : State) :
    itemAt p o e s = bitSum o.bits (fun j => memBit p o.addr (o.bitPos e j) s) := rfl

theorem testBit_itemAt (p : Nat) (o : Opd) (e : Nat) (s : State) (j : Nat) :
    (itemAt p o e s).testBit j = (decide (j < o.bits) && memBit p o.addr (o.bitPos e j) s) := by
  rw [itemAt_eq_bitSum, testBit_bitSum]

theorem testBit_item (o : Opd) (n i j : Nat) :
    (o.item n i).testBit j = (decide (j < o.bits) && n.testBit (o.bitPos i j)) := by
  unfold Opd.item Opd.bitPos
  split
  · rw [testBit_packElems Nat.one_pos, Nat.div_one, Nat.mod_one]
    by_cases hj : j < o.bits
    · rw [List.getElem?_map, getElem?_upFrom hj, Option.map_some, Option.getD_some, testBit_bitsAt_one, Nat.zero_add]
      simp [hj]
    · rw [List.getElem?_eq_none (by simpa using hj)]
      simp [hj]
  · rw [bitsAt, Nat.testBit_mod_two_pow, Nat.testBit_shiftRight]

/-- A bit of an operand packed from its items. -/
theorem testBit_pack {o : Opd} (hok : o.Ok) {n : Nat} (hn : o.Spans n) {items : List Nat} (hlen : items.length = n / o.per)
    {k : Nat} (hk : k < 256 * o.grans n) :
    (o.pack items).testBit k = ((items[o.itemOf k]?).getD 0).testBit (o.bitOf k) := by
  have hbits := hn.items_bits hok.per_pos
  unfold Opd.pack Opd.itemOf Opd.bitOf
  split
  · next hp =>
    obtain ⟨m, rfl⟩ := hn.groups hp
    rw [hok.per_plane hp, Nat.div_one] at hbits hlen
    have hrow : k / 256 < items.length / 256 * o.bits := by
      rw [hlen, Nat.mul_div_cancel_left m (by decide : 0 < 256)]
      refine Nat.div_lt_of_lt_mul ?_
      rw [← Nat.mul_assoc, hbits]
      exact hk
    rw [testBit_packElems (by decide), List.getElem?_map, getElem?_upFrom hrow, Option.map_some, Option.getD_some,
      Nat.zero_add, testBit_packElems Nat.one_pos, Nat.div_one, Nat.mod_one, List.getElem?_map,
      List.getElem?_take_of_lt (by omega), List.getElem?_drop]
    cases items[k / 256 / o.bits * 256 + k % 256]? with
    | none => simp
    | some v => rw [Option.map_some, Option.getD_some, Option.getD_some, testBit_bitsAt_one]; simp
  · exact testBit_packElems hok.pos ..

end Sys2Proof.Machine
end

section
/-! SUPPORT. The parts of the work of a chunk whose sources are clean (08 R249 to R257, R266): granules stored one after the other,
what is read, and the items that are written. -/
namespace Sys2Proof.Machine

/-! ### Granules stored -/

/-- Granules [lo, hi) from address `a` on are stored clean and hold the bits `b`, counted from `a`; nothing else of memory
changes. -/
structure RangeStored (p a lo hi : Nat) (b : Nat → Bool) (s t : State) : Prop where
  bit : ∀ k, 256 * lo ≤ k → k < 256 * hi → memBit p a k t = b k
  clean : ∀ i, lo ≤ i → i < hi → storedPoison p (a + 32 * i) t = false
  same : ∀ q x, x < 2 ^ 29 → ¬(q = p ∧ a + 32 * lo ≤ x ∧ x < a + 32 * hi) → SameCell q x s t

section range
variable {p a lo mid hi : Nat} {b : Nat → Bool} {s t u : State}

theorem RangeStored.refl (p a lo : Nat) (b : Nat → Bool) (s : State) : RangeStored p a lo lo b s s :=
  ⟨fun _ h1 h2 => by omega, fun _ h1 h2 => by omega, fun _ _ _ _ => .refl⟩

theorem RangeStored.append (hlo : lo ≤ mid) (hmid : mid ≤ hi) (hend : a + 32 * hi ≤ 2 ^ 29)
    (h : RangeStored p a lo mid b s t) (g : RangeStored p a mid hi b t u) : RangeStored p a lo hi b s u where
  bit k hk1 hk2 := by
    by_cases hk : k < 256 * mid
    · rw [memBit_congr (g.same p (a + k / 8) (by omega) (by omega)), h.bit k hk1 hk]
    · exact g.bit k (by omega) hk2
  clean i hi1 hi2 := by
    by_cases hi : i < mid
    · rw [(g.same p (a + 32 * i) (by omega) (by omega)).storedPoison, h.clean i hi1 hi]
    · exact g.clean i (by omega) hi2
  same q x hx hout := (h.same q x hx (by omega)).trans (g.same q x hx (by omega))

/-- Steps before and after that write no memory. -/
theorem RangeStored.within {s₀ : State} (h : RangeStored p a lo hi b s t) (hs : ∀ q x, SameCell q x s₀ s)
    (hu : ∀ q x, SameCell q x t u) : RangeStored p a lo hi b s₀ u where
  bit k hk1 hk2 := by rw [memBit_congr (hu ..), h.bit k hk1 hk2]
  clean i hi1 hi2 := by rw [(hu ..).storedPoison, h.clean i hi1 hi2]
  same q x hx hout := ((hs q x).trans (h.same q x hx hout)).trans (hu q x)

theorem RangeStored.congr {c : Nat → Bool} (h : RangeStored p a lo hi b s t)
    (hbits : ∀ k, 256 * lo ≤ k → k < 256 * hi → b k = c k) : RangeStored p a lo hi c s t :=
  ⟨fun k hk1 hk2 => (h.bit k hk1 hk2).trans (hbits k hk1 hk2), h.clean, h.same⟩

/-- A range stored from the address of its first granule on. -/
theorem RangeStored.shift {g n : Nat} (h : RangeStored p (a + 32 * g) 0 n b s t) :
    RangeStored p a g (g + n) (fun k => b (k - 256 * g)) s t where
  bit k hk1 hk2 := by
    obtain ⟨m, rfl⟩ := Nat.exists_eq_add_of_le hk1
    rw [← memBit_add, h.bit m (by omega) (by omega), Nat.add_sub_cancel_left]
  clean i hi1 hi2 := by
    obtain ⟨m, rfl⟩ := Nat.exists_eq_add_of_le hi1
    rw [show a + 32 * (g + m) = a + 32 * g + 32 * m by omega, h.clean m (by omega) (by omega)]
  same q x hx hout := h.same q x hx (by omega)

theorem rangeStored_writeUnit {g bits : Nat} (hsnap : s.snap.on = false) (hend : a + 32 * (g + 1) ≤ 0x8000000) :
    RangeStored p a g (g + 1) (fun k => bits.testBit k) s
      (writeUnit p (a + 32 * g) (leBytes 32 (bits >>> (256 * g))) false s) := by
  have h := granStored_writeUnit (p := p) (a := a + 32 * g) hsnap (by omega) (bits >>> (256 * g)) false
  refine RangeStored.congr (b := fun k => (bits >>> (256 * g)).testBit (k - 256 * g))
    (RangeStored.shift ⟨fun k _ hk => ?_, fun i _ hi => ?_, fun q x hx hout => h.same q x hx (by omega)⟩) fun k hk _ => ?_
  · rw [← testBit_readBytes (n := 32) (by omega), h.bytes, leNat_leBytes, Nat.testBit_mod_two_pow]
    simp [show k < 256 by omega]
  · obtain rfl : i = 0 := by omega
    exact h.poison
  · rw [Nat.testBit_shiftRight, Nat.add_sub_cancel' hk]

theorem rangeStored_putGranules {bits n : Nat} (hend : a + 32 * (lo + n) ≤ 0x8000000) (hsnap : s.snap.on = false) :
    RangeStored p a lo (lo + n) (fun k => bits.testBit k) s (putGranules p a bits (fun _ => false) (upFrom lo n) s) := by
  induction n generalizing lo s with
  | zero => exact .refl ..
  | succ n ih =>
    have hfirst := rangeStored_writeUnit (p := p) (a := a) (g := lo) (bits := bits) hsnap (by omega)
    have hrest := ih (lo := lo + 1) (by omega)
      ((dataMoves_writeUnit p (a + 32 * lo) (leBytes 32 (bits >>> (256 * lo))) false s).snapOff hsnap)
    rw [Nat.add_assoc, Nat.add_comm 1 n] at hrest
    exact hfirst.append (by omega) (by omega) (by omega) hrest

end range

/-! ### Clean sources read -/

/-- The state but for the heat model, which counts the bytes that a shaft moves. -/
def CountsBytes (s t : State) : Prop := t = { s with therm := t.therm }

theorem checkUnits_clean {p : Nat} (src : ErrSrc) {l : List Nat} {s : State} (htrust : (s.shaft p).untrusted = false)
    (hunits : ∀ u ∈ l, storedPoison p u s = false ∧ unwrittenBad p u s = false) :
    (checkUnits p src [] l s).1 = [] ∧ CountsBytes s (checkUnits p src [] l s).2 := by
  induction l generalizing s with
  | nil => exact ⟨rfl, rfl⟩
  | cons a l ih =>
    obtain ⟨hclean, hbad⟩ := hunits a (List.mem_cons_self ..)
    obtain ⟨hnone, hrest⟩ := ih (s := shaftBytes p (unitSize a) s) htrust fun u hu => hunits u (List.mem_cons_of_mem _ hu)
    simp only [checkUnits, checkUnit_clean htrust hclean hbad src]
    exact ⟨hnone, hrest⟩

/-- The sources of a chunk as read, when they are clean. -/
theorem readOpds_clean {p f n : Nat} {os : List Opd} {s : State}
    (hclean : ∀ o ∈ os, CleanRange p (o.range f n).1 (o.range f n).2 s) :
    (readOpds p f n [] os s).1 = os.map (fun o => (leNat (readBytes p (o.range f n).1 (o.range f n).2 s), []))
      ∧ CountsBytes s (readOpds p f n [] os s).2 := by
  induction os generalizing s with
  | nil => exact ⟨rfl, rfl⟩
  | cons o os ih =>
    obtain ⟨htrust, hunits⟩ := hclean o (List.mem_cons_self ..)
    obtain ⟨hnone, hbytes⟩ := checkUnits_clean .unit htrust hunits
    have hread : readOpd p f n [] o s = ((leNat (readBytes p (o.range f n).1 (o.range f n).2 s), []),
        (checkUnits p .unit [] (unitsOf (o.range f n).1 (o.range f n).2) s).2) := by
      unfold readOpd
      dsimp only
      rw [hnone, hbytes]
      rfl
    have hrest := ih (s := (checkUnits p .unit [] (unitsOf (o.range f n).1 (o.range f n).2) s).2) fun q hq => by
      rw [hbytes]
      exact hclean q (List.mem_cons_of_mem _ hq)
    rw [readOpds, hread]
    dsimp only
    obtain ⟨hsrcs, hstate⟩ := hrest
    refine ⟨?_, ?_⟩
    · rw [hsrcs, hbytes, List.map_cons]
      rfl
    · rw [CountsBytes, hstate, hbytes]

/-! ### The items of a chunk -/

/-- Item `e` of source `j` of a command in memory. -/
def srcItem (p : Nat) (c : NmCmd) (j e : Nat) (s : State) : Nat :=
  match (srcOpds c)[j]? with
  | some o => itemAt p o e s
  | none => 0

/-- What a command writes as item `g` of its destination, of source items `src`. -/
def nmItem (c : NmCmd) (b : NmIssuer) (src : Nat → Nat → Nat) (g : Nat) : Nat :=
  if (dstOpd c).per = 1 then (nmElem c b g (src 0 g) (src 1 g) (src 2 g)).1
  else ((upFrom (g * (dstOpd c).per) (dstOpd c).per).map (fun e => (nmElem c b e (src 0 e) (src 1 e) (src 2 e)).1)).sum

/-- An item read from a chunk's bytes is the item that memory holds. -/
theorem item_readBytes {o : Opd} (hok : o.Ok) (hone : o.per = 1) {f n : Nat} (hf : o.Spans f) (hgroup : 256 ∣ f)
    (hn : o.Spans n) {i : Nat} (hi : i < n) (p : Nat) (s : State) :
    o.item (leNat (readBytes p (o.range f n).1 (o.range f n).2 s)) i = itemAt p o (f + i) s := by
  refine Nat.eq_of_testBit_eq fun j => ?_
  rw [testBit_item, testBit_itemAt]
  by_cases hj : j < o.bits
  · have hpos := Opd.bitPos_lt hok hn (by rwa [hone, Nat.div_one]) hj
    have hadd := Opd.bitPos_add hok hf hgroup i j
    rw [hone, Nat.div_one] at hadd
    rw [hf.range_eq hn hok.per_pos, testBit_readBytes (by omega), memBit_add, hadd]
  · simp [hj]

theorem chunkItem_eq {p f n i : Nat} {c : NmCmd} {s : State} (hok : ∀ o ∈ srcOpds c, o.Ok ∧ o.per = 1)
    (hf : ∀ o ∈ srcOpds c, o.Spans f) (hgroup : 256 ∣ f) (hn : ∀ o ∈ srcOpds c, o.Spans n) (hi : i < n) (j : Nat) :
    chunkItem (srcOpds c) ((srcOpds c).map (fun o => (leNat (readBytes p (o.range f n).1 (o.range f n).2 s), []))) j i
      = srcItem p c j (f + i) s := by
  rw [chunkItem, srcItem, List.getElem?_map]
  cases ho : (srcOpds c)[j]? with
  | none => rfl
  | some o =>
    have hmem := List.mem_of_getElem? ho
    exact item_readBytes (hok o hmem).1 (hok o hmem).2 (hf o hmem) hgroup (hn o hmem) hi p s

theorem length_chunkItems {c : NmCmd} {n : Nat} {rs : List (Nat × Bool)} (hlen : rs.length = n) :
    (chunkItems c n rs).length = n / (dstOpd c).per := by
  unfold chunkItems
  split
  · next h => simp [h, hlen]
  · simp

/-- The items of a chunk are those of its place in the command. -/
theorem chunkItems_getElem {c : NmCmd} {b : NmIssuer} {f n i : Nat} {rs : List (Nat × Bool)} {src : Nat → Nat → Nat}
    (hrs : rs = (upFrom 0 n).map (fun i => nmElem c b (f + i) (src 0 (f + i)) (src 1 (f + i)) (src 2 (f + i))))
    (hper : (dstOpd c).per ∣ f) (hi : i < n / (dstOpd c).per) :
    ((chunkItems c n rs)[i]?).getD 0 = nmItem c b src (f / (dstOpd c).per + i) := by
  unfold chunkItems nmItem
  split
  · next h =>
    rw [h, Nat.div_one] at hi ⊢
    rw [hrs, List.map_map, List.getElem?_map, getElem?_upFrom hi, Option.map_some, Option.getD_some]
    simp
  · obtain ⟨m, rfl⟩ := hper
    have hpos : 0 < (dstOpd c).per := by
      rcases Nat.eq_zero_or_pos (dstOpd c).per with h | h
      · rw [h, Nat.div_zero] at hi
        omega
      · exact h
    have hgroup : (i + 1) * (dstOpd c).per ≤ n := Nat.mul_le_of_le_div _ _ _ hi
    rw [List.getElem?_map, getElem?_upFrom hi, Option.map_some, Option.getD_some, Nat.zero_add,
      Nat.mul_div_cancel_left m hpos]
    congr 1
    refine List.ext_getElem ?_ fun r h1 h2 => ?_
    · rw [Nat.add_mul] at hgroup
      simp [hrs]
      omega
    · simp only [List.getElem_map, List.getElem_take, List.getElem_drop, hrs, getElem_upFrom, Nat.zero_add]
      rw [show (dstOpd c).per * m + (i * (dstOpd c).per + r) = (m + i) * (dstOpd c).per + r by ring]

/-! ### No poison -/

theorem chunkPoisons_clean {c : NmCmd} {os : List Opd} (v : Opd → Nat) :
    chunkPoisons c (os.map (fun o => (v o, []))) = fun _ => false := by
  funext k
  have : (os.map (fun o => (v o, ([] : List (Nat × Nat))))).flatMap (fun x => x.2) = [] := by simp
  rw [chunkPoisons, this, List.any_nil]

end Sys2Proof.Machine
end

section
/-! SUPPORT. A near-memory command as a whole (08 R248 to R262): what a command that is not malformed names, and its chunks one
after the other. -/
namespace Sys2Proof.Machine

/-! ### The operands of a command -/

theorem Fmt.bits_bounds (f : Fmt) : 0 < f.bits ∧ f.bits ≤ 32 := by cases f <;> decide

theorem mem_srcOpds {c : NmCmd} {o : Opd} (h : o ∈ srcOpds c) : ∃ a, o = srcOpd c a := by
  have hone (t : Bool) (a : Nat) (h : o ∈ if t then [srcOpd c a] else []) : ∃ a, o = srcOpd c a := by
    cases t
    · cases h
    · exact ⟨a, List.mem_singleton.mp h⟩
  rcases hu : c.op.uses with ⟨a, b, d⟩
  simp only [srcOpds, hu, List.mem_append] at h
  obtain (h | h) | h := h
  · exact hone _ _ h
  · exact hone _ _ h
  · exact hone _ _ h

section operands
variable {c : NmCmd}

theorem srcOpd_one (c : NmCmd) (a : Nat) : (srcOpd c a).per = 1 := by
  unfold srcOpd
  split
  · rfl
  · rfl
  · split <;> rfl

theorem Opd.ok_of_bits (a : Nat) (plane : Bool) {w : Nat} (hpos : 0 < w) (hle : w ≤ 32) : Opd.Ok ⟨a, plane, w, 1⟩ :=
  ⟨hpos, hle, .inl rfl⟩

theorem srcOpd_ok (hw : c.w1 < 32) (a : Nat) : (srcOpd c a).Ok := by
  obtain ⟨hpos, hle⟩ := (nmFmt c.fmt).bits_bounds
  unfold srcOpd
  split
  · exact Opd.ok_of_bits _ _ (by decide) (by decide)
  · exact Opd.ok_of_bits _ _ (by decide) (by decide)
  · split
    · exact Opd.ok_of_bits _ _ (Nat.succ_pos _) hw
    · exact Opd.ok_of_bits _ _ hpos hle

theorem srcOpd_plane {a : Nat} (h : (srcOpd c a).plane = true) : c.op.isPlane = true := by
  unfold srcOpd at h
  split at h
  · cases h
  · next hop => rw [hop]; rfl
  · split at h
    · assumption
    · cases h

theorem dstOpd_addr (c : NmCmd) : (dstOpd c).addr = c.dst := by
  unfold dstOpd
  split
  case h_8 => split <;> rfl
  all_goals rfl

theorem dstOpd_one (h : c.op ≠ .pcount) : (dstOpd c).per = 1 := by
  unfold dstOpd
  split
  case h_7 => contradiction
  case h_8 => split <;> rfl
  all_goals rfl

theorem dstOpd_ok (hw : c.w1 < 32) : (dstOpd c).Ok := by
  obtain ⟨hpos, hle⟩ := (nmFmt c.fmt).bits_bounds
  obtain ⟨hpos2, hle2⟩ := (nmFmt c.fmt2).bits_bounds
  unfold dstOpd
  split
  case h_3 => exact Opd.ok_of_bits _ _ hpos2 hle2
  case h_7 => exact ⟨Nat.succ_pos 31, Nat.le_refl 32, .inr ⟨rfl, rfl, rfl⟩⟩
  case h_8 =>
    split
    · exact Opd.ok_of_bits _ _ (Nat.succ_pos _) hw
    · exact Opd.ok_of_bits _ _ hpos hle
  all_goals exact Opd.ok_of_bits _ _ (by decide) (by decide)

theorem dstOpd_plane (h : (dstOpd c).plane = true) : c.op.isPlane = true := by
  unfold dstOpd at h
  split at h
  case h_5 hop => rw [hop]; rfl
  case h_6 hop => rw [hop]; rfl
  case h_8 =>
    split at h
    · assumption
    · cases h
  all_goals cases h

/-! ### Chunk sizes (08 R259) -/

theorem Opd.limit_chunk {o : Opd} (hok : o.Ok) (hone : o.per = 1) : 256 ∣ o.limit ∧ 0 < o.limit := by
  unfold Opd.limit
  split
  · have : 4 ≤ 128 / o.bits := (Nat.le_div_iff_mul_le hok.pos).mpr (by have := hok.le; omega)
    exact ⟨Nat.dvd_mul_left .., by omega⟩
  · have : 1024 ≤ 32768 / o.bits := (Nat.le_div_iff_mul_le hok.pos).mpr (by have := hok.le; omega)
    rw [hone, Nat.mul_one]
    exact ⟨Nat.dvd_mul_left .., by omega⟩

theorem foldl_min_limit {P : Nat → Prop} {l : List Opd} {n : Nat} (hn : P n) (hl : ∀ o ∈ l, P o.limit) :
    P (l.foldl (fun n o => min n o.limit) n) := by
  induction l generalizing n with
  | nil => exact hn
  | cons o l ih =>
    refine ih ?_ fun q hq => hl q (List.mem_cons_of_mem _ hq)
    show P (min n o.limit)
    rcases Nat.le_total n o.limit with h | h
    · rwa [Nat.min_eq_left h]
    · rw [Nat.min_eq_right h]
      exact hl o (List.mem_cons_self ..)

/-- PCOUNT's chunk: 4 KiB of its source's one plane. -/
theorem chunkElems_pcount (h : c.op = .pcount) : chunkElems c = 32768 := by
  simp [chunkElems, srcOpds, srcOpd, dstOpd, h, NmOp.uses, Opd.limit]

theorem chunkElems_groups (hop : c.op ≠ .setlayout) (hw : c.w1 < 32) : 256 ∣ chunkElems c ∧ 0 < chunkElems c := by
  by_cases hp : c.op = .pcount
  · rw [chunkElems_pcount hp]
    decide
  · rw [chunkElems, if_neg hop]
    refine foldl_min_limit (P := fun n => 256 ∣ n ∧ 0 < n) (Opd.limit_chunk (dstOpd_ok hw) (dstOpd_one hp)) fun o ho => ?_
    obtain ⟨a, rfl⟩ := mem_srcOpds ho
    exact Opd.limit_chunk (srcOpd_ok hw a) (srcOpd_one c a)

theorem Opd.spans_of_groups {o : Opd} {n : Nat} (hone : o.per = 1) (h : 256 ∣ n) : o.Spans n :=
  ⟨by rw [hone]; exact Dvd.dvd.mul_right h _, by rw [hone]; exact Nat.one_dvd n, fun _ => h⟩

theorem dstOpd_spans_step (hop : c.op ≠ .setlayout) (hw : c.w1 < 32) : (dstOpd c).Spans (chunkElems c) := by
  by_cases hp : c.op = .pcount
  · have hd : dstOpd c = ⟨c.dst, false, 32, 256⟩ := by simp [dstOpd, hp]
    rw [chunkElems_pcount hp, hd]
    exact ⟨(by decide : 256 * 256 ∣ 32768 * 32), (by decide : 256 ∣ 32768), fun h => by cases h⟩
  · exact Opd.spans_of_groups (dstOpd_one hp) (chunkElems_groups hop hw).1

end operands

/-! ### Commands that are not malformed (08 R254) -/

/-- What is asked of a command's count and ranges. -/
theorem nmBad_false {c : NmCmd} (h : nmBad c = false) : c.count ≠ 0 ∧ (c.op.isPlane = true → 256 ∣ c.count)
    ∧ wholeGranules c = true
    ∧ ((nmRanges c).2 :: (nmRanges c).1).all (nmRangeOk (bankCol (nmRanges c).2.1)) = true
    ∧ (nmRanges c).1.any (fun q => meets q (nmRanges c).2 && decide (q ≠ (nmRanges c).2)) = false := by
  rcases hu : c.op.uses with ⟨a, b, d⟩
  simp only [nmBad, hu, Bool.or_eq_false_iff] at h
  obtain ⟨⟨⟨⟨-, hcount⟩, hplane⟩, hwhole⟩, hranges, hmeets⟩ := h
  refine ⟨of_decide_eq_false hcount, fun hp => ?_, by simpa using hwhole, by simpa using hranges, hmeets⟩
  rw [hp, Bool.true_and] at hplane
  exact Nat.dvd_of_mod_eq_zero (Decidable.not_not.mp (of_decide_eq_false hplane))

theorem Opd.range_zero {o : Opd} {n : Nat} (hok : o.Ok) (hn : o.Spans n) : o.range 0 n = (o.addr, 32 * o.grans n) := by
  have hzero : o.grans 0 = 0 := by rw [Opd.grans, Nat.zero_mul, Nat.zero_div]
  rw [(hn.of_dvd (Nat.dvd_zero n)).range_eq hn hok.per_pos, hzero]
  rfl

/-- What the operands of a command are that is not malformed, and not SETLAYOUT: they span whole granules of DRAM, and a source
lies apart from the destination or is worked in place. -/
structure NmSound (c : NmCmd) : Prop where
  ok : ∀ o ∈ dstOpd c :: srcOpds c, o.Ok
  one : ∀ o ∈ srcOpds c, o.per = 1
  nonzero : 0 < c.count
  count : ∀ o ∈ dstOpd c :: srcOpds c, o.Spans c.count
  step : ∀ o ∈ dstOpd c :: srcOpds c, o.Spans (chunkElems c)
  group : 256 ∣ chunkElems c
  pos : 0 < chunkElems c
  aligned : ∀ o ∈ dstOpd c :: srcOpds c, o.addr % 32 = 0
  fits : ∀ o ∈ dstOpd c :: srcOpds c, o.addr + 32 * o.grans c.count ≤ 0x8000000
  apart : ∀ o ∈ srcOpds c, (o.addr + 32 * o.grans c.count ≤ (dstOpd c).addr
      ∨ (dstOpd c).addr + 32 * (dstOpd c).grans c.count ≤ o.addr)
    ∨ (o.addr = (dstOpd c).addr ∧ ∀ f, o.grans f = (dstOpd c).grans f)

/-- Operands that fill the same granules with the same elements fill the same granules with any. -/
theorem Opd.grans_eq_of_count {o d : Opd} {n : Nat} (hpos : 0 < n) (ho : o.Spans n) (hd : d.Spans n) (hone : o.per = 1)
    (hper : 0 < d.per) (h : o.grans n = d.grans n) (f : Nat) : o.grans f = d.grans f := by
  have hbits : o.bits * d.per = d.bits := by
    refine Nat.eq_of_mul_eq_mul_left hpos ?_
    rw [← Nat.mul_assoc, ho.mul_bits, hd.mul_bits, h, hone]
    ring
  rw [Opd.grans, Opd.grans, ← hbits, hone, ← Nat.mul_assoc, Nat.mul_div_mul_right _ _ hper, Nat.mul_one]

section sound
variable {c : NmCmd}

theorem forall_operands {P : Opd → Prop} (hd : P (dstOpd c)) (hs : ∀ a, P (srcOpd c a)) : ∀ o ∈ dstOpd c :: srcOpds c, P o := by
  intro o ho
  rcases List.mem_cons.mp ho with rfl | ho
  · exact hd
  · obtain ⟨a, rfl⟩ := mem_srcOpds ho
    exact hs a

theorem operand_ok (hw : c.w1 < 32) : ∀ o ∈ dstOpd c :: srcOpds c, o.Ok := forall_operands (dstOpd_ok hw) (srcOpd_ok hw)

theorem source_one (o : Opd) (ho : o ∈ srcOpds c) : o.per = 1 := by
  obtain ⟨a, rfl⟩ := mem_srcOpds ho
  exact srcOpd_one c a

variable (hop : c.op ≠ .setlayout) (h : nmBad c = false)
include hop h

theorem count_spans : ∀ o ∈ dstOpd c :: srcOpds c, o.Spans c.count := by
  obtain ⟨-, hplane, hwhole, -, -⟩ := nmBad_false h
  simp only [wholeGranules, hop, decide_false, Bool.false_or, List.all_eq_true, decide_eq_true_eq] at hwhole
  have hitems : ∀ o ∈ dstOpd c :: srcOpds c, o.per ∣ c.count := by
    refine forall_operands ?_ fun a => by rw [srcOpd_one]; exact Nat.one_dvd _
    by_cases hp : c.op = .pcount
    · have hd : (dstOpd c).per = 256 := by simp [dstOpd, hp]
      rw [hd]
      exact hplane (by rw [hp]; rfl)
    · rw [dstOpd_one hp]
      exact Nat.one_dvd _
  have hgroups : ∀ o ∈ dstOpd c :: srcOpds c, o.plane = true → c.op.isPlane = true :=
    forall_operands dstOpd_plane fun _ => srcOpd_plane
  exact fun o ho => ⟨Nat.dvd_of_mod_eq_zero (hwhole o ho), hitems o ho, fun hp => hplane (hgroups o ho hp)⟩

variable (hw : c.w1 < 32)
include hw

theorem operand_range (o : Opd) (ho : o ∈ dstOpd c :: srcOpds c) :
    o.addr % 32 = 0 ∧ o.addr + 32 * o.grans c.count ≤ 0x8000000 := by
  obtain ⟨-, -, -, hranges, -⟩ := nmBad_false h
  rw [nmRanges, if_neg hop, ← List.map_cons (f := fun o => Opd.range o 0 c.count), List.all_map, List.all_eq_true] at hranges
  have hone := hranges o ho
  rw [Function.comp, Opd.range_zero (operand_ok hw o ho) (count_spans hop h o ho)] at hone
  simp only [nmRangeOk, Bool.and_eq_true, decide_eq_true_eq] at hone
  obtain ⟨⟨⟨⟨⟨haddr, -⟩, -⟩, hend⟩, -⟩, -⟩ := hone
  exact ⟨haddr, hend⟩

theorem source_apart (o : Opd) (ho : o ∈ srcOpds c) :
    (o.addr + 32 * o.grans c.count ≤ (dstOpd c).addr ∨ (dstOpd c).addr + 32 * (dstOpd c).grans c.count ≤ o.addr)
      ∨ (o.addr = (dstOpd c).addr ∧ ∀ f, o.grans f = (dstOpd c).grans f) := by
  obtain ⟨hcount, -, -, -, hmeets⟩ := nmBad_false h
  have hd := List.mem_cons_self (a := dstOpd c) (l := srcOpds c)
  have hs := List.mem_cons_of_mem (dstOpd c) ho
  have hspan := count_spans hop h
  rw [nmRanges, if_neg hop, List.any_map, List.any_eq_false] at hmeets
  have hno := hmeets o ho
  rw [Function.comp, Opd.range_zero (operand_ok hw o hs) (hspan o hs), Opd.range_zero (dstOpd_ok hw) (hspan _ hd)] at hno
  simp only [meets, Bool.and_eq_true, decide_eq_true_eq, ne_eq, Prod.mk.injEq, not_and] at hno
  by_cases hmeet : o.addr < (dstOpd c).addr + 32 * (dstOpd c).grans c.count
      ∧ (dstOpd c).addr < o.addr + 32 * o.grans c.count
  · obtain ⟨haddr, hgrans⟩ : o.addr = (dstOpd c).addr ∧ 32 * o.grans c.count = 32 * (dstOpd c).grans c.count := by
      simpa using hno hmeet
    exact .inr ⟨haddr, Opd.grans_eq_of_count (Nat.pos_of_ne_zero hcount) (hspan o hs) (hspan _ hd) (source_one o ho)
      (dstOpd_ok hw).per_pos (by omega)⟩
  · left
    omega

theorem nmSound : NmSound c where
  ok := operand_ok hw
  one := source_one
  nonzero := Nat.pos_of_ne_zero (nmBad_false h).1
  count := count_spans hop h
  step := forall_operands (dstOpd_spans_step hop hw) fun a => Opd.spans_of_groups (srcOpd_one c a) (chunkElems_groups hop hw).1
  group := (chunkElems_groups hop hw).1
  pos := (chunkElems_groups hop hw).2
  aligned o ho := (operand_range hop h hw o ho).1
  fits o ho := (operand_range hop h hw o ho).2
  apart := source_apart hop h hw

end sound

end Sys2Proof.Machine
end

section
/-! SUPPORT. The layouts that chunks ask for (08 R248, R262), and the chunks of a command that is ready, one after the other (08
R259): each stores its items, and all of them the items of the command. -/
namespace Sys2Proof.Machine

/-! ### Layouts (08 R248, R262) -/

/-- What the chunks of a command leave: the cores, what nothing has written, trust, and every register but those of data paths and
the count of chunks. -/
structure ChunkMoves (s t : State) : Prop where
  cores : t.cores = s.cores
  voids : t.voids = s.voids
  snapOff : s.snap.on = false → t.snap.on = false
  fld : ∀ (f : Fld) (i : Nat), f.place ∉ R.SHF_NM_CHUNKS.place :: dataPlaces → rd f i t = rd f i s
  trust : ∀ q, (t.shaft q).untrusted = (s.shaft q).untrusted

theorem ChunkMoves.refl (s : State) : ChunkMoves s s := ⟨rfl, rfl, id, fun _ _ _ => rfl, fun _ => rfl⟩

theorem ChunkMoves.trans {s t u : State} (h : ChunkMoves s t) (g : ChunkMoves t u) : ChunkMoves s u :=
  ⟨g.cores.trans h.cores, g.voids.trans h.voids, g.snapOff ∘ h.snapOff, fun f i hf => (g.fld f i hf).trans (h.fld f i hf),
    fun q => (g.trust q).trans (h.trust q)⟩

/-- A chunk's data moved, and the chunk counted. -/
theorem chunkMoves_bump {s t : State} (h : DataMoves s t) (p : Nat) : ChunkMoves s (bump R.SHF_NM_CHUNKS p 1 t) where
  cores := h.cores
  voids := h.voids
  snapOff := h.snapOff
  fld f i hf := by
    obtain ⟨hchunks, hdata⟩ := not_or.mp (fun hor => hf (List.mem_cons.mpr hor))
    rw [bump, rd_wr_of_place_ne hchunks, h.fld f i hdata]
  trust q := by
    show (t.shaft q).untrusted = (s.shaft q).untrusted
    rw [h.shaft]

theorem place_layout {i : Nat} (h : i < 64) : (R.SHF_NM_LAYOUT i).place = 0x10000 + 256 * i := by
  simp only [Fld.place, R.SHF_NM_LAYOUT]
  omega

theorem layout_not_mem_places {i : Nat} (h : i < 64) :
    (R.SHF_NM_LAYOUT i).place ∉ R.SHF_NM_CHUNKS.place :: dataPlaces := by
  have hlow : ∀ x ∈ R.SHF_NM_CHUNKS.place :: dataPlaces, x < 0x10000 := by decide
  intro hmem
  have := hlow _ hmem
  rw [place_layout h] at this
  omega

theorem ChunkMoves.layoutOf {s t : State} (h : ChunkMoves s t) (p : Nat) {pg : Nat} (hpg : pg < 2048) :
    layoutOf p pg t = layoutOf p pg s := by
  rw [Machine.layoutOf, h.fld _ _ (layout_not_mem_places (by omega)), Machine.layoutOf]

theorem layoutsOk_iff {c : NmCmd} (hop : c.op ≠ .setlayout) {p f n : Nat} {s : State} : layoutsOk p f n c s = true
    ↔ ∀ o ∈ dstOpd c :: srcOpds c, ∀ pg ∈ pagesOf (o.range f n), layoutOf p pg s = o.plane := by
  simp only [layoutsOk, hop, decide_false, Bool.false_or, List.all_eq_true, beq_iff_eq]

theorem mem_pagesOf {a n pg : Nat} : pg ∈ pagesOf (a, n) ↔ a / 65536 ≤ pg ∧ pg ≤ (a + n - 1) / 65536 := by
  simp only [pagesOf, mem_upFrom]
  omega

theorem Opd.grans_pos {o : Opd} (hok : o.Ok) {n : Nat} (hn : o.Spans n) (hpos : 0 < n) : 0 < o.grans n := by
  have hbits := hn.mul_bits
  have := Nat.mul_pos hpos hok.pos
  rcases Nat.eq_zero_or_pos (o.grans n) with h | h
  · rw [h, Nat.mul_zero] at hbits
    omega
  · exact h

/-! ### The chunks of a command that is ready -/

/-- Bit `k` of a command's destination, of source items `src`. -/
def nmBit (c : NmCmd) (b : NmIssuer) (src : Nat → Nat → Nat) (k : Nat) : Bool :=
  (nmItem c b src ((dstOpd c).itemOf k)).testBit ((dstOpd c).bitOf k)

/-- A chunk of clean sources stores the items of its place in the command. -/
theorem runElems_clean {p f n : Nat} {c : NmCmd} {b : NmIssuer} {s : State} {src : Nat → Nat → Nat} (hop : c.op ≠ .setlayout)
    (hc : NmSound c) (hdvd : chunkElems c ∣ f) (hfn : f + n ≤ c.count) (hn : ∀ o ∈ dstOpd c :: srcOpds c, o.Spans n)
    (hsnap : s.snap.on = false) (hclean : ∀ o ∈ srcOpds c, CleanRange p (o.range f n).1 (o.range f n).2 s)
    (hsrc : ∀ j i, i < n → srcItem p c j (f + i) s = src j (f + i)) :
    RangeStored p (dstOpd c).addr ((dstOpd c).grans f) ((dstOpd c).grans (f + n)) (nmBit c b src) s
      (runElems p f n c b [] s) := by
  obtain ⟨hread, hcount⟩ := readOpds_clean hclean
  have hd := List.mem_cons_self (a := dstOpd c) (l := srcOpds c)
  have hf (o : Opd) (ho : o ∈ dstOpd c :: srcOpds c) := (hc.step o ho).of_dvd hdvd
  have hsrcs (o : Opd) (ho : o ∈ srcOpds c) := List.mem_cons_of_mem (dstOpd c) ho
  have hgroup := hc.group.trans hdvd
  have hdst := hc.ok _ hd
  have hfd := hf _ hd
  have hnd := hn _ hd
  have hend := hc.fits _ hd
  have hmono : (dstOpd c).grans (f + n) ≤ (dstOpd c).grans c.count := Opd.grans_mono hfn
  rw [hfd.grans_add] at hmono ⊢
  have hrs : chunkResults c b f n (readOpds p f n [] (srcOpds c) s).1
      = (upFrom 0 n).map (fun i => nmElem c b (f + i) (src 0 (f + i)) (src 1 (f + i)) (src 2 (f + i))) := by
    rw [hread, chunkResults]
    refine List.map_congr_left fun i hi => ?_
    have hi' : i < n := by have := mem_upFrom.mp hi; omega
    simp only [hsrc _ _ hi', chunkItem_eq (fun o ho => ⟨hc.ok o (hsrcs o ho), hc.one o ho⟩) (fun o ho => hf o (hsrcs o ho))
      hgroup (fun o ho => hn o (hsrcs o ho)) hi']
  have hlen : (chunkItems c n (chunkResults c b f n (readOpds p f n [] (srcOpds c) s).1)).length = n / (dstOpd c).per :=
    length_chunkItems (by rw [hrs, List.length_map, length_upFrom])
  have hput := rangeStored_putGranules (p := p) (a := (dstOpd c).addr + 32 * (dstOpd c).grans f) (lo := 0)
    (bits := (dstOpd c).pack (chunkItems c n (chunkResults c b f n (readOpds p f n [] (srcOpds c) s).1)))
    (n := (dstOpd c).grans n) (s := (readOpds p f n [] (srcOpds c) s).2) (by omega) (by rw [hcount]; exact hsnap)
  rw [Nat.zero_add] at hput
  rw [runElems_eq hop, hfd.range_eq hnd hdst.per_pos]
  dsimp only
  rw [Nat.mul_div_cancel_left _ (by decide : 0 < 32), hread, chunkPoisons_clean, ← hread]
  refine (RangeStored.within hput.shift (fun q x => ?_) (fun q x => ?_)).congr fun k hk1 hk2 => ?_
  · rw [hcount]
    exact .of_eq rfl rfl rfl
  · exact .of_eq (nmPoison_mem ..) (nmPoison_marks ..) (dataMoves_nmPoison ..).voids
  · obtain ⟨m, rfl⟩ := Nat.exists_eq_add_of_le hk1
    have hm : m < 256 * (dstOpd c).grans n := by omega
    rw [Nat.add_sub_cancel_left, testBit_pack hdst hnd hlen hm, nmBit, Opd.itemOf_add hdst hfd hgroup,
      Opd.bitOf_add hdst hfd hgroup, chunkItems_getElem hrs hfd.items (Opd.itemOf_lt hdst hnd hm)]

/-- The first `f` elements of a command are done: their items stand in the destination, and nothing else of memory changed. -/
structure ElemsDone (p : Nat) (c : NmCmd) (b : NmIssuer) (f : Nat) (s t : State) : Prop where
  stored : RangeStored p (dstOpd c).addr 0 ((dstOpd c).grans f) (nmBit c b (fun j e => srcItem p c j e s)) s t
  moves : ChunkMoves s t

section chunks
variable {p : Nat} {c : NmCmd} {b : NmIssuer} {s : State} (hop : c.op ≠ .setlayout) (hc : NmSound c)
  (hlay : layoutsOk p 0 c.count c s = true) (hsnap : s.snap.on = false)
  (hclean : ∀ o ∈ srcOpds c, CleanRange p (o.range 0 c.count).1 (o.range 0 c.count).2 s)

include hc in
/-- Source bytes from element `f` on are as they were when `f` elements are done: they lie apart from what was written, or behind
it. -/
theorem sameCell_of_elemsDone {f : Nat} {t : State} (h : ElemsDone p c b f s t) (hf : f ≤ c.count) {o : Opd} (ho : o ∈ srcOpds c)
    {x : Nat} (hlo : o.addr + 32 * o.grans f ≤ x) (hhi : x < o.addr + 32 * o.grans c.count) : SameCell p x s t := by
  have hend := hc.fits o (List.mem_cons_of_mem _ ho)
  have hmono : (dstOpd c).grans f ≤ (dstOpd c).grans c.count := Opd.grans_mono hf
  refine h.stored.same p x (by omega) fun hin => ?_
  rcases hc.apart o ho with hapart | ⟨haddr, hgrans⟩
  · omega
  · rw [haddr, hgrans] at hlo
    omega

section step
variable {f n : Nat} {t : State} (h : ElemsDone p c b f s t) (hdvd : chunkElems c ∣ f) (hfn : f + n ≤ c.count)
  (hn : ∀ o ∈ dstOpd c :: srcOpds c, o.Spans n) (hpos : 0 < n)
include hc h hdvd hfn hn

theorem srcItem_of_elemsDone {i : Nat} (hi : i < n) (j : Nat) : srcItem p c j (f + i) t = srcItem p c j (f + i) s := by
  unfold srcItem
  split
  · next o ho =>
    have hmem := List.mem_of_getElem? ho
    have hall := List.mem_cons_of_mem (dstOpd c) hmem
    have hok := hc.ok o hall
    refine Nat.eq_of_testBit_eq fun k => ?_
    rw [testBit_itemAt, testBit_itemAt]
    by_cases hk : k < o.bits
    · have hspan := (hc.step o hall).of_dvd hdvd
      have hadd := Opd.bitPos_add hok hspan (hc.group.trans hdvd) i k
      have hlt := Opd.bitPos_lt hok (hn o hall) (by rwa [hc.one o hmem, Nat.div_one]) hk
      have hmono : o.grans (f + n) ≤ o.grans c.count := Opd.grans_mono hfn
      rw [hspan.grans_add] at hmono
      rw [hc.one o hmem, Nat.div_one] at hadd
      rw [memBit_congr (sameCell_of_elemsDone hc h (by omega) hmem (by omega) (by omega))]
    · simp [hk]
  · rfl

include hclean hpos in
theorem clean_of_elemsDone (o : Opd) (ho : o ∈ srcOpds c) : CleanRange p (o.range f n).1 (o.range f n).2 t := by
  have hall := List.mem_cons_of_mem (dstOpd c) ho
  obtain ⟨htrust, hunits⟩ := hclean o ho
  have hok := hc.ok o hall
  have hspan := (hc.step o hall).of_dvd hdvd
  have hend := hc.fits o hall
  have haligned := hc.aligned o hall
  have hmono : o.grans (f + n) ≤ o.grans c.count := Opd.grans_mono hfn
  rw [hspan.grans_add] at hmono
  rw [Opd.range_zero hok (hc.count o hall)] at hunits
  refine ⟨(h.moves.trust p).trans htrust, fun u hu => ?_⟩
  rw [hspan.range_eq (hn o hall) hok.per_pos] at hu
  have hgrans := Opd.grans_pos hok (hn o hall) hpos
  rw [unitsOf_dram (by omega) (by omega)] at hu
  obtain ⟨i, hi, rfl⟩ := List.mem_map.mp hu
  have hi' := mem_upFrom.mp hi
  have hsame := sameCell_of_elemsDone hc h (by omega) ho (x := o.addr + 32 * o.grans f + 32 * i) (by omega) (by omega)
  rw [hsame.storedPoison, hsame.unwrittenBad]
  refine hunits _ ?_
  rw [unitsOf_dram (by omega) haligned]
  exact List.mem_map.mpr ⟨o.grans f + i, mem_upFrom.mpr ⟨Nat.zero_le _, by omega⟩, by omega⟩

include hop hlay hpos in
theorem layoutsOk_of_elemsDone : layoutsOk p f n c t = true := by
  rw [layoutsOk_iff hop] at hlay ⊢
  intro o ho pg hpg
  have hok := hc.ok o ho
  have hspan := (hc.step o ho).of_dvd hdvd
  have hend := hc.fits o ho
  have hgrans := Opd.grans_pos hok (hn o ho) hpos
  have hmono : o.grans (f + n) ≤ o.grans c.count := Opd.grans_mono hfn
  rw [hspan.grans_add] at hmono
  rw [hspan.range_eq (hn o ho) hok.per_pos, mem_pagesOf] at hpg
  rw [h.moves.layoutOf p (by omega)]
  refine hlay o ho pg ?_
  rw [Opd.range_zero hok (hc.count o ho), mem_pagesOf]
  omega

include hop hsnap hclean hpos in
/-- The next chunk of a command that is ready. -/
theorem elemsDone_next : ElemsDone p c b (f + n) s (bump R.SHF_NM_CHUNKS p 1 (runElems p f n c b [] t)) := by
  have hd := List.mem_cons_self (a := dstOpd c) (l := srcOpds c)
  have hlo : (dstOpd c).grans f ≤ (dstOpd c).grans (f + n) := Opd.grans_mono (Nat.le_add_right ..)
  have hmono : (dstOpd c).grans (f + n) ≤ (dstOpd c).grans c.count := Opd.grans_mono hfn
  have hend := hc.fits _ hd
  have hrun := runElems_clean (b := b) (src := fun j e => srcItem p c j e s) hop hc hdvd hfn hn (h.moves.snapOff hsnap)
    (clean_of_elemsDone hc hclean h hdvd hfn hn hpos) fun j i hi => srcItem_of_elemsDone hc h hdvd hfn hn hi j
  exact ⟨h.stored.append (Nat.zero_le _) hlo (by omega) (hrun.within (fun _ _ => .refl) fun _ _ => .of_eq rfl rfl rfl),
    h.moves.trans (chunkMoves_bump (dataMoves_runElems hop p f n b [] t) p)⟩

end step

theorem runChunks_over {errs : List GErr} {f : Nat} (h : c.count ≤ f) (k : Nat) (t : State) :
    runChunks p c b errs k f t = t := by
  cases k with
  | zero => rfl
  | succ k => rw [runChunks, if_pos h]

include hop hc hlay hsnap hclean in
/-- The chunks of a command that is ready do all its elements. -/
theorem elemsDone_runChunks {k f : Nat} {t : State} (h : ElemsDone p c b f s t) (hdvd : chunkElems c ∣ f) (hf : f ≤ c.count)
    (hfuel : c.count ≤ f + k) : ElemsDone p c b c.count s (runChunks p c b [] k f t) := by
  induction k generalizing f t with
  | zero =>
    obtain rfl : f = c.count := by omega
    exact h
  | succ k ih =>
    by_cases hover : c.count ≤ f
    · obtain rfl : f = c.count := by omega
      rw [runChunks_over hover]
      exact h
    · have hpos := hc.pos
      have hlen : ∀ o ∈ dstOpd c :: srcOpds c, o.Spans (chunkLen c f) := fun o ho => by
        rcases Nat.le_total (chunkElems c) (c.count - f) with hle | hle
        · rw [chunkLen, Nat.min_eq_left hle]
          exact hc.step o ho
        · rw [chunkLen, Nat.min_eq_right hle]
          exact (hc.count o ho).sub ((hc.step o ho).of_dvd hdvd)
      have hfn : f + chunkLen c f ≤ c.count := by
        unfold chunkLen
        omega
      have hpos' : 0 < chunkLen c f := by
        unfold chunkLen
        omega
      have hnext := elemsDone_next hop hc hsnap hclean h hdvd hfn hlen hpos'
      rw [runChunks, if_neg hover, layoutsOk_of_elemsDone hop hc hlay h hdvd hfn hlen hpos']
      simp only [Bool.not_true, Bool.false_eq_true, if_false]
      by_cases hle : f + chunkElems c ≤ c.count
      · have hchunk : chunkLen c f = chunkElems c := Nat.min_eq_left (by omega)
        rw [hchunk] at hnext ⊢
        exact ih hnext (Nat.dvd_add hdvd (Nat.dvd_refl _)) hle (by omega)
      · rw [runChunks_over (by omega)]
        have hlast : f + chunkLen c f = c.count := by
          unfold chunkLen
          omega
        rwa [hlast] at hnext

end chunks

end Sys2Proof.Machine
end

section
/-! SUPPORT. Near-memory commands as rows of their own (08 R252 to R263): what a command writes and reports, SETLAYOUT, the commands
that stop, and the statement on them. -/
namespace Sys2Proof.Machine

/-! ### The command of an operation -/

/-- The command of each operation. -/
def nmInstr (p : PosId) (a : NmArgs) : NmOp → Instr
  | .add => .nmAdd p a | .mul => .nmMul p a | .fma => .fma p a | .axpby => .axpby p a | .scale => .scale p a
  | .max => .nmMax p a | .min => .nmMin p a | .cmplt => .cmplt p a | .cmpeq => .cmpeq p a | .xor => .nmXor p a
  | .fill => .nmFill p a | .copy => .nmCopy p a | .relu => .relu p a | .gelu => .gelu p a | .silu => .silu p a
  | .cvt => .nmCvt p a | .setlayout => .setlayout p a | .plane => .plane p a | .unplane => .unplane p a
  | .padd => .padd p a | .psub => .psub p a | .pcmplt => .pcmplt p a | .pcmplti => .pcmplti p a | .pand => .pand p a
  | .por => .por p a | .pxor => .pxor p a | .pcount => .pcount p a

theorem exec_nmInstr (op : NmOp) (p : PosId) (a : NmArgs) (s : State) :
    exec (nmInstr p a op) s = .next (nmRow op p.val a s) := by
  cases op <;> rfl

/-- Who issues the command of a row (08 R257, R262): the core of the position, in this exposure. -/
def nmBy (op : NmOp) (c : Nat) (a : NmArgs) (s : State) : NmIssuer :=
  ⟨some c, (s.core c).slice, a.q.val, (s.core c).cfg.seed,
    ((s.core c).isGradient a.ctx.val && decide (op = .cvt)) || decide (a.rnd.toNat = 1), s.frame, max 1 (s.core c).cfg.k,
    (s.core c).nextId, (s.core c).nmIssued, none⟩

/-- The core has issued one more command. -/
def nmIssuedBy (c : Nat) (s : State) : State := s.setCore c { s.core c with nmIssued := (s.core c).nmIssued + 1 }

section row
variable {op : NmOp} {p c : Nat} {a : NmArgs} {s : State} (hc : coreOfPos p = some c)
include hc

theorem nmRow_malformed (h : nmBad (nmCmdOf op a) = true) :
    nmRow op p a s = plateFault c a.ctx.val a.bundle.val a.cyc.toNat .nmCommand s := by
  rw [nmRow, hc]
  exact if_pos h

theorem nmRow_runs (h : nmBad (nmCmdOf op a) = false) : nmRow op p a s
    = nmReport p (.cmd 0 (nmCmdOf op a) (nmBy op c a s) a.count.toNat false)
        (runChunks p (nmCmdOf op a) (nmBy op c a s) a.errs a.count.toNat 0 (nmIssuedBy c s)) := by
  rw [nmRow, hc]
  exact if_neg (by rw [← nmCmdOf, h]; decide)

end row

/-! ### What a command reports (08 R262, R263, R269) -/

theorem nmCounted_core {p c : Nat} {w : NmWork} {b : NmIssuer} {s : State} (hb : b.core = some c) :
    (nmCounted p w b s).core c
        = { s.core c with nmDone := (s.core c).nmDone + (if (s.core c).cfg.since ≤ b.frame then 1 else 0) }
      ∧ ∀ d, d ≠ c → (nmCounted p w b s).core d = s.core d := by
  by_cases hsince : (s.core c).cfg.since ≤ b.frame
  · have hcores : (nmCounted p w b s).cores = (s.setCore c { s.core c with nmDone := (s.core c).nmDone + 1 }).cores := by
      unfold nmCounted
      rw [hb]
      dsimp only
      split
      · rfl
      · contradiction
    rw [core_congr hcores, core_setCore_same, if_pos hsince]
    exact ⟨rfl, fun d hd => (core_congr hcores d).trans (core_setCore_of_ne hd ..)⟩
  · have hcores : (nmCounted p w b s).cores = s.cores := by
      unfold nmCounted
      rw [hb]
      dsimp only
      split
      · contradiction
      · rfl
    rw [core_congr hcores, if_neg hsince]
    exact ⟨rfl, fun d _ => core_congr hcores d⟩

/-- A command that its core issued in this exposure is within its bound. -/
theorem nmBy_inTime (op : NmOp) (c : Nat) (a : NmArgs) {s t : State} (hframe : t.frame = s.frame) :
    ¬((nmBy op c a s).core.isSome = true ∧ (nmBy op c a s).frame + (nmBy op c a s).k < t.frame + 1) := by
  rw [hframe]
  simp only [nmBy]
  omega

section inTime
variable {p c d : Nat} {a : NmArgs} {op : NmOp} {k : NmCmd} {s t : State} (hframe : t.frame = s.frame)
include hframe

theorem nmReport_inTime : nmReport p (.cmd 0 k (nmBy op c a s) d false) t
    = nmCounted p (.cmd 0 k (nmBy op c a s) d false) (nmBy op c a s) t := by
  rw [nmReport_eq, if_neg (nmBy_inTime op c a hframe)]

/-- A command that its core issued in this exposure reports in time. -/
theorem nmReported_nmReport (hcores : t.cores = (nmIssuedBy c s).cores) (hdone : rd R.SHF_NM_DONE p t = rd R.SHF_NM_DONE p s)
    (hlate : rd R.SHF_NM_LATE p t = rd R.SHF_NM_LATE p s) :
    NmReported p c s (nmReport p (.cmd 0 k (nmBy op c a s) d false) t) := by
  have hcore : t.core c = { s.core c with nmIssued := (s.core c).nmIssued + 1 } := by
    rw [core_congr hcores, nmIssuedBy, core_setCore_same]
  obtain ⟨hcounted, hrest⟩ := nmCounted_core (p := p) (w := .cmd 0 k (nmBy op c a s) d false) (s := t) (b := nmBy op c a s) rfl
  rw [nmReport_inTime hframe]
  refine ⟨?_, ?_, ?_, fun e he => ?_, ?_⟩
  · rw [done_nmCounted, hdone]
  · rw [last_nmCounted, hframe]
  · rw [rd_nmCounted (by decide) (by decide), hlate]
  · rw [hrest e he, core_congr hcores, nmIssuedBy, core_setCore_of_ne he]
  · rw [hcounted, hcore]
    rfl

end inTime

theorem sameCell_nmReport {p age d : Nat} {k : NmCmd} {b : NmIssuer} {x : Bool} (q y : Nat) (s : State) :
    SameCell q y s (nmReport p (.cmd age k b d x) s) := by
  refine .of_eq ?_ ?_ ?_ <;> rw [nmReport_frame]

/-! ### What a command writes (08 R249 to R257) -/

theorem nmWrote_of_stored {p : Nat} {k : NmCmd} {b : NmIssuer} {src : Nat → Nat → Nat} {val : Nat → Nat} {s t : State}
    (hk : NmSound k) (h : RangeStored p (dstOpd k).addr 0 ((dstOpd k).grans k.count) (nmBit k b src) s t)
    (hval : ∀ e, val e % 2 ^ (dstOpd k).bits = nmItem k b src e % 2 ^ (dstOpd k).bits) : NmWrote p k val s t := by
  have hd := List.mem_cons_self (a := dstOpd k) (l := srcOpds k)
  have hok := hk.ok _ hd
  have hend := hk.fits _ hd
  have haligned := hk.aligned _ hd
  have hgrans := Opd.grans_pos hok (hk.count _ hd) hk.nonzero
  have hrange := Opd.range_zero hok (hk.count _ hd)
  refine ⟨fun e he => ?_, fun q x hx hout => ?_, fun u hu => ?_⟩
  · rw [hval]
    refine Nat.eq_of_testBit_eq fun j => ?_
    rw [testBit_itemAt, Nat.testBit_mod_two_pow]
    by_cases hj : j < (dstOpd k).bits
    · rw [h.bit _ (Nat.zero_le _) (Opd.bitPos_lt hok (hk.count _ hd) he hj), nmBit, Opd.itemOf_bitPos e hj, Opd.bitOf_bitPos e hj]
    · simp [hj]
  · rw [hrange, ← dstOpd_addr k] at hout
    exact (h.same q x hx (by simpa using hout)).readByte
  · rw [hrange, ← dstOpd_addr k, unitsOf_dram (by omega) haligned] at hu
    obtain ⟨i, hi, rfl⟩ := List.mem_map.mp hu
    have := mem_upFrom.mp hi
    exact h.clean i (Nat.zero_le _) (by omega)

/-- A command that is ready writes the items of `nmItem` and reports. -/
theorem nmRow_ready {op : NmOp} {p c : Nat} {a : NmArgs} {s : State} (hop : op ≠ .setlayout) (hc : coreOfPos p = some c)
    (herrs : a.errs = []) (hready : NmReady p (nmCmdOf op a) s) {val : Nat → Nat}
    (hval : ∀ e, val e % 2 ^ (dstOpd (nmCmdOf op a)).bits
      = nmItem (nmCmdOf op a) (nmBy op c a s) (fun j e => srcItem p (nmCmdOf op a) j e s) e % 2 ^ (dstOpd (nmCmdOf op a)).bits) :
    NmWrote p (nmCmdOf op a) val s (nmRow op p a s) ∧ NmReported p c s (nmRow op p a s) := by
  obtain ⟨hbad, hlay, hsnap, hclean⟩ := hready
  have hk : NmSound (nmCmdOf op a) := nmSound hop hbad a.w1.isLt
  have hzero : (dstOpd (nmCmdOf op a)).grans 0 = 0 := by rw [Opd.grans, Nat.zero_mul, Nat.zero_div]
  have hstart : ElemsDone p (nmCmdOf op a) (nmBy op c a s) 0 (nmIssuedBy c s) (nmIssuedBy c s) :=
    ⟨by rw [hzero]; exact .refl .., .refl _⟩
  obtain ⟨hstored, hmoves⟩ := elemsDone_runChunks (s := nmIssuedBy c s) (k := a.count.toNat) hop hk hlay hsnap hclean hstart (Nat.dvd_zero _)
    (Nat.zero_le _) (Nat.le_of_eq (Nat.zero_add _).symm)
  rw [nmRow_runs hc hbad, herrs]
  refine ⟨nmWrote_of_stored hk (hstored.within (fun _ _ => .of_eq rfl rfl rfl) fun q x => sameCell_nmReport q x _) hval,
    nmReported_nmReport ?_ hmoves.cores ?_ ?_⟩
  · exact hmoves.fld _ _ (by decide)
  · exact hmoves.fld _ _ (by decide)
  · exact hmoves.fld _ _ (by decide)

/-! ### SETLAYOUT (08 R248, R252) -/

/-- A bit put into a number. -/
theorem testBit_putBits_one (n lo : Nat) (v : Bool) (j : Nat) :
    (putBits n lo 1 v.toNat).testBit j = if j = lo then v else n.testBit j := by
  have hv : v.toNat % 2 ^ 1 = v.toNat := Nat.mod_eq_of_lt (Bool.toNat_lt v)
  have hq : n = 2 ^ lo * (n / 2 ^ lo) + n % 2 ^ lo := (Nat.div_add_mod ..).symm
  have heven : n / 2 ^ lo = n / 2 ^ lo % 2 + 2 * (n / 2 ^ lo / 2) := (Nat.mod_add_div ..).symm
  have hput : putBits n lo 1 v.toNat = 2 ^ lo * (2 * (n / 2 ^ lo / 2) + v.toNat) + n % 2 ^ lo := by
    have hsplit : 2 ^ lo * (n / 2 ^ lo) = 2 ^ lo * (n / 2 ^ lo % 2) + 2 ^ lo * (2 * (n / 2 ^ lo / 2)) := by
      rw [← Nat.mul_add, ← heven]
    rw [putBits, bitsAt, hv, Nat.shiftRight_eq_div_pow, Nat.shiftLeft_eq, Nat.shiftLeft_eq, Nat.mul_comm _ (2 ^ lo),
      Nat.mul_comm _ (2 ^ lo), Nat.mul_add]
    simp only [Nat.pow_one]
    omega
  rw [hput, Nat.testBit_two_pow_mul_add _ (Nat.mod_lt _ (Nat.two_pow_pos lo))]
  rcases Nat.lt_trichotomy j lo with h | rfl | h
  · rw [if_pos h, if_neg (by omega), Nat.testBit_mod_two_pow, decide_eq_true h, Bool.true_and]
  · rw [if_neg (Nat.lt_irrefl _), if_pos rfl, Nat.sub_self, Nat.testBit_zero]
    cases v <;> simp [Nat.add_mod]
  · obtain ⟨m, rfl⟩ := Nat.exists_eq_add_of_lt h
    rw [if_neg (by omega), if_neg (by omega), show lo + m + 1 - lo = m + 1 by omega, Nat.testBit_succ,
      show (2 * (n / 2 ^ lo / 2) + v.toNat) / 2 = n / 2 ^ lo / 2 by have := Bool.toNat_lt v; omega, ← Nat.testBit_succ,
      Nat.testBit_div_two_pow, Nat.add_comm (m + 1) lo, Nat.add_assoc]

theorem layoutOf_setLayout {p pg pg' : Nat} (h : pg < 2048) (h' : pg' < 2048) (v : Bool) (s : State) :
    layoutOf p pg (setLayout p pg' v s) = if pg = pg' then v else layoutOf p pg s := by
  unfold layoutOf setLayout
  by_cases hword : pg / 32 = pg' / 32
  · rw [hword, rd_wr_same]
    have hbit : pg % 32 < (R.SHF_NM_LAYOUT (pg' / 32)).w := Nat.mod_lt _ (by decide)
    rw [Nat.testBit_mod_two_pow, decide_eq_true hbit, Bool.true_and, testBit_putBits_one]
    by_cases hpg : pg = pg'
    · rw [if_pos hpg, if_pos (by rw [hpg])]
    · rw [if_neg hpg, if_neg (by omega)]
  · rw [if_neg (fun hpg => hword (by rw [hpg])), rd_wr_of_place_ne]
    rw [place_layout (by omega), place_layout (by omega)]
    omega

/-- The first `f` pages of a SETLAYOUT are set. -/
structure PagesSet (p : Nat) (c : NmCmd) (f : Nat) (s t : State) : Prop where
  frame : t = { s with regs := t.regs }
  fld : ∀ (g : Fld) (i : Nat), g.place < 0x10000 → g.place ≠ R.SHF_NM_CHUNKS.place → rd g i t = rd g i s
  layout : ∀ pg, pg < 2048 → layoutOf p pg t
    = if c.dst / 65536 ≤ pg ∧ pg < c.dst / 65536 + f then c.imm0.testBit 0 else layoutOf p pg s

section setlayout
variable {p : Nat} {c : NmCmd} {b : NmIssuer} {s : State} (hop : c.op = .setlayout) (hend : c.dst / 65536 + c.count ≤ 2048)
include hop

theorem setlayout_range (h : nmBad c = false) : c.dst / 65536 + c.count ≤ 2048 := by
  obtain ⟨-, -, -, hranges, -⟩ := nmBad_false h
  simp only [nmRanges, hop, if_true, List.all_cons, nmRangeOk, Bool.and_eq_true, decide_eq_true_eq] at hranges
  omega

include hend in
/-- The pages of a SETLAYOUT one after the other. -/
theorem pagesSet_runChunks {errs : List GErr} {k f : Nat} {t : State} (h : PagesSet p c f s t) (hf : f ≤ c.count)
    (hfuel : c.count ≤ f + k) : PagesSet p c c.count s (runChunks p c b errs k f t) := by
  induction k generalizing f t with
  | zero =>
    obtain rfl : f = c.count := by omega
    exact h
  | succ k ih =>
    by_cases hover : c.count ≤ f
    · obtain rfl : f = c.count := by omega
      rw [runChunks_over hover]
      exact h
    · have hone : chunkElems c = 1 := if_pos hop
      have hlay : layoutsOk p f (chunkLen c f) c t = true := by rw [layoutsOk, hop]; rfl
      rw [runChunks, if_neg hover, hlay, hone, runElems, if_pos hop]
      simp only [Bool.not_true, Bool.false_eq_true, if_false]
      refine ih (f := f + 1) ⟨?_, fun g i hlow hchunks => ?_, fun pg hpg => ?_⟩ (by omega) (by omega)
      · rw [h.frame]
        rfl
      · have hpage : g.place ≠ (R.SHF_NM_LAYOUT ((c.dst / 65536 + f) / 32)).place := by
          rw [place_layout (by omega)]
          omega
        rw [bump, rd_wr_of_place_ne hchunks, setLayout, rd_wr_of_place_ne hpage, h.fld g i hlow hchunks]
      · have hchunks : layoutOf p pg (bump R.SHF_NM_CHUNKS p 1 (setLayout p (c.dst / 65536 + f) (c.imm0.testBit 0) t))
            = layoutOf p pg (setLayout p (c.dst / 65536 + f) (c.imm0.testBit 0) t) := by
          unfold layoutOf
          rw [bump, rd_wr_of_place_ne]
          rw [place_layout (by omega)]
          have : R.SHF_NM_CHUNKS.place = 11776 := rfl
          omega
        rw [hchunks, layoutOf_setLayout hpg (by omega), h.layout pg hpg]
        split
        · rw [if_pos (by omega)]
        · exact if_congr (by omega) rfl rfl

end setlayout

theorem setlayoutWritesLayoutBits : SetlayoutWritesLayoutBits := by
  intro p c a s k first hc hbad
  have hend : a.dst.toNat / 65536 + a.count.toNat ≤ 2048 := setlayout_range (c := k) rfl hbad
  have hstart : PagesSet p.val k 0 (nmIssuedBy c s) (nmIssuedBy c s) :=
    ⟨rfl, fun _ _ _ _ => rfl, fun pg _ => by rw [if_neg (by omega)]⟩
  obtain ⟨hframe, hfld, hlayout⟩ := pagesSet_runChunks (b := nmBy .setlayout c a s) (errs := a.errs) (k := a.count.toNat) rfl
    hend hstart (Nat.zero_le _) (Nat.le_of_eq (Nat.zero_add _).symm)
  have hnow : (runChunks p.val k (nmBy .setlayout c a s) a.errs a.count.toNat 0 (nmIssuedBy c s)).frame = s.frame :=
    hfld R.GLB_FRAME 0 (by decide) (by decide)
  refine ⟨_, exec_nmInstr .setlayout p a s, ?_, ?_, fun pg hpg => ?_⟩
  · rw [nmRow_runs hc hbad, nmReport_inTime hnow, nmCounted_frame, hframe]
    rfl
  · rw [nmRow_runs hc hbad]
    exact nmReported_nmReport hnow (by rw [hframe]) (hfld _ _ (by decide) (by decide)) (hfld _ _ (by decide) (by decide))
  · have hplace (f : Fld) (hf : f.place < 0x10000) : (R.SHF_NM_LAYOUT (pg / 32)).place ≠ f.place := by
      rw [place_layout (by omega)]
      omega
    rw [nmRow_runs hc hbad, nmReport_inTime hnow, layoutOf, rd_nmCounted (hplace _ (by decide)) (hplace _ (by decide))]
    exact hlayout pg hpg

/-! ### Commands that stop (08 R254, R258, R262) -/

theorem nmLayout_not_fatal : Ev.nmLayout.sev ≠ .fatal := by decide

/-- A command that meets the wrong layout first is aborted, with nothing read or written. -/
theorem runChunks_abort {p : Nat} {c : NmCmd} {b : NmIssuer} {errs : List GErr} {s : State} (hcount : c.count ≠ 0)
    (hlay : layoutsOk p 0 (chunkLen c 0) c s = false) : runChunks p c b errs c.count 0 s = nmAbort p s := by
  obtain ⟨k, hk⟩ := Nat.exists_eq_succ_of_ne_zero hcount
  conv_lhs => rw [hk]
  rw [runChunks, if_neg (by omega), hlay]
  rfl

/-- The operations other than SETLAYOUT. -/
def nmElemOps : List NmOp :=
  [.add, .mul, .fma, .axpby, .scale, .max, .min, .cmplt, .cmpeq, .xor, .fill, .copy, .relu, .gelu, .silu, .cvt, .plane, .unplane,
    .padd, .psub, .pcmplt, .pcmplti, .pand, .por, .pxor, .pcount]

theorem nearMemoryStops : NearMemoryStops := by
  intro p c a s hc op i hmem k
  have hexec : exec i s = .next (nmRow op p.val a s) := by
    have hmem : (op, i) ∈ nmElemOps.map (fun op => (op, nmInstr p a op)) := hmem
    obtain ⟨op', -, heq⟩ := List.mem_map.mp hmem
    cases heq
    exact exec_nmInstr ..
  refine ⟨fun hbad => ?_, fun hbad hlay => ?_⟩
  · rw [hexec, nmRow_malformed hc hbad]
  · have hrun : runChunks p.val k (nmBy op c a s) a.errs a.count.toNat 0 (nmIssuedBy c s) = nmAbort p.val (nmIssuedBy c s) :=
      runChunks_abort (nmBad_false hbad).1 hlay
    have hrd (f : Fld) (j : Nat) (habort : f.place ≠ R.SHF_NM_ABORT.place) (hsev : f.place ≠ (H.SEV .shf).place)
        (hcnt : f.place ≠ (H.EVT_CNT .shf).place) : rd f j (nmAbort p.val (nmIssuedBy c s)) = rd f j s := by
      rw [nmAbort, bump, rd_wr_of_place_ne habort, rd_raise_of_place_ne nmLayout_not_fatal _ _ _ hsev hcnt]
      rfl
    have hnow : (nmAbort p.val (nmIssuedBy c s)).frame = s.frame := hrd _ _ (by decide) (by decide) (by decide)
    rw [hexec, nmRow_runs hc hbad, hrun]
    refine ⟨_, rfl, ?_, ?_, nmReported_nmReport hnow ?_ (hrd _ _ (by decide) (by decide) (by decide))
      (hrd _ _ (by decide) (by decide) (by decide)), ?_⟩
    · rw [nmReport_frame]
      exact raise_mem nmLayout_not_fatal ..
    · rw [nmReport_frame]
      show (raise .nmLayout .shf p.val (nmIssuedBy c s)).marks = s.marks
      rw [raise_frame nmLayout_not_fatal]
      rfl
    · show (raise .nmLayout .shf p.val (nmIssuedBy c s)).cores = (nmIssuedBy c s).cores
      rw [raise_frame nmLayout_not_fatal]
    · rw [nmReport_rd (by decide), rd_nmCounted (by decide) (by decide), nmAbort, rd_bump_same,
        rd_raise_of_place_ne nmLayout_not_fatal _ _ _ (by decide) (by decide)]
      rfl

/-! ### The operations (08 R252 to R257) -/

theorem nmInt_fst (f : Fmt) (i : Int) : (nmInt f i).1
    = if f = .int8 then (max (-128) (min 127 i) % 256).toNat else (i % 2 ^ 32).toNat := by
  unfold nmInt
  split
  · split
    · next h => rw [Int.min_eq_left (by omega)]; rfl
    · split
      · next h => rw [Int.min_eq_right (by omega), Int.max_eq_left (by omega)]; rfl
      · next h => rw [Int.min_eq_right (by omega), Int.max_eq_right (by omega)]; rfl
  · rfl

theorem nmItem_one {c : NmCmd} (h : (dstOpd c).per = 1) (b : NmIssuer) (src : Nat → Nat → Nat) (e : Nat) :
    nmItem c b src e = (nmElem c b e (src 0 e) (src 1 e) (src 2 e)).1 := if_pos h

section ops
variable {p : PosId} {c : Nat} {a : NmArgs} {s : State} (hc : coreOfPos p.val = some c) (herrs : a.errs = [])
include hc herrs

/-- An operation whose items stand each for one element writes what it makes of its source items. -/
theorem nmInstr_writes {op : NmOp} {val : Nat → Nat → Nat → Nat → Nat}
    (hval : ∀ e x y z, val e x y z % 2 ^ (dstOpd (nmCmdOf op a)).bits
      = (nmElem (nmCmdOf op a) (nmBy op c a s) e x y z).1 % 2 ^ (dstOpd (nmCmdOf op a)).bits)
    (hop : op ≠ .setlayout) (hper : (dstOpd (nmCmdOf op a)).per = 1)
    (hready : NmReady p.val (nmCmdOf op a) s) : ∃ t, exec (nmInstr p a op) s = .next t
      ∧ NmWrote p.val (nmCmdOf op a) (fun e => val e (srcItem p.val (nmCmdOf op a) 0 e s) (srcItem p.val (nmCmdOf op a) 1 e s)
          (srcItem p.val (nmCmdOf op a) 2 e s)) s t
      ∧ NmReported p.val c s t := by
  obtain ⟨hwrote, hreported⟩ := nmRow_ready hop hc herrs hready
    (val := fun e => val e (srcItem p.val (nmCmdOf op a) 0 e s) (srcItem p.val (nmCmdOf op a) 1 e s)
      (srcItem p.val (nmCmdOf op a) 2 e s))
    fun e => by rw [nmItem_one hper]; exact hval ..
  exact ⟨_, exec_nmInstr op p a s, hwrote, hreported⟩

/-- PCOUNT writes for each group the sum of its elements (08 R253). -/
theorem pcount_writes (hready : NmReady p.val (nmCmdOf .pcount a) s) : ∃ t, exec (.pcount p a) s = .next t
    ∧ NmWrote p.val (nmCmdOf .pcount a) (fun g => ((upFrom (256 * g) 256).map
        (fun e => itemAt p.val (srcOpd (nmCmdOf .pcount a) (nmCmdOf .pcount a).srca) e s)).sum) s t
    ∧ NmReported p.val c s t := by
  obtain ⟨hwrote, hreported⟩ := nmRow_ready (op := .pcount) (by decide) hc herrs hready
    (val := fun g => ((upFrom (256 * g) 256).map
      (fun e => itemAt p.val (srcOpd (nmCmdOf .pcount a) (nmCmdOf .pcount a).srca) e s)).sum)
    fun g => by
      rw [Nat.mul_comm]
      rfl
  exact ⟨_, exec_nmInstr .pcount p a s, hwrote, hreported⟩

end ops

/-- A conversion rounds stochastically in a gradient context and where its command asks for it, with the core's draws (08 R255,
R257). -/
theorem nmElem_cvt (c : Nat) (a : NmArgs) (s : State) (e x y z : Nat) :
    (nmElem (nmCmdOf .cvt a) (nmBy .cvt c a s) e x y z).1
      = (narrow (nmFmt a.fmt2.toNat)
          (if (s.core c).isGradient a.ctx.val || decide (a.rnd.toNat = 1) then
            .stoch (drawOf (s.core c).cfg.seed (2 ^ 63 + (s.core c).slice * 2 ^ 8 + a.q.val) c 0 0 0 e)
          else if a.rnd.toNat = 2 then .rtz else .rne)
          ((nmFmt a.fmt.toNat).decode x)).bits := by
  have hstoch : (nmBy .cvt c a s).stoch = ((s.core c).isGradient a.ctx.val || decide (a.rnd.toNat = 1)) := by
    rw [nmBy, decide_eq_true rfl, Bool.and_true]
  rw [← hstoch]
  rfl

theorem nearMemoryOperations : NearMemoryOperations := by
  intro p c a s f md fp int sg w i0 i1 hc herrs res
  have hres {op : NmOp} {i : Instr} {val : Nat → Nat → Nat → Nat → Nat}
      (hval : ∀ e x y z, val e x y z % 2 ^ (dstOpd (nmCmdOf op a)).bits
        = (nmElem (nmCmdOf op a) (nmBy op c a s) e x y z).1 % 2 ^ (dstOpd (nmCmdOf op a)).bits)
      (hi : nmInstr p a op = i := by rfl) (hop : op ≠ .setlayout := by decide)
      (hper : (dstOpd (nmCmdOf op a)).per = 1 := by rfl) : res i op val := by
    subst hi
    exact nmInstr_writes hc herrs hval hop hper
  have hmod {m x y : Nat} (h : x = y) : x % m = y % m := by rw [h]
  have hnum (i : Int) (v : Val) : (if f.isInt = true then int i else fp v)
      = (if f.isInt = true then nmInt f i else ((narrow f md v).bits, false)).1 := by
    split
    · exact (nmInt_fst f i).symm
    · rfl
  have hbit (b : Bool) : (if b = true then 1 else 0) = b.toNat := by cases b <;> rfl
  refine ⟨?add, ?mul, ?fma, ?axpby, ?scale, ?max, ?min, ?cmplt, ?cmpeq, ?xor, ?fill, ?copy, ?relu, ?gelu, ?silu, ?cvt, ?plane,
    ?unplane, ?padd, ?psub, ?pcmplt, ?pcmplti, ?pand, ?por, ?pxor, pcount_writes hc herrs⟩
  all_goals clear_value res
  case add => exact hres fun _ x y _ => hmod (hnum (sg x + sg y) (.add (f.decode x) (f.decode y)))
  case mul => exact hres fun _ x y _ => hmod (hnum (sg x * sg y) (.mul (f.decode x) (f.decode y)))
  case fma =>
    exact hres fun _ x y z =>
      hmod (hnum (sg x * sg y + sg z) (.add (.mul (f.decode x) (f.decode y)) (f.decode z)))
  case axpby => exact hres fun _ _ _ _ => rfl
  case scale =>
    exact hres fun _ x _ _ => hmod (hnum (signed 32 i0 * sg x) (.mul (Fmt.decode .fp32 i0) (f.decode x)))
  case max => exact hres fun _ x y _ => hmod (hnum (max (sg x) (sg y)) (fmaxV (f.decode x) (f.decode y)))
  case min => exact hres fun _ x y _ => hmod (hnum (min (sg x) (sg y)) (fminV (f.decode x) (f.decode y)))
  case cmplt => exact hres fun _ _ _ _ => hmod (hbit _)
  case cmpeq => exact hres fun _ _ _ _ => hmod (hbit _)
  case xor => exact hres fun _ _ _ _ => rfl
  case fill => exact hres fun _ _ _ _ => rfl
  case copy => exact hres fun _ _ _ _ => rfl
  case relu => exact hres fun _ _ _ _ => rfl
  case gelu => exact hres fun _ _ _ _ => rfl
  case silu => exact hres fun _ _ _ _ => rfl
  case cvt => exact hres fun e x y z => hmod (nmElem_cvt c a s e x y z).symm
  case plane => exact hres fun _ _ _ _ => (Nat.mod_mod ..).symm
  case unplane => exact hres fun _ _ _ _ => rfl
  case padd => exact hres fun _ _ _ _ => (Nat.mod_mod ..).symm
  case psub => exact hres fun _ _ _ _ => (Nat.mod_mod ..).symm
  case pcmplt => exact hres fun _ _ _ _ => hmod (hbit _)
  case pcmplti => exact hres fun _ _ _ _ => hmod (hbit _)
  case pand => exact hres fun _ _ _ _ => rfl
  case por => exact hres fun _ _ _ _ => rfl
  case pxor => exact hres fun _ _ _ _ => rfl

/-- Settles O23: an operation that is ready writes the items of `nmItem` in its chunks, by `elemsDone_runChunks`; SETLAYOUT sets its
pages one by one; a malformed command faults, and one that meets the wrong layout first is aborted. -/
theorem nearMemoryCommands : Obligations.NearMemoryCommands :=
  ⟨nearMemoryOperations, setlayoutWritesLayoutBits, nearMemoryStops⟩

end Sys2Proof.Machine
end
